-- ==== Sys2Proof/Word.lean ====
section
/-! DEFINITION. The word types of the WFN16 model and nothing else: bit vectors for what the manual
treats as bits (registers, accumulators, stored elements). Counts and indexes are `Nat`. -/

namespace Sys2Proof

abbrev Byte := BitVec 8
abbrev W16 := BitVec 16
abbrev W32 := BitVec 32
abbrev W64 := BitVec 64

/-- A sparse table with a default for every key that is not listed: keys strictly rising, and no
entry equal to the default of its key (see `swf` in Machine/Sparse.lean). -/
abbrev Sparse (α : Type) := List (Nat × α)

end Sys2Proof
end

