-- ==== Sys2Proof/Syntax.lean ====
section
/-! DEFINITION. The commands of the WFN16 block: one constructor of `Instr` per row of the table of
operations and events. A core instruction names its core `k` (cluster index × 256 + row × 16 + col),
its launch field and its operands; a host command names the queue whose next accepted command it
runs; an event of the device names the unit it happens at, and carries what the environment decides
(a measured rate, a power sample, a received frame; the `delay` for which
a unit held a transfer up, as a cause of Table 2.1 or 0 for none). -/

namespace Sys2Proof

/-- A launch field: `none` is L = 0, `some d` is L = 1 with DELTA = d (R75, R38). -/
abbrev Launch := Option Nat

abbrev GReg := Fin 32
abbrev AReg := Fin 16
abbrev TReg := Fin 16
abbrev VReg := Fin 16
abbrev MReg := Fin 8
abbrev AcReg := Fin 4

/-- A message between modules (Tables 12.3 and 12.4), header and payload; `came` is the port and the buffer
class in which it arrived, which hold its flits until it is consumed or forwarded (R261); `retried` says that
a frame that carried it was resent, so that it has cause LINK_RETRY (R260); `crc` is the CRC-32C that its payload bears,
which no forwarding module recomputes (R274). -/
structure Message where
  typ : Nat := 0
  vc : Nat := 0
  gen : Nat := 0
  step : Nat := 0
  prov : Bool := false
  dclass : Nat := 0
  job : Nat := 0
  dst : Nat := 0
  src : Nat := 0
  seq : Nat := 0
  chunk : Nat := 0
  attr : Nat := 0
  crc : W32 := 0
  came : Option (Nat × Nat) := none
  retried : Bool := false
  payload : List Byte := []
deriving DecidableEq, Repr

/-- An item that a unit moves, by its number, with the reason for which the unit delayed it, as a cause of Table 2.1; 0
where it was not delayed (R44). -/
structure Delayed where
  id : Nat
  delay : Nat := 0
deriving DecidableEq, Repr

/-- What one lane carries of a frame: 640 bytes of the flit area and 20 bits of the control word, the message bits of one
RS(544,514) codeword (R256). -/
structure LaneWord where
  flits : List Byte := []
  fcw : BitVec 20 := 0
deriving DecidableEq, Repr

/-- A frame of a port: its sixteen lanes after FEC (R256, R257). What the receiving port measures as it comes in stands
beside them: codewords that FEC corrected and could not correct, the phase in ps at which the frame arrives within the
beat, the one-way delay after a round trip of markers, and the hops to the root that the markers tell (R49, Table 2.4;
log 8). -/
structure Frame where
  lanes : List LaneWord := []
  corr : Nat := 0
  uncorr : Nat := 0
  phase : Nat := 0
  delay : Option Nat := none
  hops : Nat := 0
deriving DecidableEq, Repr

/-- What delayed the last input of a held instruction, as the input carried it (R43 rule 3, R44). -/
structure InputTag where
  late : Bool := false
  cause : Nat := 0
  prop : Bool := false
deriving DecidableEq, Repr

/-- The stall reason of an engine whose running pass did no productive operation cycle in a beat
(R335, Table 16.2: reasons 3 to 6 depend on timing outside the model). -/
structure StallObs where
  core : Nat
  engine : Nat
  reason : Nat
deriving DecidableEq, Repr

/-- What the island's calendar crystal and meter have counted since the island's last command: nanoseconds
on its free-running clock, and mWh imported (R348, R357; log 8). -/
structure Meter where
  dt : Nat := 0
  mwh : Nat := 0
deriving DecidableEq, Repr

/-- The commands. -/
inductive Instr where
  -- host register access (R6, R7, R383, R387, R388)
  | lowerHalfRead (fn off : Nat)
  | upperHalfRead (fn off : Nat)
  | lowerHalfWrite (fn off : Nat) (v : W32)
  | upperHalfWrite (fn off : Nat) (v : W32)
  | registerWrite (fn off : Nat) (wide : Bool) (v : W64)
  | badAccessWidth (fn off width : Nat) (write : Bool)
  | bar4Read (fn addr len : Nat)
  | bar4Write (fn addr : Nat) (data : List Byte)
  -- beats and alignment (R31 to R36, R51, R52, R54)
  | beat (obs : List StallObs)
  | refclkLoss
  | refclkReturn
  | rateChange (die rate : Nat)
  | rateMonitorRefresh (die : Nat)
  | beatSample (time : Nat) (sync : Bool)
  | alignEnable (fn : Nat) (v : W32) (parent : W64)
  | alignDisable (fn : Nat) (v : W32)
  | alignCfgWrite (fn : Nat) (v : W32)
  | alignLock
  | parentPortFail
  | holdoverTimeout
  | parentPortRecover (port : Nat)
  -- scalar class (R86)
  | add (k : Nat) (l : Launch) (gd gs1 gs2 : GReg)
  | sub (k : Nat) (l : Launch) (gd gs1 gs2 : GReg)
  | and (k : Nat) (l : Launch) (gd gs1 gs2 : GReg)
  | or (k : Nat) (l : Launch) (gd gs1 gs2 : GReg)
  | xor (k : Nat) (l : Launch) (gd gs1 gs2 : GReg)
  | shl (k : Nat) (l : Launch) (gd gs1 gs2 : GReg)
  | shr (k : Nat) (l : Launch) (gd gs1 gs2 : GReg)
  | sra (k : Nat) (l : Launch) (gd gs1 gs2 : GReg)
  | mul (k : Nat) (l : Launch) (gd gs1 gs2 : GReg)
  | slt (k : Nat) (l : Launch) (gd gs1 gs2 : GReg)
  | sltu (k : Nat) (l : Launch) (gd gs1 gs2 : GReg)
  | min (k : Nat) (l : Launch) (gd gs1 gs2 : GReg)
  | max (k : Nat) (l : Launch) (gd gs1 gs2 : GReg)
  | addi (k : Nat) (l : Launch) (gd gs1 : GReg) (imm : W32)
  | andi (k : Nat) (l : Launch) (gd gs1 : GReg) (imm : W32)
  | ori (k : Nat) (l : Launch) (gd gs1 : GReg) (imm : W32)
  | xori (k : Nat) (l : Launch) (gd gs1 : GReg) (imm : W32)
  | movi (k : Nat) (l : Launch) (gd : GReg) (imm : W32)
  | ldw (k : Nat) (l : Launch) (g : GReg) (an : AReg) (off : W32)
  | stw (k : Nat) (l : Launch) (g : GReg) (an : AReg) (off : W32)
  | mova (k : Nat) (l : Launch) (g : GReg) (an : AReg) (off : W32)
  | movg (k : Nat) (l : Launch) (g : GReg) (an : AReg) (off : W32)
  -- branch and loop class (R87, R88)
  | br (k : Nat) (l : Launch) (off : BitVec 11)
  | beq (k : Nat) (l : Launch) (gs1 gs2 : GReg) (off : BitVec 11)
  | bne (k : Nat) (l : Launch) (gs1 gs2 : GReg) (off : BitVec 11)
  | blt (k : Nat) (l : Launch) (gs1 gs2 : GReg) (off : BitVec 11)
  | bge (k : Nat) (l : Launch) (gs1 gs2 : GReg) (off : BitVec 11)
  | bltu (k : Nat) (l : Launch) (gs1 gs2 : GReg) (off : BitVec 11)
  | bgeu (k : Nat) (l : Launch) (gs1 gs2 : GReg) (off : BitVec 11)
  | loop (k : Nat) (l : Launch) (lc : Fin 4) (gs : GReg) (len : Nat) (cnt : W16)
  -- tile and move class (R89, R146)
  | tdSet (k : Nat) (l : Launch) (td : TReg) (fld : Nat) (reg : Bool) (gs : GReg) (imm : BitVec 24)
  | tdCopy (k : Nat) (l : Launch) (tdst tsrc : TReg)
  | tmov (k : Nat) (l : Launch) (tdst tsrc : TReg) (wm : Nat) (gsc : GReg)
  | tfill (k : Nat) (l : Launch) (tdst : TReg) (gsc : GReg)
  -- matrix class (R91, R116, R119, R126, R132)
  | mmaF16 (k : Nat) (l : Launch) (ac : AcReg) (ta tb tc : TReg) (n : Nat) (gang : Bool)
  | mmaF32 (k : Nat) (l : Launch) (ac : AcReg) (ta tb tc : TReg) (n : Nat) (gang : Bool)
  | mmaI16 (k : Nat) (l : Launch) (ac : AcReg) (ta tb tc : TReg) (n : Nat) (gang : Bool)
  | mmaOut (k : Nat) (l : Launch) (ac : AcReg) (ta tb : TReg) (rnd ep : Nat) (gid : GReg) (gang : Bool)
  | mmaOuts (k : Nat) (l : Launch) (ac : AcReg) (ta tb tc : TReg) (rnd ep : Nat) (gid : GReg) (gang : Bool)
  | mmaClr (k : Nat) (l : Launch) (ac : AcReg)
  | gang (k : Nat) (l : Launch) (shape : Nat)
  | gangedPassStart (cl : Nat)
  | gangShapeChange (cl : Nat)
  | matrixEntryEnd (u : Nat) (gang : Bool)
  | matrixPassComplete (u : Nat) (gang : Bool)
  | gangFeedUncorrectable (cl entered : Nat)
  -- vector class (R94, R95, R148)
  | vadd (k : Nat) (l : Launch) (tile : Bool) (vd va vb : VReg) (m : MReg) (bc : Nat) (fp : Bool)
  | vmul (k : Nat) (l : Launch) (tile : Bool) (vd va vb : VReg) (m : MReg) (bc : Nat) (fp : Bool)
  | vfma (k : Nat) (l : Launch) (tile : Bool) (vd va vb vc : VReg) (m : MReg) (bc : Nat) (fp : Bool)
  | vcmp (k : Nat) (l : Launch) (md : MReg) (va vb : VReg) (cmp : Nat) (fp : Bool)
  | vsel (k : Nat) (l : Launch) (tile : Bool) (vd va vb : VReg) (m : MReg) (bc : Nat) (fp : Bool)
  | vmin (k : Nat) (l : Launch) (tile : Bool) (vd va vb : VReg) (m : MReg) (bc : Nat) (fp : Bool)
  | vmax (k : Nat) (l : Launch) (tile : Bool) (vd va vb : VReg) (m : MReg) (bc : Nat) (fp : Bool)
  | vld (k : Nat) (l : Launch) (vd : VReg) (an : AReg) (m : MReg) (off : W16)
  | vst (k : Nat) (l : Launch) (vd : VReg) (an : AReg) (m : MReg) (off : W16)
  | vectorPassComplete (k : Nat)
  | movePassComplete (k : Nat)
  -- curvature tap class (R160 to R166)
  | tapArm (k : Nat) (l : Launch) (tf : TReg) (side : Bool) (n : Nat) (gid : GReg)
  | tapOff (k : Nat) (l : Launch)
  | tapAuto (k : Nat) (l : Launch) (tf : TReg)
  | syrkTap (k : Nat) (l : Launch) (tf : TReg)
  | tapDrain (k : Nat) (l : Launch) (tf : TReg)
  | tapAutoFold (k : Nat)
  | tapFoldComplete (k : Nat)
  -- factor class (R174 to R178, R214, R217, R218)
  | nsiScale (k : Nat) (l : Launch) (t1 t2 : TReg) (p : Nat) (gs : GReg)
  | nsiStep (k : Nat) (l : Launch) (t1 t2 t3 : TReg) (p : Nat)
  | nsiResid (k : Nat) (l : Launch) (t1 t2 : TReg) (p : Nat) (gs : GReg)
  | cholSn (k : Nat) (l : Launch) (t1 t2 t3 : TReg)
  | ldltSn (k : Nat) (l : Launch) (t1 t2 t3 : TReg)
  | trsvSn (k : Nat) (l : Launch) (t1 t2 t3 : TReg) (p : Nat)
  | refine (k : Nat) (l : Launch) (t1 t2 t3 t4 : TReg)
  | factorOpComplete (u : Nat) (gang : Bool)
  -- sync class (R97, R98, R243)
  | sigCnt (k : Nat) (l : Launch) (idx : Nat) (gt : GReg) (val : W16)
  | waitCnt (k : Nat) (l : Launch) (idx : Nat) (val : W16)
  | setCnt (k : Nat) (l : Launch) (idx : Nat) (val : W16)
  | barArrive (k : Nat) (l : Launch) (idx : Nat)
  | barWait (k : Nat) (l : Launch) (idx : Nat)
  | flagSet (k : Nat) (l : Launch) (idx : Nat)
  | flagWait (k : Nat) (l : Launch) (idx : Nat)
  | flagClr (k : Nat) (l : Launch) (idx : Nat)
  | hostIrq (k : Nat) (l : Launch) (idx : Nat)
  | signalTakesEffect (k : List Delayed)
  -- time class (R99, R41, R38)
  | baSet (k : Nat) (l : Launch) (g : GReg)
  | baAdv (k : Nat) (l : Launch) (imm : W32)
  | baNow (k : Nat) (l : Launch) (imm : W32)
  | beatWait (k : Nat) (l : Launch) (imm : W32)
  | beatRd (k : Nat) (l : Launch) (g : GReg)
  | instructionStart (k : Nat) (inp : InputTag)
  -- transfer, collective and update classes (R100)
  | xferPost (k : Nat) (l : Launch) (an : AReg) (cnt : Nat) (gt : GReg) (val : W16)
  | collPost (k : Nat) (l : Launch) (an : AReg) (cnt : Nat) (gt : GReg) (val : W16)
  | updApply (k : Nat) (l : Launch) (an : AReg) (cnt : Nat) (gt : GReg) (val : W16)
  | updNs (k : Nat) (l : Launch) (t1 t2 t3 : TReg)
  | updNf (k : Nat) (l : Launch) (t1 : TReg)
  | dmaChunkDone (x : Delayed)
  | transferComplete (x : Nat)
  -- check, digest, counter, debug and system classes (R101 to R103)
  | tchk (k : Nat) (l : Launch) (t1 : TReg) (g : GReg)
  | chkRange (k : Nat) (l : Launch) (t1 : TReg) (g gs : GReg)
  | chkNf (k : Nat) (l : Launch) (t1 : TReg) (g : GReg)
  | digFold (k : Nat) (l : Launch) (gs : GReg) (acc : Fin 4)
  | digRd (k : Nat) (l : Launch) (g : GReg) (acc : Fin 4)
  | digClr (k : Nat) (l : Launch) (acc : Fin 4)
  | cntRd (k : Nat) (l : Launch) (g : GReg) (imm : W32)
  | attrSet (k : Nat) (l : Launch) (gs1 gs2 : GReg)
  | traceMark (k : Nat) (l : Launch) (imm : W32)
  | halt (k : Nat) (l : Launch)
  | nop (k : Nat) (l : Launch)
  | endProg (k : Nat) (l : Launch) (kind : Nat) (gt : GReg) (idx : Nat) (val : W16)
  | bankSwap (k : Nat) (l : Launch)
  | fence (k : Nat) (l : Launch) (imm : W32)
  | statRd (k : Nat) (l : Launch) (g : GReg) (imm : W32)
  -- core events (R58 to R73)
  | coreFault (k cause engine : Nat)
  | drainComplete (k : Nat)
  | programLoadComplete (k : Nat)
  | swapTakesEffect (k : Nat)
  | coreStart (k : Nat)
  -- host commands (R235 to R240): `q` is the queue whose next accepted command runs
  | launch (q : Nat)
  | copy (q : Nat)
  | collective (q : Nat)
  | stepCommit (q : Nat)
  | stepCommitReplayDone (q : Nat)
  | solve (q : Nat)
  | checkpointRequest (q : Nat)
  | checkpointDrain (q : Nat)
  | restoreBuddy (q : Nat)
  | restoreHost (q : Nat)
  | signalCounter (q : Nat)
  | signalFlagSet (q : Nat)
  | signalFlagClear (q : Nat)
  | signalBarrier (q : Nat)
  | waitCounter (q : Nat)
  | waitFlag (q : Nat)
  | waitBarrier (q : Nat)
  | waitBeat (q : Nat)
  | waitTimeout (q : Nat)
  | alloc (q : Nat)
  | free (q : Nat)
  | freeComplete (idx : Nat)
  | counterSnap (q : Nat)
  | exportShard (q : Nat)
  -- queues (R231 to R238)
  | sqTailDoorbell (fn q v : Nat)
  | cqHeadDoorbell (fn q v : Nat)
  | doorbellFlagSet (fn q idx : Nat)
  | doorbellFlagClr (fn q idx : Nat)
  | commandFetch (q : Nat)
  | completionPost (q : Nat)
  | queueResume (fn q : Nat) (v : W32)
  | barrierMembersWrite (fn n : Nat) (v : W32)
  | deadlock (i : Nat)
  -- life cycle of an instance (R247 to R249)
  | configure (fn i : Nat)
  | activate (fn i : Nat) (restore : Bool)
  | quiesce (fn i : Nat) (save : Bool)
  | quiesceComplete (i : Nat)
  | instanceReset (fn i : Nat) (keepHbm : Bool)
  | release (fn i : Nat)
  | functionLevelReset (fn : Nat)
  | resetComplete (i : Nat)
  | instanceResetTimeout (i : Nat)
  -- links (R254 to R261, R278)
  | linkEnable (fn p : Nat) (v : W32)
  | linkDisable (fn p : Nat) (v : W32)
  | linkTrainingComplete (p coord peerPort : Nat)
  | linkTrainingTimeout (p : Nat)
  | frameSend (p : Nat)
  | frameReceive (p : Nat) (f : Frame)
  | laneLockLoss (p : Nat)
  | frameCheckTimeout (p : Nat)
  -- collectives and messages (R264 to R276)
  | collChunk
  | chunkAck
  | chunkNack
  | collChunkTimeout (i seq : Nat)
  | collectiveComplete (i : Nat) (seq : Delayed)
  | xferWrite
  | xferReadReq
  | xferReadData
  | refused
  | verdict
  | verdictSend (i : Nat)
  | clove
  | gateTimeout (i : Nat)
  | commitApply (i : Nat)
  | rootDispatch (i : Nat)
  | commitHoldRelease (i : Nat)
  | rootLateTimeout (i : Nat)
  | updEnableWrite (fn i : Nat) (v : W32)
  | updatePostPerform (i : Nat)
  | undoComplete (i : Nat)
  -- deadline solves (R219 to R226)
  | solveStart (i : Nat)
  | solveAnnounce (i tag : Nat)
  | solveFreeze (i tag : Nat)
  | supernodeBoundaryEnd (k : Nat)
  | solveAbandonTimeout (i tag : Nat)
  | solveResultPost (i tag : Nat)
  -- modes, audit, errors, recovery (R282 to R315)
  | devModeWrite (fn : Nat) (v : W32)
  | auditRecordWrite (i : Nat)
  | errorRecordWrite
  | recoveryWindowTimeout (slot : Nat)
  | patrolScrub (addr : Nat) (corrected : Bool)
  | warmReset (fn : Nat) (keepHbm : Bool)
  | digestCompareTimeout (i : Nat)
  | replayInput
  | replayResult
  | replayDigest
  | replaySend (fn i : Nat)
  -- checkpoint and restore (R318 to R332)
  | ckptBegin
  | ckptBlock
  | ckptDigests
  | ckptEnd
  | ckptAck
  | ckptAbort
  | ckptCopyTimeout
  | restoreReq
  | restoreData
  | checkpointDrainComplete
  | restoreComplete
  -- counters, trace and debug (R338 to R346)
  | telemetry
  | commandRecordWrite (i : Nat)
  | breakpointHit (k comp clsop lo hi : Nat)
  | drainTimeout (k : Nat)
  | debugHalt (fn i scope cl core : Nat)
  | debugResume (fn i scope cl core : Nat)
  | debugStep (fn i cl core : Nat)
  | breakpointConfigWrite (fn i : Nat) (v : W32)
  | debugAccessRead (fn i : Nat)
  | debugAccessWrite (fn i : Nat) (v : W64)
  | debugUnlock (i : Nat) (module : Bool) (expiry : W64) (challenge : BitVec 128) (sig : List Byte)
  | debugLock (fn i : Nat)
  | debugSessionExpire (i : Nat)
  -- the Saffron island (R348 to R363)
  | intervalRecord (m : Meter) (meanMv peakW : Nat)
  | timeDisciplineMessage (m : Meter) (wellFormed : Bool) (ptp : Int) (sync : Bool) (utc : Int) (bt : W64)
  | readRequest (wellFormed : Bool) (kind first : Nat)
  | sealBreak (m : Meter)
  | serviceChange (m : Meter) (calibration : Bool) (param value : Nat)
  | sealBreakEnd
  | mirrorRefresh (m : Meter) (mv ma mw : Nat)
  -- power and start-up (R364 to R381)
  | standbyPowerOn (m : Meter)
  | standbyPowerFall
  | startupStepComplete
  | startupStepTimeout
  | perstDeassert
  | regulatorRamp
  | mainInputTrip (standby : Bool)
  | tripRestart (now : Nat)
  | meteringReadyLoss
  | powerSample (watts volts : Nat)
  | junctionOverTemp (tj : Nat)
  | thermalShutdown (tj : Nat)
  | powerConfigWrite (fn : Nat) (v : W32)
  | buddySizeWrite (fn : Nat) (v : W32)
  | collCutWrite (fn i : Nat) (v : W32)
  | boardRecordWrite (cfg : List W32) (expect : List W32) (coord ext align : W32)
  | mcWarmResetRequest (keepHbm : Bool)
  | powerCycle
  | hostWatchdogExpire
  | deviceReset
  | exportShardComplete (i : Nat)
  | ckptSourceBlockRead
  | stateDigestShardDone (i : Nat)
  | vbatLow
  | calendarLost
  | reverseCurrent
  | firmwareUpdate (good : Bool) (slot : Nat) (ver : W32)
deriving DecidableEq, Repr

end Sys2Proof
end

