-- ==== Sys2Proof/Decode.lean ====
section
/-! DEFINITION. The words of the table: the block takes commands, not words, and no row of the table
gives its command any bits. -/

namespace Sys2Proof

/-- The command that a word spells by the table's bits: no row gives bits, so none. -/
def decodeTableWord (_nbits _w : Nat) : Option Instr := none

end Sys2Proof
end

