-- ==== Sys2Proof/Config.lean ====
section
/-! DEFINITION. What one implementation fixes and the manual leaves open: constants without a body,
so that no statement can rest on a value. -/

namespace Sys2Proof.Config

/-- FREE VALUE (log 4): a 64-bit value that the manual leaves open; the model applies it to the
counter `State.freeCtr`, which the step that reads it advances. -/
opaque freeValue : Nat → W64

/-- FREE VALUE (log 5): the 64-byte ECDSA P-256 signature the island puts under record bytes (R356);
its private key never leaves the island (R352). -/
opaque islandSignature : List Byte → List Byte

/-- FREE VALUE (log 5): whether a debug unlock's ECDSA P-384 signature over the challenge verifies
under the fused key (R345). -/
opaque debugSignatureOk : BitVec 128 → List Byte → Bool

/-- FREE VALUE (log 5): the serial number of the island (R356, R363). -/
opaque islandSerial : W64

/-- FREE VALUE (log 5): word n of the island's ROM digest (R352). -/
opaque romDigest : Nat → W32

/-- FREE VALUE (log 5): word n of the island's public key (R352). -/
opaque publicKey : Nat → W32

/-- FREE VALUE (log 5): the challenge of a debug page after a number of accepted unlocks, random by R345 and Table
16.7. -/
opaque debugNonce : Nat → Nat → BitVec 128

/-- FREE VALUE (log 6): the firmware versions found at start-up until an update replaces them (R293). -/
opaque firmwareVersion : Nat → W32

/-- FREE VALUE (log 14): the order (row length) of a parent's front, which no field of a child's record gives (R212,
R215): the model applies it to `State.freeCtr`, and keeps it above the positions that the update block goes to. -/
opaque frontOrder : Nat → Nat

/-- FREE VALUE (log 14): the shared exponent, from −64 to 63, with which TRSV.SN reads a factor panel that no CHOL.SN or
LDLT.SN wrote, by the INDEX of its record (R213, R217). -/
opaque factorExponent : Nat → BitVec 7

/-- FREE VALUE (log 29): the OUTCOME byte of a solve that ends by FINAL after a violation without a later
FACTOR_FP32 announcement: no row of Table 10.5a holds it (R223). The argument is the solve's tag. -/
opaque openOutcome : Nat → Byte

/-- FREE VALUE (log 26): whether, at the moment numbered by `State.freeCtr`, this module's BEGIN waits on a drain at its
buddy (R327): nothing on this module's side tells. -/
opaque buddyDrains : Nat → Bool

/-- FREE VALUE (log 53): the bifurcation strap of the board that carries the module (R376). -/
opaque bifurcationStrap : Bool

/-- FREE VALUE (log 31): the code that the management controller's log gets for a trip, which R366 does not
number. The argument names the trip: 1 the 48 V input, 2 the standby rail, 3 a regulator out of its
bounds, 4 more than 14.0 kW, 5 the junction temperature. -/
opaque tripCode : Nat → Byte

/-- FREE VALUE (log 17): DETAIL of an error record of a block, by number, with a code, that reports no sticky
bit and no core fault: Table 14.2 gives it no value. -/
opaque openDetail : Nat → Nat → Byte

/-- FREE VALUE (log 5): the IDCODE of the TAP (R378). -/
opaque idcode : W32

/-- FREE VALUE (log 4): the level that the board puts on a land when the TAP captures it (R378). -/
opaque landLevel : Nat → Nat → Bool

/-- FREE VALUE (log 7): a byte of the fuse map beyond the disabled-unit map: the repairs inside SRAM banks, whose record
the manual does not lay out (R15, R25). -/
opaque repairFuse : Nat → Byte

end Sys2Proof.Config
end

