-- ==== Sys2Proof/Machine/Bits.lean ====
section
/-! DEFINITION. Bit-field, byte-order and small arithmetic helpers (R5: everything is little-endian). -/

namespace Sys2Proof.Machine

/-- Bits [lo + w - 1 : lo] of a register value, as a number. -/
def bfGet (x : W64) (lo w : Nat) : Nat := (x.toNat >>> lo) % 2 ^ w

/-- `x` with bits [lo + w - 1 : lo] replaced by the low `w` bits of `v`. -/
def bfSet (x : W64) (lo w v : Nat) : W64 :=
  let mask : W64 := BitVec.ofNat 64 ((2 ^ w - 1) <<< lo)
  (x &&& ~~~mask) ||| BitVec.ofNat 64 ((v % 2 ^ w) <<< lo)

/-- A mask of the bits [lo + w - 1 : lo]. -/
def bmask (lo w : Nat) : Nat := (2 ^ w - 1) <<< lo

/-- One bit of a number. -/
def nbit (x i : Nat) : Bool := x.testBit i

/-- Bits [lo + w - 1 : lo] of a number. -/
def nfield (x lo w : Nat) : Nat := (x >>> lo) % 2 ^ w

/-- The little-endian bytes of `x`, `n` of them (R5). -/
def leBytes : Nat → Nat → List Byte
  | 0, _ => []
  | n + 1, x => BitVec.ofNat 8 x :: leBytes n (x / 256)

/-- The number whose little-endian bytes are given (R5). -/
def leNat : List Byte → Nat
  | [] => 0
  | b :: bs => b.toNat + 256 * leNat bs

/-- The big-endian bytes of `x`, `n` of them. -/
def beBytes (n x : Nat) : List Byte := (leBytes n x).reverse

/-- Two's complement reading of the low `w` bits of `x`. -/
def sext (w x : Nat) : Int :=
  let y := x % 2 ^ w
  if y < 2 ^ (w - 1) then (y : Int) else (y : Int) - 2 ^ w

/-- The low `w` bits of an integer, two's complement. -/
def wrapInt (w : Nat) (x : Int) : Nat := (x % (2 ^ w : Int)).toNat

/-- Saturation of an exact integer to a signed width; the flag says that it clamped (R117). -/
def satInt (w : Nat) (x : Int) : Int × Bool :=
  if x > 2 ^ (w - 1) - 1 then (2 ^ (w - 1) - 1, true)
  else if x < -(2 ^ (w - 1)) then (-(2 ^ (w - 1)), true)
  else (x, false)

/-- Division of an integer by 2^k, rounded to nearest even. -/
def shrRne (x : Int) (k : Nat) : Int :=
  let d : Int := 2 ^ k
  let q := x / d
  let r := x % d
  if 2 * r < d then q else if 2 * r > d then q + 1 else if q % 2 = 0 then q else q + 1

/-- A counter that stops at its maximum. -/
def satInc (w n by_ : Nat) : Nat := min (n + by_) (2 ^ w - 1)

/-- Ceiling division. -/
def cdiv (a b : Nat) : Nat := (a + b - 1) / b

/-- The item at position `i`, with a default. -/
def nth {α : Type} (d : α) (l : List α) (i : Nat) : α := l.getD i d

/-- A run of `n` zero bytes. -/
def zeros (n : Nat) : List Byte := List.replicate n 0

end Sys2Proof.Machine
end

