-- ==== Sys2Proof/Machine/Sparse.lean ====
section
/-! DEFINITION. Reading and writing a sparse table with a default value per key. Memory, register
files, cores, clusters and queues are all held in this one canonical form, so that equal contents
are equal data. -/

namespace Sys2Proof.Machine

/-- The value at key `a`, the default `d a` where nothing is listed. -/
def sget {α : Type} (d : Nat → α) : Sparse α → Nat → α
  | [], a => d a
  | (k, v) :: r, a => if a = k then v else sget d r a

/-- The table without any entry for key `a`. -/
def sdel {α : Type} (m : Sparse α) (a : Nat) : Sparse α := m.filter fun e => decide (e.1 ≠ a)

/-- The table with `v` at key `a`; writing the default removes the entry. -/
def sput {α : Type} [DecidableEq α] (d : Nat → α) : Sparse α → Nat → α → Sparse α
  | [], a, v => if v = d a then [] else [(a, v)]
  | (k, w) :: r, a, v =>
    if a < k then (if v = d a then sdel ((k, w) :: r) a else (a, v) :: (k, w) :: r)
    else if a = k then (if v = d a then sdel r a else (a, v) :: r)
    else (k, w) :: sput d r a v

/-- Canonical form: keys strictly rising and no entry equal to its default. -/
def swf {α : Type} [DecidableEq α] (d : Nat → α) : Sparse α → Bool
  | [] => true
  | (k, v) :: r => decide (v ≠ d k) && (r.all fun e => decide (k < e.1)) && swf d r

/-- Writes a run of values at consecutive keys. -/
def sputs {α : Type} [DecidableEq α] (d : Nat → α) : Sparse α → Nat → List α → Sparse α
  | m, _, [] => m
  | m, a, v :: vs => sputs d (sput d m a v) (a + 1) vs

end Sys2Proof.Machine
end

