-- ==== Sys2Proof/Machine/State.lean ====
section
/-! DEFINITION. The state of the WFN16 as plain data: everything the manual gives the module, and the
queue of waiting commands. Registers that software reads by offset live in one register file keyed by
their offset in the physical function's BAR0 (Table 19.1); architectural state with no offset of its
own lives in the records below. -/

namespace Sys2Proof.Machine

/-- Core states (Table 3.2). -/
inductive CoreSt where
  | idle | loaded | running | waiting | halted | draining | faulted
deriving DecidableEq, Repr

/-- A tile descriptor (Table 7.3). -/
structure Tile where
  base : W32 := 0
  rows : W16 := 0
  cols : W16 := 0
  rs : BitVec 24 := 0
  cs : BitVec 24 := 0
  format : BitVec 8 := 0
  swizzle : BitVec 10 := 0
  clampR : W16 := 0
  clampC : W16 := 0
deriving DecidableEq, Repr

/-- The kind of an accumulator set (R116). -/
inductive AccKind where
  | unfixed | floating | integer
deriving DecidableEq, Repr

/-- An accumulator set: 16 accumulators and its status (R116, Table 4.14). -/
structure AccSet where
  vals : Sparse W32 := []
  kind : AccKind := .unfixed
  sat : Bool := false
  satIdx : Nat := 0
  nonfin : Bool := false
  nfRow : Nat := 0
  nfCol : Nat := 0
deriving DecidableEq, Repr

/-- An open hardware loop: its counter and the pcs of its first and last body instruction (R88). -/
structure LoopRec where
  lc : Nat
  first : Nat
  last : Nat
deriving DecidableEq, Repr

/-- What a WAITING core waits for (Table 4.11). -/
inductive Wait where
  | cnt (idx val : Nat)
  | bar (idx phase : Nat)
  | flag (idx : Nat)
deriving DecidableEq, Repr

/-- CFAULT (Table 3.8). -/
structure CFault where
  cause : Nat := 0
  engine : Nat := 0
  more : Bool := false
  pc : Nat := 0
  valid : Bool := false
deriving DecidableEq, Repr

/-- The bytes that a pass or an access reads and writes: addresses with lengths (R82). -/
structure Foot where
  reads : List (Nat × Nat) := []
  writes : List (Nat × Nat) := []
deriving DecidableEq, Repr

/-- A cause tag: the cause, and whether it is propagated (R44). -/
abbrev Tag := Nat × Bool

/-- Why a launch is late, so far: the cause that rule 1 or 2 of R43 gives, and the tag of the late input that
completed last (rule 3). -/
structure Late where
  rule12 : Option Tag := none
  input : Option Tag := none
deriving DecidableEq, Repr

/-- A pass in an engine's slots (R81): the instruction, its number in its core's issue order, its target beat, if
it has one, why it is late, its bytes, and the tag that its own writes carry once it has started. -/
structure Pass where
  op : Instr
  seq : Nat := 0
  target : Option W64 := none
  late : Late := {}
  foot : Foot := {}
  tag : Tag := (0, false)
deriving DecidableEq, Repr

/-- The slots of an engine and the matrix passes whose entry has ended but that are in flight (R81, R125). -/
structure Slots where
  running : Option Pass := none
  queued : Option Pass := none
  tail : List Pass := []
deriving DecidableEq, Repr

/-- An entry of the tap queue (R161); `foot` holds the bytes of its fold once that is under way, and `auto` marks a
fold of an idle beat (R164). -/
structure TapEntry where
  tile : Tile
  side : Bool
  first : Nat
  wide : Bool
  s : Nat
  slice : Tile
  key : W32
  base : Nat
  offA : Nat
  offB : Nat
  depth : Nat
  seed : W64
  step : W64
  foot : Foot := {}
  auto : Bool := false
deriving DecidableEq, Repr

/-- The armed tap (R160). -/
structure Tap where
  slice : Tile
  side : Bool
  s : Nat
  gid : Nat
deriving DecidableEq, Repr

/-- A release-ordered signal on its way (R83). -/
inductive Sig where
  | cnt (cl idx val : Nat)
  | bar (idx : Nat)
  | flag (idx : Nat)
  | irq (vec : Nat)
deriving DecidableEq, Repr

/-- A signal with the cause tag it carries (R44) and the number of its instruction in the core's issue order: it
follows the writes of every earlier one (R83). -/
structure Signal where
  sig : Sig
  cause : Nat := 0
  prop : Bool := false
  seq : Nat := 0
deriving DecidableEq, Repr

/-- An engine record (Table 16.1); IDLE is what is left of the beats counted. -/
structure EngRec where
  busy : Nat := 0
  stall : Sparse Nat := []
  slipN : Sparse Nat := []
  slipB : Sparse Nat := []
  propN : Nat := 0
  propB : Nat := 0
  extra : Nat := 0
  errors : Nat := 0
deriving DecidableEq, Repr

/-- The command whose program a core runs (R46, R71, R191, R338). -/
structure Prog where
  id : Nat
  inst : Nat
  scope : Nat := 0
  faultFlag : Nat := 0
  first : Nat := 0
  count : Nat := 0
  step : W64 := 0
  solve : Option Nat := none
deriving DecidableEq, Repr

/-- A breakpoint comparator (R341). -/
structure Comparator where
  cfg : W32 := 0
  lo : W64 := 0
  hi : W64 := 0
  seen : Nat := 0
deriving DecidableEq, Repr

/-- What a DRAINING core becomes (Table 3.3). -/
inductive After where
  | none
  | toHalted
  | toEnd (sig : Option Signal)
  | toFaulted
  | toFrozen
  | toReset
deriving DecidableEq, Repr

/-- A program load in progress: the launch record it belongs to, which bank it writes, the words, the
entry point, and whether the stream is ganged (R60, R63). -/
structure Load where
  launch : Nat
  toActive : Bool
  words : List W64
  entry : Nat
  ganged : Bool
deriving DecidableEq, Repr

/-- One logical core (Tables 3.1 and 3.8, R160, R100, R334, R341). `loadNext` holds loads that wait for the one in
progress; `resumeDue` a RESUME that waits for a load into the active bank, `resumeSwap` a resumed core whose swap waits
for its suspended pass (R61, R63); `seq` numbers its instructions as they complete issue; `foot` holds the bytes of the
instruction that is issuing; `heldFoot` and `heldInput` the bytes that a held one waits for and the input that completed
last; `doneAt` the beat and tag of each engine's last completion (R84); `clears` the MMA.CLRs under way, by set and
number (R126); `gangNo` counts the instructions that the gang controller has compared (R93). -/
structure Core where
  st : CoreSt := .idle
  after : After := .none
  activeBank : Bool := false
  shadowValid : Bool := false
  swapPending : Bool := false
  activeValid : Bool := false
  load : Option Load := none
  loadNext : List Load := []
  resumeDue : Bool := false
  resumeSwap : Bool := false
  entry0 : Nat := 0
  entry1 : Nat := 0
  len0 : Nat := 0
  len1 : Nat := 0
  ganged : Bool := false
  shadowGanged : Bool := false
  pc : Nat := 0
  g : Sparse W32 := []
  a : Sparse W32 := []
  t : Sparse Tile := []
  m : Sparse W16 := []
  v : Sparse (BitVec 256) := []
  lc : Sparse W16 := []
  loops : List LoopRec := []
  ba : W64 := 0
  baBeat : W64 := 0
  acc : Sparse AccSet := []
  dig : Sparse W64 := []
  fault : CFault := {}
  held : Option Instr := none
  wait : Option Wait := none
  waitTarget : Option W64 := none
  lastSlip : Option (W64 × Nat) := none
  seq : Nat := 0
  foot : Foot := {}
  heldFoot : Foot := {}
  heldInput : Option (W64 × Tag) := none
  doneAt : Sparse (W64 × Tag) := []
  clears : List (Nat × Nat) := []
  gangNo : Nat := 0
  slots : Sparse Slots := []
  posts : Nat := 0
  signals : List Signal := []
  barKept : Option (Nat × Nat) := none
  layer : W16 := 0
  oper : W16 := 0
  cntLatch : Sparse (Option W32) := []
  tap : Option Tap := none
  tapAuto : Option Tile := none
  tapQ : List TapEntry := []
  folding : Nat := 0
  eng : Sparse EngRec := []
  engAt : Sparse EngRec := []
  engBeat : Sparse EngRec := []
  beatsAt : Nat := 0
  prog : Option Prog := none
  cmps : Sparse Comparator := []
  issuedAt : Option W64 := none
  suspended : Bool := false
  haltAt : W64 := 0
  stepOne : Bool := false
  dbgHeld : Bool := false
  gangWait : Bool := false
  boundary : Bool := false
deriving DecidableEq, Repr

/-- A ganged pass in the gang controller (R129, R131): the instruction, the registers of each core as they stood at
issue (R62), the shape, the first product step whose feed met an uncorrectable word when entry began (R133), its
target beat, why it is late, and its bytes. -/
structure GangPass where
  op : Instr
  tiles : List (List Tile) := []
  keys : List (List Nat) := []
  shape : Nat := 1
  badAt : Option Nat := none
  target : Option W64 := none
  late : Late := {}
  foot : Foot := {}
  tag : Tag := (0, false)
deriving DecidableEq, Repr

/-- What the gang controller compares of one instruction: its word, its descriptors and its key registers (R93). -/
abbrev GangKey := Option Nat × List Tile × List Nat

/-- A comparison of the instructions with one number across the cores of a ganged cluster: core (0,0)'s values once it
has issued its own, and those of the cores that have (R93). -/
structure GangCmp where
  no : Nat
  first : Option GangKey := none
  seen : List (Nat × GangKey) := []
deriving DecidableEq, Repr

/-- One logical cluster (R13, R70, R242, R340). `cntTags` keeps, for each sync counter, the values that its signals
brought it to, with the beat and the tag of each (R84). -/
structure Cluster where
  shape : Nat := 0
  shadow : Nat := 0
  pending : Bool := false
  gangIssued : List (Nat × Instr) := []
  gangRun : Option GangPass := none
  gangQueued : Option GangPass := none
  gangTail : List GangPass := []
  gangCmps : List GangCmp := []
  cnts : Sparse W16 := []
  cntTags : Sparse (List (Nat × W64 × Tag)) := []
  trace : Sparse (BitVec 128) := []
  thead : Nat := 0
  ttail : Nat := 0
  tcount : Nat := 0
  tlost : Nat := 0
  eng : EngRec := {}
  engAt : EngRec := {}
  engBeat : EngRec := {}
  beatsAt : Nat := 0
deriving DecidableEq, Repr

/-- An accepted command (R233, R235): its header, its bytes, and how far it has come; `undone` marks a
command of a run-ahead step that has been undone (R205). -/
structure Cmd where
  q : Nat
  inst : Nat
  id : Nat
  gen : Nat
  opcode : Nat
  fence : Bool
  layer : Nat
  oper : Nat
  bytes : List Byte
  step : W64 := 0
  accepted : W64 := 0
  started : Option W64 := none
  tag : Nat := 0
  undone : Bool := false
deriving DecidableEq, Repr

/-- A completion on its way to its ring (Table 11.4). -/
structure Completion where
  id : Nat
  gen : Nat
  status : Nat
  opcode : Nat
  resultLo : W32 := 0
  result : W64 := 0
  start : W64 := 0
  stop : W64 := 0
  slips : Nat := 0
  propBeats : Nat := 0
  causeBeats : Sparse Nat := []
deriving DecidableEq, Repr

/-- A queue pair's pointers (R231 to R234); its other registers are in the register file. -/
structure QueueSt where
  sqHead : Nat := 0
  sqTail : Nat := 0
  cqTail : Nat := 0
  cqHead : Nat := 0
  phase : Bool := true
  halted : Bool := false
  waiting : List Completion := []
deriving DecidableEq, Repr

/-- A LAUNCH or SOLVE at work: what its cores still have to do, and the slip totals and counter
differences of its programs (R46, R67, R338). -/
structure LaunchRec where
  id : Nat
  inst : Nat
  cmd : Cmd
  launchBeat : W64 := 0
  step : W64 := 0
  solve : Option Nat := none
  scope : Nat := 0
  faultFlag : Nat := 0
  first : Nat := 0
  count : Nat := 0
  digest4 : W32 := 0
  loads : List Nat := []
  swaps : List Nat := []
  starts : Bool := false
  unstarted : List Nat := []
  left : List Nat := []
  start : Option W64 := none
  stop : W64 := 0
  engines : Nat := 0
  ctr : EngRec := {}
  idleSum : Nat := 0
  maxSlip : Nat := 0
  bad : Bool := false
  done : Bool := false
  uncorrectable : Bool := false
  implausible : Bool := false
  undone : Bool := false
deriving DecidableEq, Repr

/-- Instance states (Table 11.6). -/
inductive InstSt where
  | absent | configured | active | quiescing | resetting | failed
deriving DecidableEq, Repr

/-- Step states (Table 9.5). -/
inductive StepSt where
  | open_ | computed | checked | committed | skipped | tainted | replaying
deriving DecidableEq, Repr

/-- An update post waiting at the update unit (R199, Table 9.4); a discarded one only signals (R205). -/
structure UpdPost where
  gen : Nat := 0
  discard : Bool := false
  launch : Option Nat := none
  core : Nat
  cnt : Nat
  cl : Nat
  val : Nat
  op : Nat
  rule : Nat
  shard : Nat
  rowFirst : Nat
  rows : Nat
  dir : Nat
  step : W64
  cause : Nat := 0
  prop : Bool := false
deriving DecidableEq, Repr

/-- The gate's own state for an instance's step window (R191, R200 to R207, R276); `moments` holds the rows, as (shard,
first, count), whose MOMENT phase of rule 6 step S has performed (R199). -/
structure Gate where
  st : StepSt := .open_
  nf : Bool := false
  nfNext : Bool := false
  failed : Bool := false
  failedNext : Bool := false
  tainted : Bool := false
  taintedNext : Bool := false
  replayed : Bool := false
  undo : Bool := false
  skipCode : Nat := 0
  computedAt : W64 := 0
  commitCmd : Option Cmd := none
  runAhead : Bool := false
  sent : Bool := false
  upNf : Bool := false
  upFail : Bool := false
  upCkpt : Bool := false
  heard : List Nat := []
  commitAt : Option W64 := none
  combinedCkpt : Bool := false
  updated : List Nat := []
  moments : List (Nat × Nat × Nat) := []
  seqFirst : Option Nat := none
  seqLast : Nat := 0
  chunkLeft : Bool := false
  cloveSent : Bool := false
  seqFirstNext : Option Nat := none
  seqLastNext : Nat := 0
  chunkLeftNext : Bool := false
  cloveSentNext : Bool := false
  posts : List UpdPost := []
  holdRoots : Option W64 := none
  suspectRoot : Bool := false
  forwarded : Bool := false
  combined : Bool := false
  resolvedAt : Option (W64 × Nat) := none
  holdCause : Nat := 6
  ringHeld : Bool := false
  failUnit : Option W32 := none
  failUnitNext : Option W32 := none
deriving DecidableEq, Repr

/-- A block queued for dispatch or outstanding (R183). -/
structure RootJob where
  layer : Nat
  block : Nat
  cl : Nat := 0
deriving DecidableEq, Repr

/-- An INPUTS digest; `outside` says that a range of the list lies outside the instance's buffers (R291). -/
structure Hashed where
  digest : List Byte := []
  outside : Bool := false
deriving DecidableEq, Repr

/-- One solve (R219 to R226). -/
structure SolveRec where
  tag : Nat
  cmd : Cmd
  first : Nat
  count : Nat
  deadline : W64
  started : Bool := false
  firstStart : Option W64 := none
  warmSlot : Nat := 0xFF
  pubSlot : Nat := 0xFF
  published : Bool := false
  pubOuter : Nat := 0
  pubSweep : Nat := 0
  pubResid : W32 := 0
  lastPhase : Nat := 0
  lastFactor : Nat := 0
  outerNow : Nat := 1
  final : Bool := false
  frozen : Bool := false
  endBeat : W64 := 0
  forced : Option Nat := none
  reg : Nat := 0
  viol : Nat := 0
  pivots : List (Nat × W32) := []
  firstViol : Option Nat := none
  lateWrites : Nat := 0
  status : Option Nat := none
  posted : Bool := false
  slow : Bool := false
  image : List Byte := []
  inputs : Option Hashed := none
  ringHeld : Option W64 := none
deriving DecidableEq, Repr

/-- A shard being written out, with the C at which its version was committed (R208). -/
structure Export where
  cmd : Cmd
  shard : Nat
  slot : Nat
  c : W64 := 0
deriving DecidableEq, Repr

/-- An audit record to be written (R289 to R292). -/
structure AuditJob where
  kind : Nat
  status : Nat
  id : W64
  detail : W64
  beat : W64
  state : List Byte
  out : W64
  shardsLeft : List Nat := []
  shardAcc : List Byte := []
  program : List Byte
  badInputs : Bool
  inputs : List Byte
  tuned : Bool
  noWeights : Bool
  cert : List Byte
  tag : Option Nat := none
deriving DecidableEq, Repr

/-- A comparison of weight digests under way (R305). -/
structure Compare where
  c : W64
  since : W64
  own : W64
  got : List (Nat × W64) := []
deriving DecidableEq, Repr

/-- Whose turn it is in a weighted round robin (R230, R233): the number from which the next turn is looked for, and
how many items the turn in progress still has. -/
structure Rr where
  cur : Nat := 0
  left : Nat := 0
deriving DecidableEq, Repr

/-- Internal state of an instance; its registers are in the register file. `link` is the link that presents its
function, read at CONFIGURE (R229); `layerSt` the STATE and FOLDS that the update unit keeps of each layer (R172, R182). -/
structure Inst where
  st : InstSt := .absent
  err : Nat := 0
  link : Bool := false
  qTurn : Rr := {}
  accepted : List Cmd := []
  gate : Gate := {}
  jobs : List RootJob := []
  outstanding : List RootJob := []
  dispatched : Nat := 0
  lateRoots : List (Nat × Nat) := []
  rooted : List (Nat × Nat) := []
  layerSt : Sparse (Option (Nat × Nat)) := []
  checks : Sparse (Option W64) := []
  solves : List SolveRec := []
  solveTag : Nat := 0
  warmSlots : List (Nat × Nat × Nat) := []
  exports : List Export := []
  audits : List AuditJob := []
  auditSeq : Nat := 0
  auditUsed : Nat := 0
  cmdUsed : Nat := 0
  auditPrev : List Byte := []
  programs : List (Nat × List Byte) := []
  cmp : Option Compare := none
  early : List (Nat × W64 × W64) := []
  cmpNext : List (W64 × W64) := []
  resetAt : W64 := 0
  keepHbm : Bool := false
  saveCtx : Bool := false
  dlArmed : Bool := true
  dlSince : Option W64 := none
  replayFrom : Option Nat := none
  tuned : Bool := false
  shardC : Sparse W64 := []
  baseC : W64 := 0
deriving DecidableEq, Repr

/-- A transfer descriptor (Table 7.4). -/
structure XDesc where
  kind : Nat
  wm : Bool
  arrival : Bool
  srcSpace : Nat
  dstSpace : Nat
  rows : Nat
  cols : Nat
  indexAddr : Nat
  srcAddr : Nat
  srcCoord : W32
  srcStride : Int
  dstAddr : Nat
  dstCoord : W32
  dstStride : Int
  srcFmt : Nat
  dstFmt : Nat
  srcSwz : Nat
  dstSwz : Nat
  scale : W32
  rowLimit : Nat
deriving DecidableEq, Repr

/-- Who posted work: a core with its completion signal (R100), or a command of a queue. -/
inductive Poster where
  | core (k cnt cl val : Nat) (launch : Option Nat)
  | cmd (c : Cmd)
deriving DecidableEq, Repr

/-- A transfer in flight (R152 to R154, R275); `overRows` counts the indices at or above ROW_LIMIT (R153). -/
structure Xfer where
  id : Nat
  inst : Nat
  gen : Nat
  poster : Poster
  desc : XDesc
  pos : Nat := 0
  done : Bool := false
  dropped : Bool := false
  abandon : Bool := false
  overRows : Nat := 0
  step : W64 := 0
  prov : Bool := false
  cause : Nat := 0
  prop : Bool := false
  status : Nat := 0
  awaiting : Nat := 0
  held : List Byte := []
  solve : Option Nat := none
deriving DecidableEq, Repr

/-- A collective descriptor (Table 12.6). -/
structure CDesc where
  kind : Nat
  levels : Nat
  cuts : Nat
  fmt : Nat
  elems : Nat
  dst : Nat
  dstFmt : Nat
  vc : Nat
  first : Nat
  count : Nat
  peer : Nat
  mask : Nat
  seq : Nat
  tokens : Nat
deriving DecidableEq, Repr

/-- A collective of an instance (R267 to R274): who posted with the tags they carry, where each
contribution lies, and the vector on its way along the axes. Floating elements are FP32 words, integer
elements INT64. -/
structure Coll where
  id : Nat
  inst : Nat
  gen : Nat
  desc : CDesc
  posters : List (Poster × Nat × Bool) := []
  srcs : List (Nat × Nat) := []
  formed : Bool := false
  axes : List Nat := []
  vec : List W64 := []
  finals : Sparse (List W64) := []
  passed : List Nat := []
  done : Bool := false
  status : Nat := 0
  since : W64 := 0
  step : W64 := 0
  resent : Bool := false
  badCrc : Sparse Nat := []
  kept : List (Message × Nat) := []
  abandon : Bool := false
  solve : Option Nat := none
deriving DecidableEq, Repr

/-- An HBM buffer (R155 to R157). -/
structure Buffer where
  idx : Nat
  owner : Nat
  ownerGen : W32
  base : Nat
  granules : Nat
  freeing : Bool := false
  freer : Option Cmd := none
deriving DecidableEq, Repr

/-- An error record (Table 14.2). -/
structure ErrRec where
  seq : Nat := 0
  cls : Nat
  code : Nat
  block : Nat
  detail : Nat
  uid : W32
  inst : Nat := 0xFF
  flags : Nat := 0
  cmd : Nat := 0xFFFF
  beat : W64
  count : Nat := 1
  lastUid : W32
  ctx : List Byte := []
deriving DecidableEq, Repr

/-- One error queue: the module's, an instance's, or the management path (R296 to R299). -/
structure ErrQ where
  seq : Nat := 0
  used : Nat := 0
  pendA : List ErrRec := []
  overflow : List ErrRec := []
  bSeen : List (Nat × W64) := []
deriving DecidableEq, Repr

/-- A recovery window (R315): its domain, rung and the beat it opened. -/
structure Window where
  domain : Nat
  rung : Nat
  since : W64
  begun : Bool := false
deriving DecidableEq, Repr

/-- Error reporting of the module (R294 to R301, R315). -/
structure ErrSt where
  raised : List ErrRec := []
  reported : List ErrRec := []
  queues : Sparse ErrQ := []
  log : List ErrRec := []
  windows : Sparse (Option Window) := []
  waiting : List Window := []
  corrected : List (Nat × W64) := []
deriving DecidableEq, Repr

/-- A frame as its sender keeps it: all but ACK, NACK and the marker, which it takes when it leaves (R257, R260). -/
structure FrameBody where
  fseq : Nat := 0
  credit : Nat := 0
  slots : List (Nat × Bool) := []
  area : List Byte := []
deriving DecidableEq, Repr

/-- A port's link state (R256 to R261); its registers are in the register file. `rxLost` counts the frames from `rxNext`
on that the peer has to send again; `rxParts` holds the flits of each VC's message that is on its way in, and `rxHit`
whether one of them came in a frame sent again; `bufs` and `weights` are what the present training took from the
registers (R278); `instDebt` is what an instance has sent on a VC beyond its turns (R230, R261). -/
structure LinkSt where
  fseq : Nat := 0
  rxNext : Nat := 0
  rxLost : Nat := 0
  rxParts : Sparse (List Byte) := []
  rxHit : Sparse Bool := []
  sendNack : Bool := false
  nackRun : Nat := 0
  nackOf : Nat := 0
  kept : List FrameBody := []
  resend : List FrameBody := []
  sentFrames : List Frame := []
  outq : List Message := []
  headMsg : Sparse (Option Message) := []
  headFlits : Sparse Nat := []
  instTurn : Sparse Nat := []
  instLeft : Sparse Nat := []
  instDebt : Sparse Nat := []
  turn : Nat := 0
  turnLeft : Nat := 0
  weights : Sparse Nat := []
  bufs : Sparse Nat := []
  credits : Sparse Nat := []
  freed : Sparse Nat := []
  since : W64 := 0
deriving DecidableEq, Repr

/-- The copy a source sends to its buddy (R322). -/
structure CkptSrc where
  seq : Nat
  full : Bool
  regions : List (Nat × Nat × Option Nat)
  next : Nat
  blocks : Nat
  digests : List W64 := []
  c : W64
  s : W64
  beat : W64
  e : Nat
  clean : Nat
  bytes : Nat := 0
  ended : Bool := false
  cmds : List Cmd := []
deriving DecidableEq, Repr

/-- The copy a buddy receives (R325). -/
structure CkptIn where
  seq : Nat
  slot : Nat
  full : Bool
  blocks : Nat
  dataOff : Nat
  digestOff : Nat
  got : List Nat := []
  last : W64
deriving DecidableEq, Repr

/-- A restore under way (R330, R331). -/
structure Restore where
  cmd : Cmd
  host : Bool
  reshape : Bool
  image : Sparse Byte := []
  len : Nat := 0
  got : Nat := 0
deriving DecidableEq, Repr

/-- The checkpoint engine (R318 to R332). -/
structure CkptSt where
  src : Option CkptSrc := none
  inc : Option CkptIn := none
  drain : Option (Cmd × Nat) := none
  restore : Option Restore := none
  requests : List Cmd := []
  seq : Nat := 0
  prevBlocks : Nat := 0
  lastCommitBeat : W64 := 0
deriving DecidableEq, Repr

/-- A signed record of the island (Table 17.3). -/
structure SignedRec where
  kind : Nat
  flags : Nat
  seq : Nat
  stamp : List Byte
  energy : W64
  data : List Byte
  sealCount : Nat
  rejects : Nat
  sig : List Byte
deriving DecidableEq, Repr

/-- An event-log entry of the island (R354). -/
structure LogEntry where
  seq : Nat
  kind : Nat
  param : Nat
  old : Int
  new : Int
  stamp : List Byte
  sealCount : Nat
deriving DecidableEq, Repr

/-- Stamp states (R360). -/
inductive StampSt where
  | unset | holdover | certified
deriving DecidableEq, Repr

/-- The Saffron island (R348 to R363). -/
structure Island where
  energy : W64 := 0
  savedEnergy : W64 := 0
  intervalStart : W64 := 0
  tai : Int := 0
  trim : Int := 0
  trimmed : Bool := false
  stepped : Bool := false
  unc : Nat := 0
  utc : Int := 0
  offsets : List Int := []
  sinceSync : Nat := 0
  reverse : Bool := false
  vbatLow : Bool := false
  vbatLost : Bool := false
  sealCount : Nat := 0
  sealOpen : Bool := false
  changes : List (Nat × Nat) := []
  interval : Nat := 15
  limitUs : Nat := 10000
  stepNs : Nat := 100000000
  calRow : Nat := 0
  calValue : Nat := 0
  boundary : Int := 0
  reverseSeen : Bool := false
  mirrorAt : W64 := 0
  log : List LogEntry := []
  records : List SignedRec := []
  seq : Nat := 0
  rejects : Nat := 0
  timeLog : List (Int × Int) := []
  ready : Bool := false
  tickBeat : W64 := 0
  served : List SignedRec := []
deriving DecidableEq, Repr

/-- The instructions of the IEEE 1149.1 TAP (R378). -/
inductive TapInstr where
  | bypass | idcode | samplePreload | extest | fuseMap
deriving DecidableEq, Repr

/-- The TAP: its instruction and the preloaded cells of the boundary-scan register by land (R378). -/
structure TapPort where
  ir : TapInstr := .idcode
  cells : Sparse Bool := []
deriving DecidableEq, Repr

/-- Supplies, start-up and the management controller (R364 to R372, R389). `bifurcated` is the strap as step 7
sampled it (R376). -/
structure Power where
  standby : Bool := false
  step : Nat := 1
  done : Bool := false
  failed : Bool := false
  stopped : Bool := false
  warm : Bool := false
  keptHbm : Bool := false
  code : Nat := 0
  mcAlt : Bool := false
  regulators : Bool := false
  perst : Bool := true
  fusesLoaded : Bool := false
  hbmReady : Bool := false
  tripped : Bool := false
  tripLog : List Byte := []
  restarts : List Nat := []
  needsPldm : Bool := false
  overTicks : Nat := 0
  underTicks : Nat := 0
  tripTicks : Nat := 0
  thermalHold : Bool := false
  fwOnly : Bool := false
  fw : Sparse (Option W32) := []
  fwGood0 : Bool := true
  fwGood1 : Bool := true
  board : Option (List W32 × List W32 × W32 × W32 × W32) := none
  samples : List (W64 × Nat × Bool) := []
  fieldFaults : List W32 := []
  bifurcated : Bool := false
  tap : TapPort := {}
deriving DecidableEq, Repr

/-- Fuses (R1, R3, R22 to R26). -/
structure Fuses where
  binV : Bool := false
  stepping : Nat := 1
  map : Sparse Byte := []
deriving DecidableEq, Repr

/-- Reasons to stop with a fault. No command of the manual ends in one: the manual gives every
operation an effect, a core fault being an effect (R71). -/
inductive Fault where
  /-- Raised by no meaning: kept so that the outcome type has a fault reason. Safe. -/
  | none
deriving DecidableEq, Repr

/-- Reasons for having no meaning. -/
inductive Refusal where
  /-- A command whose arm is still rejected by name: raised by Dispatch alone. Safe: nothing follows
  from a refusal. -/
  | notModelled (mnemonic : String)
deriving DecidableEq, Repr

/-- The state of the module. `factorE` keeps, by the address of a factor panel, the exponent E of the CHOL.SN or LDLT.SN
that wrote it (R213, R217). -/
structure State where
  pending : List Instr := []
  beat : W64 := 0
  beatsCounted : Nat := 0
  freeCtr : Nat := 0
  readData : W64 := 0
  regs : Sparse W64 := []
  mem : List Host.Cell := []
  bad : List Nat := []
  fuses : Fuses := {}
  readLatch : Sparse (Option W32) := []
  writeHold : Sparse (Option W32) := []
  actualRate : Sparse Nat := []
  alignRun : Nat := 0
  parentDown : Bool := false
  stepDue : Bool := false
  holdoverAt : W64 := 0
  cores : Sparse Core := []
  clusters : Sparse Cluster := []
  insts : Sparse Inst := []
  queues : Sparse QueueSt := []
  qTurn : Rr := {}
  dmaTurn : Sparse Rr := []
  bar4 : Sparse Nat := []
  factorE : Sparse (Option Int) := []
  flags : Sparse Bool := []
  flagTags : Sparse (W64 × Tag) := []
  barTags : Sparse (W64 × Tag) := []
  irqs : List (Nat × Nat) := []
  launches : List LaunchRec := []
  nextLaunch : Nat := 1
  xfers : List Xfer := []
  nextXfer : Nat := 1
  colls : List Coll := []
  buffers : List Buffer := []
  bufGen : Sparse Nat := []
  lastOwner : Sparse Nat := []
  err : ErrSt := {}
  links : Sparse LinkSt := []
  inbox : List Message := []
  ckpt : CkptSt := {}
  island : Island := {}
  power : Power := {}
  moduleSession : Option W64 := none
  nonces : Sparse Nat := []
deriving DecidableEq, Repr

/-- The module right after reset: no start-up step has run, every register at its reset value (an
empty register file), every instance ABSENT, every core IDLE, memory with nothing listed. -/
def State.reset : State := {}

end Sys2Proof.Machine
end

