-- ==== Sys2Proof/Machine/Regs.lean ====
section
/-! DEFINITION. The register map (R382, R390): every register of the manual by name, as its offset in
the physical function's BAR0, with its width, reset value, writable bits and W1C bits, and the
accessors that every meaning uses. -/

namespace Sys2Proof.Machine

/-! ### Names (Table 19.4). `i` is an instance, `q` a queue, `p` a port, `d` a die. -/

namespace R
def devIdent : Nat := 0x0
def devMode : Nat := 0x10
def devFwVer : Nat := 0x14
def devMcFwVer : Nat := 0x18
def devBootStat : Nat := 0x20
def devPwrCfg : Nat := 0x24
def devPwrStat : Nat := 0x28
def devPwrIn : Nat := 0x2C
def dumapDigest (n : Nat) : Nat := 0x100 + 4 * n
def dumapStat : Nat := 0x120
def dumap : Nat := 0x1000
def audCfg (i : Nat) : Nat := 0x2000 + 0x40 * i
def audRing (i : Nat) : Nat := 0x2008 + 0x40 * i
def audSize (i : Nat) : Nat := 0x2010 + 0x40 * i
def audPtr (i : Nat) : Nat := 0x2014 + 0x40 * i
def audInputs (i : Nat) : Nat := 0x2018 + 0x40 * i
def audDigests (i : Nat) : Nat := 0x2020 + 0x40 * i
def audDlen (i : Nat) : Nat := 0x2028 + 0x40 * i
def audStat (i : Nat) : Nat := 0x202C + 0x40 * i
def audCount (i : Nat) : Nat := 0x2030 + 0x40 * i
def beatCount : Nat := 0x100000
def beatStat : Nat := 0x100008
def slipCfg : Nat := 0x100010
def alignCfg : Nat := 0x100020
def alignStat : Nat := 0x100028
def phaseErr : Nat := 0x100030
def portDelay (p : Nat) : Nat := 0x100040 + 4 * p
def beatRate (d : Nat) : Nat := 0x100080 + 4 * d
def qSqBase (q : Nat) : Nat := 0x200000 + 0x80 * q
def qCqBase (q : Nat) : Nat := 0x200008 + 0x80 * q
def qCfg (q : Nat) : Nat := 0x200010 + 0x80 * q
def qIrq (q : Nat) : Nat := 0x200014 + 0x80 * q
def qStat (q : Nat) : Nat := 0x200018 + 0x80 * q
def qPtr (q : Nat) : Nat := 0x20001C + 0x80 * q
def barCfg (n : Nat) : Nat := 0x400000 + 16 * n
def barArr (n : Nat) : Nat := 0x400004 + 16 * n
def barPhase (n : Nat) : Nat := 0x400008 + 16 * n
def syncFlag (w : Nat) : Nat := 0x401000 + 4 * w
def dlCfg : Nat := 0x402000
def dlTimeout : Nat := 0x402004
def dlStat : Nat := 0x402008
def dlGraph (e : Nat) : Nat := 0x403000 + 8 * e
def syncCnt (cl k : Nat) : Nat := 0x500000 + 0x100 * cl + 4 * k
def errSummary : Nat := 0x600000
def errCfg : Nat := 0x600004
def errFfStat : Nat := 0x600008
def errStat : Nat := 0x60000C
def errWindow : Nat := 0x600014
def errDomain (n : Nat) : Nat := 0x600020 + 4 * n
def errFfRec (n : Nat) : Nat := 0x600040 + 8 * n
def errFfCtx (n : Nat) : Nat := 0x600060 + 8 * n
/-- Base of an error queue's page: 64 is the module queue (R317). -/
def errPage (i : Nat) : Nat := if i = 64 then 0x600800 else 0x610000 + 0x1000 * i
def eqBase (i : Nat) : Nat := errPage i
def eqCfg (i : Nat) : Nat := errPage i + 0x8
def eqPtr (i : Nat) : Nat := errPage i + 0xC
def eqIrq (i : Nat) : Nat := errPage i + 0x10
def eqDrop (i : Nat) : Nat := errPage i + 0x14
def eqCoal (i : Nat) : Nat := errPage i + 0x18
def cmpCfg (i : Nat) : Nat := 0x610040 + 0x1000 * i
def cmpFlag (i : Nat) : Nat := 0x610044 + 0x1000 * i
def cmpTimeout (i : Nat) : Nat := 0x610048 + 0x1000 * i
def cmpStat (i : Nat) : Nat := 0x61004C + 0x1000 * i
def cmpLast (i : Nat) : Nat := 0x610050 + 0x1000 * i
def cmpGood (i : Nat) : Nat := 0x610058 + 0x1000 * i
def cmpDigest (i : Nat) : Nat := 0x610060 + 0x1000 * i
def rpHold (i : Nat) : Nat := 0x610068 + 0x1000 * i
def rpRecv (i : Nat) : Nat := 0x610070 + 0x1000 * i
def rpOut (i : Nat) : Nat := 0x610078 + 0x1000 * i
def rpLen (i : Nat) : Nat := 0x610080 + 0x1000 * i
def rpStat (i : Nat) : Nat := 0x610088 + 0x1000 * i
def cntCfg (i : Nat) : Nat := 0x800000 + 0x1000 * i
def cmdRing (i : Nat) : Nat := 0x800008 + 0x1000 * i
def cmdPtr (i : Nat) : Nat := 0x800010 + 0x1000 * i
def cmdSize (i : Nat) : Nat := 0x800014 + 0x1000 * i
def cntStat (i : Nat) : Nat := 0x800018 + 0x1000 * i
def cmdDrop (i : Nat) : Nat := 0x80001C + 0x1000 * i
def telem (i : Nat) : Nat := 0x800020 + 0x1000 * i
def telemDrop (i : Nat) : Nat := 0x800024 + 0x1000 * i
def authStat (i : Nat) : Nat := 0xA00000 + 0x1000 * i
def authExp (i : Nat) : Nat := 0xA00008 + 0x1000 * i
def authNonce (i n : Nat) : Nat := 0xA00010 + 0x1000 * i + 4 * n
def haltStat (i : Nat) : Nat := 0xA00024 + 0x1000 * i
def hitUid (i : Nat) : Nat := 0xA00028 + 0x1000 * i
def hitBeat (i : Nat) : Nat := 0xA00030 + 0x1000 * i
def dbgStat (i : Nat) : Nat := 0xA00038 + 0x1000 * i
def drainMax (i : Nat) : Nat := 0xA0003C + 0x1000 * i
def bpSel (i : Nat) : Nat := 0xA00040 + 0x1000 * i
def bpCfg (i : Nat) : Nat := 0xA00044 + 0x1000 * i
def bpLo (i : Nat) : Nat := 0xA00048 + 0x1000 * i
def bpHi (i : Nat) : Nat := 0xA00050 + 0x1000 * i
def accUid (i : Nat) : Nat := 0xA00058 + 0x1000 * i
def accOff (i : Nat) : Nat := 0xA0005C + 0x1000 * i
def accData (i : Nat) : Nat := 0xA00060 + 0x1000 * i
def traceCfg (i : Nat) : Nat := 0xA00068 + 0x1000 * i
def traceLost (i : Nat) : Nat := 0xA0006C + 0x1000 * i
def updCfg (i : Nat) : Nat := 0xC00000 + 0x1000 * i
def shardBase (i : Nat) : Nat := 0xC00008 + 0x1000 * i
def shardCount (i : Nat) : Nat := 0xC00010 + 0x1000 * i
def hsetBase (i : Nat) : Nat := 0xC00018 + 0x1000 * i
def lscale (i : Nat) : Nat := 0xC00020 + 0x1000 * i
def lscaleGrow (i : Nat) : Nat := 0xC00024 + 0x1000 * i
def lscaleAddr (i : Nat) : Nat := 0xC00028 + 0x1000 * i
def updStep (i : Nat) : Nat := 0xC00030 + 0x1000 * i
def updCommits (i : Nat) : Nat := 0xC00038 + 0x1000 * i
def updStepStat (i : Nat) : Nat := 0xC00040 + 0x1000 * i
def gateTimeout (i : Nat) : Nat := 0xC00044 + 0x1000 * i
def gateErr (i : Nat) : Nat := 0xC00048 + 0x1000 * i
def gateLast (i : Nat) : Nat := 0xC0004C + 0x1000 * i
def nsA (i : Nat) : Nat := 0xC00050 + 0x1000 * i
def nsB (i : Nat) : Nat := 0xC00054 + 0x1000 * i
def nsC (i : Nat) : Nat := 0xC00058 + 0x1000 * i
def skipCount (i : Nat) : Nat := 0xC00060 + 0x1000 * i
def replayCount (i : Nat) : Nat := 0xC00064 + 0x1000 * i
def cloveCount (i : Nat) : Nat := 0xC00068 + 0x1000 * i
def curvCfg (i : Nat) : Nat := 0xD00000 + 0x1000 * i
def layerBase (i : Nat) : Nat := 0xD00008 + 0x1000 * i
def layerCount (i : Nat) : Nat := 0xD00010 + 0x1000 * i
def curvDispatch (i : Nat) : Nat := 0xD00014 + 0x1000 * i
def residMax (i : Nat) : Nat := 0xD00018 + 0x1000 * i
def rootLim (i : Nat) : Nat := 0xD0001C + 0x1000 * i
def lateMax (i : Nat) : Nat := 0xD00020 + 0x1000 * i
def curvStat (i : Nat) : Nat := 0xD00028 + 0x1000 * i
def curvLast (i : Nat) : Nat := 0xD0002C + 0x1000 * i
def suspectCount (i : Nat) : Nat := 0xD00030 + 0x1000 * i
def lateCount (i : Nat) : Nat := 0xD00034 + 0x1000 * i
def foldCount (i : Nat) : Nat := 0xD00038 + 0x1000 * i
def solvCfg (i : Nat) : Nat := 0xE00000 + 0x1000 * i
def abandonMax (i : Nat) : Nat := 0xE00004 + 0x1000 * i
def solvStat (i : Nat) : Nat := 0xE00008 + 0x1000 * i
def solvLast (i : Nat) : Nat := 0xE0000C + 0x1000 * i
def solvActive (i : Nat) : Nat := 0xE00010 + 0x1000 * i
def solvCount (i : Nat) : Nat := 0xE00014 + 0x1000 * i
def solvMiss (i : Nat) : Nat := 0xE00018 + 0x1000 * i
def solvViol (i : Nat) : Nat := 0xE0001C + 0x1000 * i
def solvReg (i : Nat) : Nat := 0xE00020 + 0x1000 * i
def linkCfg (p : Nat) : Nat := 0x1000000 + 0x10000 * p
def linkExpect (p : Nat) : Nat := 0x1000004 + 0x10000 * p
def linkStat (p : Nat) : Nat := 0x1000008 + 0x10000 * p
def linkPeer (p : Nat) : Nat := 0x100000C + 0x10000 * p
def vcWeight (p n : Nat) : Nat := 0x1000010 + 0x10000 * p + 4 * n
def vcBuf (p n : Nat) : Nat := 0x1000018 + 0x10000 * p + 4 * n
def retryCount (p : Nat) : Nat := 0x1000028 + 0x10000 * p
def fecCorr (p : Nat) : Nat := 0x100002C + 0x10000 * p
def fecUncorr (p : Nat) : Nat := 0x1000030 + 0x10000 * p
def collJob (i : Nat) : Nat := 0x1100000 + 0x1000 * i
def collOrigin (i : Nat) : Nat := 0x1100004 + 0x1000 * i
def collJext (i : Nat) : Nat := 0x1100008 + 0x1000 * i
def collCut (i : Nat) : Nat := 0x110000C + 0x1000 * i
def verdictLead (i : Nat) : Nat := 0x1100010 + 0x1000 * i
def collPartner (i : Nat) : Nat := 0x1100014 + 0x1000 * i
def collStat (i : Nat) : Nat := 0x1100018 + 0x1000 * i
def resendCount (i : Nat) : Nat := 0x110001C + 0x1000 * i
def lastSeq (i : Nat) : Nat := 0x1100020 + 0x1000 * i
def chunkTimeout (i : Nat) : Nat := 0x1100024 + 0x1000 * i
def collCoord : Nat := 0x1180000
def collExt : Nat := 0x1180004
def collMstat : Nat := 0x1180008
def dropCount : Nat := 0x118000C
def ckptCfg : Nat := 0x1200000
def buddyAxis : Nat := 0x1200004
def warnThreshold : Nat := 0x1200008
def copyTimeout : Nat := 0x120000C
def ckptTimer : Nat := 0x1200010
def ckptList : Nat := 0x1200018
def ckptBase : Nat := 0x1200020
def ckptStat : Nat := 0x1200028
def ckptLastC : Nat := 0x1200030
def ckptSlotC (n : Nat) : Nat := 0x1200038 + 8 * n
def ckptCount : Nat := 0x1200048
def ckptBytes : Nat := 0x1200050
def poolFree : Nat := 0x1300000
def poolBufs : Nat := 0x1300004
def buddyCfg : Nat := 0x1300008
def poolErr : Nat := 0x1300010
def poolLast : Nat := 0x1300014
def instCtrl (i : Nat) : Nat := 0x1400000 + 0x100 * i
def instCfg (i : Nat) : Nat := 0x1400004 + 0x100 * i
def instSeed (i : Nat) : Nat := 0x1400008 + 0x100 * i
def instGroups (i n : Nat) : Nat := 0x1400010 + 0x100 * i + 4 * n
def instQuota (i : Nat) : Nat := 0x1400030 + 0x100 * i
def instFlags (i : Nat) : Nat := 0x1400034 + 0x100 * i
def instVec (i : Nat) : Nat := 0x1400038 + 0x100 * i
def instBars (i : Nat) : Nat := 0x140003C + 0x100 * i
def instWeight (i : Nat) : Nat := 0x1400040 + 0x100 * i
def instCtx (i : Nat) : Nat := 0x1400048 + 0x100 * i
def instMirror (i : Nat) : Nat := 0x1400050 + 0x100 * i
def instGen (i : Nat) : Nat := 0x1400058 + 0x100 * i
def instOrphans (i : Nat) : Nat := 0x140005C + 0x100 * i
def staleDrop (i : Nat) : Nat := 0x1400060 + 0x100 * i
def resetTimeout (i : Nat) : Nat := 0x1400064 + 0x100 * i
def instQueues (i : Nat) : Nat := 0x1400068 + 0x100 * i
def mtrSerial : Nat := 0x1500000
def mtrStat : Nat := 0x1500008
def mtrEnergy : Nat := 0x1500010
def mtrVolt : Nat := 0x1500018
def mtrCurr : Nat := 0x150001C
def mtrPower : Nat := 0x1500020
def mtrSeal : Nat := 0x1500024
def mtrLogCount : Nat := 0x1500028
def mtrRejects : Nat := 0x150002C
def mtrTime (n : Nat) : Nat := 0x1500030 + 4 * n
def mtrTickBeat : Nat := 0x1500040
def mtrRecSeq : Nat := 0x1500048
def mtrRom (n : Nat) : Nat := 0x1500050 + 4 * n
def mtrKey (n : Nat) : Nat := 0x1500070 + 4 * n
def unitGang (cl : Nat) : Nat := 0x8000000 + 0x1000 * cl
def unitCstat (cl c : Nat) : Nat := 0x8000800 + 0x1000 * cl + 8 * c
def unitCfault (cl c : Nat) : Nat := 0x8000804 + 0x1000 * cl + 8 * c
end R

/-! ### Blocks (Table 19.1) -/

/-- The blocks in the order of Table 19.1; an error record's BLOCK is the position (R295). -/
inductive Block where
  | dev | beat | qctl | sync | err | cnt | dbg | upd | curv | solv | link | coll | ckpt | mem | inst | mtr | unit
deriving DecidableEq, Repr

/-- The block's number in an error record (Table 14.2). -/
def Block.num : Block → Nat
  | .dev => 0 | .beat => 1 | .qctl => 2 | .sync => 3 | .err => 4 | .cnt => 5 | .dbg => 6 | .upd => 7
  | .curv => 8 | .solv => 9 | .link => 10 | .coll => 11 | .ckpt => 12 | .mem => 13 | .inst => 14
  | .mtr => 15 | .unit => 16

/-- The block an offset lies in, with the block's base (Table 19.1). -/
def blockAt (off : Nat) : Option (Block × Nat) :=
  if off < 0x3000 then some (.dev, 0)
  else if 0x100000 ≤ off ∧ off < 0x1000C0 then some (.beat, 0x100000)
  else if 0x200000 ≤ off ∧ off < 0x400000 then some (.qctl, 0x200000)
  else if 0x400000 ≤ off ∧ off < 0x600000 then some (.sync, 0x400000)
  else if 0x600000 ≤ off ∧ off < 0x650000 then some (.err, 0x600000)
  else if 0x800000 ≤ off ∧ off < 0x840000 then some (.cnt, 0x800000)
  else if 0xA00000 ≤ off ∧ off < 0xA40000 then some (.dbg, 0xA00000)
  else if 0xC00000 ≤ off ∧ off < 0xC40000 then some (.upd, 0xC00000)
  else if 0xD00000 ≤ off ∧ off < 0xD40000 then some (.curv, 0xD00000)
  else if 0xE00000 ≤ off ∧ off < 0xE40000 then some (.solv, 0xE00000)
  else if 0x1000000 ≤ off ∧ off < 0x1080000 then some (.link, 0x1000000)
  else if 0x1100000 ≤ off ∧ off < 0x1181000 then some (.coll, 0x1100000)
  else if 0x1200000 ≤ off ∧ off < 0x1201000 then some (.ckpt, 0x1200000)
  else if 0x1300000 ≤ off ∧ off < 0x1301000 then some (.mem, 0x1300000)
  else if 0x1400000 ≤ off ∧ off < 0x1404000 then some (.inst, 0x1400000)
  else if 0x1500000 ≤ off ∧ off < 0x1501000 then some (.mtr, 0x1500000)
  else if 0x8000000 ≤ off ∧ off < 0x9000000 then some (.unit, 0x8000000)
  else none

/-- What a register table gives one register: whether it is 64 bits wide, its reset value, the bits a
write stores (RW), and the bits a written one clears (W1C). -/
structure RegInfo where
  wide : Bool := false
  reset : Nat := 0
  rw : Nat := 0
  w1c : Nat := 0
deriving DecidableEq, Repr

def ro : RegInfo := {}
def ro64 : RegInfo := { wide := true }
def rw32 (mask : Nat) (reset : Nat := 0) : RegInfo := { rw := mask, reset := reset }
def rw64 (mask : Nat) : RegInfo := { wide := true, rw := mask }
def w1c32 (mask : Nat) : RegInfo := { w1c := mask }

/-- Tables 0.2, 1.5, 13.4 and 18.7. -/
def devInfo (o : Nat) : Option RegInfo :=
  if 0x2000 ≤ o then
    match o % 0x40 with
    | 0x00 => some (rw32 0xFFFF0003)
    | 0x08 => some (rw64 0xFFFFFFFFFF00)
    | 0x10 => some (rw32 0xFFFF)
    | 0x14 => some (rw32 0xFFFF)
    | 0x18 => some (rw64 0xFFFFFFFFFFFF)
    | 0x20 => some (rw64 0xFFFFFFFFFFFF)
    | 0x28 => some (rw32 0xFFFFFFFF)
    | 0x2C => some (w1c32 0x7)
    | 0x30 => some ro
    | _ => none
  else if 0x100 ≤ o ∧ o < 0x120 then (if o % 4 = 0 then some ro else none)
  else match o with
    | 0x00 => some ro
    | 0x10 => some (rw32 0x3)
    | 0x14 => some ro
    | 0x18 => some ro
    | 0x20 => some ro
    | 0x24 => some (rw32 0x3FFFF 0x132C8)
    | 0x28 => some { reset := 0x1, w1c := 0x1C }
    | 0x2C => some ro
    | 0x120 => some ro
    | _ => if 0x1000 ≤ o ∧ o < 0x2000 ∧ o % 4 = 0 then some ro else none

/-- Table 2.4. -/
def beatInfo (o : Nat) : Option RegInfo :=
  match o with
  | 0x00 => some ro64
  | 0x08 => some (w1c32 0x2)
  | 0x10 => some (rw32 0xFF 0x01)
  | 0x20 => some (rw32 0x1FF)
  | 0x28 => some (w1c32 0x4)
  | 0x30 => some ro
  | _ => if 0x40 ≤ o ∧ o < 0x60 ∧ o % 4 = 0 then some ro
         else if 0x80 ≤ o ∧ o < 0xC0 ∧ o % 4 = 0 then some ro else none

/-- Table 11.8. SQ_LOG2 and CQ_LOG2 reset to 1, WEIGHT to 1. -/
def qctlInfo (o : Nat) : Option RegInfo :=
  match o % 0x80 with
  | 0x00 => some (rw64 0xFFFFFFFFFFFFFFC0)
  | 0x08 => some (rw64 0xFFFFFFFFFFFFFFC0)
  | 0x10 => some (rw32 0x3FFF3FFF 0x00400210)
  | 0x14 => some (rw32 0xFFF)
  | 0x18 => some (w1c32 0xE)
  | 0x1C => some ro
  | 0x20 => some ro
  | _ => none

/-- Table 11.9. -/
def syncInfo (o : Nat) : Option RegInfo :=
  if o < 0x1000 then
    match o % 16 with
    | 0x0 => some (rw32 0x1FFFFF)
    | 0x4 => some ro
    | 0x8 => some ro
    | _ => none
  else if 0x1000 ≤ o ∧ o < 0x1200 then (if o % 4 = 0 then some ro else none)
  else if o = 0x2000 then some (rw32 0x7 0x1)
  else if o = 0x2004 then some (rw32 0xFFFFFFFF 0x00100000)
  else if o = 0x2008 then some (w1c32 0x1)
  else if 0x3000 ≤ o ∧ o < 0x3800 then (if o % 8 = 0 then some ro64 else none)
  else if 0x100000 ≤ o then (if o % 4 = 0 then some ro else none)
  else none

/-- Table 14.7, a queue's registers. -/
def errQInfo (o : Nat) : Option RegInfo :=
  match o with
  | 0x00 => some (rw64 0xFFFFFFFFFFFFFFE0)
  | 0x08 => some (rw32 0x00FFFF7F 0x00001018)
  | 0x0C => some (rw32 0xFFFF)
  | 0x10 => some (rw32 0xFFF)
  | 0x14 => some ro
  | 0x18 => some ro
  | _ => none

/-- Table 14.7. ERR_Q_CFG resets with LOG2 6 and RESERVE 0x10. -/
def errInfo (o : Nat) : Option RegInfo :=
  if o < 0x800 then
    match o with
    | 0x00 => some ro
    | 0x04 => some (rw32 0xFF01 0x1000)
    | 0x08 => some (w1c32 0x1)
    | 0x0C => some (w1c32 0x3)
    | 0x10 => some ro
    | 0x14 => some (rw32 0xFFFFFFFF 0x02000000)
    | _ => if 0x20 ≤ o ∧ o < 0x30 ∧ o % 4 = 0 then some ro
           else if 0x40 ≤ o ∧ o < 0xA0 ∧ o % 8 = 0 then some ro64 else none
  else if o < 0x1000 then errQInfo (o - 0x800)
  else if o < 0x10000 then none
  else match o % 0x1000 with
    | 0x40 => some (rw32 0xFFFFFF 0x820032)
    | 0x44 => some (rw32 0xFFF)
    | 0x48 => some (rw32 0xFFFFFFFF 0x00400000)
    | 0x4C => some (w1c32 0xF)
    | 0x50 => some ro
    | 0x58 => some ro64
    | 0x60 => some ro64
    | 0x68 => some (rw64 0xFFFFFFFFFFFF)
    | 0x70 => some (rw64 0xFFFFFFFFFFFF)
    | 0x78 => some (rw64 0xFFFFFFFFFFFF)
    | 0x80 => some (rw32 0xFFFFFFFF)
    | 0x84 => some ro
    | 0x88 => some (w1c32 0x1)
    | p => errQInfo p

/-- Table 16.6. -/
def cntInfo (o : Nat) : Option RegInfo :=
  match o % 0x1000 with
  | 0x00 => some (rw32 0x1)
  | 0x08 => some (rw64 0xFFFFFFFFFF00)
  | 0x10 => some (rw32 0xFFFF)
  | 0x14 => some (rw32 0xFFFF)
  | 0x18 => some (w1c32 0x1)
  | 0x1C => some ro
  | 0x20 => some (rw32 0x80FFFFFF)
  | 0x24 => some ro
  | _ => none

/-- Table 16.7. -/
def dbgInfo (o : Nat) : Option RegInfo :=
  match o % 0x1000 with
  | 0x00 => some ro
  | 0x04 => some ro
  | 0x08 => some ro64
  | 0x10 => some ro
  | 0x14 => some ro
  | 0x18 => some ro
  | 0x1C => some ro
  | 0x20 => some ro
  | 0x24 => some ro
  | 0x28 => some ro
  | 0x30 => some ro64
  | 0x38 => some (w1c32 0x7)
  | 0x3C => some (rw32 0xFFFFFFFF 0x00004000)
  | 0x40 => some (rw32 0x3FFFFF)
  | 0x44 => some (rw32 0x1FFFFF)
  | 0x48 => some (rw64 0xFFFFFFFFFFFFFFFF)
  | 0x50 => some (rw64 0xFFFFFFFFFFFFFFFF)
  | 0x58 => some (rw32 0xFFFFFFFF)
  | 0x5C => some (rw32 0xFFFFFFFF)
  | 0x60 => some (rw64 0xFFFFFFFFFFFFFFFF)
  | 0x68 => some (rw32 0xFFFF01FF 0xFFFF01F8)
  | 0x6C => some ro
  | _ => none

/-- Table 9.7. -/
def updInfo (o : Nat) : Option RegInfo :=
  match o % 0x1000 with
  | 0x00 => some (rw32 0x0FFFFFF7)
  | 0x08 => some (rw64 0xFFFFFFFFFF80)
  | 0x10 => some (rw32 0x1FFFFF)
  | 0x18 => some (rw64 0xFFFFFFFFFFE0)
  | 0x20 => some (rw32 0xFFFFFF 0x180010)
  | 0x24 => some (rw32 0xFFFF 0x07D0)
  | 0x28 => some (rw64 0xFFFFFFFFFFFC)
  | 0x30 => some (rw64 0xFFFFFFFFFFFFFFFF)
  | 0x38 => some (rw64 0xFFFFFFFFFFFFFFFF)
  | 0x40 => some ro
  | 0x44 => some (rw32 0xFFFFFFFF 0x00400000)
  | 0x48 => some (w1c32 0x7F)
  | 0x4C => some ro
  | 0x50 => some (rw32 0xFFFFFFFF 0x3FC00000)
  | 0x54 => some (rw32 0xFFFFFFFF 0xBF000000)
  | 0x58 => some (rw32 0xFFFFFFFF)
  | 0x60 => some ro
  | 0x64 => some ro
  | 0x68 => some ro
  | _ => none

/-- Table 8.5. -/
def curvInfo (o : Nat) : Option RegInfo :=
  match o % 0x1000 with
  | 0x00 => some (rw32 0x7)
  | 0x08 => some (rw64 0xFFFFFFFFFF80)
  | 0x10 => some (rw32 0x1FFFF)
  | 0x14 => some (rw32 0x1FFFFFF)
  | 0x18 => some (rw32 0xFFFFFFFF 0x3B800000)
  | 0x1C => some (rw32 0xFFFFFF 0x003203)
  | 0x20 => some (rw32 0xFFFFFFFF 0x01000000)
  | 0x28 => some (w1c32 0x3F)
  | 0x2C => some ro
  | 0x30 => some ro
  | 0x34 => some ro
  | 0x38 => some ro
  | _ => none

/-- Table 10.6. -/
def solvInfo (o : Nat) : Option RegInfo :=
  match o % 0x1000 with
  | 0x00 => some (rw32 0x3 0x2)
  | 0x04 => some (rw32 0xFFFFFFFF 0x00010000)
  | 0x08 => some (w1c32 0x7F)
  | 0x0C => some ro
  | 0x10 => some ro
  | 0x14 => some ro
  | 0x18 => some ro
  | 0x1C => some ro
  | 0x20 => some ro
  | _ => none

/-- Table 12.7. -/
def linkInfo (o : Nat) : Option RegInfo :=
  match o % 0x10000 with
  | 0x00 => some (rw32 0x3 0x2)
  | 0x04 => some (rw32 0xFFFFFF)
  | 0x08 => some (w1c32 0x1C)
  | 0x0C => some ro
  | 0x10 => some (rw32 0xFFFFFFFF 0x10408020)
  | 0x14 => some (rw32 0xFFFFFFFF 0x00000840)
  | 0x18 => some (rw32 0xFFFFFFFF 0x04C00040)
  | 0x1C => some (rw32 0xFFFFFFFF 0x00800180)
  | 0x20 => some (rw32 0xFFFFFFFF 0x00400080)
  | 0x24 => some (rw32 0xFFFFFFFF 0x00200020)
  | 0x28 => some ro
  | 0x2C => some ro
  | 0x30 => some ro
  | _ => none

/-- Table 12.8. -/
def collInfo (o : Nat) : Option RegInfo :=
  if 0x80000 ≤ o then
    match o with
    | 0x80000 => some (rw32 0xFFFFFF)
    | 0x80004 => some (rw32 0xFFFFFF)
    | 0x80008 => some (w1c32 0x1)
    | 0x8000C => some ro
    | _ => none
  else match o % 0x1000 with
    | 0x00 => some (rw32 0xFFFF)
    | 0x04 => some (rw32 0xFFFFFF)
    | 0x08 => some (rw32 0xFFFFFF)
    | 0x0C => some (rw32 0x7FFF 0x4924)
    | 0x10 => some (rw32 0xFFFFFFFF 0x00004000)
    | 0x14 => some ro
    | 0x18 => some (w1c32 0x3F)
    | 0x1C => some ro
    | 0x20 => some ro
    | 0x24 => some (rw32 0xFFFFFFFF 0x00100000)
    | _ => none

/-- Table 15.3. -/
def ckptInfo (o : Nat) : Option RegInfo :=
  match o with
  | 0x00 => some (rw32 0xFFFF3F01)
  | 0x04 => some (rw32 0x7 0x4)
  | 0x08 => some (rw32 0xFFFF)
  | 0x0C => some (rw32 0xFFFFFFFF 0x00400000)
  | 0x10 => some (rw64 0xFFFFFFFFFFFFFFFF)
  | 0x18 => some (rw64 0xFFFFFFFFFFF0)
  | 0x20 => some (rw64 0xFFFFFFFF0000)
  | 0x28 => some { reset := 0x1, w1c := 0x3C }
  | 0x30 => some ro64
  | 0x38 => some ro64
  | 0x40 => some ro64
  | 0x48 => some ro
  | 0x50 => some ro64
  | _ => none

/-- Table 7.5. -/
def memInfo (o : Nat) : Option RegInfo :=
  match o with
  | 0x00 => some ro
  | 0x04 => some ro
  | 0x08 => some (rw32 0x7F)
  | 0x10 => some (w1c32 0xF)
  | 0x14 => some ro
  | _ => none

/-- Table 11.10. -/
def instInfo (o : Nat) : Option RegInfo :=
  match o % 0x100 with
  | 0x00 => some ro
  | 0x04 => some (rw32 0x7)
  | 0x08 => some (rw64 0xFFFFFFFFFFFFFFFF)
  | 0x30 => some (rw32 0x3FFFF)
  | 0x34 => some (rw32 0x1FFFFFF)
  | 0x38 => some (rw32 0xFFF7FF)
  | 0x3C => some (rw32 0x1FFFF)
  | 0x40 => some (rw32 0xFFFFFF 0x101010)
  | 0x48 => some (rw64 0xFFFFFFFFFFFFFFC0)
  | 0x50 => some (rw64 0xFFFFFFFFFFFFFFFC)
  | 0x58 => some ro
  | 0x5C => some ro
  | 0x60 => some ro
  | 0x64 => some (rw32 0xFFFFFFFF 0x02000000)
  | 0x68 => some ro
  | p => if 0x10 ≤ p ∧ p < 0x30 ∧ p % 4 = 0 then some (rw32 0xFFFFFFFF) else none

/-- Table 17.4. -/
def mtrInfo (o : Nat) : Option RegInfo :=
  match o with
  | 0x00 => some ro64
  | 0x08 => some ro
  | 0x10 => some ro64
  | 0x40 => some ro64
  | 0x48 => some ro64
  | _ => if 0x18 ≤ o ∧ o < 0xB0 ∧ o % 4 = 0 then some ro else none

/-- Table 3.8. -/
def unitInfo (o : Nat) : Option RegInfo :=
  let p := o % 0x1000
  if p = 0 then some ro else if 0x800 ≤ p ∧ p % 4 = 0 then some ro else none

/-- What the defining table gives the register at an offset; none where no table assigns it (R382). -/
def regInfo (off : Nat) : Option RegInfo :=
  match blockAt off with
  | none => none
  | some (b, base) =>
    let o := off - base
    match b with
    | .dev => devInfo o
    | .beat => beatInfo o
    | .qctl => qctlInfo o
    | .sync => syncInfo o
    | .err => errInfo o
    | .cnt => cntInfo o
    | .dbg => dbgInfo o
    | .upd => updInfo o
    | .curv => curvInfo o
    | .solv => solvInfo o
    | .link => linkInfo o
    | .coll => collInfo o
    | .ckpt => ckptInfo o
    | .mem => memInfo o
    | .inst => instInfo o
    | .mtr => mtrInfo o
    | .unit => unitInfo o

/-- The reset value of the register at an offset. -/
def resetOf (off : Nat) : W64 :=
  match regInfo off with
  | some r => BitVec.ofNat 64 r.reset
  | none => 0

/-! ### Accessors -/

/-- The stored value of a register. -/
def State.reg (s : State) (off : Nat) : W64 := sget resetOf s.regs off

/-- The state with a register's stored value replaced. -/
def State.setReg (s : State) (off : Nat) (v : W64) : State :=
  { s with regs := sput resetOf s.regs off v }

/-- Bits [lo + w - 1 : lo] of a register. -/
def State.fld (s : State) (off lo w : Nat) : Nat := bfGet (s.reg off) lo w

/-- One bit of a register. -/
def State.bit (s : State) (off lo : Nat) : Bool := (s.reg off).getLsbD lo

/-- The state with a field of a register replaced. -/
def State.setFld (s : State) (off lo w v : Nat) : State := s.setReg off (bfSet (s.reg off) lo w v)

/-- The state with one bit of a register set or cleared. -/
def State.setBit (s : State) (off lo : Nat) (b : Bool) : State := s.setFld off lo 1 b.toNat

/-- A 32-bit counter register incremented, stopping at its maximum. -/
def State.incReg (s : State) (off : Nat) (by_ : Nat := 1) : State :=
  s.setReg off (BitVec.ofNat 64 (satInc 32 (s.reg off).toNat by_))

/-- A write of `v` as the access codes of a register's bits take it (R7, R8): RW bits are stored, a
one clears a W1C bit, every other bit keeps its value. -/
def State.rawWrite (s : State) (off : Nat) (v : W64) : State :=
  match regInfo off with
  | none => s
  | some r =>
    let old := s.reg off
    let rwm : W64 := BitVec.ofNat 64 r.rw
    let clr : W64 := BitVec.ofNat 64 r.w1c &&& v
    s.setReg off (((old &&& ~~~rwm) ||| (v &&& rwm)) &&& ~~~clr)

/-- The registers with an offset in [lo, hi) returned to their reset values; held lower halves of them are discarded
(R6). -/
def State.resetRange (s : State) (lo hi : Nat) : State :=
  { s with regs := s.regs.filter fun e => decide (e.1 < lo ∨ hi ≤ e.1),
           writeHold := s.writeHold.filter fun e => decide (e.1 % 2 ^ 28 < lo ∨ hi ≤ e.1 % 2 ^ 28) }

/-- Every held lower half of a register discarded (R6). -/
def State.dropHeld (s : State) (off : Nat) : State :=
  { s with writeHold := s.writeHold.filter fun e => decide (e.1 % 2 ^ 28 ≠ off) }

end Sys2Proof.Machine
end

