-- ==== Sys2Proof/Machine/Ops.lean ====
section
/-! DEFINITION. The named operations over memory, cores, clusters, instances and error records that
every meaning uses. -/

namespace Sys2Proof.Machine

/-! ### Where each memory lies in the one address list (log 3) -/

/-- First address that no HBM backs (R150). -/
def hbmTop : Nat := 0x6000000000
/-- Base of a core's scratchpad. -/
def spBase (k : Nat) : Nat := 2 ^ 40 + k * 2 ^ 16
/-- Base of a cluster's buffer. -/
def cbBase (cl : Nat) : Nat := 2 ^ 41 + cl * 2 ^ 22
/-- Base of an instruction bank of a core. -/
def bankBase (k : Nat) (b : Bool) : Nat := 2 ^ 42 + (2 * k + b.toNat) * 2 ^ 13
/-- Base of host memory. -/
def hostBase : Nat := 2 ^ 64

/-- What a byte of memory that nothing has written reads as (log 3). -/
def unwritten (_ : Nat) : Byte := 0

/-- The byte at an address. -/
def State.rb (s : State) (a : Nat) : Byte := sget unwritten s.mem a

/-- The bytes at `n` consecutive addresses. -/
def State.rbs (s : State) (a n : Nat) : List Byte := (List.range n).map fun i => s.rb (a + i)

/-- The little-endian number in `n` bytes (R5). -/
def State.rd (s : State) (a n : Nat) : Nat := leNat (s.rbs a n)

/-- Whether one of `n` bytes lies in an uncorrectable word (R303). -/
def State.poisoned (s : State) (a n : Nat) : Bool :=
  s.bad.any fun w => decide (w < a + n ∧ a < w + 8)

/-- The first uncorrectable word that `n` bytes meet, if they meet one. -/
def State.badWord (s : State) (a n : Nat) : Option Nat := s.bad.find? fun w => decide (w < a + n ∧ a < w + 8)

/-- The first uncorrectable word among ranges, counting only words covered in part where `part` is set (R303). -/
def State.badAmong (s : State) (l : List (Nat × Nat)) (part : Bool) : Option Nat :=
  l.findSome? fun r => s.bad.find? fun w =>
    decide (w < r.1 + r.2 ∧ r.1 < w + 8 ∧ ¬(part ∧ r.1 ≤ w ∧ w + 8 ≤ r.1 + r.2))

/-- Whether a write of `n` bytes covers only part of an uncorrectable word (R303). -/
def State.partBad (s : State) (a n : Nat) : Bool :=
  s.bad.any fun w => decide (w < a + n ∧ a < w + 8 ∧ ¬(a ≤ w ∧ w + 8 ≤ a + n))

/-- One byte stored, in canonical form; a byte of an uncorrectable word is not changed (R303). -/
def State.wb (s : State) (a : Nat) (v : Byte) : State :=
  if s.poisoned a 1 then s else { s with mem := sput unwritten s.mem a v }

/-- A run of bytes stored one by one. -/
def State.wbs (s : State) (a : Nat) : List Byte → State
  | [] => s
  | v :: vs => (s.wb a v).wbs (a + 1) vs

/-- A write of a run of bytes: it re-encodes every word it covers whole, and leaves an uncorrectable
word that it covers in part unchanged (R303). -/
def State.write (s : State) (a : Nat) (bs : List Byte) : State :=
  { s with bad := s.bad.filter fun w => !decide (a ≤ w ∧ w + 8 ≤ a + bs.length) }.wbs a bs

/-- A number written as `n` little-endian bytes (R5). -/
def State.wr (s : State) (a n x : Nat) : State := s.write a (leBytes n x)

/-! ### Units -/

def State.core (s : State) (k : Nat) : Core := sget (fun _ => {}) s.cores k
def State.setCore (s : State) (k : Nat) (c : Core) : State :=
  { s with cores := sput (fun _ => {}) s.cores k c }
def State.cluster (s : State) (cl : Nat) : Cluster := sget (fun _ => {}) s.clusters cl
def State.setCluster (s : State) (cl : Nat) (c : Cluster) : State :=
  { s with clusters := sput (fun _ => {}) s.clusters cl c }
def State.inst (s : State) (i : Nat) : Inst := sget (fun _ => {}) s.insts i
def State.setInst (s : State) (i : Nat) (x : Inst) : State :=
  { s with insts := sput (fun _ => {}) s.insts i x }
def State.queue (s : State) (q : Nat) : QueueSt := sget (fun _ => {}) s.queues q
def State.setQueue (s : State) (q : Nat) (x : QueueSt) : State :=
  { s with queues := sput (fun _ => {}) s.queues q x }
def State.link (s : State) (p : Nat) : LinkSt := sget (fun _ => {}) s.links p
def State.setLink (s : State) (p : Nat) (x : LinkSt) : State :=
  { s with links := sput (fun _ => {}) s.links p x }
def State.gate (s : State) (i : Nat) : Gate := (s.inst i).gate
def State.setGate (s : State) (i : Nat) (g : Gate) : State := s.setInst i { s.inst i with gate := g }
def State.setErr (s : State) (e : ErrSt) : State := { s with err := e }

/-- Whose turn it is among those that have an item, given in ascending order: the turn in progress goes on while its
number has one, else the next number in circular order takes it (R230, R233). -/
def Rr.pick (r : Rr) (ready : List Nat) : Option Nat :=
  if decide (r.left ≠ 0) && ready.contains r.cur then some r.cur
  else (ready.find? fun n => decide (r.cur ≤ n)).or ready.head?

/-- An item of number n taken, n having a weight (0 acts as 1): its turn lasts that many items. -/
def Rr.take (r : Rr) (n weight : Nat) : Rr :=
  let left := (if r.left ≠ 0 ∧ r.cur = n then r.left else max 1 weight) - 1
  { cur := if left = 0 then n + 1 else n, left := left }

/-- A run over a list, each item changing the state in turn. -/
def forEach {α : Type} (l : List α) (s : State) (f : State → α → State) : State := l.foldl f s

/-- The cluster of a core key, and its index in the cluster (R64). -/
def clOf (k : Nat) : Nat := k / 256
def idxOf (k : Nat) : Nat := k % 256
/-- The die of a cluster index (R64). -/
def dieOf (cl : Nat) : Nat := cl / 256 % 16

/-- A field of sparse core state. -/
def Core.eng' (c : Core) (e : Nat) : EngRec := sget (fun _ => {}) c.eng e
def Core.setEng (c : Core) (e : Nat) (r : EngRec) : Core := { c with eng := sput (fun _ => {}) c.eng e r }
def Core.slots' (c : Core) (e : Nat) : Slots := sget (fun _ => {}) c.slots e
def Core.setSlots (c : Core) (e : Nat) (r : Slots) : Core := { c with slots := sput (fun _ => {}) c.slots e r }
def Core.acc' (c : Core) (n : Nat) : AccSet := sget (fun _ => {}) c.acc n
def Core.setAcc (c : Core) (n : Nat) (r : AccSet) : Core := { c with acc := sput (fun _ => {}) c.acc n r }

/-- General register n: g0 reads zero (R56). -/
def Core.gr (c : Core) (n : Nat) : W32 := if n = 0 then 0 else sget (fun _ => 0) c.g n
/-- Register n written: a write to g0, and to a number above 31, is discarded (R56). -/
def Core.setG (c : Core) (n : Nat) (v : W32) : Core :=
  if n = 0 ∨ 31 < n then c else { c with g := sput (fun _ => 0) c.g n v }
/-- Register n, where a number above 31 reads as zero (R114, R161). -/
def Core.grOver (c : Core) (n : Nat) : W32 := if 31 < n then 0 else c.gr n
/-- A register pair as a source; pair g0 reads zero in both halves (R79). -/
def Core.pair (c : Core) (n : Nat) : W64 :=
  if n = 0 then 0 else BitVec.ofNat 64 ((c.gr n).toNat + (c.gr (n + 1)).toNat * 2 ^ 32)
/-- A register pair as a destination; pair g0 writes only g1 (R79). -/
def Core.setPair (c : Core) (n : Nat) (v : W64) : Core :=
  (c.setG n (v.truncate 32)).setG (n + 1) ((v >>> 32).truncate 32)
def Core.ar (c : Core) (n : Nat) : W32 := sget (fun _ => 0) c.a n
def Core.setA (c : Core) (n : Nat) (v : W32) : Core := { c with a := sput (fun _ => 0) c.a n v }
def Core.tr (c : Core) (n : Nat) : Tile := sget (fun _ => {}) c.t n
def Core.setT (c : Core) (n : Nat) (v : Tile) : Core := { c with t := sput (fun _ => {}) c.t n v }
/-- Lane masks start at 0xFFFF (R56). -/
def Core.mr (c : Core) (n : Nat) : W16 := sget (fun _ => 0xFFFF) c.m n
def Core.setM (c : Core) (n : Nat) (v : W16) : Core := { c with m := sput (fun _ => 0xFFFF) c.m n v }
def Core.vr (c : Core) (n : Nat) : BitVec 256 := sget (fun _ => 0) c.v n
def Core.setV (c : Core) (n : Nat) (v : BitVec 256) : Core := { c with v := sput (fun _ => 0) c.v n v }
def Core.lcr (c : Core) (n : Nat) : W16 := sget (fun _ => 0) c.lc n
def Core.setLc (c : Core) (n : Nat) (v : W16) : Core := { c with lc := sput (fun _ => 0) c.lc n v }
def Core.digr (c : Core) (n : Nat) : W64 := sget (fun _ => 0) c.dig n
def Core.setDig (c : Core) (n : Nat) (v : W64) : Core := { c with dig := sput (fun _ => 0) c.dig n v }

/-- The core's architectural registers at their start values (Table 3.1), BA and pc given. The
scratchpad, banks, fault record, comparators and engine records are kept. -/
def Core.startRegs (c : Core) (ba : W64) (pc : Nat) : Core :=
  { c with pc := pc, g := [], a := [], t := [], m := [], v := [], lc := [], loops := [], ba := ba,
           acc := [], dig := [], held := none, wait := none, waitTarget := none, lastSlip := none, foot := {}, heldFoot := {}, heldInput := none, clears := [],
           barKept := none, layer := 0, oper := 0, cntLatch := [], tap := none, tapAuto := none }

/-! ### Ownership -/

/-- Whether a cluster index names a cluster the module has: column 15 of bin V does not exist (R23). -/
def State.exists' (s : State) (cl : Nat) : Bool :=
  decide (cl < 4096) && !(s.fuses.binV && decide (cl % 16 = 15))

/-- Whether INST_GROUPS of an instance holds a cluster's group (Table 11.10). -/
def State.inGroups (s : State) (i cl : Nat) : Bool :=
  let g := cl / 16
  s.bit (R.instGroups i (g / 32)) (g % 32)

/-- The instance that owns a cluster, if any. -/
def State.owner (s : State) (cl : Nat) : Option Nat :=
  if s.exists' cl then
    (s.insts.find? fun e => decide (e.2.st ≠ .absent) && s.inGroups e.1 cl).map (·.1)
  else none

/-- Whether an instance owns a cluster. -/
def State.owns (s : State) (i cl : Nat) : Bool := decide (s.owner cl = some i)

/-- The instance of a core's cluster. -/
def State.instOf (s : State) (k : Nat) : Nat := (s.owner (clOf k)).getD 0

/-- The clusters of an instance in ascending index. -/
def State.clustersOf (s : State) (i : Nat) : List Nat := (List.range 4096).filter fun cl => s.owns i cl

/-- The listed cores of an instance: a core that is not listed is IDLE with nothing in it. -/
def State.coresOf (s : State) (i : Nat) : List Nat :=
  (s.cores.map (·.1)).filter fun k => s.owns i (clOf k)

/-- Whether an instance owns a host flag, an MSI-X vector or a barrier (Table 11.10). -/
def State.ownsFlag (s : State) (i n : Nat) : Bool :=
  let b := s.fld (R.instFlags i) 0 12
  decide (b ≤ n ∧ n < b + s.fld (R.instFlags i) 12 13 ∧ n < 4096)
def State.ownsVec (s : State) (i n : Nat) : Bool :=
  let b := s.fld (R.instVec i) 0 11
  decide (b ≤ n ∧ n < b + s.fld (R.instVec i) 12 12 ∧ n < 2048)
/-- Whether an instance has a vector of this number in its own table, where vectors are numbered from 0 (R230). -/
def State.hasVec (s : State) (i n : Nat) : Bool := decide (n < s.fld (R.instVec i) 12 12)
def State.ownsBar (s : State) (i n : Nat) : Bool :=
  let b := s.fld (R.instBars i) 0 8
  decide (b ≤ n ∧ n < b + s.fld (R.instBars i) 8 9 ∧ n < 256)

/-- The instance that owns a host flag, if any. -/
def State.flagOwner (s : State) (n : Nat) : Option Nat :=
  (s.insts.find? fun e => decide (e.2.st ≠ .absent) && s.ownsFlag e.1 n).map (·.1)

/-- The 4-bit generation of an instance (R241). -/
def State.gen (s : State) (i : Nat) : Nat := s.fld (R.instGen i) 0 4

/-- The buffer that holds a whole HBM range and belongs to an instance in its present generation (R156). -/
def State.bufferOf (s : State) (i a n : Nat) : Option Buffer :=
  s.buffers.find? fun b =>
    decide (b.owner = i ∧ b.ownerGen = (s.reg (R.instGen i)).truncate 32 ∧ ¬b.freeing
      ∧ b.base ≤ a ∧ a + n ≤ b.base + b.granules * 2 ^ 21)

def State.ownsHbm (s : State) (i a n : Nat) : Bool := (s.bufferOf i a n).isSome

/-! ### Unit identifiers (R9, Table 0.5) -/

def uidOf (die clRow clCol row col eng sub : Nat) : W32 :=
  BitVec.ofNat 32 (die * 2 ^ 27 + clRow * 2 ^ 23 + clCol * 2 ^ 19 + row * 2 ^ 15 + col * 2 ^ 11
    + eng * 2 ^ 8 + sub)
/-- UID of an engine of a core. -/
def coreUid (k eng sub : Nat) : W32 :=
  let cl := clOf k
  uidOf (dieOf cl) (cl / 16 % 16) (cl % 16) (k / 16 % 16) (k % 16) eng sub
/-- UID of a cluster-level unit. -/
def gangUid (cl sub : Nat) : W32 := uidOf (dieOf cl) (cl / 16 % 16) (cl % 16) 0 0 6 sub
/-- UID of a die-level unit, an I/O die's unit or an HBM channel. -/
def dieUid (die sub : Nat) : W32 := uidOf die 0 0 0 0 7 sub
/-- IOA:0, the PCIe controller (Table 1.6). -/
def pcieUid : W32 := dieUid 16 0
/-- The management controller. -/
def mcUid : W32 := dieUid 16 1
/-- The checkpoint engine. -/
def ckptUid : W32 := dieUid 17 2
/-- The metering die. -/
def mtrUid : W32 := dieUid 18 0
/-- An Eloava port (Table 1.6). -/
def portUid (p : Nat) : W32 := if p < 4 then dieUid 16 (0x10 + p) else dieUid 17 (0x10 + p)
/-- The die whose HBM holds an address (R150). -/
def hbmDie (a : Nat) : Nat := a / 4096 % 16
/-- The UID of the HBM channel that holds an address (R150, Table 1.6). -/
def hbmUid (a : Nat) : W32 :=
  let die := hbmDie a
  dieUid (20 + die / 2) (16 * (die % 2) + a / 256 % 16)
/-- The UID of the unit that holds a word of memory. -/
def memUid (a : Nat) : W32 :=
  if a < 2 ^ 40 then hbmUid a
  else if a < 2 ^ 41 then let o := a - 2 ^ 40; coreUid (o / 2 ^ 16) 3 (1 + o / 16 % 16)
  else if a < 2 ^ 42 then
    let o := a - 2 ^ 41
    gangUid (o / 2 ^ 22) (0x40 + 32 * (o / 2 ^ 21 % 2) + o / 64 % 32)
  else let o := a - 2 ^ 42; coreUid (o / 2 ^ 14) 0 (1 + o / 2 ^ 13 % 2)

/-- The parts of a UID. -/
def uidDie (u : W32) : Nat := u.toNat / 2 ^ 27
def uidEng (u : W32) : Nat := u.toNat / 2 ^ 8 % 8
def uidSub (u : W32) : Nat := u.toNat % 256
def uidCl (u : W32) : Nat := uidDie u * 256 + u.toNat / 2 ^ 19 % 256
def uidCore (u : W32) : Nat := uidCl u * 256 + u.toNat / 2 ^ 11 % 256

/-! ### Errors (R294 to R301) -/

/-! Status codes (Table 11.5) that completions and error records carry. -/
namespace St
def ok : Nat := 0x00
def okRegularised : Nat := 0x01
def okSlipped : Nat := 0x02
def illegalInState : Nat := 0x10
def badDescriptor : Nat := 0x11
def aliasedWrite : Nat := 0x12
def ownership : Nat := 0x13
def doubleFree : Nat := 0x14
def programBusy : Nat := 0x15
def staleGeneration : Nat := 0x16
def sequenceLimit : Nat := 0x17
def nonfiniteSkip : Nat := 0x20
def tainted : Nat := 0x21
def replayed : Nat := 0x22
def rootSuspect : Nat := 0x23
def deadlineMiss : Nat := 0x30
def rangeViolation : Nat := 0x31
def abortedByReset : Nat := 0x40
def deadlock : Nat := 0x41
def linkFailed : Nat := 0x50
def memoryUncorrectable : Nat := 0x51
def plausibility : Nat := 0x52
def internal : Nat := 0x7F
end St

/-- Whether Table 11.3 marks a command retry-safe: COPY if it does not accumulate (Table 7.4), SIGNAL of kinds 1 and 2,
WAIT, COUNTER_SNAP and EXPORT_SHARD. -/
def State.retrySafe (s : State) (c : Cmd) : Bool :=
  let fld (o n : Nat) : Nat := leNat ((c.bytes.drop o).take n)
  match c.opcode with
  | 0x02 => !nbit (s.rd (fld 0x10 8 + 1) 1) 0
  | 0x08 => decide (fld 0x10 1 = 1 ∨ fld 0x10 1 = 2)
  | 0x09 | 0x0C | 0x0D => true
  | _ => false

/-- NORETRY of a record: it names a command that is not retry-safe (R295). -/
def State.noRetryFlag (s : State) (r : ErrRec) : Nat :=
  let known := (s.inst r.inst).accepted ++ (s.launches.filter fun l => decide (l.inst = r.inst)).map (·.cmd)
  match known.find? fun c => decide (c.id = r.cmd) with
  | some c => if decide (r.cmd ≠ 0xFFFF) && !s.retrySafe c then 2 else 0
  | none => 0

/-- An error raised: a class A, B or C record (1, 2, 3) of a block, with the sticky bit's number or
the fault cause as DETAIL; the ERRORS count of a core engine or gang controller that it names goes
up (Table 16.1). It waits in `raised` until ERROR_RECORD_WRITE delivers it. -/
def State.raiseRec (s : State) (r : ErrRec) : State :=
  let r := { r with flags := r.flags ||| s.noRetryFlag r }
  let s := s.setErr { s.err with raised := s.err.raised ++ [r] }
  if uidDie r.uid < 16 then
    let e := uidEng r.uid
    if e < 6 then
      let k := uidCore r.uid
      let c := s.core k
      s.setCore k (c.setEng e { c.eng' e with errors := satInc 32 (c.eng' e).errors 1 })
    else if e = 6 then
      let cl := uidCl r.uid
      let c := s.cluster cl
      s.setCluster cl { c with eng := { c.eng with errors := satInc 32 c.eng.errors 1 } }
    else s
  else s

/-- DETAIL of a record that reports neither a sticky bit nor a core fault, which Table 14.2 leaves open (log 17). -/
def openDetail (b : Block) (code : Nat) : Nat := (Config.openDetail b.num code).toNat

/-- An error of a class (1 A, 2 B, 3 C) raised by a block, with the number of the sticky bit it sets, the fault
cause, or `openDetail` (Table 14.2). -/
def State.raise (s : State) (cls code : Nat) (b : Block) (detail : Nat) (uid : W32)
    (inst : Nat := 0xFF) (cmd : Nat := 0xFFFF) (lastUid : W32 := uid) (ctx : List Byte := [])
    (flags : Nat := 0) : State :=
  s.raiseRec { cls := cls, code := code, block := b.num, detail := detail, uid := uid, inst := inst,
               flags := flags, cmd := cmd, beat := s.beat, lastUid := lastUid, ctx := ctx }

/-- The context of a class A record of a block: its sticky register and its last-event register
(Table 14.7, ERR_FF_CTX). -/
def State.ctxRegs (s : State) (sticky last : Nat) : List Byte :=
  leBytes 4 (s.reg sticky).toNat ++ leBytes 4 (s.reg last).toNat

/-! ### Messages waiting to be routed -/

/-- A torus coordinate's four fields x, y, z, w (R151). -/
def coordAxis (c ax : Nat) : Nat := nfield c (6 * ax) 6
def coordSet (c ax v : Nat) : Nat := c - coordAxis c ax * 2 ^ (6 * ax) + v * 2 ^ (6 * ax)
/-- This module's coordinate (Table 12.8). -/
def State.coord (s : State) : Nat := s.fld R.collCoord 0 24

/-! ### Host flags (R244) -/

def State.flag (s : State) (n : Nat) : Bool := sget (fun _ => false) s.flags n

/-- Bits [32w + 31 : 32w] of the flag map as a word. -/
def State.flagWord (s : State) (w : Nat) : Nat :=
  (List.range 32).foldl (fun acc b => acc + (s.flag (32 * w + b)).toNat * 2 ^ b) 0

/-- The bits of a flag word that an instance owns (R231, R251). -/
def State.flagMask (s : State) (i w : Nat) : Nat :=
  (List.range 32).foldl (fun a b => a + (s.ownsFlag i (32 * w + b)).toNat * 2 ^ b) 0

/-- The word w of an instance's FLAG_MAP: flags outside its range read as zero (R231). -/
def State.flagMap (s : State) (i w : Nat) : Nat := s.flagWord w &&& s.flagMask i w

/-- A flag set or cleared; a change of an owned flag of an instance with MIRROR writes the flag's FLAG_MAP
word to the mirror (R244). -/
def State.setFlag (s : State) (n : Nat) (v : Bool) : State :=
  if s.flag n = v then s
  else
    let s := { s with flags := sput (fun _ => false) s.flags n v }
    match s.flagOwner n with
    | none => s
    | some i =>
      if s.bit (R.instCfg i) 2 then
        s.wr (hostBase + (s.reg (R.instMirror i)).toNat + 4 * (n / 32)) 4 (s.flagMap i (n / 32))
      else s

/-- An MSI-X vector of a function raised. -/
def State.irq (s : State) (fn vec : Nat) : State := { s with irqs := s.irqs ++ [(fn, vec)] }

end Sys2Proof.Machine
end

