-- ==== Sys2Proof/Machine/Island.lean ====
section
/-! DEFINITION. The Saffron island (R348 to R363): the calendar clock and its stamps, signed records, the
event log, sealing, and the MTR mirror. -/

namespace Sys2Proof.Machine

def State.setIsland (s : State) (x : Island) : State := { s with island := x }

/-! ### The calendar clock (R357 to R360) -/

/-- Growth of the stamp uncertainty in μs since the last synchronised message (R359). -/
def Island.growth (x : Island) : Nat := (if x.trimmed then 2 else 20) * (x.sinceSync / 1000000000)

/-- The stamp uncertainty U in μs (R359). -/
def Island.u (x : Island) : Nat := x.unc + x.growth

/-- The stamp state (R359). -/
def Island.stampSt (x : Island) : StampSt :=
  if !x.stepped then .unset else if x.u ≤ x.limitUs then .certified else .holdover

def StampSt.code : StampSt → Nat
  | .unset => 0 | .holdover => 1 | .certified => 2

/-- The 16 bytes of a time stamp (R360). -/
def Island.stamp (x : Island) : List Byte :=
  leBytes 6 (wrapInt 48 (x.tai / 1000000000)) ++ leBytes 4 (x.tai % 1000000000).toNat ++ leBytes 2 (min 65535 x.u) ++
  leBytes 2 (wrapInt 16 x.utc) ++ leBytes 1 x.stampSt.code ++ zeros 1

/-- What the crystal and the meter have counted since the last command: time runs on, trimmed, and energy is
added (R348, R357, R358). -/
def Island.pass (x : Island) (m : Meter) : Island :=
  { x with tai := x.tai + m.dt + (m.dt : Int) * x.trim / 1000000000, sinceSync := x.sinceSync + m.dt,
           energy := BitVec.ofNat 64 (min (2 ^ 64 - 1) (x.energy.toNat + m.mwh)) }

/-! ### Records and logs (R354 to R356) -/

def Island.logFull (x : Island) : Bool := decide (1024 ≤ x.log.length)

/-- Bytes 0x00 to 0x5F of a signed record (Table 17.3). -/
def SignedRec.head (r : SignedRec) : List Byte :=
  [0x57, 0x46, 0x45, 0x52] ++ leBytes 2 1 ++ leBytes 1 r.kind ++ leBytes 1 r.flags ++ leBytes 8 r.seq ++ r.stamp ++
  leBytes 8 r.energy.toNat ++ r.data ++ leBytes 4 r.sealCount ++ leBytes 4 r.rejects ++ leBytes 8 Config.islandSerial.toNat ++
  zeros 24

/-- The 160 bytes of a signed record (R356). -/
def SignedRec.bytes (r : SignedRec) : List Byte := r.head ++ r.sig

/-- A record emitted: the next SEQ, the present stamp, and the signature; the last 8,192 are kept (R355). -/
def Island.emit (x : Island) (kind : Nat) (data : List Byte) : Island :=
  let flags := x.reverse.toNat + 2 * x.vbatLow.toNat + 4 * x.logFull.toNat + 8 * (decide (x.stampSt ≠ .certified)).toNat
  let r : SignedRec :=
    { kind := kind, flags := flags, seq := x.seq + 1, stamp := x.stamp, energy := x.energy, data := data,
      sealCount := x.sealCount, rejects := x.rejects, sig := [] }
  let r := { r with sig := Config.islandSignature r.head }
  let l := x.records ++ [r]
  { x with seq := x.seq + 1, reverse := false, records := l.drop (l.length - 8192) }

/-- DATA of an event record: log SEQ and log KIND (Table 17.3). -/
def eventData (seq kind : Nat) : List Byte := leBytes 4 seq ++ leBytes 1 kind ++ zeros 11

/-- An event-log entry appended with its record; a full log takes none (R354). -/
def Island.note (x : Island) (kind param : Nat) (old new : Int) : Island :=
  if x.logFull then x
  else
    let e : LogEntry :=
      { seq := x.log.length + 1, kind := kind, param := param, old := old, new := new, stamp := x.stamp, sealCount := x.sealCount }
    ({ x with log := x.log ++ [e] } : Island).emit 3 (eventData e.seq kind)

/-- A malformed inbound message: discarded and counted (R351). -/
def Island.reject (x : Island) : Island := { x with rejects := satInc 32 x.rejects 1 }

/-- The record interval in nanoseconds. -/
def Island.intervalNs (x : Island) : Int := (x.interval : Int) * 60000000000

/-- INTERVAL_RECORD: at a calendar boundary of the record interval the energy count is saved and an interval
record emitted: the interval's energy, its mean voltage and peak power (R355, R362). -/
def intervalRecord (m : Meter) (meanMv peakW : Nat) (s : State) : State :=
  let x := s.island.pass m
  let b := x.tai / x.intervalNs
  if !s.power.standby ∨ b ≤ x.boundary then s
  else
    let e := (x.energy - x.intervalStart).toNat
    let x := x.emit 1 (leBytes 8 e ++ leBytes 4 meanMv ++ leBytes 4 peakW)
    s.setIsland { x with savedEnergy := x.energy, intervalStart := x.energy, boundary := b }
def execIntervalRecord (m : Meter) (meanMv peakW : Nat) (s : State) : Host.Outcome State Fault Refusal :=
  .next (intervalRecord m meanMv peakW s)

/-! ### Time discipline (R358, R359) -/

/-- An adjustment: the time log ring, the uncertainty, and the KIND 4 record; a step also appends a log entry
while there is room (R358, R359). -/
def Island.adjust (x : Island) (offset : Int) (step : Bool) (trim : Int) : Island :=
  let old := x.tai
  let x : Island :=
    if step then { x with tai := x.tai + offset, stepped := true, trim := 0 } else { x with trim := trim, trimmed := true }
  let x : Island :=
    { x with unc := (offset.natAbs + 999) / 1000 + 20, offsets := [], sinceSync := 0,
             timeLog := (x.timeLog ++ [(offset, trim)]).drop ((x.timeLog.length + 1) - 4096) }
  let x := x.emit 4 (leBytes 8 (wrapInt 64 offset) ++ leBytes 4 (wrapInt 32 (if step then 0 else trim)) ++
    leBytes 1 step.toNat ++ zeros 3)
  if step then x.note 5 0 old x.tai else x

/-- A synchronised message accepted: the growth of U ends. Between messages that come once per second there is none
(R359). -/
def Island.accept (x : Island) : Island :=
  { x with unc := if 2000000000 ≤ x.sinceSync then x.u else x.unc, sinceSync := 0 }

/-- A synchronised message taken into the discipline: a step at once after UNSET, else after 16 offsets a trim
or a step (R358). -/
def Island.discipline (x : Island) (ptp : Int) : Island :=
  let off := ptp - x.tai
  if !x.stepped then x.adjust off true 0
  else
    let l := x.offsets ++ [off]
    if l.length < 16 then { x with offsets := l }
    else
      let mean := (l.foldl (· + ·) 0).tdiv 16
      if mean.natAbs ≤ x.stepNs then
        x.adjust mean false (max (-200000) (min 200000 (mean.tdiv 16)))
      else x.adjust mean true 0

/-- TIME_DISCIPLINE_MESSAGE: a well-formed message yields a tick record that pairs its beat count with the
calendar time at which it comes; a synchronised one also disciplines the clock (R351, R358). -/
def timeDisciplineMessage (m : Meter) (wellFormed : Bool) (ptp : Int) (sync : Bool) (utc : Int) (bt : W64) (s : State) : State :=
  if !s.power.standby then s
  else
    let x := s.island.pass m
    if !wellFormed then s.setIsland x.reject
    else
      let x : Island := { (if sync then x.accept else x) with utc := utc, tickBeat := bt }
      let x := x.emit 2 (leBytes 8 bt.toNat ++ zeros 8)
      s.setIsland (if sync then x.discipline ptp else x)
def execTimeDisciplineMessage (m : Meter) (wellFormed : Bool) (ptp : Int) (sync : Bool) (utc : Int) (bt : W64) (s : State) :
    Host.Outcome State Fault Refusal := .next (timeDisciplineMessage m wellFormed ptp sync utc bt s)

/-- READ_REQUEST: the stored records of the kind asked for, from a SEQ on, are served in SEQ order; a malformed
message is discarded and counted (R351, R355). -/
def readRequest (wellFormed : Bool) (kind first : Nat) (s : State) : State :=
  let x := s.island
  if !s.power.standby then s
  else if !wellFormed then s.setIsland x.reject
  else s.setIsland { x with served := x.records.filter fun r => decide (r.kind = kind ∧ first ≤ r.seq) }
def execReadRequest (wellFormed : Bool) (kind first : Nat) (s : State) : Host.Outcome State Fault Refusal :=
  .next (readRequest wellFormed kind first s)

/-! ### Sealing (R353, Table 17.2) -/

/-- SEAL_BREAK: the seal-break land goes low: the seal counter goes up and the service lands are enabled (R353). -/
def sealBreak (m : Meter) (s : State) : State :=
  if !s.power.standby ∨ s.island.sealOpen then s
  else
    let x := s.island.pass m
    s.setIsland (({ x with sealOpen := true, sealCount := satInc 32 x.sealCount 1, changes := [] } : Island).note 3 0 0 0)
def execSealBreak (m : Meter) (s : State) : Host.Outcome State Fault Refusal := .next (sealBreak m s)

/-- Whether a value is one of a parameter's (Table 17.2): minutes, μs of uncertainty, ns of step threshold. -/
def paramOk (param value : Nat) : Bool :=
  match param with
  | 1 => [1, 5, 15, 60].contains value
  | 2 => decide (100 ≤ value ∧ value ≤ 1000000)
  | 3 => decide (1000000 ≤ value ∧ value ≤ 10000000000)
  | _ => false

/-- The present value of a parameter; 0 stands for the calibration. -/
def Island.param (x : Island) (p : Nat) : Nat :=
  match p with
  | 1 => x.interval
  | 2 => x.limitUs
  | 3 => x.stepNs
  | _ => x.calValue

/-- SERVICE_CHANGE: under a seal break, a calibration (a fresh OTP row, of 16) or a parameter change is logged and
waits for the end of the break; with a full log it is refused (R352 to R354). -/
def serviceChange (m : Meter) (calibration : Bool) (param value : Nat) (s : State) : State :=
  let x := s.island.pass m
  let ok := if calibration then decide (x.calRow + (x.changes.filter fun e => e.1 = 0).length + 1 < 16) else paramOk param value
  if !s.power.standby ∨ !x.sealOpen ∨ x.logFull ∨ !ok then s
  else
    let p := if calibration then 0 else param
    let x : Island := { x with changes := x.changes ++ [(p, value)] }
    s.setIsland (x.note (if calibration then 1 else 2) p (x.param p) value)
def execServiceChange (m : Meter) (calibration : Bool) (param value : Nat) (s : State) : Host.Outcome State Fault Refusal :=
  .next (serviceChange m calibration param value s)

/-- A logged change taking effect. -/
def Island.apply (x : Island) (e : Nat × Nat) : Island :=
  match e.1 with
  | 1 => { x with interval := e.2, boundary := x.tai / ((e.2 : Int) * 60000000000) }
  | 2 => { x with limitUs := e.2 }
  | 3 => { x with stepNs := e.2 }
  | _ => { x with calRow := x.calRow + 1, calValue := e.2 }

/-- SEAL_BREAK_END: the land goes high: the changes take effect in the order in which they were logged (R353). -/
def sealBreakEnd (s : State) : State :=
  let x := s.island
  if !s.power.standby ∨ !x.sealOpen then s
  else s.setIsland { x.changes.foldl Island.apply x with sealOpen := false, changes := [] }
def execSealBreakEnd (s : State) : Host.Outcome State Fault Refusal := .next (sealBreakEnd s)

/-! ### Observations (R348, R357) -/

/-- VBAT_LOW: VBAT below 2.7 V (R357). -/
def vbatLow (s : State) : State := s.setIsland { s.island with vbatLow := true }
def execVbatLow (s : State) : Host.Outcome State Fault Refusal := .next (vbatLow s)

/-- CALENDAR_LOST: VBAT below 2.5 V while the standby rail is absent: the clock is lost (R357). What it counts
from until its first step is open (log 4). -/
def calendarLost (s : State) : State :=
  if s.power.standby then s
  else
    ({ s with freeCtr := s.freeCtr + 1 } : State).setIsland
      { s.island with vbatLost := true, stepped := false, offsets := [], tai := (Config.freeValue s.freeCtr).toNat }
def execCalendarLost (s : State) : Host.Outcome State Fault Refusal := .next (calendarLost s)

/-- REVERSE_CURRENT: more than 1 A flowing outward is noted for the next record and for MTR_STAT (R348). -/
def reverseCurrent (s : State) : State :=
  if s.power.standby then s.setIsland { s.island with reverse := true, reverseSeen := true } else s
def execReverseCurrent (s : State) : Host.Outcome State Fault Refusal := .next (reverseCurrent s)

/-- The island starts with the standby rail: the energy count is the saved one; a lost calendar is logged, its
stamp state UNSET (R357, R362); what U had grown stays, and grows on as of a clock not trimmed (R359); it is not ready
yet. A full log takes no entry, and the log SEQ of the record's DATA is then open. -/
def State.islandStart (s : State) (m : Meter) : State :=
  let x := s.island
  let x := ({ x with energy := x.savedEnergy, unc := x.u, sinceSync := x.sinceSync % 1000000000, trimmed := false } : Island).pass m
  let x : Island := { x with ready := false }
  if !x.vbatLost then s.setIsland x
  else
    let x : Island := { x with vbatLost := false, trim := 0 }
    if x.logFull then
      ({ s with freeCtr := s.freeCtr + 1 } : State).setIsland (x.emit 3 (eventData (Config.freeValue s.freeCtr).toNat 4))
    else s.setIsland (x.note 4 0 0 0)

/-! ### The MTR mirror (R363) -/

/-- MIRROR_REFRESH: once per second the MTR block is written from the island (Table 17.4). -/
def mirrorRefresh (m : Meter) (mv ma mw : Nat) (s : State) : State :=
  if !s.power.standby then s
  else
    let x := s.island.pass m
    let w (n : Nat) : W64 := BitVec.ofNat 64 (n % 2 ^ 32)
    let stat := 1 + 2 * x.stampSt.code + 8 * x.vbatLow.toNat + 16 * x.logFull.toNat + 32 * x.reverseSeen.toNat
    let s := s.setIsland { x with reverseSeen := false, mirrorAt := s.beat }
    let s := ((s.setReg R.mtrSerial Config.islandSerial).setReg R.mtrStat (BitVec.ofNat 64 stat)).setReg R.mtrEnergy x.energy
    let s := ((s.setReg R.mtrVolt (w mv)).setReg R.mtrCurr (w ma)).setReg R.mtrPower (w mw)
    let s := ((s.setReg R.mtrSeal (w x.sealCount)).setReg R.mtrLogCount (w x.log.length)).setReg R.mtrRejects (w x.rejects)
    let s := (s.setReg R.mtrTickBeat x.tickBeat).setReg R.mtrRecSeq (BitVec.ofNat 64 x.seq)
    let s := forEach (List.range 4) s fun s n => s.setReg (R.mtrTime n) (BitVec.ofNat 64 (leNat ((x.stamp.drop (4 * n)).take 4)))
    let s := forEach (List.range 8) s fun s n => s.setReg (R.mtrRom n) ((Config.romDigest n).zeroExtend 64)
    forEach (List.range 16) s fun s n => s.setReg (R.mtrKey n) ((Config.publicKey n).zeroExtend 64)
def execMirrorRefresh (m : Meter) (mv ma mw : Nat) (s : State) : Host.Outcome State Fault Refusal :=
  .next (mirrorRefresh m mv ma mw s)

/-! ### Certified time (R361) -/

/-- The certified time of a beat: the latest tick at or before it, less than 2 s old and CERTIFIED, moved on to
the beat; none otherwise. -/
def State.certTime (s : State) (b : W64) : Option (List Byte) :=
  let beatOf (r : SignedRec) : Nat := leNat (r.data.take 8)
  let l := s.island.records.filter fun r => decide (r.kind = 2 ∧ beatOf r ≤ b.toNat)
  match l.getLast? with
  | none => none
  | some r =>
    let d := b.toNat - beatOf r
    let f (o n : Nat) : Nat := leNat ((r.stamp.drop o).take n)
    if 1000000000 ≤ d ∨ f 14 1 ≠ 2 then none
    else
      let ns := f 6 4 + 2 * d
      some (leBytes 6 (f 0 6 + ns / 1000000000) ++ leBytes 4 (ns % 1000000000) ++
        leBytes 2 (min 65535 (f 10 2 + d / 250000000 + 1)) ++ leBytes 2 (f 12 2) ++ leBytes 1 2 ++ zeros 1)

end Sys2Proof.Machine
end

