-- ==== Sys2Proof/Machine/Digest.lean ====
section
/-! DEFINITION. The check and key functions the manual names: CRC-64 (R101), CRC-32C (R257, R274),
SHA-256 and Philox-4x32-10 (R112, R113). -/

namespace Sys2Proof.Machine

/-- Eight shifts of the CRC-64 register, ECMA-182 polynomial, no reflection (R101). -/
def crc64Shift : Nat → W64 → W64
  | 0, c => c
  | n + 1, c => crc64Shift n (if c.msb then (c <<< 1) ^^^ 0x42F0E1EBA9EA3693 else c <<< 1)

/-- One byte folded into a CRC-64 register (R101). -/
def crc64Byte (c : W64) (b : Byte) : W64 := crc64Shift 8 (c ^^^ (b.zeroExtend 64 <<< 56))

/-- CRC-64 of bytes, continued from `c` (R101: initial value zero, no final XOR). -/
def crc64 (c : W64) (bs : List Byte) : W64 := bs.foldl crc64Byte c

/-- Eight shifts of the reflected CRC-32C register. -/
def crc32Shift : Nat → W32 → W32
  | 0, c => c
  | n + 1, c => crc32Shift n (if c.getLsbD 0 then (c >>> 1) ^^^ 0x82F63B78 else c >>> 1)

/-- CRC-32C of bytes in its usual form, initial value and final XOR all ones (R257, R274; PRESUMED, log 33). -/
def crc32c (bs : List Byte) : W32 :=
  (bs.foldl (fun c b => crc32Shift 8 (c ^^^ b.zeroExtend 32)) 0xFFFFFFFF) ^^^ 0xFFFFFFFF

/-- The greatest `r` below 2^n with r^k at most `x`, built from its top bit down onto `r`. -/
def rootBits (k x : Nat) : Nat → Nat → Nat
  | 0, r => r
  | n + 1, r => rootBits k x n (if (r + 2 ^ n) ^ k ≤ x then r + 2 ^ n else r)

/-- The first 32 bits of the fraction of the k-th root of `p`: SHA-256 takes its constants from these. -/
def rootFraction (k p : Nat) : W32 := BitVec.ofNat 32 (rootBits k (p * 2 ^ (32 * k)) 37 0)

/-- Whether `p`, from 2 up, is prime. -/
def noDivisor (p : Nat) : Bool := (List.range (p - 2)).all fun d => decide (p % (d + 2) ≠ 0)

/-- The 64 primes below 312. -/
def shaPrimes : List Nat := ((List.range 310).map (· + 2)).filter noDivisor

/-- The round constants of SHA-256, from the cube roots of the first 64 primes. -/
def sha256K : List W32 := shaPrimes.map (rootFraction 3)

/-- The initial hash value of SHA-256, from the square roots of the first 8 primes. -/
def sha256H0 : List W32 := (shaPrimes.take 8).map (rootFraction 2)

/-- The message schedule, newest word first, extended by `n` words. -/
def shaExtend : Nat → List W32 → List W32
  | 0, w => w
  | n + 1, w =>
    let w15 := nth 0 w 14
    let w2 := nth 0 w 1
    let s0 := w15.rotateRight 7 ^^^ w15.rotateRight 18 ^^^ (w15 >>> 3)
    let s1 := w2.rotateRight 17 ^^^ w2.rotateRight 19 ^^^ (w2 >>> 10)
    shaExtend n ((nth 0 w 15 + s0 + nth 0 w 6 + s1) :: w)

/-- The 64 rounds over the working variables. -/
def shaRounds : List (W32 × W32) → List W32 → List W32
  | [], v => v
  | (k, w) :: r, v =>
    match v with
    | [a, b, c, d, e, f, g, h] =>
      let s1 := e.rotateRight 6 ^^^ e.rotateRight 11 ^^^ e.rotateRight 25
      let ch := (e &&& f) ^^^ (~~~e &&& g)
      let t1 := h + s1 + ch + k + w
      let s0 := a.rotateRight 2 ^^^ a.rotateRight 13 ^^^ a.rotateRight 22
      let mj := (a &&& b) ^^^ (a &&& c) ^^^ (b &&& c)
      shaRounds r [t1 + (s0 + mj), a, b, c, d + t1, e, f, g]
    | _ => v

/-- The big-endian words of bytes. -/
def beWords : Nat → List Byte → List W32
  | 0, _ => []
  | n + 1, bs => BitVec.ofNat 32 (leNat (bs.take 4).reverse) :: beWords n (bs.drop 4)

/-- One block folded into the hash value. -/
def shaBlock (h : List W32) (b : List Byte) : List W32 :=
  let w := (shaExtend 48 (beWords 16 b).reverse).reverse
  let v := shaRounds (sha256K.zip w) h
  h.zipWith (· + ·) v

/-- The blocks of a padded message folded in order. -/
def shaBlocks : Nat → List W32 → List Byte → List W32
  | 0, h, _ => h
  | n + 1, h, bs => shaBlocks n (shaBlock h (bs.take 64)) (bs.drop 64)

/-- SHA-256 of bytes: 32 bytes, byte 0 first. -/
def sha256 (bs : List Byte) : List Byte :=
  let n := bs.length
  let padz := (119 - n % 64) % 64
  let msg := bs ++ [(0x80 : Byte)] ++ zeros padz ++ beBytes 8 (8 * n)
  (shaBlocks (msg.length / 64) sha256H0 msg).flatMap fun w => beBytes 4 w.toNat

/-- The rounds of Philox-4x32 (R112). -/
def philoxRounds : Nat → (W32 × W32 × W32 × W32) → W32 → W32 → (W32 × W32 × W32 × W32)
  | 0, c, _, _ => c
  | n + 1, (c0, c1, c2, c3), k0, k1 =>
    let p0 : Nat := 0xD2511F53 * c0.toNat
    let p1 : Nat := 0xCD9E8D57 * c2.toNat
    let hi (p : Nat) : W32 := BitVec.ofNat 32 (p / 2 ^ 32)
    let lo (p : Nat) : W32 := BitVec.ofNat 32 p
    philoxRounds n (hi p1 ^^^ c1 ^^^ k0, lo p1, hi p0 ^^^ c3 ^^^ k1, lo p0) (k0 + 0x9E3779B9) (k1 + 0xBB67AE85)

/-- Purposes of the keyed generator (Table 5.3). -/
inductive Purpose where
  | stochastic | dropout | tapRows
deriving DecidableEq, Repr

/-- The purpose code of Table 5.3. -/
def Purpose.code : Purpose → Nat
  | .stochastic => 0 | .dropout => 1 | .tapRows => 2

/-- The word that element `e` of tensor `t` draws in step `st` (R113, Table 5.3). -/
def draw (seed : W64) (p : Purpose) (t : W32) (st : W64) (e : Nat) : W32 :=
  let c0 : W32 := BitVec.ofNat 32 (e / 4)
  let c1 : W32 := BitVec.ofNat 32 (e / 2 ^ 34 % 2 ^ 12 + p.code * 2 ^ 28)
  let r := philoxRounds 10 (c0, c1, t, BitVec.ofNat 32 st.toNat)
    (BitVec.ofNat 32 seed.toNat) (BitVec.ofNat 32 (seed.toNat / 2 ^ 32))
  match e % 4 with
  | 0 => r.1
  | 1 => r.2.1
  | 2 => r.2.2.1
  | _ => r.2.2.2

end Sys2Proof.Machine
end

