-- ==== Sys2Proof/Machine/Undo.lean ====
section
/-! DEFINITION. What the step window undoes (R189, R205): the work of the run-ahead step, NEWEST of the shards, and
the tap entries. -/

namespace Sys2Proof.Machine

/-- The oldest unresolved step S of an instance (R191). -/
def State.s0 (s : State) (i : Nat) : W64 := s.reg (R.updStep i)

/-- Whether the gate of an instance runs. -/
def State.gateOn (s : State) (i : Nat) : Bool := s.bit (R.updCfg i) 0

/-- Whether work of a step is provisional: its predecessor, step S, is unresolved (R191). -/
def State.provisional (s : State) (i : Nat) (step : W64) : Bool := s.gateOn i && decide (step = s.s0 i + 1)

/-- The number of shards of an instance. -/
def State.shards (s : State) (i : Nat) : Nat := s.fld (R.shardCount i) 0 21

/-- A bit of the FLAGS byte at an address written: 1 ACTIVE or 2 NEWEST (R187). -/
def State.putShardBit (s : State) (a b v : Nat) : State :=
  let f := s.rd a 1
  s.wr a 1 (f - f / 2 ^ b % 2 * 2 ^ b + v * 2 ^ b)

/-- NEWEST made equal to ACTIVE in every shard (R189, R202, R205). -/
def State.newestIsActive (s : State) (i : Nat) : State :=
  forEach (List.range (s.shards i)) s fun s n =>
    let a := (s.reg (R.shardBase i)).toNat + 128 * n + 8
    let f := s.rd a 1
    if nbit f 1 = nbit f 2 then s else s.putShardBit a 2 (nbit f 1).toNat

/-- A transfer of the run-ahead step abandoned at its next chunk boundary: at once where it waits for another module. -/
def Xfer.undo (x : Xfer) : Xfer :=
  if x.awaiting = 0 ∨ x.done then { x with abandon := true }
  else { x with abandon := true, done := true, awaiting := 0, held := [], status := if x.status = 0 then St.tainted else x.status }

/-- A collective of the run-ahead step ended with TAINTED (R205, R274). -/
def Coll.undo (c : Coll) : Coll :=
  { c with done := true, status := if c.done then c.status else St.tainted, abandon := true, kept := [] }

/-- The work of the run-ahead step: its accepted commands, launches, transfers and collectives (R205). -/
def State.undoWork (s : State) (i : Nat) : State :=
  let s1 := s.s0 i + 1
  let x := s.inst i
  let cmd (c : Cmd) : Cmd := if c.step = s1 then { c with undone := true } else c
  let launch (l : LaunchRec) : LaunchRec := if l.inst = i ∧ l.step = s1 then { l with undone := true } else l
  let xfer (t : Xfer) : Xfer := if t.inst = i ∧ t.gen = s.gen i ∧ t.step = s1 then t.undo else t
  let coll (c : Coll) : Coll := if c.inst = i ∧ c.gen = s.gen i ∧ c.step = s1 then c.undo else c
  let s := s.setInst i { x with accepted := x.accepted.map cmd }
  { s with launches := s.launches.map launch, xfers := s.xfers.map xfer, colls := s.colls.map coll }

/-- The tap entries that the run-ahead step filled and that no fold has begun are discarded (R167, R205). -/
def State.undoTaps (s : State) (i : Nat) : State :=
  let s1 := s.s0 i + 1
  forEach (s.coresOf i) s fun s k =>
    let c := s.core k
    let l := c.tapQ.take c.folding ++ (c.tapQ.drop c.folding).filter fun e => decide (e.step ≠ s1)
    if l = c.tapQ then s else s.setCore k { c with tapQ := l }

/-- The undo of step S begins: the work of the run-ahead step is abandoned, posts are discarded, NEWEST equals
ACTIVE, and the run-ahead step's tap slices go (R205, log 28). -/
def State.beginUndo (s : State) (i : Nat) : State :=
  let g := s.gate i
  let drop (p : UpdPost) : UpdPost := { p with discard := true }
  let s := s.setGate i { g with undo := true, posts := g.posts.map drop, updated := [], moments := [] }
  ((s.undoWork i).newestIsActive i).undoTaps i

/-- Step S is to be skipped with a code, after its undo. -/
def State.beginSkip (s : State) (i code : Nat) : State :=
  let g := s.gate i
  let s := s.setGate i { g with st := .skipped, skipCode := code }
  if g.undo then s else s.beginUndo i

/-- Step S becomes TAINTED, and its undo begins (R200, R205). -/
def State.beginTaint (s : State) (i : Nat) : State := (s.setGate i { s.gate i with st := .tainted, tainted := true }).beginUndo i

/-- Whether something that an undo has abandoned or discarded has not stopped yet. -/
def State.undoBusy (s : State) (i : Nat) : Bool :=
  (s.xfers.any fun t => decide (t.inst = i ∧ t.gen = s.gen i) && t.abandon) ||
  (s.colls.any fun c => decide (c.inst = i ∧ c.gen = s.gen i) && c.abandon && !c.posters.isEmpty) ||
  (s.gate i).posts.any fun p => p.discard

end Sys2Proof.Machine
end

