-- ==== Sys2Proof/Machine/Route.lean ====
section
/-! DEFINITION. Messages between modules: headers (Table 12.3), routing on the torus (R262), the job of
an instance (R264, R265), and the Clove notice (R204). -/

namespace Sys2Proof.Machine

/-! ### Message types and virtual channels (Table 12.4) -/
namespace Msg
def idle : Nat := 0
def chunk : Nat := 1
def ack : Nat := 2
def nack : Nat := 3
def write : Nat := 4
def readReq : Nat := 5
def readData : Nat := 6
def refused : Nat := 7
def verdict : Nat := 8
def clove : Nat := 9
def ckpt : Nat := 10
def replay : Nat := 11
def telemetry : Nat := 12
end Msg

/-- The extent of the torus on an axis (COLL_EXT holds extent − 1). -/
def State.extOf (s : State) (ax : Nat) : Nat := coordAxis (s.fld R.collExt 0 24) ax + 1

/-- The first axis on which a target differs from this module, if any (R262). -/
def State.routeAxis (s : State) (dst : Nat) : Option Nat :=
  [0, 1, 2, 3].find? fun ax => decide (coordAxis dst ax ≠ coordAxis s.coord ax)

/-- The port by which a message for a target leaves: dimension order, the shorter way, positive on a
tie (R262, R253). -/
def State.routePort (s : State) (dst : Nat) : Option Nat :=
  (s.routeAxis dst).map fun ax =>
    let e := s.extOf ax
    let d := (coordAxis dst ax + e - coordAxis s.coord ax % e) % e
    if d ≤ e / 2 then ax else ax + 4

/-- Whether the hop from this module by a port crosses the wrap link of its axis (R262). -/
def State.wraps (s : State) (p : Nat) : Bool :=
  let own := coordAxis s.coord (p % 4)
  if p < 4 then decide (own + 1 = s.extOf p) else decide (own = 0)

/-- A message put on its way from this module; `out` is the port by which it goes on as long as it has way to go on that
port's axis: one under way keeps its direction. One addressed to this module waits for delivery (R262). -/
def State.relay (s : State) (m : Message) (out : Option Nat) : State :=
  match s.routePort m.dst with
  | none => { s with inbox := s.inbox ++ [m] }
  | some q =>
    let along := out.filter fun p => decide (p % 4 = q % 4)
    let p := along.getD q
    let cls := if along.isSome then m.dclass else 0
    let l := s.link p
    s.setLink p { l with outq := l.outq ++ [{ m with dclass := if s.wraps p then 1 else cls }] }

/-- A message of this module sent, with the CRC-32C of its payload, by a given port or by its route (R258, R262, R274). -/
def State.sendBy (s : State) (out : Option Nat) (m : Message) : State := s.relay { m with src := s.coord, crc := crc32c m.payload } out
def State.send (s : State) (m : Message) : State := s.sendBy none m

/-- The header fields that an instance's messages carry: its generation, its job, and the step with its
provisional bit (Table 12.3, R191). -/
def State.header (s : State) (i typ vc dst : Nat) (step : W64) : Message :=
  { typ := typ, vc := vc, gen := s.gen i, step := step.toNat % 4,
    prov := s.provisional i step,
    job := s.fld (R.collJob i) 0 16, dst := dst }

/-! ### The job's box (R264 to R266) -/

def State.jobExt (s : State) (i ax : Nat) : Nat := coordAxis (s.fld (R.collJext i) 0 24) ax + 1

/-- The relative position of a coordinate in an instance's job on an axis. -/
def State.relPos (s : State) (i c ax : Nat) : Nat :=
  let e := s.extOf ax
  (coordAxis c ax + e - coordAxis (s.fld (R.collOrigin i) 0 24) ax % e) % e

/-- The coordinate like `c` but at a relative position on an axis. -/
def State.atRel (s : State) (i c ax p : Nat) : Nat :=
  coordSet c ax ((coordAxis (s.fld (R.collOrigin i) 0 24) ax + p) % s.extOf ax)

/-- The coordinates of a job's modules. -/
def State.jobModules (s : State) (i : Nat) : List Nat :=
  let o := s.fld (R.collOrigin i) 0 24
  [0, 1, 2, 3].foldl (fun l ax => l.flatMap fun c => (List.range (s.jobExt i ax)).map fun p => s.atRel i c ax p) [o]

/-- Whether an instance is ACTIVE. -/
def State.anyActive (s : State) : Bool := s.insts.any fun e => decide (e.2.st = .active)

/-- The ACTIVE instance that holds a job, if any (R264). -/
def State.jobInst (s : State) (job : Nat) : Option Nat :=
  (s.insts.find? fun e => decide (e.2.st = .active ∧ s.fld (R.collJob e.1) 0 16 = job)).map (·.1)

/-! ### Sticky bits and the records they make (R294, R301, R393) -/

/-- A sticky bit set by a rule that assigns no class: its record is of class C (R294, log 17). -/
def State.sticky (s : State) (b : Block) (off bit code : Nat) (inst : Nat := 0xFF) (uid : W32 := pcieUid)
    (cmd : Nat := 0xFFFF) : State :=
  (s.setBit off bit true).raise 3 code b bit uid inst cmd

/-- A dropped item of an old generation, counted (R241). -/
def State.stale (s : State) (i : Nat) : State :=
  (s.incReg (R.staleDrop i)).raise 3 St.staleGeneration .inst (openDetail .inst St.staleGeneration) pcieUid i

/-! ### Failing contributions (R302, R204) -/

/-- UPD_GATE_LAST: the module named and the event (Table 9.7). -/
def State.gateEvent (s : State) (i coord b : Nat) : State :=
  (s.setBit (R.gateErr i) b true).setReg (R.gateLast i) (BitVec.ofNat 64 (coord % 2 ^ 24 + (b + 1) * 2 ^ 24))

/-- A Clove notice for a step to every other module of the job, counted once (R204). -/
def State.sendClove (s : State) (i : Nat) (step : W64) (first last : Nat) : State :=
  let l := (s.jobModules i).filter fun c => decide (c ≠ s.coord)
  let s := forEach l s fun s c =>
    s.send { s.header i Msg.clove 0 c step with payload := leBytes 4 first ++ leBytes 4 last }
  s.incReg (R.cloveCount i)

/-- A failed check found in work of step `st` of an instance: the contribution fails, and
UPD_GATE_ERR.PLAUSIBILITY names this module (R302, Table 9.7); once a chunk of the contribution has
left, a Clove notice follows (R204). A COMPUTED step becomes TAINTED (Table 9.5), except after a replay, where the
verdict skips it (R206, log 28). The unit that the step's first failure names is noted for R308. -/
def State.failContribution (s : State) (i : Nat) (st : W64) (unit : W32) : State :=
  if s.gateOn i then
    let g := s.gate i
    let s0 := s.s0 i
    let s := s.gateEvent i s.coord 2
    if st = s0 then
      let s := s.setGate i { g with failed := true, failUnit := g.failUnit.or (some unit), cloveSent := g.cloveSent || g.chunkLeft }
      let s := if g.chunkLeft && !g.cloveSent then s.sendClove i st (g.seqFirst.getD 0) g.seqLast else s
      if g.st = .computed ∧ !g.replayed then s.beginTaint i else s
    else if st = s0 + 1 then
      let s := s.setGate i { g with failedNext := true, failUnitNext := g.failUnitNext.or (some unit),
                                    cloveSentNext := g.cloveSentNext || g.chunkLeftNext }
      if g.chunkLeftNext && !g.cloveSentNext then s.sendClove i st (g.seqFirstNext.getD 0) g.seqLastNext else s
    else s
  else s

end Sys2Proof.Machine
end

