-- ==== Sys2Proof/Machine/Inputs.lean ====
section
/-! DEFINITION. When audit records are due (R289), the INPUTS digest (R291), and what a digest is when it meets an
uncorrectable word (R303). -/

namespace Sys2Proof.Machine

def State.auditOn (s : State) (i : Nat) : Bool := decide (s.fld (R.audSize i) 0 16 ≠ 0)
/-- Whether the commit that makes `c` needs a record (R289). -/
def State.auditDue (s : State) (i : Nat) (c : W64) : Bool :=
  let e := s.fld (R.audCfg i) 16 16
  s.auditOn i && decide (e ≠ 0 ∧ c.toNat % e = 0)
/-- Whether a SOLVE needs a record (R289). -/
def State.auditSolves (s : State) (i : Nat) : Bool := s.auditOn i && s.bit (R.audCfg i) 0

/-- A SHA-256 over ranges of memory: an uncorrectable word of one is never delivered, so that a class A record names it
and the digest is a free value (R291, R303, log 25). -/
def State.hashRanges (s : State) (i : Nat) (l : List (Nat × Nat)) (f : Unit → List Byte) : State × List Byte :=
  match s.badAmong l false with
  | none => (s, f ())
  | some w =>
    ({ s.raise 1 St.memoryUncorrectable .dev (openDetail .dev St.memoryUncorrectable) (memUid w) i with freeCtr := s.freeCtr + 4 },
     (List.range 4).flatMap fun n => leBytes 8 (Config.freeValue (s.freeCtr + n)).toNat)

/-- The (address, length) entries of a list in HBM: an 8-byte COUNT and 16-byte entries. -/
def State.rangeList (s : State) (a : Nat) : List (Nat × Nat) :=
  (List.range (s.rd a 8)).map fun j => (s.rd (a + 8 + 16 * j) 8, s.rd (a + 16 + 16 * j) 8)

/-- Whether the list of inputs and every range of it lie in the instance's buffers (R291). -/
def State.inputsOwned (s : State) (i a : Nat) : Bool :=
  s.ownsHbm i a 8 && s.ownsHbm i a (8 + 16 * s.rd a 8) && (s.rangeList a).all fun e => s.ownsHbm i e.1 e.2

/-- INPUTS: the SHA-256 over that of each range of the list; a range outside the instance's buffers makes it zero, sets
BAD_INPUTS and raises a class B event (R291). -/
def State.hashInputs (s : State) (i : Nat) : State × Hashed :=
  let a := (s.reg (R.audInputs i)).toNat
  if a = 0 then (s, { digest := sha256 [] })
  else if s.inputsOwned i a then
    let l := s.rangeList a
    let x := s.hashRanges i ((a, 8 + 16 * s.rd a 8) :: l) fun _ => sha256 (l.flatMap fun e => sha256 (s.rbs e.1 e.2))
    (x.1, { digest := x.2 })
  else ((s.setBit (R.audStat i) 1 true).raise 2 St.internal .dev 1 pcieUid i, { digest := zeros 32, outside := true })

/-- The INPUTS of a solve's record, hashed at its FINAL or freeze where it needs one (R291). -/
def State.solveInputs (s : State) (i : Nat) : State × Option Hashed :=
  if s.auditSolves i then ((s.hashInputs i).1, some (s.hashInputs i).2) else (s, none)

end Sys2Proof.Machine
end

