-- ==== Sys2Proof/WellFormed.lean ====
section
/-! DEFINITION. Well-formed commands: a core instruction is well-formed when its operand values are
those of an assigned encoding (R75, R76, R78 and the class tables), and a command of the host or an
event when it names a unit that the module has (R13, R229). -/

namespace Sys2Proof

/-- A launch field: DELTA is 0 to 127 (R75). -/
def Launch.wf (l : Launch) : Bool := l.all fun d => decide (d < 128)

/-- A core key names one of 4,096 × 256 logical cores (R13, R64). -/
def coreOk (k : Nat) (l : Launch) : Bool := decide (k < 1048576) && l.wf

/-- Broadcast code of a vector instruction: 0 to 2, and 0 with T = 0 (R94, R76). -/
def bcOk (tile : Bool) (bc : Nat) : Bool := decide (bc ≤ 2) && (tile || decide (bc = 0))

/-- The reason for which a unit delays a transfer: a cause of Table 2.1 other than SCHEDULE, which is no unit's, or 0
for none (R44). -/
def delayOk (d : Nat) : Bool := decide (d < 8 ∧ d ≠ 3)

/-- Whether a command's operands are in range. DESIGN CHOICE (log 44): a field counts as not used by an operation (R76)
where the class tables tie it to another field: imm and gs of TD.SET by S, bc by T; every other field that a table lists
for an operation may hold any assigned value, whether or not another field's value makes it matter. -/
def Instr.wf : Instr → Bool
  | .add k l _ _ _ | .sub k l _ _ _ | .and k l _ _ _ | .or k l _ _ _ | .xor k l _ _ _
  | .shl k l _ _ _ | .shr k l _ _ _ | .sra k l _ _ _ | .mul k l _ _ _ | .slt k l _ _ _
  | .sltu k l _ _ _ | .min k l _ _ _ | .max k l _ _ _ | .addi k l _ _ _ | .andi k l _ _ _
  | .ori k l _ _ _ | .xori k l _ _ _ | .movi k l _ _ | .ldw k l _ _ _ | .stw k l _ _ _
  | .mova k l _ _ _ | .movg k l _ _ _ | .br k l _ | .beq k l _ _ _ | .bne k l _ _ _
  | .blt k l _ _ _ | .bge k l _ _ _ | .bltu k l _ _ _ | .bgeu k l _ _ _ => coreOk k l
  | .loop k l _ _ len _ => coreOk k l && decide (1 ≤ len ∧ len ≤ 767)
  | .tdSet k l _ fld reg gs imm =>
    coreOk k l && decide (fld ≤ 8) && (if reg then decide (imm = 0) && (decide (fld ≠ 0) || decide (gs.val < 16))
      else decide (gs.val = 0))
  | .tdCopy k l _ _ => coreOk k l
  | .tmov k l _ _ wm _ => coreOk k l && decide (wm ≤ 1)
  | .tfill k l _ _ => coreOk k l
  | .mmaF16 k l _ _ _ _ n _ | .mmaF32 k l _ _ _ _ n _ | .mmaI16 k l _ _ _ _ n _ =>
    coreOk k l && decide (n < 4096)
  | .mmaOut k l _ _ _ rnd ep _ _ | .mmaOuts k l _ _ _ _ rnd ep _ _ =>
    coreOk k l && decide (rnd ≤ 2) && decide (ep ≤ 2)
  | .mmaClr k l _ => coreOk k l
  | .gang k l shape => coreOk k l && decide (shape ≤ 3)
  | .vadd k l tile _ _ _ _ bc _ | .vmul k l tile _ _ _ _ bc _ | .vfma k l tile _ _ _ _ _ bc _
  | .vsel k l tile _ _ _ _ bc _ | .vmin k l tile _ _ _ _ bc _ | .vmax k l tile _ _ _ _ bc _ =>
    coreOk k l && bcOk tile bc
  | .vcmp k l _ _ _ cmp _ => coreOk k l && decide (cmp ≤ 5)
  | .vld k l _ _ _ _ | .vst k l _ _ _ _ => coreOk k l
  | .tapArm k l _ _ s _ => coreOk k l && decide (s < 8)
  | .tapOff k l => coreOk k l
  | .tapAuto k l _ | .syrkTap k l _ | .tapDrain k l _ => coreOk k l
  | .nsiScale k l _ _ p _ | .nsiStep k l _ _ _ p | .nsiResid k l _ _ p _ | .trsvSn k l _ _ _ p =>
    coreOk k l && decide (p ≤ 2)
  | .cholSn k l _ _ _ | .ldltSn k l _ _ _ | .refine k l _ _ _ _ => coreOk k l
  | .sigCnt k l idx _ _ => coreOk k l && decide (idx < 64)
  | .waitCnt k l idx _ | .setCnt k l idx _ => coreOk k l && decide (idx < 64)
  | .barArrive k l idx | .barWait k l idx => coreOk k l && decide (idx < 256)
  | .flagSet k l idx | .flagWait k l idx | .flagClr k l idx => coreOk k l && decide (idx < 4096)
  | .hostIrq k l idx => coreOk k l && decide (idx < 2048)
  | .baSet k l g | .beatRd k l g => coreOk k l && decide (g.val ≠ 31)
  | .baAdv k l _ | .baNow k l _ | .beatWait k l _ => coreOk k l
  | .xferPost k l _ cnt _ _ | .collPost k l _ cnt _ _ | .updApply k l _ cnt _ _ =>
    coreOk k l && decide (cnt < 64)
  | .updNs k l _ _ _ => coreOk k l
  | .updNf k l _ => coreOk k l
  | .tchk k l _ g => coreOk k l && decide (g.val ≠ 31)
  | .chkRange k l _ _ _ => coreOk k l
  | .chkNf k l _ _ => coreOk k l
  | .digFold k l gs _ => coreOk k l && decide (gs.val ≠ 31)
  | .digRd k l g _ => coreOk k l && decide (g.val ≠ 31)
  | .digClr k l _ => coreOk k l
  | .cntRd k l _ imm =>
    coreOk k l && decide (imm.toNat % 8 ≠ 7) && decide (imm.toNat / 8 ≤ 39)
  | .attrSet k l _ _ => coreOk k l
  | .traceMark k l _ => coreOk k l
  | .halt k l | .nop k l | .bankSwap k l => coreOk k l
  | .endProg k l kind _ idx _ =>
    coreOk k l && decide (kind ≤ 3) && decide (idx < 4096)
      && (decide (kind ≠ 1) || decide (idx < 64)) && (decide (kind ≠ 3) || decide (idx < 2048))
  | .fence k l imm => coreOk k l && decide (imm.toNat < 64) && decide (imm.toNat % 2 = 0)
  | .statRd k l _ imm => coreOk k l && decide (imm.toNat ≤ 6)
  | .instructionStart k _ | .coreFault k _ _ | .drainComplete k | .programLoadComplete k
  | .swapTakesEffect k | .coreStart k | .vectorPassComplete k | .movePassComplete k | .tapAutoFold k
  | .tapFoldComplete k | .supernodeBoundaryEnd k | .breakpointHit k _ _ _ _
  | .drainTimeout k => decide (k < 1048576)
  | .signalTakesEffect k => k.all fun e => decide (e.id < 1048576) && delayOk e.delay
  | .dmaChunkDone x => delayOk x.delay
  | .collectiveComplete i seq => decide (i < 64) && delayOk seq.delay
  | .gangedPassStart cl | .gangShapeChange cl | .gangFeedUncorrectable cl _ => decide (cl < 4096)
  | .matrixEntryEnd u g | .matrixPassComplete u g | .factorOpComplete u g =>
    decide (u < if g then 4096 else 1048576)
  | .launch q | .copy q | .collective q | .stepCommit q | .stepCommitReplayDone q | .solve q
  | .checkpointRequest q | .checkpointDrain q | .restoreBuddy q | .restoreHost q | .signalCounter q
  | .signalFlagSet q | .signalFlagClear q | .signalBarrier q | .waitCounter q | .waitFlag q
  | .waitBarrier q | .waitBeat q | .waitTimeout q | .alloc q | .free q | .counterSnap q
  | .exportShard q | .commandFetch q | .completionPost q => decide (q < 16384)
  | .sqTailDoorbell fn q _ | .cqHeadDoorbell fn q _ | .doorbellFlagSet fn q _
  | .doorbellFlagClr fn q _ | .queueResume fn q _ => decide (fn ≤ 64) && decide (q < 16384)
  | .linkEnable fn p _ | .linkDisable fn p _ => decide (fn ≤ 64) && decide (p < 8)
  | .linkTrainingComplete p _ peer => decide (p < 8) && decide (peer < 8)
  | .linkTrainingTimeout p | .frameSend p | .frameReceive p _ | .laneLockLoss p
  | .frameCheckTimeout p => decide (p < 8)
  | .parentPortRecover p => decide (p < 8)
  | .rateChange d _ | .rateMonitorRefresh d => decide (d < 16)
  | .lowerHalfRead fn _ | .upperHalfRead fn _ | .lowerHalfWrite fn _ _ | .upperHalfWrite fn _ _
  | .registerWrite fn _ _ _ | .badAccessWidth fn _ _ _ | .bar4Read fn _ _ | .bar4Write fn _ _ =>
    decide (fn ≤ 67)
  | .alignEnable fn _ _ | .alignDisable fn _ | .alignCfgWrite fn _ | .functionLevelReset fn
  | .devModeWrite fn _ | .warmReset fn _ | .powerConfigWrite fn _ | .buddySizeWrite fn _ =>
    decide (fn ≤ 64)
  | .barrierMembersWrite fn n _ => decide (fn ≤ 64) && decide (n < 256)
  | .configure fn i | .activate fn i _ | .quiesce fn i _ | .instanceReset fn i _ | .release fn i
  | .updEnableWrite fn i _ | .replaySend fn i | .debugHalt fn i _ _ _ | .debugResume fn i _ _ _
  | .debugStep fn i _ _ | .breakpointConfigWrite fn i _ | .debugAccessRead fn i
  | .debugAccessWrite fn i _ | .debugLock fn i | .collCutWrite fn i _ =>
    decide (fn ≤ 64) && decide (i < 64)
  | .deadlock i | .quiesceComplete i | .resetComplete i | .instanceResetTimeout i
  | .collChunkTimeout i _ | .verdictSend i | .gateTimeout i
  | .commitApply i | .rootDispatch i | .commitHoldRelease i | .rootLateTimeout i
  | .updatePostPerform i | .undoComplete i | .solveStart i | .solveAnnounce i _ | .solveFreeze i _
  | .solveAbandonTimeout i _ | .solveResultPost i _ | .auditRecordWrite i | .digestCompareTimeout i
  | .commandRecordWrite i | .debugUnlock i _ _ _ _ | .debugSessionExpire i | .exportShardComplete i
  | .stateDigestShardDone i => decide (i < 64)
  | .freeComplete idx => decide (idx < 65536)
  | .recoveryWindowTimeout slot => decide (slot < 4)
  | .firmwareUpdate _ slot _ => decide (slot ≤ 2)
  | .beat _ | .refclkLoss | .refclkReturn | .beatSample _ _ | .alignLock | .parentPortFail
  | .holdoverTimeout | .transferComplete _ | .collChunk | .chunkAck | .chunkNack
  | .xferWrite | .xferReadReq | .xferReadData | .refused | .verdict | .clove | .errorRecordWrite
  | .patrolScrub _ _ | .replayInput | .replayResult | .replayDigest | .ckptBegin | .ckptBlock
  | .ckptDigests | .ckptEnd | .ckptAck | .ckptAbort | .ckptCopyTimeout | .restoreReq | .restoreData
  | .checkpointDrainComplete | .restoreComplete | .telemetry | .intervalRecord _ _ _
  | .timeDisciplineMessage _ _ _ _ _ _ | .readRequest _ _ _ | .sealBreak _ | .serviceChange _ _ _ _
  | .sealBreakEnd | .mirrorRefresh _ _ _ _ | .standbyPowerOn _ | .standbyPowerFall
  | .startupStepComplete | .startupStepTimeout | .perstDeassert | .regulatorRamp | .mainInputTrip _
  | .tripRestart _ | .meteringReadyLoss | .powerSample _ _ | .junctionOverTemp _ | .thermalShutdown _
  | .boardRecordWrite _ _ _ _ _ | .mcWarmResetRequest _ | .powerCycle | .hostWatchdogExpire
  | .deviceReset | .ckptSourceBlockRead | .vbatLow | .calendarLost | .reverseCurrent => true

end Sys2Proof
end

