-- ==== Sys2Proof/Machine/Codes.lean ====
section
/-! DEFINITION. The instruction word of core instructions (R75 to R80, Tables 4.1 to 4.15): its
encoding, the check of R69 that a word encodes an assigned instruction, the launch field, and the
engine that executes each class (Table 4.2). -/

namespace Sys2Proof.Machine

/-- A word from its class, operation, launch field and operand bits (Table 4.1). -/
def wordOf (cls op : Nat) (l : Launch) (operands : Nat) : Nat :=
  cls * 2 ^ 58 + op * 2 ^ 52 + (match l with | none => 0 | some d => 2 ^ 51 + d * 2 ^ 44) + operands

/-- The word of a core instruction; none for a command that is no instruction. -/
def encode : Instr → Option Nat
  | .add _ l gd gs1 gs2 => some (wordOf 0x0 0x0 l (gd.val * 0x8000000000 + gs1.val * 0x400000000 + gs2.val * 0x20000000))
  | .sub _ l gd gs1 gs2 => some (wordOf 0x0 0x1 l (gd.val * 0x8000000000 + gs1.val * 0x400000000 + gs2.val * 0x20000000))
  | .and _ l gd gs1 gs2 => some (wordOf 0x0 0x2 l (gd.val * 0x8000000000 + gs1.val * 0x400000000 + gs2.val * 0x20000000))
  | .or _ l gd gs1 gs2 => some (wordOf 0x0 0x3 l (gd.val * 0x8000000000 + gs1.val * 0x400000000 + gs2.val * 0x20000000))
  | .xor _ l gd gs1 gs2 => some (wordOf 0x0 0x4 l (gd.val * 0x8000000000 + gs1.val * 0x400000000 + gs2.val * 0x20000000))
  | .shl _ l gd gs1 gs2 => some (wordOf 0x0 0x5 l (gd.val * 0x8000000000 + gs1.val * 0x400000000 + gs2.val * 0x20000000))
  | .shr _ l gd gs1 gs2 => some (wordOf 0x0 0x6 l (gd.val * 0x8000000000 + gs1.val * 0x400000000 + gs2.val * 0x20000000))
  | .sra _ l gd gs1 gs2 => some (wordOf 0x0 0x7 l (gd.val * 0x8000000000 + gs1.val * 0x400000000 + gs2.val * 0x20000000))
  | .mul _ l gd gs1 gs2 => some (wordOf 0x0 0x8 l (gd.val * 0x8000000000 + gs1.val * 0x400000000 + gs2.val * 0x20000000))
  | .slt _ l gd gs1 gs2 => some (wordOf 0x0 0x9 l (gd.val * 0x8000000000 + gs1.val * 0x400000000 + gs2.val * 0x20000000))
  | .sltu _ l gd gs1 gs2 => some (wordOf 0x0 0xa l (gd.val * 0x8000000000 + gs1.val * 0x400000000 + gs2.val * 0x20000000))
  | .min _ l gd gs1 gs2 => some (wordOf 0x0 0xb l (gd.val * 0x8000000000 + gs1.val * 0x400000000 + gs2.val * 0x20000000))
  | .max _ l gd gs1 gs2 => some (wordOf 0x0 0xc l (gd.val * 0x8000000000 + gs1.val * 0x400000000 + gs2.val * 0x20000000))
  | .addi _ l gd gs1 imm => some (wordOf 0x0 0x10 l (gd.val * 0x8000000000 + gs1.val * 0x400000000 + imm.toNat))
  | .andi _ l gd gs1 imm => some (wordOf 0x0 0x11 l (gd.val * 0x8000000000 + gs1.val * 0x400000000 + imm.toNat))
  | .ori _ l gd gs1 imm => some (wordOf 0x0 0x12 l (gd.val * 0x8000000000 + gs1.val * 0x400000000 + imm.toNat))
  | .xori _ l gd gs1 imm => some (wordOf 0x0 0x13 l (gd.val * 0x8000000000 + gs1.val * 0x400000000 + imm.toNat))
  | .movi _ l gd imm => some (wordOf 0x0 0x14 l (gd.val * 0x8000000000 + imm.toNat))
  | .ldw _ l g an imm => some (wordOf 0x0 0x18 l (g.val * 0x8000000000 + an.val * 0x800000000 + imm.toNat))
  | .stw _ l g an imm => some (wordOf 0x0 0x19 l (g.val * 0x8000000000 + an.val * 0x800000000 + imm.toNat))
  | .mova _ l g an imm => some (wordOf 0x0 0x1a l (g.val * 0x8000000000 + an.val * 0x800000000 + imm.toNat))
  | .movg _ l g an imm => some (wordOf 0x0 0x1b l (g.val * 0x8000000000 + an.val * 0x800000000 + imm.toNat))
  | .br _ l off => some (wordOf 0x1 0x0 l (off.toNat))
  | .beq _ l gs1 gs2 off => some (wordOf 0x1 0x1 l (gs1.val * 0x8000000000 + gs2.val * 0x400000000 + off.toNat))
  | .bne _ l gs1 gs2 off => some (wordOf 0x1 0x2 l (gs1.val * 0x8000000000 + gs2.val * 0x400000000 + off.toNat))
  | .blt _ l gs1 gs2 off => some (wordOf 0x1 0x3 l (gs1.val * 0x8000000000 + gs2.val * 0x400000000 + off.toNat))
  | .bge _ l gs1 gs2 off => some (wordOf 0x1 0x4 l (gs1.val * 0x8000000000 + gs2.val * 0x400000000 + off.toNat))
  | .bltu _ l gs1 gs2 off => some (wordOf 0x1 0x5 l (gs1.val * 0x8000000000 + gs2.val * 0x400000000 + off.toNat))
  | .bgeu _ l gs1 gs2 off => some (wordOf 0x1 0x6 l (gs1.val * 0x8000000000 + gs2.val * 0x400000000 + off.toNat))
  | .loop _ l lc gs len cnt => some (wordOf 0x1 0x10 l (lc.val * 0x40000000000 + gs.val * 0x2000000000 + len * 0x10000 + cnt.toNat))
  | .tdSet _ l td fld S gs imm => some (wordOf 0x2 0x0 l (td.val * 0x10000000000 + fld * 0x1000000000 + S.toNat * 0x800000000 + gs.val * 0x40000000 + imm.toNat))
  | .tdCopy _ l tdst tsrc => some (wordOf 0x2 0x1 l (tdst.val * 0x10000000000 + tsrc.val * 0x1000000000))
  | .tmov _ l tdst tsrc wm gsc => some (wordOf 0x2 0x8 l (tdst.val * 0x10000000000 + tsrc.val * 0x1000000000 + wm * 0x400000000 + gsc.val * 0x20000000))
  | .tfill _ l tdst gsc => some (wordOf 0x2 0x9 l (tdst.val * 0x10000000000 + gsc.val * 0x20000000))
  | .mmaF16 _ l ac ta tb tc n G => some (wordOf 0x3 0x0 l (ac.val * 0x40000000000 + ta.val * 0x4000000000 + tb.val * 0x400000000 + tc.val * 0x40000000 + n * 0x40000 + G.toNat * 0x20000))
  | .mmaF32 _ l ac ta tb tc n G => some (wordOf 0x3 0x1 l (ac.val * 0x40000000000 + ta.val * 0x4000000000 + tb.val * 0x400000000 + tc.val * 0x40000000 + n * 0x40000 + G.toNat * 0x20000))
  | .mmaI16 _ l ac ta tb tc n G => some (wordOf 0x3 0x2 l (ac.val * 0x40000000000 + ta.val * 0x4000000000 + tb.val * 0x400000000 + tc.val * 0x40000000 + n * 0x40000 + G.toNat * 0x20000))
  | .mmaOut _ l ac ta tb rnd ep gid G => some (wordOf 0x3 0x8 l (ac.val * 0x40000000000 + ta.val * 0x4000000000 + tb.val * 0x400000000 + rnd * 0x8000 + ep * 0x2000 + gid.val * 0x100 + G.toNat * 0x20000))
  | .mmaOuts _ l ac ta tb tc rnd ep gid G => some (wordOf 0x3 0x9 l (ac.val * 0x40000000000 + ta.val * 0x4000000000 + tb.val * 0x400000000 + tc.val * 0x40000000 + rnd * 0x8000 + ep * 0x2000 + gid.val * 0x100 + G.toNat * 0x20000))
  | .mmaClr _ l ac => some (wordOf 0x3 0xa l (ac.val * 0x40000000000))
  | .gang _ l ac => some (wordOf 0x3 0x10 l (ac * 0x40000000000))
  | .vadd _ l T vd va vb m bc fp => some (wordOf 0x4 0x0 l (T.toNat * 0x1000000 + vd.val * 0x10000000000 + va.val * 0x1000000000 + vb.val * 0x100000000 + m.val * 0x2000000 + bc * 0x400000 + fp.toNat * 0x200000))
  | .vmul _ l T vd va vb m bc fp => some (wordOf 0x4 0x1 l (T.toNat * 0x1000000 + vd.val * 0x10000000000 + va.val * 0x1000000000 + vb.val * 0x100000000 + m.val * 0x2000000 + bc * 0x400000 + fp.toNat * 0x200000))
  | .vfma _ l T vd va vb vc m bc fp => some (wordOf 0x4 0x2 l (T.toNat * 0x1000000 + vd.val * 0x10000000000 + va.val * 0x1000000000 + vb.val * 0x100000000 + vc.val * 0x10000000 + m.val * 0x2000000 + bc * 0x400000 + fp.toNat * 0x200000))
  | .vcmp _ l vd va vb cmp fp => some (wordOf 0x4 0x3 l (vd.val * 0x10000000000 + va.val * 0x1000000000 + vb.val * 0x100000000 + cmp * 0x40000 + fp.toNat * 0x200000))
  | .vsel _ l T vd va vb m bc fp => some (wordOf 0x4 0x4 l (T.toNat * 0x1000000 + vd.val * 0x10000000000 + va.val * 0x1000000000 + vb.val * 0x100000000 + m.val * 0x2000000 + bc * 0x400000 + fp.toNat * 0x200000))
  | .vmin _ l T vd va vb m bc fp => some (wordOf 0x4 0x5 l (T.toNat * 0x1000000 + vd.val * 0x10000000000 + va.val * 0x1000000000 + vb.val * 0x100000000 + m.val * 0x2000000 + bc * 0x400000 + fp.toNat * 0x200000))
  | .vmax _ l T vd va vb m bc fp => some (wordOf 0x4 0x6 l (T.toNat * 0x1000000 + vd.val * 0x10000000000 + va.val * 0x1000000000 + vb.val * 0x100000000 + m.val * 0x2000000 + bc * 0x400000 + fp.toNat * 0x200000))
  | .vld _ l vd an m off => some (wordOf 0x4 0x10 l (vd.val * 0x10000000000 + an.val * 0x1000000000 + m.val * 0x200000000 + off.toNat))
  | .vst _ l vd an m off => some (wordOf 0x4 0x11 l (vd.val * 0x10000000000 + an.val * 0x1000000000 + m.val * 0x200000000 + off.toNat))
  | .tapArm _ l tf side s gid => some (wordOf 0x5 0x0 l (tf.val * 0x10000000000 + side.toNat * 0x800000000 + s * 0x100000000 + gid.val * 0x8000000))
  | .tapOff _ l => some (wordOf 0x5 0x1 l (0))
  | .tapAuto _ l tf => some (wordOf 0x5 0x2 l (tf.val * 0x10000000000))
  | .syrkTap _ l tf => some (wordOf 0x5 0x8 l (tf.val * 0x10000000000))
  | .tapDrain _ l tf => some (wordOf 0x5 0x9 l (tf.val * 0x10000000000))
  | .nsiScale _ l t1 t2 p gs => some (wordOf 0x6 0x0 l (t1.val * 0x10000000000 + t2.val * 0x1000000000 + p * 0x4000000 + gs.val * 0x200000))
  | .nsiStep _ l t1 t2 t3 p => some (wordOf 0x6 0x1 l (t1.val * 0x10000000000 + t2.val * 0x1000000000 + t3.val * 0x100000000 + p * 0x4000000))
  | .nsiResid _ l t1 t2 p gs => some (wordOf 0x6 0x2 l (t1.val * 0x10000000000 + t2.val * 0x1000000000 + p * 0x4000000 + gs.val * 0x200000))
  | .cholSn _ l t1 t2 t3 => some (wordOf 0x6 0x8 l (t1.val * 0x10000000000 + t2.val * 0x1000000000 + t3.val * 0x100000000))
  | .ldltSn _ l t1 t2 t3 => some (wordOf 0x6 0x9 l (t1.val * 0x10000000000 + t2.val * 0x1000000000 + t3.val * 0x100000000))
  | .trsvSn _ l t1 t2 t3 p => some (wordOf 0x6 0xa l (t1.val * 0x10000000000 + t2.val * 0x1000000000 + t3.val * 0x100000000 + p * 0x4000000))
  | .refine _ l t1 t2 t3 t4 => some (wordOf 0x6 0xb l (t1.val * 0x10000000000 + t2.val * 0x1000000000 + t3.val * 0x100000000 + t4.val * 0x10000000))
  | .sigCnt _ l idx gt val => some (wordOf 0x7 0x0 l (idx * 0x100000000 + gt.val * 0x8000000 + val.toNat))
  | .waitCnt _ l idx val => some (wordOf 0x7 0x1 l (idx * 0x100000000 + val.toNat))
  | .setCnt _ l idx val => some (wordOf 0x7 0x2 l (idx * 0x100000000 + val.toNat))
  | .barArrive _ l idx => some (wordOf 0x7 0x8 l (idx * 0x100000000))
  | .barWait _ l idx => some (wordOf 0x7 0x9 l (idx * 0x100000000))
  | .flagSet _ l idx => some (wordOf 0x7 0x10 l (idx * 0x100000000))
  | .flagWait _ l idx => some (wordOf 0x7 0x11 l (idx * 0x100000000))
  | .flagClr _ l idx => some (wordOf 0x7 0x12 l (idx * 0x100000000))
  | .hostIrq _ l idx => some (wordOf 0x7 0x18 l (idx * 0x100000000))
  | .baSet _ l g => some (wordOf 0x8 0x0 l (g.val * 0x8000000000))
  | .baAdv _ l imm => some (wordOf 0x8 0x1 l (imm.toNat))
  | .baNow _ l imm => some (wordOf 0x8 0x2 l (imm.toNat))
  | .beatWait _ l imm => some (wordOf 0x8 0x8 l (imm.toNat))
  | .beatRd _ l g => some (wordOf 0x8 0x9 l (g.val * 0x8000000000))
  | .xferPost _ l an cnt gt val => some (wordOf 0x9 0x0 l (an.val * 0x10000000000 + cnt * 0x400000000 + gt.val * 0x20000000 + val.toNat))
  | .collPost _ l an cnt gt val => some (wordOf 0xa 0x0 l (an.val * 0x10000000000 + cnt * 0x400000000 + gt.val * 0x20000000 + val.toNat))
  | .updApply _ l an cnt gt val => some (wordOf 0xb 0x0 l (an.val * 0x10000000000 + cnt * 0x400000000 + gt.val * 0x20000000 + val.toNat))
  | .updNs _ l t1 t2 t3 => some (wordOf 0xb 0x1 l (t1.val * 0x10000000000 + t2.val * 0x1000000000 + t3.val * 0x100000000))
  | .updNf _ l t1 => some (wordOf 0xb 0x2 l (t1.val * 0x10000000000))
  | .tchk _ l t1 g => some (wordOf 0xc 0x0 l (t1.val * 0x10000000000 + g.val * 0x800000000))
  | .chkRange _ l t1 g gs => some (wordOf 0xc 0x1 l (t1.val * 0x10000000000 + g.val * 0x800000000 + gs.val * 0x40000000))
  | .chkNf _ l t1 g => some (wordOf 0xc 0x2 l (t1.val * 0x10000000000 + g.val * 0x800000000))
  | .digFold _ l gs kk => some (wordOf 0xc 0x8 l (gs.val * 0x40000000 + kk.val * 0x10000000))
  | .digRd _ l g kk => some (wordOf 0xc 0x9 l (g.val * 0x800000000 + kk.val * 0x10000000))
  | .digClr _ l kk => some (wordOf 0xc 0xa l (kk.val * 0x10000000))
  | .cntRd _ l gd imm => some (wordOf 0xd 0x0 l (gd.val * 0x8000000000 + imm.toNat))
  | .attrSet _ l gs1 gs2 => some (wordOf 0xd 0x1 l (gs1.val * 0x400000000 + gs2.val * 0x20000000))
  | .traceMark _ l imm => some (wordOf 0xd 0x8 l (imm.toNat))
  | .halt _ l => some (wordOf 0xd 0x10 l (0))
  | .nop _ l => some (wordOf 0x3f 0x0 l (0))
  | .endProg _ l kind gt idx val => some (wordOf 0x3f 0x1 l (kind * 0x40000000000 + gt.val * 0x2000000000 + idx * 0x10000 + val.toNat))
  | .bankSwap _ l => some (wordOf 0x3f 0x2 l (0))
  | .fence _ l imm => some (wordOf 0x3f 0x3 l (imm.toNat))
  | .statRd _ l gd imm => some (wordOf 0x3f 0x4 l (gd.val * 0x8000000000 + imm.toNat))
  | .lowerHalfRead _ _ | .upperHalfRead _ _ | .lowerHalfWrite _ _ _ | .upperHalfWrite _ _ _
  | .registerWrite _ _ _ _ | .badAccessWidth _ _ _ _ | .bar4Read _ _ _ | .bar4Write _ _ _
  | .beat _ | .refclkLoss | .refclkReturn | .rateChange _ _
  | .rateMonitorRefresh _ | .beatSample _ _ | .alignEnable _ _ _ | .alignDisable _ _
  | .alignCfgWrite _ _ | .alignLock | .parentPortFail | .holdoverTimeout
  | .parentPortRecover _ | .gangedPassStart _ | .gangShapeChange _ | .matrixEntryEnd _ _
  | .matrixPassComplete _ _ | .gangFeedUncorrectable _ _ | .vectorPassComplete _ | .movePassComplete _
  | .tapAutoFold _ | .tapFoldComplete _ | .factorOpComplete _ _ | .signalTakesEffect _
  | .instructionStart _ _ | .dmaChunkDone _ | .transferComplete _ | .coreFault _ _ _
  | .drainComplete _ | .programLoadComplete _ | .swapTakesEffect _ | .coreStart _
  | .launch _ | .copy _ | .collective _ | .stepCommit _
  | .stepCommitReplayDone _ | .solve _ | .checkpointRequest _ | .checkpointDrain _
  | .restoreBuddy _ | .restoreHost _ | .signalCounter _ | .signalFlagSet _
  | .signalFlagClear _ | .signalBarrier _ | .waitCounter _ | .waitFlag _
  | .waitBarrier _ | .waitBeat _ | .waitTimeout _ | .alloc _
  | .free _ | .freeComplete _ | .counterSnap _ | .exportShard _
  | .sqTailDoorbell _ _ _ | .cqHeadDoorbell _ _ _ | .doorbellFlagSet _ _ _ | .doorbellFlagClr _ _ _
  | .commandFetch _ | .completionPost _ | .queueResume _ _ _ | .barrierMembersWrite _ _ _
  | .deadlock _ | .configure _ _ | .activate _ _ _ | .quiesce _ _ _
  | .quiesceComplete _ | .instanceReset _ _ _ | .release _ _ | .functionLevelReset _
  | .resetComplete _ | .instanceResetTimeout _ | .linkEnable _ _ _ | .linkDisable _ _ _
  | .linkTrainingComplete _ _ _ | .linkTrainingTimeout _ | .frameSend _ | .frameReceive _ _
  | .laneLockLoss _ | .frameCheckTimeout _ | .collChunk | .chunkAck
  | .chunkNack | .collChunkTimeout _ _ | .collectiveComplete _ _ | .xferWrite
  | .xferReadReq | .xferReadData | .refused | .verdict
  | .verdictSend _ | .clove | .gateTimeout _ | .commitApply _
  | .rootDispatch _ | .commitHoldRelease _ | .rootLateTimeout _ | .updEnableWrite _ _ _
  | .updatePostPerform _ | .undoComplete _ | .solveStart _ | .solveAnnounce _ _
  | .solveFreeze _ _ | .supernodeBoundaryEnd _ | .solveAbandonTimeout _ _ | .solveResultPost _ _
  | .devModeWrite _ _ | .auditRecordWrite _ | .errorRecordWrite | .recoveryWindowTimeout _
  | .patrolScrub _ _ | .warmReset _ _ | .digestCompareTimeout _ | .replayInput
  | .replayResult | .replayDigest | .replaySend _ _ | .ckptBegin
  | .ckptBlock | .ckptDigests | .ckptEnd | .ckptAck
  | .ckptAbort | .ckptCopyTimeout | .restoreReq | .restoreData
  | .checkpointDrainComplete | .restoreComplete | .telemetry | .commandRecordWrite _
  | .breakpointHit _ _ _ _ _ | .drainTimeout _ | .debugHalt _ _ _ _ _ | .debugResume _ _ _ _ _
  | .debugStep _ _ _ _ | .breakpointConfigWrite _ _ _ | .debugAccessRead _ _ | .debugAccessWrite _ _ _
  | .debugUnlock _ _ _ _ _ | .debugLock _ _ | .debugSessionExpire _ | .intervalRecord _ _ _
  | .timeDisciplineMessage _ _ _ _ _ _ | .readRequest _ _ _ | .sealBreak _ | .serviceChange _ _ _ _
  | .sealBreakEnd | .mirrorRefresh _ _ _ _ | .standbyPowerOn _ | .standbyPowerFall
  | .startupStepComplete | .startupStepTimeout | .perstDeassert | .regulatorRamp
  | .mainInputTrip _ | .tripRestart _ | .meteringReadyLoss | .powerSample _ _
  | .junctionOverTemp _ | .thermalShutdown _ | .powerConfigWrite _ _ | .buddySizeWrite _ _
  | .collCutWrite _ _ _ | .boardRecordWrite _ _ _ _ _ | .mcWarmResetRequest _ | .powerCycle
  | .hostWatchdogExpire | .deviceReset | .exportShardComplete _ | .ckptSourceBlockRead
  | .stateDigestShardDone _ | .vbatLow | .calendarLost | .reverseCurrent
  | .firmwareUpdate _ _ _ => none

/-- The instruction of core `k` that a word's fields name, before its reserved bits and its operand
values are checked (Tables 4.1 to 4.15). -/
def decodeFields (k w : Nat) : Option Instr :=
  let l : Launch := if nbit w 51 then some (nfield w 44 7) else none
  match nfield w 58 6, nfield w 52 6 with
  | 0x0, 0x0 => some (.add k l (Fin.ofNat 32 (nfield w 39 5)) (Fin.ofNat 32 (nfield w 34 5)) (Fin.ofNat 32 (nfield w 29 5)))
  | 0x0, 0x1 => some (.sub k l (Fin.ofNat 32 (nfield w 39 5)) (Fin.ofNat 32 (nfield w 34 5)) (Fin.ofNat 32 (nfield w 29 5)))
  | 0x0, 0x2 => some (.and k l (Fin.ofNat 32 (nfield w 39 5)) (Fin.ofNat 32 (nfield w 34 5)) (Fin.ofNat 32 (nfield w 29 5)))
  | 0x0, 0x3 => some (.or k l (Fin.ofNat 32 (nfield w 39 5)) (Fin.ofNat 32 (nfield w 34 5)) (Fin.ofNat 32 (nfield w 29 5)))
  | 0x0, 0x4 => some (.xor k l (Fin.ofNat 32 (nfield w 39 5)) (Fin.ofNat 32 (nfield w 34 5)) (Fin.ofNat 32 (nfield w 29 5)))
  | 0x0, 0x5 => some (.shl k l (Fin.ofNat 32 (nfield w 39 5)) (Fin.ofNat 32 (nfield w 34 5)) (Fin.ofNat 32 (nfield w 29 5)))
  | 0x0, 0x6 => some (.shr k l (Fin.ofNat 32 (nfield w 39 5)) (Fin.ofNat 32 (nfield w 34 5)) (Fin.ofNat 32 (nfield w 29 5)))
  | 0x0, 0x7 => some (.sra k l (Fin.ofNat 32 (nfield w 39 5)) (Fin.ofNat 32 (nfield w 34 5)) (Fin.ofNat 32 (nfield w 29 5)))
  | 0x0, 0x8 => some (.mul k l (Fin.ofNat 32 (nfield w 39 5)) (Fin.ofNat 32 (nfield w 34 5)) (Fin.ofNat 32 (nfield w 29 5)))
  | 0x0, 0x9 => some (.slt k l (Fin.ofNat 32 (nfield w 39 5)) (Fin.ofNat 32 (nfield w 34 5)) (Fin.ofNat 32 (nfield w 29 5)))
  | 0x0, 0xa => some (.sltu k l (Fin.ofNat 32 (nfield w 39 5)) (Fin.ofNat 32 (nfield w 34 5)) (Fin.ofNat 32 (nfield w 29 5)))
  | 0x0, 0xb => some (.min k l (Fin.ofNat 32 (nfield w 39 5)) (Fin.ofNat 32 (nfield w 34 5)) (Fin.ofNat 32 (nfield w 29 5)))
  | 0x0, 0xc => some (.max k l (Fin.ofNat 32 (nfield w 39 5)) (Fin.ofNat 32 (nfield w 34 5)) (Fin.ofNat 32 (nfield w 29 5)))
  | 0x0, 0x10 => some (.addi k l (Fin.ofNat 32 (nfield w 39 5)) (Fin.ofNat 32 (nfield w 34 5)) (BitVec.ofNat 32 (nfield w 0 32)))
  | 0x0, 0x11 => some (.andi k l (Fin.ofNat 32 (nfield w 39 5)) (Fin.ofNat 32 (nfield w 34 5)) (BitVec.ofNat 32 (nfield w 0 32)))
  | 0x0, 0x12 => some (.ori k l (Fin.ofNat 32 (nfield w 39 5)) (Fin.ofNat 32 (nfield w 34 5)) (BitVec.ofNat 32 (nfield w 0 32)))
  | 0x0, 0x13 => some (.xori k l (Fin.ofNat 32 (nfield w 39 5)) (Fin.ofNat 32 (nfield w 34 5)) (BitVec.ofNat 32 (nfield w 0 32)))
  | 0x0, 0x14 => some (.movi k l (Fin.ofNat 32 (nfield w 39 5)) (BitVec.ofNat 32 (nfield w 0 32)))
  | 0x0, 0x18 => some (.ldw k l (Fin.ofNat 32 (nfield w 39 5)) (Fin.ofNat 16 (nfield w 35 4)) (BitVec.ofNat 32 (nfield w 0 32)))
  | 0x0, 0x19 => some (.stw k l (Fin.ofNat 32 (nfield w 39 5)) (Fin.ofNat 16 (nfield w 35 4)) (BitVec.ofNat 32 (nfield w 0 32)))
  | 0x0, 0x1a => some (.mova k l (Fin.ofNat 32 (nfield w 39 5)) (Fin.ofNat 16 (nfield w 35 4)) (BitVec.ofNat 32 (nfield w 0 32)))
  | 0x0, 0x1b => some (.movg k l (Fin.ofNat 32 (nfield w 39 5)) (Fin.ofNat 16 (nfield w 35 4)) (BitVec.ofNat 32 (nfield w 0 32)))
  | 0x1, 0x0 => some (.br k l (BitVec.ofNat 11 (nfield w 0 11)))
  | 0x1, 0x1 => some (.beq k l (Fin.ofNat 32 (nfield w 39 5)) (Fin.ofNat 32 (nfield w 34 5)) (BitVec.ofNat 11 (nfield w 0 11)))
  | 0x1, 0x2 => some (.bne k l (Fin.ofNat 32 (nfield w 39 5)) (Fin.ofNat 32 (nfield w 34 5)) (BitVec.ofNat 11 (nfield w 0 11)))
  | 0x1, 0x3 => some (.blt k l (Fin.ofNat 32 (nfield w 39 5)) (Fin.ofNat 32 (nfield w 34 5)) (BitVec.ofNat 11 (nfield w 0 11)))
  | 0x1, 0x4 => some (.bge k l (Fin.ofNat 32 (nfield w 39 5)) (Fin.ofNat 32 (nfield w 34 5)) (BitVec.ofNat 11 (nfield w 0 11)))
  | 0x1, 0x5 => some (.bltu k l (Fin.ofNat 32 (nfield w 39 5)) (Fin.ofNat 32 (nfield w 34 5)) (BitVec.ofNat 11 (nfield w 0 11)))
  | 0x1, 0x6 => some (.bgeu k l (Fin.ofNat 32 (nfield w 39 5)) (Fin.ofNat 32 (nfield w 34 5)) (BitVec.ofNat 11 (nfield w 0 11)))
  | 0x1, 0x10 => some (.loop k l (Fin.ofNat 4 (nfield w 42 2)) (Fin.ofNat 32 (nfield w 37 5)) (nfield w 16 10) (BitVec.ofNat 16 (nfield w 0 16)))
  | 0x2, 0x0 => some (.tdSet k l (Fin.ofNat 16 (nfield w 40 4)) (nfield w 36 4) (nbit w 35) (Fin.ofNat 32 (nfield w 30 5)) (BitVec.ofNat 24 (nfield w 0 24)))
  | 0x2, 0x1 => some (.tdCopy k l (Fin.ofNat 16 (nfield w 40 4)) (Fin.ofNat 16 (nfield w 36 4)))
  | 0x2, 0x8 => some (.tmov k l (Fin.ofNat 16 (nfield w 40 4)) (Fin.ofNat 16 (nfield w 36 4)) (nfield w 34 2) (Fin.ofNat 32 (nfield w 29 5)))
  | 0x2, 0x9 => some (.tfill k l (Fin.ofNat 16 (nfield w 40 4)) (Fin.ofNat 32 (nfield w 29 5)))
  | 0x3, 0x0 => some (.mmaF16 k l (Fin.ofNat 4 (nfield w 42 2)) (Fin.ofNat 16 (nfield w 38 4)) (Fin.ofNat 16 (nfield w 34 4)) (Fin.ofNat 16 (nfield w 30 4)) (nfield w 18 12) (nbit w 17))
  | 0x3, 0x1 => some (.mmaF32 k l (Fin.ofNat 4 (nfield w 42 2)) (Fin.ofNat 16 (nfield w 38 4)) (Fin.ofNat 16 (nfield w 34 4)) (Fin.ofNat 16 (nfield w 30 4)) (nfield w 18 12) (nbit w 17))
  | 0x3, 0x2 => some (.mmaI16 k l (Fin.ofNat 4 (nfield w 42 2)) (Fin.ofNat 16 (nfield w 38 4)) (Fin.ofNat 16 (nfield w 34 4)) (Fin.ofNat 16 (nfield w 30 4)) (nfield w 18 12) (nbit w 17))
  | 0x3, 0x8 => some (.mmaOut k l (Fin.ofNat 4 (nfield w 42 2)) (Fin.ofNat 16 (nfield w 38 4)) (Fin.ofNat 16 (nfield w 34 4)) (nfield w 15 2) (nfield w 13 2) (Fin.ofNat 32 (nfield w 8 5)) (nbit w 17))
  | 0x3, 0x9 => some (.mmaOuts k l (Fin.ofNat 4 (nfield w 42 2)) (Fin.ofNat 16 (nfield w 38 4)) (Fin.ofNat 16 (nfield w 34 4)) (Fin.ofNat 16 (nfield w 30 4)) (nfield w 15 2) (nfield w 13 2) (Fin.ofNat 32 (nfield w 8 5)) (nbit w 17))
  | 0x3, 0xa => some (.mmaClr k l (Fin.ofNat 4 (nfield w 42 2)))
  | 0x3, 0x10 => some (.gang k l (nfield w 42 2))
  | 0x4, 0x0 => some (.vadd k l (nbit w 24) (Fin.ofNat 16 (nfield w 40 4)) (Fin.ofNat 16 (nfield w 36 4)) (Fin.ofNat 16 (nfield w 32 4)) (Fin.ofNat 8 (nfield w 25 3)) (nfield w 22 2) (nbit w 21))
  | 0x4, 0x1 => some (.vmul k l (nbit w 24) (Fin.ofNat 16 (nfield w 40 4)) (Fin.ofNat 16 (nfield w 36 4)) (Fin.ofNat 16 (nfield w 32 4)) (Fin.ofNat 8 (nfield w 25 3)) (nfield w 22 2) (nbit w 21))
  | 0x4, 0x2 => some (.vfma k l (nbit w 24) (Fin.ofNat 16 (nfield w 40 4)) (Fin.ofNat 16 (nfield w 36 4)) (Fin.ofNat 16 (nfield w 32 4)) (Fin.ofNat 16 (nfield w 28 4)) (Fin.ofNat 8 (nfield w 25 3)) (nfield w 22 2) (nbit w 21))
  | 0x4, 0x3 => some (.vcmp k l (Fin.ofNat 8 (nfield w 40 4)) (Fin.ofNat 16 (nfield w 36 4)) (Fin.ofNat 16 (nfield w 32 4)) (nfield w 18 3) (nbit w 21))
  | 0x4, 0x4 => some (.vsel k l (nbit w 24) (Fin.ofNat 16 (nfield w 40 4)) (Fin.ofNat 16 (nfield w 36 4)) (Fin.ofNat 16 (nfield w 32 4)) (Fin.ofNat 8 (nfield w 25 3)) (nfield w 22 2) (nbit w 21))
  | 0x4, 0x5 => some (.vmin k l (nbit w 24) (Fin.ofNat 16 (nfield w 40 4)) (Fin.ofNat 16 (nfield w 36 4)) (Fin.ofNat 16 (nfield w 32 4)) (Fin.ofNat 8 (nfield w 25 3)) (nfield w 22 2) (nbit w 21))
  | 0x4, 0x6 => some (.vmax k l (nbit w 24) (Fin.ofNat 16 (nfield w 40 4)) (Fin.ofNat 16 (nfield w 36 4)) (Fin.ofNat 16 (nfield w 32 4)) (Fin.ofNat 8 (nfield w 25 3)) (nfield w 22 2) (nbit w 21))
  | 0x4, 0x10 => some (.vld k l (Fin.ofNat 16 (nfield w 40 4)) (Fin.ofNat 16 (nfield w 36 4)) (Fin.ofNat 8 (nfield w 33 3)) (BitVec.ofNat 16 (nfield w 0 16)))
  | 0x4, 0x11 => some (.vst k l (Fin.ofNat 16 (nfield w 40 4)) (Fin.ofNat 16 (nfield w 36 4)) (Fin.ofNat 8 (nfield w 33 3)) (BitVec.ofNat 16 (nfield w 0 16)))
  | 0x5, 0x0 => some (.tapArm k l (Fin.ofNat 16 (nfield w 40 4)) (nbit w 35) (nfield w 32 3) (Fin.ofNat 32 (nfield w 27 5)))
  | 0x5, 0x1 => some (.tapOff k l)
  | 0x5, 0x2 => some (.tapAuto k l (Fin.ofNat 16 (nfield w 40 4)))
  | 0x5, 0x8 => some (.syrkTap k l (Fin.ofNat 16 (nfield w 40 4)))
  | 0x5, 0x9 => some (.tapDrain k l (Fin.ofNat 16 (nfield w 40 4)))
  | 0x6, 0x0 => some (.nsiScale k l (Fin.ofNat 16 (nfield w 40 4)) (Fin.ofNat 16 (nfield w 36 4)) (nfield w 26 2) (Fin.ofNat 32 (nfield w 21 5)))
  | 0x6, 0x1 => some (.nsiStep k l (Fin.ofNat 16 (nfield w 40 4)) (Fin.ofNat 16 (nfield w 36 4)) (Fin.ofNat 16 (nfield w 32 4)) (nfield w 26 2))
  | 0x6, 0x2 => some (.nsiResid k l (Fin.ofNat 16 (nfield w 40 4)) (Fin.ofNat 16 (nfield w 36 4)) (nfield w 26 2) (Fin.ofNat 32 (nfield w 21 5)))
  | 0x6, 0x8 => some (.cholSn k l (Fin.ofNat 16 (nfield w 40 4)) (Fin.ofNat 16 (nfield w 36 4)) (Fin.ofNat 16 (nfield w 32 4)))
  | 0x6, 0x9 => some (.ldltSn k l (Fin.ofNat 16 (nfield w 40 4)) (Fin.ofNat 16 (nfield w 36 4)) (Fin.ofNat 16 (nfield w 32 4)))
  | 0x6, 0xa => some (.trsvSn k l (Fin.ofNat 16 (nfield w 40 4)) (Fin.ofNat 16 (nfield w 36 4)) (Fin.ofNat 16 (nfield w 32 4)) (nfield w 26 2))
  | 0x6, 0xb => some (.refine k l (Fin.ofNat 16 (nfield w 40 4)) (Fin.ofNat 16 (nfield w 36 4)) (Fin.ofNat 16 (nfield w 32 4)) (Fin.ofNat 16 (nfield w 28 4)))
  | 0x7, 0x0 => some (.sigCnt k l (nfield w 32 12) (Fin.ofNat 32 (nfield w 27 5)) (BitVec.ofNat 16 (nfield w 0 16)))
  | 0x7, 0x1 => some (.waitCnt k l (nfield w 32 12) (BitVec.ofNat 16 (nfield w 0 16)))
  | 0x7, 0x2 => some (.setCnt k l (nfield w 32 12) (BitVec.ofNat 16 (nfield w 0 16)))
  | 0x7, 0x8 => some (.barArrive k l (nfield w 32 12))
  | 0x7, 0x9 => some (.barWait k l (nfield w 32 12))
  | 0x7, 0x10 => some (.flagSet k l (nfield w 32 12))
  | 0x7, 0x11 => some (.flagWait k l (nfield w 32 12))
  | 0x7, 0x12 => some (.flagClr k l (nfield w 32 12))
  | 0x7, 0x18 => some (.hostIrq k l (nfield w 32 12))
  | 0x8, 0x0 => some (.baSet k l (Fin.ofNat 32 (nfield w 39 5)))
  | 0x8, 0x1 => some (.baAdv k l (BitVec.ofNat 32 (nfield w 0 32)))
  | 0x8, 0x2 => some (.baNow k l (BitVec.ofNat 32 (nfield w 0 32)))
  | 0x8, 0x8 => some (.beatWait k l (BitVec.ofNat 32 (nfield w 0 32)))
  | 0x8, 0x9 => some (.beatRd k l (Fin.ofNat 32 (nfield w 39 5)))
  | 0x9, 0x0 => some (.xferPost k l (Fin.ofNat 16 (nfield w 40 4)) (nfield w 34 6) (Fin.ofNat 32 (nfield w 29 5)) (BitVec.ofNat 16 (nfield w 0 16)))
  | 0xa, 0x0 => some (.collPost k l (Fin.ofNat 16 (nfield w 40 4)) (nfield w 34 6) (Fin.ofNat 32 (nfield w 29 5)) (BitVec.ofNat 16 (nfield w 0 16)))
  | 0xb, 0x0 => some (.updApply k l (Fin.ofNat 16 (nfield w 40 4)) (nfield w 34 6) (Fin.ofNat 32 (nfield w 29 5)) (BitVec.ofNat 16 (nfield w 0 16)))
  | 0xb, 0x1 => some (.updNs k l (Fin.ofNat 16 (nfield w 40 4)) (Fin.ofNat 16 (nfield w 36 4)) (Fin.ofNat 16 (nfield w 32 4)))
  | 0xb, 0x2 => some (.updNf k l (Fin.ofNat 16 (nfield w 40 4)))
  | 0xc, 0x0 => some (.tchk k l (Fin.ofNat 16 (nfield w 40 4)) (Fin.ofNat 32 (nfield w 35 5)))
  | 0xc, 0x1 => some (.chkRange k l (Fin.ofNat 16 (nfield w 40 4)) (Fin.ofNat 32 (nfield w 35 5)) (Fin.ofNat 32 (nfield w 30 5)))
  | 0xc, 0x2 => some (.chkNf k l (Fin.ofNat 16 (nfield w 40 4)) (Fin.ofNat 32 (nfield w 35 5)))
  | 0xc, 0x8 => some (.digFold k l (Fin.ofNat 32 (nfield w 30 5)) (Fin.ofNat 4 (nfield w 28 2)))
  | 0xc, 0x9 => some (.digRd k l (Fin.ofNat 32 (nfield w 35 5)) (Fin.ofNat 4 (nfield w 28 2)))
  | 0xc, 0xa => some (.digClr k l (Fin.ofNat 4 (nfield w 28 2)))
  | 0xd, 0x0 => some (.cntRd k l (Fin.ofNat 32 (nfield w 39 5)) (BitVec.ofNat 32 (nfield w 0 32)))
  | 0xd, 0x1 => some (.attrSet k l (Fin.ofNat 32 (nfield w 34 5)) (Fin.ofNat 32 (nfield w 29 5)))
  | 0xd, 0x8 => some (.traceMark k l (BitVec.ofNat 32 (nfield w 0 32)))
  | 0xd, 0x10 => some (.halt k l)
  | 0x3f, 0x0 => some (.nop k l)
  | 0x3f, 0x1 => some (.endProg k l (nfield w 42 2) (Fin.ofNat 32 (nfield w 37 5)) (nfield w 16 12) (BitVec.ofNat 16 (nfield w 0 16)))
  | 0x3f, 0x2 => some (.bankSwap k l)
  | 0x3f, 0x3 => some (.fence k l (BitVec.ofNat 32 (nfield w 0 32)))
  | 0x3f, 0x4 => some (.statRd k l (Fin.ofNat 32 (nfield w 39 5)) (BitVec.ofNat 32 (nfield w 0 32)))
  | _, _ => none

/-- The instruction of core `k` that a word encodes; none for an unassigned encoding (R75, R76): a
word whose reserved bits are not zero is no instruction's encoding. -/
def decodeWord (k w : Nat) : Option Instr :=
  match decodeFields k w with
  | none => none
  | some i => if i.wf ∧ encode i = some w then some i else none

/-- The launch field of a core instruction (R75). -/
def launchOf : Instr → Launch
  | .add _ l _ _ _ | .sub _ l _ _ _ | .and _ l _ _ _ | .or _ l _ _ _
  | .xor _ l _ _ _ | .shl _ l _ _ _ | .shr _ l _ _ _ | .sra _ l _ _ _
  | .mul _ l _ _ _ | .slt _ l _ _ _ | .sltu _ l _ _ _ | .min _ l _ _ _
  | .max _ l _ _ _ | .addi _ l _ _ _ | .andi _ l _ _ _ | .ori _ l _ _ _
  | .xori _ l _ _ _ | .movi _ l _ _ | .ldw _ l _ _ _ | .stw _ l _ _ _
  | .mova _ l _ _ _ | .movg _ l _ _ _ | .br _ l _ | .beq _ l _ _ _
  | .bne _ l _ _ _ | .blt _ l _ _ _ | .bge _ l _ _ _ | .bltu _ l _ _ _
  | .bgeu _ l _ _ _ | .loop _ l _ _ _ _ | .tdSet _ l _ _ _ _ _ | .tdCopy _ l _ _
  | .tmov _ l _ _ _ _ | .tfill _ l _ _ | .mmaF16 _ l _ _ _ _ _ _ | .mmaF32 _ l _ _ _ _ _ _
  | .mmaI16 _ l _ _ _ _ _ _ | .mmaOut _ l _ _ _ _ _ _ _ | .mmaOuts _ l _ _ _ _ _ _ _ _ | .mmaClr _ l _
  | .gang _ l _ | .vadd _ l _ _ _ _ _ _ _ | .vmul _ l _ _ _ _ _ _ _ | .vfma _ l _ _ _ _ _ _ _ _
  | .vcmp _ l _ _ _ _ _ | .vsel _ l _ _ _ _ _ _ _ | .vmin _ l _ _ _ _ _ _ _ | .vmax _ l _ _ _ _ _ _ _
  | .vld _ l _ _ _ _ | .vst _ l _ _ _ _ | .tapArm _ l _ _ _ _ | .tapOff _ l
  | .tapAuto _ l _ | .syrkTap _ l _ | .tapDrain _ l _ | .nsiScale _ l _ _ _ _
  | .nsiStep _ l _ _ _ _ | .nsiResid _ l _ _ _ _ | .cholSn _ l _ _ _ | .ldltSn _ l _ _ _
  | .trsvSn _ l _ _ _ _ | .refine _ l _ _ _ _ | .sigCnt _ l _ _ _ | .waitCnt _ l _ _
  | .setCnt _ l _ _ | .barArrive _ l _ | .barWait _ l _ | .flagSet _ l _
  | .flagWait _ l _ | .flagClr _ l _ | .hostIrq _ l _ | .baSet _ l _
  | .baAdv _ l _ | .baNow _ l _ | .beatWait _ l _ | .beatRd _ l _
  | .xferPost _ l _ _ _ _ | .collPost _ l _ _ _ _ | .updApply _ l _ _ _ _ | .updNs _ l _ _ _
  | .updNf _ l _ | .tchk _ l _ _ | .chkRange _ l _ _ _ | .chkNf _ l _ _
  | .digFold _ l _ _ | .digRd _ l _ _ | .digClr _ l _ | .cntRd _ l _ _
  | .attrSet _ l _ _ | .traceMark _ l _ | .halt _ l | .nop _ l
  | .endProg _ l _ _ _ _ | .bankSwap _ l | .fence _ l _ | .statRd _ l _ _ => l
  | .lowerHalfRead _ _ | .upperHalfRead _ _ | .lowerHalfWrite _ _ _ | .upperHalfWrite _ _ _
  | .registerWrite _ _ _ _ | .badAccessWidth _ _ _ _ | .bar4Read _ _ _ | .bar4Write _ _ _
  | .beat _ | .refclkLoss | .refclkReturn | .rateChange _ _
  | .rateMonitorRefresh _ | .beatSample _ _ | .alignEnable _ _ _ | .alignDisable _ _
  | .alignCfgWrite _ _ | .alignLock | .parentPortFail | .holdoverTimeout
  | .parentPortRecover _ | .gangedPassStart _ | .gangShapeChange _ | .matrixEntryEnd _ _
  | .matrixPassComplete _ _ | .gangFeedUncorrectable _ _ | .vectorPassComplete _ | .movePassComplete _
  | .tapAutoFold _ | .tapFoldComplete _ | .factorOpComplete _ _ | .signalTakesEffect _
  | .instructionStart _ _ | .dmaChunkDone _ | .transferComplete _ | .coreFault _ _ _
  | .drainComplete _ | .programLoadComplete _ | .swapTakesEffect _ | .coreStart _
  | .launch _ | .copy _ | .collective _ | .stepCommit _
  | .stepCommitReplayDone _ | .solve _ | .checkpointRequest _ | .checkpointDrain _
  | .restoreBuddy _ | .restoreHost _ | .signalCounter _ | .signalFlagSet _
  | .signalFlagClear _ | .signalBarrier _ | .waitCounter _ | .waitFlag _
  | .waitBarrier _ | .waitBeat _ | .waitTimeout _ | .alloc _
  | .free _ | .freeComplete _ | .counterSnap _ | .exportShard _
  | .sqTailDoorbell _ _ _ | .cqHeadDoorbell _ _ _ | .doorbellFlagSet _ _ _ | .doorbellFlagClr _ _ _
  | .commandFetch _ | .completionPost _ | .queueResume _ _ _ | .barrierMembersWrite _ _ _
  | .deadlock _ | .configure _ _ | .activate _ _ _ | .quiesce _ _ _
  | .quiesceComplete _ | .instanceReset _ _ _ | .release _ _ | .functionLevelReset _
  | .resetComplete _ | .instanceResetTimeout _ | .linkEnable _ _ _ | .linkDisable _ _ _
  | .linkTrainingComplete _ _ _ | .linkTrainingTimeout _ | .frameSend _ | .frameReceive _ _
  | .laneLockLoss _ | .frameCheckTimeout _ | .collChunk | .chunkAck
  | .chunkNack | .collChunkTimeout _ _ | .collectiveComplete _ _ | .xferWrite
  | .xferReadReq | .xferReadData | .refused | .verdict
  | .verdictSend _ | .clove | .gateTimeout _ | .commitApply _
  | .rootDispatch _ | .commitHoldRelease _ | .rootLateTimeout _ | .updEnableWrite _ _ _
  | .updatePostPerform _ | .undoComplete _ | .solveStart _ | .solveAnnounce _ _
  | .solveFreeze _ _ | .supernodeBoundaryEnd _ | .solveAbandonTimeout _ _ | .solveResultPost _ _
  | .devModeWrite _ _ | .auditRecordWrite _ | .errorRecordWrite | .recoveryWindowTimeout _
  | .patrolScrub _ _ | .warmReset _ _ | .digestCompareTimeout _ | .replayInput
  | .replayResult | .replayDigest | .replaySend _ _ | .ckptBegin
  | .ckptBlock | .ckptDigests | .ckptEnd | .ckptAck
  | .ckptAbort | .ckptCopyTimeout | .restoreReq | .restoreData
  | .checkpointDrainComplete | .restoreComplete | .telemetry | .commandRecordWrite _
  | .breakpointHit _ _ _ _ _ | .drainTimeout _ | .debugHalt _ _ _ _ _ | .debugResume _ _ _ _ _
  | .debugStep _ _ _ _ | .breakpointConfigWrite _ _ _ | .debugAccessRead _ _ | .debugAccessWrite _ _ _
  | .debugUnlock _ _ _ _ _ | .debugLock _ _ | .debugSessionExpire _ | .intervalRecord _ _ _
  | .timeDisciplineMessage _ _ _ _ _ _ | .readRequest _ _ _ | .sealBreak _ | .serviceChange _ _ _ _
  | .sealBreakEnd | .mirrorRefresh _ _ _ _ | .standbyPowerOn _ | .standbyPowerFall
  | .startupStepComplete | .startupStepTimeout | .perstDeassert | .regulatorRamp
  | .mainInputTrip _ | .tripRestart _ | .meteringReadyLoss | .powerSample _ _
  | .junctionOverTemp _ | .thermalShutdown _ | .powerConfigWrite _ _ | .buddySizeWrite _ _
  | .collCutWrite _ _ _ | .boardRecordWrite _ _ _ _ _ | .mcWarmResetRequest _ | .powerCycle
  | .hostWatchdogExpire | .deviceReset | .exportShardComplete _ | .ckptSourceBlockRead
  | .stateDigestShardDone _ | .vbatLow | .calendarLost | .reverseCurrent
  | .firmwareUpdate _ _ _ => none

/-- Class and operation of a core instruction as 12 bits, class in [11:6] (Table 16.4). -/
def clsOp (i : Instr) : Nat :=
  match encode i with
  | none => 0
  | some w => nfield w 52 12

/-- The engine that executes an instruction, by its UID code (Table 4.2); a ganged pass is the gang
controller's (R131). -/
def engOf : Instr → Nat
  | .add _ _ _ _ _ | .sub _ _ _ _ _ | .and _ _ _ _ _ | .or _ _ _ _ _
  | .xor _ _ _ _ _ | .shl _ _ _ _ _ | .shr _ _ _ _ _ | .sra _ _ _ _ _
  | .mul _ _ _ _ _ | .slt _ _ _ _ _ | .sltu _ _ _ _ _ | .min _ _ _ _ _
  | .max _ _ _ _ _ | .addi _ _ _ _ _ | .andi _ _ _ _ _ | .ori _ _ _ _ _
  | .xori _ _ _ _ _ | .movi _ _ _ _ | .ldw _ _ _ _ _ | .stw _ _ _ _ _
  | .mova _ _ _ _ _ | .movg _ _ _ _ _ | .br _ _ _ | .beq _ _ _ _ _
  | .bne _ _ _ _ _ | .blt _ _ _ _ _ | .bge _ _ _ _ _ | .bltu _ _ _ _ _
  | .bgeu _ _ _ _ _ | .loop _ _ _ _ _ _ | .tdSet _ _ _ _ _ _ _ | .tdCopy _ _ _ _
  | .sigCnt _ _ _ _ _ | .waitCnt _ _ _ _ | .setCnt _ _ _ _ | .barArrive _ _ _
  | .barWait _ _ _ | .flagSet _ _ _ | .flagWait _ _ _ | .flagClr _ _ _
  | .hostIrq _ _ _ | .baSet _ _ _ | .baAdv _ _ _ | .baNow _ _ _
  | .beatWait _ _ _ | .beatRd _ _ _ | .digFold _ _ _ _ | .digRd _ _ _ _
  | .digClr _ _ _ | .cntRd _ _ _ _ | .attrSet _ _ _ _ | .traceMark _ _ _
  | .halt _ _ | .nop _ _ | .endProg _ _ _ _ _ _ | .bankSwap _ _
  | .fence _ _ _ | .statRd _ _ _ _ => 0
  | .mmaF16 _ _ _ _ _ _ _ _ | .mmaF32 _ _ _ _ _ _ _ _ | .mmaI16 _ _ _ _ _ _ _ _ | .mmaOut _ _ _ _ _ _ _ _ _
  | .mmaOuts _ _ _ _ _ _ _ _ _ _ | .mmaClr _ _ _ | .gang _ _ _ => 1
  | .vadd _ _ _ _ _ _ _ _ _ | .vmul _ _ _ _ _ _ _ _ _ | .vfma _ _ _ _ _ _ _ _ _ _ | .vcmp _ _ _ _ _ _ _
  | .vsel _ _ _ _ _ _ _ _ _ | .vmin _ _ _ _ _ _ _ _ _ | .vmax _ _ _ _ _ _ _ _ _ | .vld _ _ _ _ _ _
  | .vst _ _ _ _ _ _ => 2
  | .tmov _ _ _ _ _ _ | .tfill _ _ _ _ | .xferPost _ _ _ _ _ _ | .collPost _ _ _ _ _ _
  | .updApply _ _ _ _ _ _ | .updNf _ _ _ | .tchk _ _ _ _ | .chkRange _ _ _ _ _
  | .chkNf _ _ _ _ => 3
  | .tapArm _ _ _ _ _ _ | .tapOff _ _ | .tapAuto _ _ _ | .syrkTap _ _ _
  | .tapDrain _ _ _ => 4
  | .nsiScale _ _ _ _ _ _ | .nsiStep _ _ _ _ _ _ | .nsiResid _ _ _ _ _ _ | .cholSn _ _ _ _ _
  | .ldltSn _ _ _ _ _ | .trsvSn _ _ _ _ _ _ | .refine _ _ _ _ _ _ | .updNs _ _ _ _ _ => 5
  | .lowerHalfRead _ _ | .upperHalfRead _ _ | .lowerHalfWrite _ _ _ | .upperHalfWrite _ _ _
  | .registerWrite _ _ _ _ | .badAccessWidth _ _ _ _ | .bar4Read _ _ _ | .bar4Write _ _ _
  | .beat _ | .refclkLoss | .refclkReturn | .rateChange _ _
  | .rateMonitorRefresh _ | .beatSample _ _ | .alignEnable _ _ _ | .alignDisable _ _
  | .alignCfgWrite _ _ | .alignLock | .parentPortFail | .holdoverTimeout
  | .parentPortRecover _ | .gangedPassStart _ | .gangShapeChange _ | .matrixEntryEnd _ _
  | .matrixPassComplete _ _ | .gangFeedUncorrectable _ _ | .vectorPassComplete _ | .movePassComplete _
  | .tapAutoFold _ | .tapFoldComplete _ | .factorOpComplete _ _ | .signalTakesEffect _
  | .instructionStart _ _ | .dmaChunkDone _ | .transferComplete _ | .coreFault _ _ _
  | .drainComplete _ | .programLoadComplete _ | .swapTakesEffect _ | .coreStart _
  | .launch _ | .copy _ | .collective _ | .stepCommit _
  | .stepCommitReplayDone _ | .solve _ | .checkpointRequest _ | .checkpointDrain _
  | .restoreBuddy _ | .restoreHost _ | .signalCounter _ | .signalFlagSet _
  | .signalFlagClear _ | .signalBarrier _ | .waitCounter _ | .waitFlag _
  | .waitBarrier _ | .waitBeat _ | .waitTimeout _ | .alloc _
  | .free _ | .freeComplete _ | .counterSnap _ | .exportShard _
  | .sqTailDoorbell _ _ _ | .cqHeadDoorbell _ _ _ | .doorbellFlagSet _ _ _ | .doorbellFlagClr _ _ _
  | .commandFetch _ | .completionPost _ | .queueResume _ _ _ | .barrierMembersWrite _ _ _
  | .deadlock _ | .configure _ _ | .activate _ _ _ | .quiesce _ _ _
  | .quiesceComplete _ | .instanceReset _ _ _ | .release _ _ | .functionLevelReset _
  | .resetComplete _ | .instanceResetTimeout _ | .linkEnable _ _ _ | .linkDisable _ _ _
  | .linkTrainingComplete _ _ _ | .linkTrainingTimeout _ | .frameSend _ | .frameReceive _ _
  | .laneLockLoss _ | .frameCheckTimeout _ | .collChunk | .chunkAck
  | .chunkNack | .collChunkTimeout _ _ | .collectiveComplete _ _ | .xferWrite
  | .xferReadReq | .xferReadData | .refused | .verdict
  | .verdictSend _ | .clove | .gateTimeout _ | .commitApply _
  | .rootDispatch _ | .commitHoldRelease _ | .rootLateTimeout _ | .updEnableWrite _ _ _
  | .updatePostPerform _ | .undoComplete _ | .solveStart _ | .solveAnnounce _ _
  | .solveFreeze _ _ | .supernodeBoundaryEnd _ | .solveAbandonTimeout _ _ | .solveResultPost _ _
  | .devModeWrite _ _ | .auditRecordWrite _ | .errorRecordWrite | .recoveryWindowTimeout _
  | .patrolScrub _ _ | .warmReset _ _ | .digestCompareTimeout _ | .replayInput
  | .replayResult | .replayDigest | .replaySend _ _ | .ckptBegin
  | .ckptBlock | .ckptDigests | .ckptEnd | .ckptAck
  | .ckptAbort | .ckptCopyTimeout | .restoreReq | .restoreData
  | .checkpointDrainComplete | .restoreComplete | .telemetry | .commandRecordWrite _
  | .breakpointHit _ _ _ _ _ | .drainTimeout _ | .debugHalt _ _ _ _ _ | .debugResume _ _ _ _ _
  | .debugStep _ _ _ _ | .breakpointConfigWrite _ _ _ | .debugAccessRead _ _ | .debugAccessWrite _ _ _
  | .debugUnlock _ _ _ _ _ | .debugLock _ _ | .debugSessionExpire _ | .intervalRecord _ _ _
  | .timeDisciplineMessage _ _ _ _ _ _ | .readRequest _ _ _ | .sealBreak _ | .serviceChange _ _ _ _
  | .sealBreakEnd | .mirrorRefresh _ _ _ _ | .standbyPowerOn _ | .standbyPowerFall
  | .startupStepComplete | .startupStepTimeout | .perstDeassert | .regulatorRamp
  | .mainInputTrip _ | .tripRestart _ | .meteringReadyLoss | .powerSample _ _
  | .junctionOverTemp _ | .thermalShutdown _ | .powerConfigWrite _ _ | .buddySizeWrite _ _
  | .collCutWrite _ _ _ | .boardRecordWrite _ _ _ _ _ | .mcWarmResetRequest _ | .powerCycle
  | .hostWatchdogExpire | .deviceReset | .exportShardComplete _ | .ckptSourceBlockRead
  | .stateDigestShardDone _ | .vbatLow | .calendarLost | .reverseCurrent
  | .firmwareUpdate _ _ _ => 0

end Sys2Proof.Machine
end

