-- ==== Sys2Proof/Machine/Flags.lean ====
section
/-! DEFINITION. The status words and flag computations: CSTAT, CFAULT and the gang status (Table 3.8),
the status of an accumulator set (Table 4.14), and the codes of core faults (Tables 3.7 and 14.2b). -/

namespace Sys2Proof.Machine

/-- The state codes of Table 3.2. -/
def CoreSt.code : CoreSt → Nat
  | .idle => 0 | .loaded => 1 | .running => 2 | .waiting => 3 | .halted => 4 | .draining => 5 | .faulted => 6

/-- CSTAT (Table 3.8). -/
def Core.cstat (c : Core) : W32 :=
  BitVec.ofNat 32 (c.st.code + c.activeBank.toNat * 2 ^ 3 + c.shadowValid.toNat * 2 ^ 4
    + c.swapPending.toNat * 2 ^ 5 + c.ganged.toNat * 2 ^ 6 + c.pc % 1024 * 2 ^ 8)

/-- CFAULT (Table 3.8). -/
def Core.cfault (c : Core) : W32 :=
  BitVec.ofNat 32 (c.fault.cause + c.fault.engine * 2 ^ 8 + c.fault.more.toNat * 2 ^ 11
    + c.fault.pc % 1024 * 2 ^ 12 + c.fault.valid.toNat * 2 ^ 31)

/-- Status of an accumulator set (Table 4.14). -/
def AccSet.status (a : AccSet) : W32 :=
  BitVec.ofNat 32 (a.sat.toNat + a.nonfin.toNat * 2 + (decide (a.kind ≠ .unfixed)).toNat * 4
    + (decide (a.kind = .integer)).toNat * 8 + a.satIdx * 2 ^ 4 + a.nfRow * 2 ^ 16 + a.nfCol * 2 ^ 24)

/-- SAT set with the index of the first accumulator that saturated (R117). -/
def AccSet.noteSat (a : AccSet) (idx : Nat) : AccSet :=
  if a.sat then a else { a with sat := true, satIdx := idx }

/-- NONFINITE set with the position of the first non-finite stored value (R120). -/
def AccSet.noteNf (a : AccSet) (row col : Nat) : AccSet :=
  if a.nonfin then a else { a with nonfin := true, nfRow := row, nfCol := col }

/-- Accumulator n of a set. -/
def AccSet.get (a : AccSet) (n : Nat) : W32 := sget (fun _ => 0) a.vals n
def AccSet.put (a : AccSet) (n : Nat) (v : W32) : AccSet := { a with vals := sput (fun _ => 0) a.vals n v }

/-- UNIT_GANG_STAT of a cluster (Table 3.8). -/
def State.gangStat (s : State) (cl : Nat) : W32 :=
  let c := s.cluster cl
  BitVec.ofNat 32 (c.shape + c.shadow * 4 + c.pending.toNat * 2 ^ 4 + ((s.owner cl).getD 0) * 2 ^ 16)

/-! Core fault causes (Table 3.7). -/
namespace Cause
def illegalOp : Nat := 0x01
def tileRange : Nat := 0x02
def aliasedWrite : Nat := 0x03
def zeroStride : Nat := 0x04
def loopDepth : Nat := 0x05
def noShadow : Nat := 0x06
def spadUncorr : Nat := 0x07
def cbufUncorr : Nat := 0x08
def gangPeer : Nat := 0x09
def gangMismatch : Nat := 0x0A
def notOwned : Nat := 0x0B
def parity : Nat := 0x0C
/-! What a check answers: a cause, and for an uncorrectable word its address, which the record names (R303). -/
/-- A cause with the address of the uncorrectable word. -/
def atWord (cause w : Nat) : Nat := cause + 16 * (w + 1)
/-- The cause of an answer. -/
def code (f : Nat) : Nat := f % 16
/-- The uncorrectable word of an answer, if it names one. -/
def word (f : Nat) : Option Nat := if f / 16 = 0 then none else some (f / 16 - 1)
end Cause

/-- The engine a core fault names (Table 3.7): `e` where the table says any. -/
def causeEngine (cause e : Nat) : Nat :=
  match Cause.code cause with
  | 0x01 | 0x05 | 0x06 => 0
  | 0x02 | 0x03 | 0x04 | 0x08 | 0x0B => 3
  | 0x09 | 0x0A => 6
  | _ => e

/-- CODE of a core-fault record (Table 14.2b). -/
def faultCode (cause : Nat) : Nat :=
  match Cause.code cause with
  | 0x01 => St.badDescriptor
  | 0x02 => St.badDescriptor
  | 0x03 => St.aliasedWrite
  | 0x04 => St.aliasedWrite
  | 0x05 => St.badDescriptor
  | 0x06 => St.illegalInState
  | 0x07 => St.memoryUncorrectable
  | 0x08 => St.memoryUncorrectable
  | 0x09 => St.illegalInState
  | 0x0A => St.badDescriptor
  | 0x0B => St.ownership
  | _ => St.internal

/-- Addition to a 16-bit sync counter: the new value, and whether the sum passed 0xFFFF (R97). -/
def cntAdd (old val : Nat) : Nat × Bool :=
  if old + val > 0xFFFF then (0xFFFF, true) else (old + val, false)

end Sys2Proof.Machine
end

