-- ==== Sys2Proof/Machine/IssueOps.lean ====
section
/-! DEFINITION. What surrounds an instruction that completes issue: trace entries, slips and their
causes (R43 to R46), the program counter and its loops (R88), and the slots of the engines (R81). -/

namespace Sys2Proof.Machine

/-! ### Trace (R340) -/

/-- Whether a core's trace entries of a kind are written, and to which instance's configuration. -/
def State.traceOn (s : State) (k kind : Nat) : Option Nat :=
  match s.owner (clOf k) with
  | none => none
  | some i =>
    if s.bit (R.traceCfg i) 0 && s.bit (R.traceCfg i) (2 + kind) && s.bit (R.traceCfg i) (16 + k / 16 % 16)
    then some i else none

/-- Whether trace back-pressure holds issue of a core: some kind of its entries is written, in mode STALL, and the ring
is full (R340, log 10). -/
def State.traceHolds (s : State) (k : Nat) : Bool :=
  match s.owner (clOf k) with
  | none => false
  | some i => s.bit (R.traceCfg i) 0 && s.bit (R.traceCfg i) (16 + k / 16 % 16) &&
      decide (s.fld (R.traceCfg i) 3 6 ≠ 0 ∧ s.fld (R.traceCfg i) 1 2 = 2 ∧ (s.cluster (clOf k)).tcount = 4096)

/-- A trace entry of a core written to its cluster's ring (Table 16.4). In WRAP mode a full ring
loses its oldest entry; in the other modes a full ring discards the new one (R340, log 10). -/
def State.trace (s : State) (k kind word slip cause : Nat) : State :=
  match s.traceOn k kind with
  | none => s
  | some i =>
    let c := s.core k
    let cl := clOf k
    let u := s.cluster cl
    let tag := if s.bit (R.instCfg i) 0 then c.layer.toNat + c.oper.toNat * 2 ^ 16 else 0
    let e : BitVec 128 := BitVec.ofNat 128 (s.beat.toNat % 2 ^ 32 + idxOf k * 2 ^ 32 + kind * 2 ^ 40
      + c.pc % 1024 * 2 ^ 48 + word % 65536 * 2 ^ 64 + min slip 255 * 2 ^ 80 + cause * 2 ^ 88 + tag * 2 ^ 96)
    if u.tcount = 4096 then
      if s.fld (R.traceCfg i) 1 2 = 0 then
        s.setCluster cl { u with trace := sput (fun _ => 0) u.trace u.ttail e, ttail := (u.ttail + 1) % 4096,
                                 thead := (u.thead + 1) % 4096 }
      else
        (s.setCluster cl { u with tlost := satInc 32 u.tlost 1 }).incReg (R.traceLost i)
    else
      s.setCluster cl { u with trace := sput (fun _ => 0) u.trace u.ttail e, ttail := (u.ttail + 1) % 4096,
                               tcount := u.tcount + 1 }

/-- The conditions of R245 are broken for an instance, so that their time starts anew. -/
def State.dlBreak (s : State) (i : Nat) : State :=
  let x := s.inst i
  if x.dlSince = none then s else s.setInst i { x with dlSince := none }

/-- The deadlock detector re-arms for the instance of a core that leaves WAITING (R246). -/
def State.rearm (s : State) (k : Nat) : State :=
  match s.owner (clOf k) with
  | some i => s.setInst i { s.inst i with dlArmed := true, dlSince := none }
  | none => s

/-- The conditions of the deadlock detector break for the instance of a core that runs, drains or is halted (R245). -/
def State.unbind (s : State) (k : Nat) (st : CoreSt) : State :=
  match s.owner (clOf k) with
  | some i => if st = .running ∨ st = .draining ∨ st = .halted then s.dlBreak i else s
  | none => s

/-- A core in a new state, with its STATE trace entry (R58, Table 16.4). -/
def State.setSt (s : State) (k : Nat) (st : CoreSt) : State :=
  if (s.core k).st = st then s
  else
    let s := if (s.core k).st = .waiting then s.rearm k else s.unbind k st
    (s.setCore k { s.core k with st := st }).trace k 4 st.code 0 0

/-! ### Launch records (R46, R338) -/

/-- The launch record with an id changed. -/
def State.modLaunch (s : State) (id : Nat) (f : LaunchRec → LaunchRec) : State :=
  { s with launches := s.launches.map fun l => if l.id = id then f l else l }

/-- An engine record with one slipped launch counted (Table 16.1, R46). -/
def EngRec.slip (r : EngRec) (cause beats : Nat) (prop : Bool) : EngRec :=
  if prop then { r with propN := satInc 32 r.propN 1, propB := satInc 32 r.propB beats }
  else { r with slipN := sput (fun _ => 0) r.slipN cause (satInc 32 (sget (fun _ => 0) r.slipN cause) 1),
                slipB := sput (fun _ => 0) r.slipB cause (satInc 32 (sget (fun _ => 0) r.slipB cause) beats) }

/-- A slip counted in a launch record. -/
def LaunchRec.slip (l : LaunchRec) (cause beats : Nat) (prop : Bool) : LaunchRec :=
  { l with ctr := l.ctr.slip cause beats prop, maxSlip := max l.maxSlip beats }

/-- The tag of a launch that is late: by R43, what rule 1 or 2 gives, else the tag of the late input that completed
last, else RATE (rule 4). -/
def Late.tag (l : Late) : Tag := (l.rule12.or l.input).getD (0, false)

/-- The slip cause that rule 1 or 2 of R43 gives a launch for a target beat: SCHEDULE where BA was set or advanced
after it; else the cause of an earlier instruction that slipped and held issue beyond it, propagated. DESIGN CHOICE
(log 41): the BA that a LAUNCH sets counts as set by no instruction, so that it brings no launch under rule 1. -/
def Core.rule12 (c : Core) (target : W64) : Option Tag :=
  if target < c.baBeat then some (3, false)
  else
    match c.lastSlip with
    | some (b, z) => if target < b then some (z, true) else none
    | none => none

/-- Why an instruction that starts for a target beat is late, with the input that completed last (R43). -/
def Core.lateness (c : Core) (target : Option W64) (inp : InputTag) : Late :=
  match target with
  | some t => { rule12 := c.rule12 t, input := if inp.late then some (inp.cause, inp.prop) else none }
  | none => {}

/-- What the transfers and signals of an instruction that starts now carry: the cause of its own slip, propagated (R44). -/
def State.ownTag (s : State) (target : Option W64) (late : Late) : Tag :=
  match target with
  | some t => if t < s.beat then (late.tag.1, true) else (0, false)
  | none => (0, false)

/-- A slipped launch of an engine of a core: counters, launch record, SLIP trace entry (R43 to R46). `held` says
that it held issue until now, which makes it the earlier instruction of rule 2. -/
def State.slip (s : State) (k e : Nat) (i : Instr) (target : W64) (tag : Tag) (held : Bool) : State :=
  let n := (s.beat - target).toNat
  let c := s.core k
  let c := { c.setEng e ((c.eng' e).slip tag.1 n tag.2) with
    lastSlip := if held then some (s.beat, tag.1) else c.lastSlip }
  let s := (s.setCore k c).trace k 2 (clsOp i) n (tag.1 + tag.2.toNat * 8)
  match c.prog with
  | some p => s.modLaunch p.id (·.slip tag.1 n tag.2)
  | none => s

/-! ### The program counter and hardware loops (R88) -/

/-- The core after the instruction at pc completes issue, with `next` the pc that would follow it and `kept` the open
loops, innermost first, that do not end there. Every open loop whose last body instruction it is decrements its counter,
the innermost first; the first of them whose counter is not zero takes pc back to its first body instruction; one whose
counter is zero closes (R88). DESIGN CHOICE (log 42): where the bodies of nested loops end with one instruction, an outer
loop counts once those inside it have closed. -/
def Core.advanceIn (c : Core) (next : Nat) (kept : List LoopRec) : List LoopRec → Core
  | [] => { c with pc := next, loops := kept }
  | l :: r =>
    if l.last = c.pc then
      let n := c.lcr l.lc - 1
      if n ≠ 0 then { c.setLc l.lc n with pc := l.first, loops := kept ++ l :: r }
      else (c.setLc l.lc n).advanceIn next kept r
    else c.advanceIn next (kept ++ [l]) r

/-- The core past the instruction at its pc. -/
def Core.advance (c : Core) : Core := c.advanceIn ((c.pc + 1) % 1024) [] c.loops

/-- The open loops after a taken branch to `t`: a loop whose body does not hold the target closes, and
so does every loop opened inside it (R88). -/
def closeLoops (t : Nat) : List LoopRec → List LoopRec
  | [] => []
  | l :: r =>
    let r' := closeLoops t r
    if r'.length = r.length ∧ l.first ≤ t ∧ t ≤ l.last then l :: r' else r'

/-! ### Byte footprints (R82) -/

/-- Whether two sets of byte ranges meet. -/
def meet (x y : List (Nat × Nat)) : Bool :=
  x.any fun a => y.any fun b => decide (a.1 < b.1 + b.2 ∧ b.1 < a.1 + a.2)

/-- Whether an access waits for an earlier one: it reads what the other writes, or writes what the other reads or
writes (R82). -/
def Foot.clash (x y : Foot) : Bool := meet x.reads y.writes || meet x.writes (y.reads ++ y.writes)

/-! ### Slots and the end of issue (R39, R81, R84, R126) -/

/-- The engine whose slots a core instruction's pass takes (R81): move for TMOV and TFILL, matrix, vector and factor
operations; none for what the control sequencer, or an engine while it issues, completes at once (log 38). -/
def slotOf : Instr → Option Nat
  | .tmov .. | .tfill .. => some 3
  | .mmaF16 _ _ _ _ _ _ _ g | .mmaF32 _ _ _ _ _ _ _ g | .mmaI16 _ _ _ _ _ _ _ g
  | .mmaOut _ _ _ _ _ _ _ _ g | .mmaOuts _ _ _ _ _ _ _ _ _ g => if g then none else some 1
  | .vadd .. | .vmul .. | .vfma .. | .vcmp .. | .vsel .. | .vmin .. | .vmax .. | .vld .. | .vst .. => some 2
  | .nsiScale .. | .nsiStep .. | .nsiResid .. | .cholSn .. | .ldltSn .. | .trsvSn .. | .refine ..
  | .updNs .. => some 5
  | _ => none

/-- BEAT.WAIT never slips (R41). -/
def neverSlips : Instr → Bool
  | .beatWait .. => true
  | _ => false

/-- Whether both slots of an engine are taken (R81). -/
def Slots.full (x : Slots) : Bool := x.running.isSome && x.queued.isSome

/-- Whether an engine has no pass at all. -/
def Slots.empty (x : Slots) : Bool := x.running.isNone && x.queued.isNone && x.tail.isEmpty

/-- Whether no engine of a core has a pass in flight. -/
def Core.enginesEmpty (c : Core) : Bool := c.slots.all fun e => e.2.empty

/-- The ganged passes in flight in a cluster (R70, R82), and whether there are any. -/
def Cluster.passes (u : Cluster) : List GangPass := u.gangRun.toList ++ u.gangQueued.toList ++ u.gangTail
def Cluster.inFlight (u : Cluster) : Bool := !u.passes.isEmpty

/-- Whether both slots of an instruction's engine are taken, so that it holds issue (R81): its own pass slots, the
move engine's for a check and a post, the tap's for a tap operation. TD.SET and TD.COPY wait for none (R89), the
control sequencer's own classes for none. -/
def Core.slotsFull (c : Core) (i : Instr) : Bool :=
  match i with
  | .tchk .. | .chkRange .. | .chkNf .. | .updNf .. | .xferPost .. | .collPost .. | .updApply .. => (c.slots' 3).full
  | .tapArm .. | .tapOff .. | .tapAuto .. | .syrkTap .. | .tapDrain .. => decide (2 ≤ c.folding)
  | i => match slotOf i with
    | some e => (c.slots' e).full
    | none => false

/-- The target beat of an instruction: BA + delta (R38). -/
def Core.target (c : Core) (i : Instr) : Option W64 :=
  (launchOf i).map fun d => c.ba + BitVec.ofNat 64 d

/-- The set that a pass adds products to, and the set that it or an MMA.CLR names. -/
def sumsInto : Instr → Option Nat
  | .mmaF16 _ _ a .. | .mmaF32 _ _ a .. | .mmaI16 _ _ a .. => some a.val
  | _ => none
def setOf : Instr → Option Nat
  | .mmaOut _ _ a .. | .mmaOuts _ _ a .. => some a.val
  | i => sumsInto i

/-- The passes of an engine, and of a core with their engines. -/
def Slots.passes (x : Slots) : List Pass := x.running.toList ++ x.queued.toList ++ x.tail
def Core.passes (c : Core) : List (Nat × Pass) := c.slots.flatMap fun e => e.2.passes.map fun p => (e.1, p)

/-- Whether a set waits for an earlier pass into it (R126): earlier than number `n`. -/
def Slots.sums (x : Slots) (set n : Nat) : Bool := x.passes.any fun q => decide (sumsInto q.op = some set ∧ q.seq < n)

/-- Whether a pass may begin as far as its accumulator set goes (R126): MMA.OUT and MMA.OUTS wait for every earlier
pass into their set, and any pass into a set for every earlier MMA.CLR of it. -/
def Core.setReady (c : Core) (p : Pass) : Bool :=
  match setOf p.op with
  | none => true
  | some a =>
    !(sumsInto p.op).isNone || !(c.slots' 1).sums a p.seq

/-- Whether an earlier MMA.CLR of a pass's set is still under way (R126). -/
def Core.clearWaits (c : Core) (p : Pass) : Bool :=
  c.clears.any fun x => decide (setOf p.op = some x.1 ∧ x.2 < p.seq)

/-- Whether the core's matrix array is taken by a tap fold (R164). -/
def Core.foldsOn (c : Core) (e : Nat) : Bool := decide ((e = 1 ∨ e = 5) ∧ c.folding ≠ 0)

/-- Whether the matrix engine's running slot is taken from a pass by the factor sequencer, or from a factor operation
by the core's own passes, in issue order (R126): a factor operation holds the slot while it runs (log 43). -/
def Core.arrayWaits (c : Core) (e : Nat) (p : Pass) : Bool :=
  let other (x : Slots) : Bool := x.running.isSome || x.queued.any fun q => decide (q.seq < p.seq)
  (decide (e = 1) && other (c.slots' 5)) || (decide (e = 5) && other (c.slots' 1))

/-- Whether an access that issues as number `n` waits for an earlier pass, of another engine than `e`, or for a fold
under way (R82). -/
def Core.waitsFor (c : Core) (e : Option Nat) (n : Nat) (f : Foot) : Bool :=
  (c.passes.any fun q => decide (e ≠ some q.1 ∧ q.2.seq < n) && f.clash q.2.foot) ||
    (decide (e ≠ some 4) && (c.tapQ.take c.folding).any fun t => f.clash t.foot)

/-- Whether a ganged pass into a set has yet to add its products: its entry has not ended. -/
def Cluster.adding (u : Cluster) (ac : Nat) : Bool :=
  (u.gangRun.toList ++ u.gangQueued.toList).any fun p => decide (sumsInto p.op = some ac)

/-- Whether a pass may take the running slot of its engine when that is free (R38, R81, R82, R126, R164). -/
def Core.ready (c : Core) (e : Nat) (p : Pass) : Bool :=
  c.setReady p && !c.clearWaits p && !c.foldsOn e && !c.arrayWaits e p && !c.waitsFor (some e) p.seq p.foot

/-- A pass begins in the running slot, and slips when its target beat has passed (R43, R81). -/
def State.startPass (s : State) (k e : Nat) (p : Pass) (held : Bool) : State :=
  let c := s.core k
  let s := s.setCore k (c.setSlots e { c.slots' e with running := some { p with tag := s.ownTag p.target p.late } })
  match p.target with
  | some t => if t < s.beat then s.slip k e p.op t p.late.tag held else s
  | none => s

/-- A pass takes the running slot if it is free, no earlier pass is queued and nothing that it waits for is under
way; else the queued slot (R81). -/
def State.enterSlot (s : State) (k e : Nat) (i : Instr) (target : Option W64) (late : Late) (foot : Foot) : State :=
  let c := s.core k
  let x := c.slots' e
  let p : Pass := { op := i, seq := c.seq, target := target, late := late, foot := foot }
  if x.running.isNone ∧ x.queued.isNone ∧ c.ready e p then s.startPass k e p true
  else s.setCore k (c.setSlots e { x with queued := some p })

/-- The queued pass of an engine begins when the running slot is free and it may. -/
def State.promote (s : State) (k e : Nat) : State :=
  let c := s.core k
  let x := c.slots' e
  match x.running, x.queued with
  | none, some p =>
    if c.ready e p then (s.setCore k (c.setSlots e { x with queued := none })).startPass k e p false else s
  | _, _ => s

/-- MMA.CLR completes once every earlier pass into its set has (R126). -/
def Core.clearDone (c : Core) : Core := { c with clears := c.clears.filter fun x => (c.slots' 1).sums x.1 x.2 }

/-- The engines of a core go on after a completion: MMA.CLRs that have nothing left to wait for, then queued passes. -/
def State.goOn (s : State) (k : Nat) : State :=
  [1, 2, 3, 5].foldl (fun s e => s.promote k e) (s.setCore k (s.core k).clearDone)

/-- Late by an input that completes after the end of a target beat: its tag is now the last one (R43 rule 3). -/
def Late.hear (l : Late) (beat : W64) (target : Option W64) (tag : Tag) : Late :=
  if target.any fun t => decide (t < beat) then { l with input := some tag } else l

/-- A pass of an engine, or a fold, has completed: what waited for its bytes has this input now, with the tag that its
writes carry (R38, R43, R44), and FENCE and TAP.DRAIN the completion itself (R84). -/
def State.inputDone (s : State) (k e : Nat) (foot : Foot) (tag : Tag) : State :=
  let c := s.core k
  let hear (p : Pass) : Pass := if p.foot.clash foot then { p with late := p.late.hear s.beat p.target tag } else p
  let slots := c.slots.map fun x => (x.1, { x.2 with queued := x.2.queued.map hear })
  s.setCore k { c with
    slots := slots
    heldInput := if c.heldFoot.clash foot then some (s.beat, tag) else c.heldInput
    doneAt := sput (fun _ => (0, (0, false))) c.doneAt e (s.beat, tag) }

/-- An instruction that completes issue is counted and traced, and is held no more (Table 16.1, R340). -/
def State.countIssue (s : State) (k : Nat) (i : Instr) : State :=
  let s := s.trace k 1 (clsOp i) 0 0
  let c := s.core k
  let r := c.eng' 0
  s.setCore k { c.setEng 0 { r with extra := satInc 32 r.extra 1 } with
    held := none, wait := none, waitTarget := none, issuedAt := some s.beat, dbgHeld := false, seq := c.seq + 1,
    foot := {}, heldFoot := {}, heldInput := none, resumeSwap := false }

/-- The pass that an instruction starts takes its slot; an instruction without one that starts late
slips now (R43, R81). -/
def State.place (s : State) (k : Nat) (i : Instr) (target : Option W64) (late : Late) (foot : Foot) : State :=
  match slotOf i with
  | some e => s.enterSlot k e i target late foot
  | none =>
    match target with
    | some t => if !neverSlips i && decide (t < s.beat) then s.slip k (engOf i) i t late.tag true else s
    | none => s

/-- pc advances unless the instruction set it; a core that a debugger steps halts again (R343), but one that the
instruction itself drains, END or HALT, goes where that takes it (log 35). -/
def State.moveOn (s : State) (k : Nat) (jumped : Bool) : State :=
  let s := if jumped then s else s.setCore k (s.core k).advance
  if (s.core k).stepOne then
    if (s.core k).st = .draining then s.setCore k { s.core k with stepOne := false }
    else (s.setCore k { s.core k with stepOne := false, after := .toHalted, haltAt := s.beat }).setSt k .draining
  else s

/-- An instruction that completes issue. -/
def State.finish (s : State) (k : Nat) (i : Instr) (target : Option W64) (late : Late) (jumped : Bool) : State :=
  ((s.countIssue k i).place k i target late (s.core k).foot).moveOn k jumped

end Sys2Proof.Machine
end

