-- ==== Sys2Proof/Machine/QueueOps.lean ====
section
/-! DEFINITION. Accepted commands and their completions (R233, R237 to R240). -/

namespace Sys2Proof.Machine

/-! ### The bytes of a command (Tables 11.2 and 11.3) -/

/-- `n` bytes of a command at an offset, as a number. -/
def Cmd.fld (c : Cmd) (off n : Nat) : Nat := leNat ((c.bytes.drop off).take n)

/-! Opcodes (Table 11.3). -/
namespace Op
def launch : Nat := 0x01
def copy : Nat := 0x02
def collective : Nat := 0x03
def stepCommit : Nat := 0x04
def solve : Nat := 0x05
def checkpoint : Nat := 0x06
def restore : Nat := 0x07
def signal : Nat := 0x08
def wait : Nat := 0x09
def alloc : Nat := 0x0A
def free : Nat := 0x0B
def counterSnap : Nat := 0x0C
def exportShard : Nat := 0x0D
end Op

/-- The instance that a queue belongs to (Table 11.8). -/
def State.qOwner (s : State) (q : Nat) : Nat := s.fld (R.qCfg q) 16 6

/-- The accepted commands of a queue, in ring order. -/
def State.acceptedOf (s : State) (q : Nat) : List Cmd :=
  (s.inst (s.qOwner q)).accepted.filter fun c => decide (c.q = q)

/-- The command of a queue that may start next: every earlier one has started, no WAIT of the queue is
pending, no SOLVE of it waits (R220), and with FENCE every earlier one has completed (R233). -/
def State.nextCmd (s : State) (q : Nat) : Option Cmd :=
  let l := s.acceptedOf q
  let waits := (s.inst (s.qOwner q)).solves.any fun r => !r.started && !r.frozen && decide (r.cmd.q = q)
  if waits || l.any fun c => c.started.isSome && decide (c.opcode = Op.wait) then none
  else
    match l.find? fun c => c.started.isNone with
    | none => none
    | some c => if c.fence && l.any (fun d => d.started.isSome) then none else some c

/-- The next command of a queue if it is of an opcode (and, for SIGNAL, WAIT and others, of a kind). -/
def State.nextOf (s : State) (q op : Nat) (p : Cmd → Bool) : Option Cmd :=
  match s.nextCmd q with
  | none => none
  | some c => if c.opcode = op ∧ p c then some c else none

/-- The step a host command's work belongs to, the newest unresolved one: S, or the run-ahead step S + 1 once that is
open; what is issued while step S is REPLAYING is its own (R191, R206). -/
def State.stepNow (s : State) (i : Nat) : W64 :=
  let g := s.gate i
  if s.gateOn i && g.runAhead && decide (g.st ≠ .replaying) then s.s0 i + 1 else s.s0 i

/-- The command marked as started in this beat; one that sets work in flight breaks the conditions of the deadlock
detector (R245). -/
def State.startCmd (s : State) (c : Cmd) : State :=
  let x := s.inst c.inst
  let f (d : Cmd) : Cmd := if d.tag = c.tag then { d with started := some s.beat } else d
  let work := decide (c.opcode = Op.copy ∨ c.opcode = Op.collective ∨ c.opcode = Op.signal ∨ c.opcode = Op.solve)
  s.setInst c.inst { x with accepted := x.accepted.map f, dlSince := if work then none else x.dlSince }

/-- Whether a command is still accepted and not complete. -/
def State.isAccepted (s : State) (c : Cmd) : Bool := (s.inst c.inst).accepted.any fun d => decide (d.tag = c.tag)

/-- Two codes that apply to one command (R12): OK never competes, the higher group wins, and within a
group the lower code. -/
def codeMax (a b : Nat) : Nat :=
  if a = 0 then b else if b = 0 then a
  else if a / 16 = b / 16 then min a b else if a / 16 < b / 16 then b else a

/-- Whether a completion with a status halts its queue (R238). -/
def State.haltsOn (s : State) (q status : Nat) : Bool := s.bit (R.qCfg q) 1 && decide (0x10 ≤ status)

/-- The completion entry of a command, in this beat, with the slip summary of the launch record of its programs, if it
launched any (R239). -/
def State.entryFor (s : State) (c : Cmd) (started : Option W64) (status resultLo : Nat) (result : W64) (l : Option LaunchRec) : Completion :=
  { id := c.id, gen := c.gen, status := status, opcode := c.opcode, resultLo := BitVec.ofNat 32 resultLo,
    result := result, start := started.getD 0, stop := s.beat,
    slips := match l with
      | some l => min (2 ^ 32 - 1) (l.ctr.propN + l.ctr.slipN.foldl (fun a e => a + e.2) 0)
      | none => 0,
    propBeats := (l.map (·.ctr.propB)).getD 0,
    causeBeats := (l.map (·.ctr.slipB)).getD [] }

/-- The launch record of a command whose programs run. -/
def State.launchOf (s : State) (c : Cmd) : Option LaunchRec := s.launches.find? fun l => decide (l.cmd.tag = c.tag)

/-- A completion of a command, with its slip summary (R239): the command leaves the accepted ones, and
its entry waits for the ring; a status whose high nibble is not 0 halts a queue with HALT_ON_ERROR
(R238); a command of a run-ahead step that has been undone carries TAINTED (R205). A command that a
reset has ended is dropped and counted (R241). -/
def State.completeWith (s : State) (c : Cmd) (status resultLo : Nat) (result : W64) (l : Option LaunchRec) : State :=
  let x := s.inst c.inst
  match x.accepted.find? fun d => decide (d.tag = c.tag) with
  | none => s.stale c.inst
  | some d =>
    let status := if d.undone then codeMax status St.tainted else status
    let e := s.entryFor c d.started status resultLo result l
    let s := s.setInst c.inst { x with accepted := x.accepted.filter fun d => decide (d.tag ≠ c.tag) }
    let u := s.queue c.q
    s.setQueue c.q { u with waiting := u.waiting ++ [e], halted := u.halted || s.haltsOn c.q status }

/-- A completion of a command that launches no program. -/
def State.complete (s : State) (c : Cmd) (status : Nat) : State := s.completeWith c status 0 0 none

/-! ### The completion of a LAUNCH (R67) -/

def State.launchRec (s : State) (id : Nat) : Option LaunchRec := s.launches.find? fun l => l.id = id

/-- The completion code of a LAUNCH: OK_SLIPPED (R47), PLAUSIBILITY where its own work failed the step's contribution
(R302), MEMORY_UNCORRECTABLE (R303). -/
def State.launchCode (s : State) (l : LaunchRec) : Nat :=
  let min_ := s.fld R.slipCfg 0 8
  let slipped := if min_ ≠ 0 ∧ min_ ≤ l.maxSlip then St.okSlipped else 0
  codeMax slipped (if l.uncorrectable then St.memoryUncorrectable else if l.implausible then St.plausibility else 0)

/-- A LAUNCH completes once every placed core has started, or without START once every load and swap has
taken effect (R67). -/
def State.settleLaunch (s : State) (id : Nat) : State :=
  match s.launchRec id with
  | none => s
  | some l =>
    if l.done ∨ l.cmd.opcode ≠ Op.launch ∨ !l.loads.isEmpty ∨ (l.starts ∧ !l.unstarted.isEmpty) ∨ (!l.starts ∧ !l.swaps.isEmpty) then s
    else
      let s := s.completeWith l.cmd (s.launchCode l) 0 0 (some l)
      if l.starts then s.modLaunch id fun l => { l with done := true }
      else { s with launches := s.launches.filter fun l => decide (l.id ≠ id) }

/-- Every LAUNCH that has nothing left to wait for completes. -/
def State.settleLaunches (s : State) : State := forEach (s.launches.map (·.id)) s State.settleLaunch

/-- A swap of core k has taken effect: no launch waits for it any more. -/
def State.swapDone (s : State) (k : Nat) : State :=
  let gone (l : LaunchRec) : LaunchRec := { l with swaps := l.swaps.erase k }
  ({ s with launches := s.launches.map gone } : State).settleLaunches

end Sys2Proof.Machine
end

