-- ==== Sys2Proof/Machine/SyncOps.lean ====
section
/-! DEFINITION. Sync counters, barriers, host flags and vectors, and the waiters that they release
(R97, R98, R237, R242 to R244). -/

namespace Sys2Proof.Machine

/-- A sync counter. -/
def State.cnt (s : State) (cl idx : Nat) : Nat := (sget (fun _ => (0 : W16)) (s.cluster cl).cnts idx).toNat
def State.setCnt (s : State) (cl idx v : Nat) : State :=
  let u := s.cluster cl
  s.setCluster cl { u with cnts := sput (fun _ => 0) u.cnts idx (BitVec.ofNat 16 v) }

/-! ### The inputs of waits (R84) -/

/-- The signals that a counter's present value came from: the value that each brought it to, its beat and its tag. -/
def State.cntTags (s : State) (cl idx : Nat) : List (Nat × W64 × Tag) := sget (fun _ => []) (s.cluster cl).cntTags idx
def State.setCntTags (s : State) (cl idx : Nat) (l : List (Nat × W64 × Tag)) : State :=
  let u := s.cluster cl
  s.setCluster cl { u with cntTags := sput (fun _ => []) u.cntTags idx l }

/-- `v` subtracted from a counter that a wait found satisfied (R97). -/
def State.takeCnt (s : State) (cl idx v : Nat) : State :=
  let l := (s.cntTags cl idx).filterMap fun e => if v < e.1 then some (e.1 - v, e.2) else none
  (s.setCnt cl idx (s.cnt cl idx - v)).setCntTags cl idx l

/-- The signal that brought a counter to val: its beat and its tag (R84). -/
def State.cntInput (s : State) (cl idx val : Nat) : Option (W64 × Tag) :=
  ((s.cntTags cl idx).find? fun e => decide (val ≤ e.1)).map (·.2)

/-- The arrival that completed a barrier's present phase, and the setting of a host flag (R84). -/
def State.barInput (s : State) (n : Nat) : W64 × Tag := sget (fun _ => (0, (0, false))) s.barTags n
def State.flagInput (s : State) (n : Nat) : W64 × Tag := sget (fun _ => (0, (0, false))) s.flagTags n

/-- A barrier's MEMBERS, ARRIVED and PHASE (Table 11.9). -/
def State.barMembers (s : State) (n : Nat) : Nat := s.fld (R.barCfg n) 0 21
def State.barArrived (s : State) (n : Nat) : Nat := s.fld (R.barArr n) 0 21
def State.barPhase (s : State) (n : Nat) : Nat := s.fld (R.barPhase n) 0 32

/-- The instruction a WAITING core waits in; its launch field is kept as the wait's target. -/
def Wait.instr (k : Nat) : Wait → Instr
  | .cnt i v => .waitCnt k none i (BitVec.ofNat 16 v)
  | .bar i _ => .barWait k none i
  | .flag i => .flagWait k none i

/-- A WAITING core whose wait is satisfied runs on: the wait starts now, and slips with the tag that
the satisfying event carries when it is late (R84, R43). -/
def State.resume (s : State) (k : Nat) (w : Wait) (tag : Tag) : State :=
  let c := s.core k
  let inp : InputTag := if c.dbgHeld then { late := true, cause := 7, prop := false } else { late := true, cause := tag.1, prop := tag.2 }
  (s.setSt k .running).finish k (w.instr k) c.waitTarget (c.lateness c.waitTarget inp) false

/-- The keys of WAITING cores, in ascending order. -/
def State.waiters (s : State) : List Nat :=
  (s.cores.filter fun e => decide (e.2.st = .waiting)).map (·.1)

/-- WAIT commands that have started and wait, in queue order (R237). -/
def State.hostWaits (s : State) (kind : Nat) : List Cmd :=
  let l := s.insts.flatMap fun e => e.2.accepted.filter fun c =>
    decide (c.opcode = Op.wait) && c.started.isSome && decide (c.fld 0x10 1 = kind)
  l.mergeSort fun a b => decide (a.q ≤ b.q)

/-- Whether a WAIT command is satisfied (Table 11.3). -/
def State.waitMet (s : State) (c : Cmd) : Bool :=
  match c.fld 0x10 1 with
  | 0 => decide (c.fld 0x16 2 ≤ s.cnt (c.fld 0x14 2) (c.fld 0x12 2))
  | 1 => s.flag (c.fld 0x12 2)
  | 2 => decide (s.barPhase (c.fld 0x12 2) ≠ c.fld 0x18 8 % 2 ^ 32)
  | _ => decide (c.fld 0x18 8 ≤ s.beat.toNat)

/-- A WAIT command that is satisfied completes; a counter loses VAL (R237). -/
def State.finishWait (s : State) (c : Cmd) : State :=
  let s := if c.fld 0x10 1 = 0 then
      s.takeCnt (c.fld 0x14 2) (c.fld 0x12 2) (c.fld 0x16 2)
    else s
  s.complete c St.ok

/-- WAIT commands of a kind that are satisfied complete, in queue order, each against what the one
before left. -/
def State.wakeHost (s : State) (kind : Nat) : State :=
  forEach (s.hostWaits kind) s fun s c => if s.waitMet c then s.finishWait c else s

/-- Waiters on a counter: cores in core-index order, each against the count the one before left, then
host WAITs (R98, R237). -/
def State.wakeCnt (s : State) (cl idx : Nat) : State :=
  let s := forEach (s.waiters.filter fun k => decide (clOf k = cl)) s fun s k =>
    match (s.core k).wait with
    | some (.cnt i v) =>
      if i = idx ∧ v ≤ s.cnt cl idx then
        (s.takeCnt cl idx v).resume k (.cnt i v) (((s.cntInput cl idx v).map (·.2)).getD (0, false))
      else s
    | _ => s
  s.wakeHost 0

/-- Counter 62 of a root-group cluster has reached 256: 256 is subtracted and the cluster's block is no
longer outstanding (R183). -/
def State.rootDone (s : State) (cl : Nat) : State :=
  match s.owner cl with
  | none => s
  | some i =>
    let x := s.inst i
    if s.cnt cl 62 < 256 then s
    else
      match x.outstanding.find? fun j => j.cl = cl with
      | none => s
      | some j => (s.takeCnt cl 62 256).setInst i { x with outstanding := x.outstanding.erase j }

/-- `val` added to a counter, saturating with a class B event that names the signaller (R97); its waiters are not yet
served. -/
def State.bumpCnt (s : State) (cl idx val : Nat) (who : W32) (tag : Tag) : State :=
  let r := cntAdd (s.cnt cl idx) val
  let s := (s.setCnt cl idx r.1).setCntTags cl idx (s.cntTags cl idx ++ [(r.1, s.beat, tag)])
  let s := if r.2 then s.raise 2 St.illegalInState .sync (openDetail .sync St.illegalInState) who ((s.owner cl).getD 0xFF) else s
  if idx = 62 then s.rootDone cl else s

/-- A counter with `val` added, and its waiters served. -/
def State.addCnt (s : State) (cl idx val : Nat) (who : W32) (cause : Nat) (prop : Bool) : State :=
  (s.bumpCnt cl idx val who (cause, prop)).wakeCnt cl idx

/-- A counter set, with its waiters served. -/
def State.putCnt (s : State) (cl idx val : Nat) : State :=
  ((s.setCnt cl idx val).setCntTags cl idx (if val = 0 then [] else [(val, s.beat, (0, false))])).wakeCnt cl idx

/-- A barrier's phase completes: ARRIVED returns to 0, PHASE goes up, waiters are released (R243). -/
def State.completePhase (s : State) (n : Nat) (cause : Nat) (prop : Bool) : State :=
  let s := (s.setFld (R.barArr n) 0 21 0).setFld (R.barPhase n) 0 32 (s.barPhase n + 1)
  let s := { s with barTags := sput (fun _ => (0, (0, false))) s.barTags n (s.beat, (cause, prop)) }
  let s := forEach s.waiters s fun s k =>
    match (s.core k).wait with
    | some (.bar i p) => if i = n ∧ s.barPhase n ≠ p then s.resume k (.bar i p) (cause, prop) else s
    | _ => s
  s.wakeHost 2

/-- An arrival at a barrier (R243); one at a barrier without members has no effect but a class B event. -/
def State.arrive (s : State) (n : Nat) (who : W32) (inst : Nat) (cause : Nat) (prop : Bool) : State :=
  if s.barMembers n = 0 then s.raise 2 St.illegalInState .sync (openDetail .sync St.illegalInState) who inst
  else
    let a := s.barArrived n + 1
    if s.barMembers n ≤ a then s.completePhase n cause prop else s.setFld (R.barArr n) 0 21 a

/-- A host flag set, releasing its waiters, or cleared (R97, R244). -/
def State.putFlag (s : State) (n : Nat) (v : Bool) (cause : Nat) (prop : Bool) : State :=
  let news := v && !s.flag n
  let s := s.setFlag n v
  let s := if news then { s with flagTags := sput (fun _ => (0, (0, false))) s.flagTags n (s.beat, (cause, prop)) } else s
  if v then
    let s := forEach s.waiters s fun s k =>
      match (s.core k).wait with
      | some (.flag i) => if i = n then s.resume k (.flag i) (cause, prop) else s
      | _ => s
    s.wakeHost 1
  else s

/-- A signal of core k reaches its counter, barrier, flag or vector (R83); one that adds to a counter leaves the
counter's waiters to be served when the signals of the same instant have all arrived (R98). -/
def State.applySig (s : State) (k : Nat) (x : Signal) : State :=
  match x.sig with
  | .cnt cl idx val => s.bumpCnt cl idx val (coreUid k 0 0) (x.cause, x.prop)
  | .bar n => s.arrive n (coreUid k 0 0) ((s.owner (clOf k)).getD 0xFF) x.cause x.prop
  | .flag n => s.putFlag n true x.cause x.prop
  | .irq v => s.irq ((s.owner (clOf k)).getD 0) v

/-- The waiters of the counter that a signal added to are served. -/
def State.wakeSig (s : State) (x : Signal) : State :=
  match x.sig with
  | .cnt cl idx _ => s.wakeCnt cl idx
  | _ => s

/-- A signal that takes effect alone. -/
def State.takeSig (s : State) (k : Nat) (x : Signal) : State := (s.applySig k x).wakeSig x

end Sys2Proof.Machine
end

