-- ==== Sys2Proof/Machine/CoreOps.lean ====
section
/-! DEFINITION. What the control sequencer does with an instruction: core faults (R71), and issue and
start under the launch rule (R38, R39, R81, R84). -/

namespace Sys2Proof.Machine

/-! ### Failing contributions and frozen solves -/

/-- The LAUNCH of a program whose own work failed the step's contribution completes, where it is still open, with
PLAUSIBILITY (R302). -/
def State.markLaunch (s : State) (i id : Nat) : State :=
  if s.bit (R.updCfg i) 0 then s.modLaunch id fun l => { l with implausible := true } else s

/-- A failure met by a program's own work, which names a unit: the contribution of its step fails (R302). -/
def State.failProg (s : State) (p : Prog) (unit : W32) : State := (s.markLaunch p.inst p.id).failContribution p.inst p.step unit

/-- The contribution of a core's program fails. -/
def State.failCore (s : State) (k : Nat) (unit : W32) : State :=
  match (s.core k).prog with
  | some p => s.failProg p unit
  | none => s

/-- The launch that a core's program belongs to. -/
def State.launchOn (s : State) (k : Nat) : Option Nat := (s.core k).prog.map (·.id)

/-- Whether a solve runs on a cluster and has not ended. -/
def SolveRec.live (r : SolveRec) (cl : Nat) : Bool :=
  r.started && !r.final && !r.frozen && decide (r.first ≤ cl ∧ cl < r.first + r.count)

/-- A sticky bit of SOLV_STAT, with SOLV_LAST, and its record of class C (Table 10.6, log 17). -/
def State.solvEvent (s : State) (i tag b code : Nat) : State :=
  ((s.setBit (R.solvStat i) b true).setReg (R.solvLast i) (BitVec.ofNat 64 (tag % 65536 + (b + 1) * 2 ^ 16))).raise 3 code
    .solv b pcieUid i

/-- A core fault in a solve's set freezes the solve in the beat of the fault, with its completion code
and SOLV_STAT.CORE_FAULT (R225). -/
def State.freezeByFault (s : State) (i cl code : Nat) : State :=
  let x := s.inst i
  match x.solves.find? (·.live cl) with
  | none => s
  | some r =>
    let h := s.solveInputs i
    let stop (q : SolveRec) : SolveRec :=
      if q.tag = r.tag then { q with frozen := true, endBeat := s.beat, forced := some code, inputs := h.2 } else q
    let s := h.1.setInst i { x with solves := x.solves.map stop }
    s.solvEvent i r.tag 6 code

/-- Whether the core's solve is frozen: it issues no wait any more (R222). -/
def State.solveFrozen (s : State) (k : Nat) : Bool :=
  match (s.core k).prog with
  | some p =>
    match p.solve with
    | some t => (s.inst p.inst).solves.any fun r => decide (r.tag = t) && r.frozen
    | none => false
  | none => false

/-! ### Core faults (R71 to R73) -/

/-- Whether a fault can strike a core (Table 3.3). -/
def Core.canFault (c : Core) : Bool := decide (c.st = .running ∨ c.st = .waiting ∨ c.st = .draining)

/-- The fault itself, without its effect on other cores. The first fault is kept in CFAULT; a later
one sets MORE (R72). The tap's queued entries are discarded (R163). A core that drains for a reset of its instance ends
IDLE all the same (Table 3.3). The record of class A names the core (R71), or the uncorrectable word that the fault
carries (R303). -/
def State.faultOne (s : State) (k fault eng : Nat) : State :=
  let cause := Cause.code fault
  let uid := ((Cause.word fault).map memUid).getD (coreUid k (if eng < 6 then eng else 0) 0)
  let c := s.core k
  let cl := clOf k
  let i := (s.owner cl).getD 0
  let cmd := match c.prog with
    | some p => ((s.launches.find? fun l => l.id = p.id).map (·.cmd.id)).getD 0xFFFF
    | none => 0xFFFF
  let first := !c.fault.valid
  let c' : Core :=
    if first then
      { c with fault := { cause := cause, engine := eng, more := c.fault.more, pc := c.pc, valid := true },
               held := none, wait := none, waitTarget := none, tapQ := [], folding := 0, gangWait := false,
               after := if c.after = .toReset then .toReset else .toFaulted }
    else { c with fault := { c.fault with more := true } }
  let ctx := leBytes 4 c'.cstat.toNat ++ leBytes 4 c'.cfault.toNat
    ++ s.rbs (bankBase k c.activeBank + 8 * c.pc) 8 ++ leBytes 8 c.ba.toNat ++ leBytes 8 s.beat.toNat
  let s := (s.setCore k c').raise 1 (faultCode cause) .unit cause uid i cmd (ctx := ctx)
  if first then
    let s := (s.setSt k .draining).trace k 5 cause 0 0
    let s := match c.prog with
      | none => s
      | some p =>
        let s := s.failProg p uid
        let mem := decide (cause = 7 ∨ cause = 8)
        let s := s.modLaunch p.id fun l => { l with bad := true, uncorrectable := l.uncorrectable || mem }
        if p.faultFlag = 0 then s else s.putFlag p.faultFlag true 0 false
    s.freezeByFault i cl (if cause = 7 ∨ cause = 8 then St.memoryUncorrectable else St.internal)
  else s

/-- A core that is told to halt drains to HALTED (Table 3.3); its unissued instruction is given up and
issues again after RESUME. A halt in the beat in which END issued is taken before it (R58): the END issues again. -/
def State.haltCore (s : State) (k : Nat) : State :=
  let c := s.core k
  let ended : Bool := match c.after with
    | .toEnd _ => decide (c.st = .draining ∧ c.issuedAt = some s.beat)
    | _ => false
  if ended then s.setCore k { c with after := .toHalted, haltAt := s.beat }
  else if c.st = .running ∨ c.st = .waiting then
    (s.setCore k { c with after := .toHalted, held := none, wait := none, waitTarget := none, haltAt := s.beat }).setSt k .draining
  else s.setCore k { c with resumeDue := false }

/-- The listed cores of a cluster. -/
def State.coresIn (s : State) (cl : Nat) : List Nat := (s.cores.map (·.1)).filter fun k => decide (clOf k = cl)

/-- GANG_PEER on every other core of a ganged cluster that can fault and is not already faulted (R71). -/
def State.peerFaults (s : State) (cl : Nat) : State :=
  forEach (s.coresIn cl) s fun s j =>
    if (s.core j).canFault && !(s.core j).fault.valid then s.faultOne j Cause.gangPeer 6 else s

/-- The halts that SCOPE of a core's launch names (R71). -/
def State.scopeHalts (s : State) (k : Nat) : State :=
  match (s.core k).prog with
  | none => s
  | some p =>
    let l : List Nat := match p.scope with
      | 1 => s.coresIn (clOf k)
      | 2 => (s.cores.map fun e => e.1).filter fun j => decide (p.first ≤ clOf j ∧ clOf j < p.first + p.count)
      | 3 => s.coresOf p.inst
      | _ => []
    forEach (l.filter (· ≠ k)) s State.haltCore

/-- A core fault with its effect on other cores: GANG_PEER in a ganged cluster, and the halts that
SCOPE names (R71). A core that cannot fault is left as it is (Table 3.3). -/
def State.fault (s : State) (k cause eng : Nat) : State :=
  let c := s.core k
  if c.canFault then
    let s := s.faultOne k cause eng
    if c.fault.valid then s
    else (if c.ganged then s.peerFaults (clOf k) else s).scopeHalts k
  else s

/-- Faults of several cores of one ganged cluster in one event: (core, cause, engine). No core that
faults on its own cause is faulted again as a peer (R71). -/
def State.faultMany (s : State) (cl : Nat) (l : List (Nat × Nat × Nat)) : State :=
  let s := forEach l s fun s f => s.faultOne f.1 f.2.1 f.2.2
  let s := s.peerFaults cl
  forEach l s fun s f => s.scopeHalts f.1

/-! ### Issue and start (R38, R39, R81, R84) -/

/-- What an instruction does once it may begin. -/
inductive Act where
  /-- It issues: the state with its effect; pc then advances. -/
  | next (s : State)
  /-- It issues and has set the pc itself. -/
  | jump (s : State)
  /-- It holds issue: an input, a slot or a condition is not ready. -/
  | hold
  /-- It issues nothing yet and leaves a mark while it holds (a ganged pass waiting for its peers). -/
  | holdWith (s : State)
  /-- A wait that is not satisfied: the core becomes WAITING. -/
  | wait (s : State) (w : Wait)
  /-- A core fault: no effect. -/
  | fault (cause : Nat)
  /-- A core fault that also sets a sticky bit. -/
  | faultIn (s : State) (cause : Nat)
  /-- The core leaves its stream: the state is complete, pc stays. -/
  | stop (s : State)

/-- Whether no pass of a core is in flight in its engines, no fold, and no ganged pass of its cluster (R59). -/
def State.passesDone (s : State) (k : Nat) : Bool :=
  let c := s.core k
  c.enginesEmpty && decide (c.folding = 0) && !(c.ganged && (s.cluster (clOf k)).inFlight)

/-- Whether a swap is pending whose program has been loaded. -/
def Core.swapReady (c : Core) : Bool := c.swapPending && c.shadowValid && c.load.isNone

/-- Whether a core that was resumed with a swap pending and a pass suspended still waits for that pass (R59, R61). -/
def State.resumeWaits (s : State) (k : Nat) : Bool := (s.core k).resumeSwap && !s.passesDone k

/-- Whether such a core issues nothing: until its pass is complete, and then until the swap has taken effect if its
program has been loaded. -/
def State.resumeHolds (s : State) (k : Nat) : Bool := (s.core k).resumeSwap && (!s.passesDone k || (s.core k).swapReady)

/-- The instruction is held (R39). -/
def State.hold (s : State) (k : Nat) (i : Instr) : State := s.setCore k { s.core k with held := some i }

/-- What core k's next instruction, with these bytes, waits for besides its slot: a ganged pass in flight whose bytes
it meets, and, where it takes no pass slot of its own, any earlier pass or fold (R38, R39, R82). -/
def State.blocked (s : State) (k : Nat) (i : Instr) (f : Foot) : Bool :=
  let c := s.core k
  ((s.cluster (clOf k)).passes.any fun p => f.clash p.foot) ||
    ((slotOf i).isNone && c.waitsFor (if engOf i = 4 then some 4 else none) (c.seq + 1) f)

/-- The outcome of an act taken. -/
def State.settle (s : State) (k : Nat) (i : Instr) (a : Act) (target : Option W64) (late : Late) : State :=
  match a with
  | .next s' =>
    let f := (s'.core k).foot
    if s.blocked k i f then s.setCore k { s.core k with held := some i, heldFoot := f } else s'.finish k i target late false
  | .jump s' => s'.finish k i target late true
  | .hold => s.hold k i
  | .holdWith s' => s'.hold k i
  | .wait s' w =>
    (s'.setCore k { s'.core k with held := none, wait := some w, waitTarget := target }).setSt k .waiting
  | .fault cause => s.fault k cause (causeEngine cause (engOf i))
  | .faultIn s' cause => s'.fault k cause (causeEngine cause (engOf i))
  | .stop s' => s'

/-- The latest completion among some engines of a core. -/
def Core.lastDone (c : Core) (l : List Nat) : W64 × Tag :=
  l.foldl (fun x e => let y := sget (fun _ => (0, (0, false))) c.doneAt e; if x.1 < y.1 then y else x) (0, (0, false))

/-- The engines that an imm of FENCE names (Table 4.15). -/
def fenced (imm : W32) : List Nat := [1, 2, 3, 4, 5].filter fun e => decide (imm = 0) || imm.getLsbD e

/-- The event that satisfied a wait instruction which is already satisfied when it starts: its beat and its tag (R84). -/
def State.waitInput (s : State) (k : Nat) : Instr → Option (W64 × Tag)
  | .waitCnt _ _ idx val => s.cntInput (clOf k) idx val.toNat
  | .barWait _ _ idx => some (s.barInput idx)
  | .flagWait _ _ idx => some (s.flagInput idx)
  | .fence _ _ imm => some ((s.core k).lastDone (fenced imm))
  | .tapDrain .. => some ((s.core k).lastDone [4])
  | _ => (s.core k).heldInput

/-- The input of an instruction that completed last, and whether that was after the end of the target beat: for a wait
the event that satisfied it (R84); for another instruction the completion of the last pass or fold whose bytes it waited
for (R82); else what `inp` says of its last input (R43). A core that DEBUG held slips with that cause (Table 2.1). -/
def State.inputOf (s : State) (k : Nat) (i : Instr) (target : Option W64) (inp : InputTag) : InputTag :=
  if (s.core k).dbgHeld then { late := true, cause := 7, prop := false }
  else
    match s.waitInput k i with
    | some (b, z) => { late := target.any fun t => decide (t < b), cause := z.1, prop := z.2 }
    | none => inp

/-- A core instruction that has reached the head of issue begins, holds, waits or faults. The tag that the act gets is
what its transfers and signals carry: the cause of its own slip, propagated (R44). -/
def State.begin (s : State) (k : Nat) (i : Instr) (act : Tag → State → Act) (inp : InputTag) : State :=
  let c := s.core k
  let target := c.target i
  if target.any (fun t => decide (s.beat < t)) || c.slotsFull i then s.hold k i
  else
    let late := c.lateness target (s.inputOf k i target inp)
    s.settle k i (act (s.ownTag target late) s) target late

/-- A core instruction reaches the control sequencer of core k: a core that is not RUNNING, or whose
issue an earlier instruction holds, takes none (R39, log 1); an unassigned encoding raises ILLEGAL_OP
(R75); trace back-pressure holds it (R340). -/
def State.issue (s : State) (k : Nat) (i : Instr) (act : Tag → State → Act) : State :=
  let c := s.core k
  if c.st ≠ .running ∨ c.held.isSome ∨ c.boundary ∨ s.resumeHolds k then s
  else if !i.wf then s.fault k Cause.illegalOp 0
  else if s.traceHolds k then
    s.setCore k { c with held := some i, dbgHeld := true }
  else s.begin k i act {}

end Sys2Proof.Machine
end

