-- ==== Sys2Proof/Machine/Float.lean ====
section
/-! DEFINITION. Floating values of the manual's formats (R105 to R111): exact dyadic values, one
rounding function, and the FP32 operations every engine uses. Every result is computed exactly and
rounded once. -/

namespace Sys2Proof.Machine

/-- A floating value read exactly: `fin neg m e` is (−1)^neg · m · 2^e. -/
inductive Fl where
  | nan
  | inf (neg : Bool)
  | fin (neg : Bool) (m : Nat) (e : Int)
deriving DecidableEq, Repr

/-- The binary formats of Table 5.1. -/
inductive FFmt where
  | fp16 | fp32 | e4m3 | e5m2
deriving DecidableEq, Repr

/-- Exponent bits (Table 5.1). -/
def FFmt.eb : FFmt → Nat
  | .fp16 => 5 | .fp32 => 8 | .e4m3 => 4 | .e5m2 => 5

/-- Mantissa bits (Table 5.1). -/
def FFmt.mb : FFmt → Nat
  | .fp16 => 10 | .fp32 => 23 | .e4m3 => 3 | .e5m2 => 2

/-- Exponent bias (Table 5.1). -/
def FFmt.bias (f : FFmt) : Int := 2 ^ (f.eb - 1) - 1

/-- The canonical NaN of a format (R107). -/
def FFmt.canonicalNaN : FFmt → Nat
  | .fp16 => 0x7E00 | .fp32 => 0x7FC00000 | .e4m3 => 0x7F | .e5m2 => 0x7E

/-- The largest finite magnitude's bits (Table 5.1). -/
def FFmt.maxFinite (f : FFmt) : Nat :=
  match f with
  | .e4m3 => 0x7E
  | _ => (2 ^ f.eb - 1) * 2 ^ f.mb - 1

/-- The sign bit's weight. -/
def FFmt.signBit (f : FFmt) : Nat := 2 ^ (f.eb + f.mb)

/-- The value that bits encode in a format (R105). -/
def flOf (f : FFmt) (bits : Nat) : Fl :=
  let neg := bits / f.signBit % 2 = 1
  let ex := bits / 2 ^ f.mb % 2 ^ f.eb
  let man := bits % 2 ^ f.mb
  if f = .e4m3 then
    if ex = 15 ∧ man = 7 then .nan
    else if ex = 0 then .fin neg man (1 - f.bias - f.mb)
    else .fin neg (man + 2 ^ f.mb) (ex - f.bias - f.mb)
  else if ex = 2 ^ f.eb - 1 then (if man = 0 then .inf neg else .nan)
  else if ex = 0 then .fin neg man (1 - f.bias - f.mb)
  else .fin neg (man + 2 ^ f.mb) (ex - f.bias - f.mb)

/-- Rounding modes of the rnd field that need no random bits (R110). -/
inductive Rnd where
  | rne | rtz
deriving DecidableEq, Repr

/-- `m · 2^e` as a multiple of 2^q: the integer part and whether to step up under the mode. -/
def roundAt (r : Rnd) (m : Nat) (e q : Int) : Nat :=
  if e ≥ q then m * 2 ^ (e - q).toNat
  else
    let sh := (q - e).toNat
    let n := m / 2 ^ sh
    let rem := m % 2 ^ sh
    match r with
    | .rtz => n
    | .rne => if 2 * rem > 2 ^ sh ∨ (2 * rem = 2 ^ sh ∧ n % 2 = 1) then n + 1 else n

/-- Magnitude bits of `m · 2^e` in a format, before the overflow rule. -/
def magBits (f : FFmt) (r : Rnd) (m : Nat) (e : Int) : Nat :=
  if m = 0 then 0
  else
    let emin : Int := 1 - f.bias
    let top : Int := e + (Nat.log2 m : Int)
    let ex := max top emin
    let n := roundAt r m e (ex - f.mb)
    (ex - emin).toNat * 2 ^ f.mb + n

/-- The bits of a value in a format, rounded once (R107, R108, R110). -/
def flBits (f : FFmt) (r : Rnd) (x : Fl) : Nat :=
  match x with
  | .nan => f.canonicalNaN
  | .inf neg =>
    match f with
    | .e4m3 => f.canonicalNaN
    | _ => (if neg then f.signBit else 0) + (2 ^ f.eb - 1) * 2 ^ f.mb
  | .fin neg m e =>
    let b := magBits f r m e
    let mag :=
      if b ≤ f.maxFinite then b
      else match f, r with
        | .fp16, .rne | .fp32, .rne => (2 ^ f.eb - 1) * 2 ^ f.mb
        | _, _ => f.maxFinite
    (if neg then f.signBit else 0) + mag

/-- Stochastic rounding of an FP32 value with the 16-bit draw `u` (R111). -/
def flStoch (f : FFmt) (u : Nat) (x : Fl) : Nat :=
  match x with
  | .nan => flBits f .rne .nan
  | .inf n => flBits f .rne (.inf n)
  | .fin neg m e =>
    let t := min (magBits f .rtz m e) f.maxFinite
    let ulpE : Int := (max ((t / 2 ^ f.mb : Nat) : Int) 1) - f.bias - f.mb
    let tm : Nat := if t / 2 ^ f.mb = 0 then t else t % 2 ^ f.mb + 2 ^ f.mb
    -- (|x| - |t|) / d * 65536 with d = 2^ulpE and |t| = tm * d, exact and floored
    let k : Int := e - ulpE + 16
    let scaled : Nat := if k ≥ 0 then m * 2 ^ k.toNat else m / 2 ^ (-k).toNat
    let fr := scaled - tm * 65536
    let t' := if fr + u ≥ 65536 then t + 1 else t
    let mag := if t' ≤ f.maxFinite then t'
      else match f with
        | .fp16 | .fp32 => (2 ^ f.eb - 1) * 2 ^ f.mb
        | _ => f.maxFinite
    (if neg then f.signBit else 0) + mag

/-- The signed integer of a finite value scaled by 2^q, for `q` at most its exponent. -/
def scaledInt (neg : Bool) (m : Nat) (e q : Int) : Int :=
  let v : Int := (m * 2 ^ (e - q).toNat : Nat)
  if neg then -v else v

/-- Exact sum; an exact zero from unlike signs is +0 (R107, IEEE 754 under RNE). -/
def flAdd (x y : Fl) : Fl :=
  match x, y with
  | .nan, _ => .nan
  | _, .nan => .nan
  | .inf a, .inf b => if a = b then .inf a else .nan
  | .inf a, _ => .inf a
  | _, .inf b => .inf b
  | .fin na ma ea, .fin nb mb eb =>
    if ma = 0 ∧ mb = 0 then .fin (na && nb) 0 ea
    else
      let q := min ea eb
      let v := scaledInt na ma ea q + scaledInt nb mb eb q
      if v = 0 then .fin false 0 q else .fin (decide (v < 0)) v.natAbs q

/-- Negation. -/
def flNeg : Fl → Fl
  | .nan => .nan
  | .inf n => .inf (!n)
  | .fin n m e => .fin (!n) m e

/-- Magnitude. -/
def flAbs : Fl → Fl
  | .nan => .nan
  | .inf _ => .inf false
  | .fin _ m e => .fin false m e

/-- Exact product. -/
def flMul (x y : Fl) : Fl :=
  match x, y with
  | .nan, _ => .nan
  | _, .nan => .nan
  | .inf a, .inf b => .inf (xor a b)
  | .inf a, .fin nb mb _ => if mb = 0 then .nan else .inf (xor a nb)
  | .fin na ma _, .inf b => if ma = 0 then .nan else .inf (xor na b)
  | .fin na ma ea, .fin nb mb eb => .fin (xor na nb) (ma * mb) (ea + eb)

/-- Quotient, exact or with a sticky low bit well below any rounding position. -/
def flDiv (x y : Fl) : Fl :=
  match x, y with
  | .nan, _ => .nan
  | _, .nan => .nan
  | .inf _, .inf _ => .nan
  | .inf a, .fin nb _ _ => .inf (xor a nb)
  | .fin na _ e, .inf b => .fin (xor na b) 0 e
  | .fin na ma ea, .fin nb mb eb =>
    if mb = 0 then (if ma = 0 then .nan else .inf (xor na nb))
    else if ma = 0 then .fin (xor na nb) 0 0
    else
      let k := 64 + Nat.log2 mb
      let q := ma * 2 ^ k / mb
      let sticky := if ma * 2 ^ k % mb = 0 then 0 else 1
      .fin (xor na nb) (2 * q + sticky) (ea - eb - k - 1)

/-- Integer square root by bits from `n - 1` down, starting from `r`. -/
def isqrtFrom : Nat → Nat → Nat → Nat
  | 0, _, r => r
  | n + 1, x, r => if (r + 2 ^ n) * (r + 2 ^ n) ≤ x then isqrtFrom n x (r + 2 ^ n) else isqrtFrom n x r

/-- Integer square root. -/
def isqrt (x : Nat) : Nat := isqrtFrom (Nat.log2 x / 2 + 1) x 0

/-- Square root, exact or with a sticky low bit; of a negative value the NaN (IEEE 754). -/
def flSqrt (x : Fl) : Fl :=
  match x with
  | .nan => .nan
  | .inf n => if n then .nan else .inf false
  | .fin n m e =>
    if m = 0 then .fin n 0 0
    else if n then .nan
    else
      let s : Nat := if e % 2 = 0 then 128 else 129
      let x' := m * 2 ^ s
      let r := isqrt x'
      .fin false (2 * r + (if r * r = x' then 0 else 1)) ((e - s) / 2 - 1)

/-- `x ^ (−1/p)` for p = 1, 2 or 4 of a positive finite value, exact or with a sticky low bit (R174). -/
def flInvRoot (p : Nat) (x : Fl) : Fl :=
  match x with
  | .fin false m e =>
    if m = 0 then .nan
    else
      -- 1 / (m 2^e) = 2^(4K) / m * 2^(-e-4K), with -e-4K brought to a multiple of 4
      let adj : Nat := (e % 4).toNat
      let m' := m * 2 ^ adj
      let e' := e - adj
      let kk : Nat := 64 + Nat.log2 m'
      let num := 2 ^ (4 * kk)
      let base := num / m'
      match p with
      | 1 => .fin false (2 * base + (if base * m' = num then 0 else 1)) (-e' - 4 * kk - 1)
      | 2 =>
        let r := isqrt base
        .fin false (2 * r + (if r * r * m' = num then 0 else 1)) (-e' / 2 - 2 * kk - 1)
      | _ =>
        let r := isqrt (isqrt base)
        .fin false (2 * r + (if r * r * (r * r) * m' = num then 0 else 1)) (-e' / 4 - kk - 1)
  | _ => .nan

/-- Comparison of two values, none when a NaN takes part; −0 and +0 are equal. -/
def flCmp (x y : Fl) : Option Ordering :=
  match x, y with
  | .nan, _ => none
  | _, .nan => none
  | .inf a, .inf b => some (if a = b then .eq else if a then .lt else .gt)
  | .inf a, _ => some (if a then .lt else .gt)
  | _, .inf b => some (if b then .gt else .lt)
  | .fin na ma ea, .fin nb mb eb =>
    let q := min ea eb
    some (compare (scaledInt na ma ea q) (scaledInt nb mb eb q))

/-- Sign of a value, false for a NaN. -/
def flSign : Fl → Bool
  | .nan => false
  | .inf n => n
  | .fin n _ _ => n

/-- minimumNumber of IEEE 754-2019 (Table 4.8): −0 below +0, a NaN yields the other operand. -/
def flMin (x y : Fl) : Fl :=
  match flCmp x y with
  | none => if x = .nan then y else x
  | some .lt => x
  | some .gt => y
  | some .eq => if flSign x then x else y

/-- maximumNumber of IEEE 754-2019 (Table 4.8). -/
def flMax (x y : Fl) : Fl :=
  match flCmp x y with
  | none => if x = .nan then y else x
  | some .gt => x
  | some .lt => y
  | some .eq => if flSign x then y else x

/-- Whether a value is a number and not infinite. -/
def flFinite : Fl → Bool
  | .fin _ _ _ => true
  | _ => false

/-- An FP32 word as a value. -/
def f32 (x : W32) : Fl := flOf .fp32 x.toNat

/-- rn: one rounding to FP32, nearest even (R109, R118). -/
def rn (x : Fl) : W32 := BitVec.ofNat 32 (flBits .fp32 .rne x)

/-- FP32 sum, one rounding. -/
def add32 (a b : W32) : W32 := rn (flAdd (f32 a) (f32 b))
/-- FP32 difference, one rounding. -/
def sub32 (a b : W32) : W32 := rn (flAdd (f32 a) (flNeg (f32 b)))
/-- FP32 product, one rounding. -/
def mul32 (a b : W32) : W32 := rn (flMul (f32 a) (f32 b))
/-- Fused a·b + c, one rounding (R116). -/
def fma32 (a b c : W32) : W32 := rn (flAdd (flMul (f32 a) (f32 b)) (f32 c))
/-- FP32 quotient, correctly rounded. -/
def div32 (a b : W32) : W32 := rn (flDiv (f32 a) (f32 b))
/-- FP32 square root, correctly rounded. -/
def sqrt32 (a : W32) : W32 := rn (flSqrt (f32 a))
/-- Negated FP32 word. -/
def neg32 (a : W32) : W32 := if f32 a = .nan then BitVec.ofNat 32 FFmt.fp32.canonicalNaN else a ^^^ 0x80000000
/-- Whether an FP32 word is finite. -/
def finite32 (a : W32) : Bool := flFinite (f32 a)
/-- The FP32 of an integer, one rounding. -/
def ofInt32 (x : Int) : W32 := rn (.fin (decide (x < 0)) x.natAbs 0)
/-- The FP32 canonical NaN (R107). -/
def nan32 : W32 := 0x7FC00000
/-- FP32 one. -/
def one32 : W32 := 0x3F800000

/-- `a < b` on FP32 words, false when a NaN takes part. -/
def lt32 (a b : W32) : Bool := flCmp (f32 a) (f32 b) = some .lt
/-- `a > b` on FP32 words, false when a NaN takes part. -/
def gt32 (a b : W32) : Bool := flCmp (f32 a) (f32 b) = some .gt

/-- One spill step: the accumulator value `a` folded into the compensated pair (hi, lo) (R118). -/
def spillPair (hi lo a : W32) : W32 × W32 :=
  let s := add32 hi a
  if finite32 s then
    let bb := sub32 s hi
    let e := add32 (sub32 hi (sub32 s bb)) (sub32 a bb)
    (s, add32 lo e)
  else (s, 0)

/-- prod's element (R173): groups of 256 by fused multiply-add, each folded into a pair from zero. -/
def prodFold : Nat → List (W32 × W32) → W32 → Nat → W32 × W32 → W32
  | 0, _, _, _, _ => 0
  | fuel + 1, ts, acc, cnt, pair =>
    match ts with
    | [] => let p := if cnt = 0 then pair else spillPair pair.1 pair.2 acc
            add32 p.1 p.2
    | (x, y) :: rest =>
      let acc' := fma32 x y acc
      if cnt + 1 = 256 then prodFold fuel rest 0 0 (spillPair pair.1 pair.2 acc')
      else prodFold fuel rest acc' (cnt + 1) pair

/-- Element of prod over the listed factor pairs in ascending order (R173). -/
def prodElem (ts : List (W32 × W32)) : W32 := prodFold (ts.length + 1) ts 0 0 (0, 0)

end Sys2Proof.Machine
end

