-- ==== Sys2Proof/Machine/Operands.lean ====
section
/-! DEFINITION. Operands: the core-local address map (R135, R136), tile descriptors, footprints,
swizzles and clamping (R138 to R143), the stride checks of writes (R144), conversions (R108) and
accumulate writes (R145). A check answers the cause of the core fault it raises. -/

namespace Sys2Proof.Machine

/-! ### Formats (Table 5.1) -/

/-- Bytes of an element (R140). -/
def fmtSize (f : Nat) : Nat :=
  match f with
  | 0 | 2 => 2
  | 1 | 5 => 4
  | 3 | 4 => 1
  | _ => 8

/-- Whether a format is an integer format. -/
def fmtInt (f : Nat) : Bool := decide (f = 2 ∨ f = 5 ∨ f = 6)

/-- The width in bits of an integer format. -/
def fmtIntBits (f : Nat) : Nat := if f = 2 then 16 else if f = 5 then 32 else 64

/-- The binary format behind a floating format code other than the FP32 pair. -/
def fmtFl (f : Nat) : FFmt :=
  match f with
  | 0 => .fp16
  | 1 => .fp32
  | 3 => .e4m3
  | _ => .e5m2

/-- A floating element read exactly, a pair as rn(hi + lo) (R108, R145). -/
def elemFl (f raw : Nat) : Fl :=
  if f = 7 then f32 (add32 (BitVec.ofNat 32 raw) (BitVec.ofNat 32 (raw / 2 ^ 32))) else flOf (fmtFl f) raw

/-- An integer element's exact value. -/
def elemInt (f raw : Nat) : Int := sext (fmtIntBits f) raw

/-- An FP8 value widened to FP32 with its scale: exact without one, else one product in FP32; the scale
applies to finite values, an infinity keeps its sign (Table 5.2, log 11). -/
def fp8Wide (f raw : Nat) (scale : Option W32) : W32 :=
  let x := rn (flOf (fmtFl f) raw)
  match scale with
  | some z => if finite32 x then mul32 x z else x
  | none => x

/-- A source element widened for an addition: FP8 with its scale, a pair as rn(hi + lo) (R145). -/
def widenFl (f raw : Nat) (scale : Option W32) : W32 :=
  if f = 3 ∨ f = 4 then fp8Wide f raw scale else rn (elemFl f raw)

/-- An FP32 value converted to a floating format with nearest even; a pair has lo = +0 (Table 5.2). -/
def toFmt (f : Nat) (v : W32) : Nat :=
  if f = 7 then (rn (f32 v)).toNat else flBits (fmtFl f) .rne (f32 v)

/-- An integer clamped into an integer format (Table 5.2). -/
def toIntFmt (f : Nat) (x : Int) : Nat := wrapInt (fmtIntBits f) (satInt (fmtIntBits f) x).1

/-- A conversion of Table 5.2 by a plain move, nearest even: none where no move performs it. INT32
widens to INT64 by its sign, as TFILL needs (R89; log 11). -/
def convert (src dst : Nat) (scale : Option W32) (raw : Nat) : Option Nat :=
  if src = dst then some raw
  else if fmtInt src && fmtInt dst then some (toIntFmt dst (elemInt src raw))
  else if fmtInt src || fmtInt dst then none
  else if src = 3 ∨ src = 4 then
    if dst = 3 ∨ dst = 4 then some (flBits (fmtFl dst) .rne (flOf (fmtFl src) raw))
    else some (toFmt dst (fp8Wide src raw scale))
  else if src = 7 then some (toFmt dst (rn (elemFl 7 raw)))
  else some (if dst = 7 then (rn (elemFl src raw)).toNat else flBits (fmtFl dst) .rne (elemFl src raw))

/-- One accumulate write's sum into a destination element (R145): none where the formats do not meet. -/
def accumulate (src dst : Nat) (scale : Option W32) (raw old : Nat) : Option Nat :=
  if fmtInt src && fmtInt dst then
    some (toIntFmt dst (satInt 64 (elemInt src raw + elemInt dst old)).1)
  else if fmtInt src || fmtInt dst then none
  else
    let x := widenFl src raw scale
    if dst = 7 then
      let p := spillPair (BitVec.ofNat 32 old) (BitVec.ofNat 32 (old / 2 ^ 32)) x
      some (p.1.toNat + p.2.toNat * 2 ^ 32)
    else some (toFmt dst (add32 (widenFl dst old none) x))

/-- Whether an element of a floating format is a NaN or an infinity (a pair by rn(hi + lo)). -/
def nonFinite (f raw : Nat) : Bool := if fmtInt f then false else !flFinite (elemFl f raw)

/-! ### Core-local addresses (Table 7.1) -/

/-- A region of the core-local map: its first core-local address, its base in memory, whether it is
a cluster buffer, whether it is the core's own, and its cluster. -/
structure Region where
  start : Nat
  base : Nat
  cbuf : Bool
  own : Bool
  cl : Nat
deriving DecidableEq, Repr

/-- The region that holds the whole range [a, a + n) of core k's address space, if one does (R135). -/
def regionOf (k a n : Nat) : Option Region :=
  let cl := clOf k
  if a + n ≤ 0xC000 then some ⟨0, spBase k, false, true, cl⟩
  else if 0x100000 ≤ a ∧ a + n ≤ 0x500000 then some ⟨0x100000, cbBase cl, true, true, cl⟩
  else if 0x1000000 ≤ a ∧ a < 0x2000000 then
    let j := (a - 0x1000000) / 0x10000
    let st := 0x1000000 + j * 0x10000
    if a + n ≤ st + 0xC000 then some ⟨st, spBase (cl * 256 + j), false, false, cl⟩ else none
  else if 0x40000000 ≤ a ∧ a < 0x80000000 then
    let i := (a - 0x40000000) / 0x400000
    let st := 0x40000000 + i * 0x400000
    if a + n ≤ st + 0x400000 then some ⟨st, cbBase (cl / 256 * 256 + i), true, false, cl / 256 * 256 + i⟩
    else none
  else none

/-- Whether a window's cluster belongs to the instance that owns the core's cluster (R136). -/
def State.regionOwned (s : State) (k : Nat) (r : Region) : Bool :=
  r.own || decide (s.owner r.cl = s.owner (clOf k) ∧ (s.owner r.cl).isSome)

/-- The fault of an access to a region that meets an uncorrectable word (Table 3.7). -/
def Region.uncorr (r : Region) (w : Nat) : Nat := Cause.atWord (if r.cbuf then Cause.cbufUncorr else Cause.spadUncorr) w

/-- The memory address of `n` bytes at a core-local address for a load or store, or the fault (R86, R94). -/
def State.local' (s : State) (k a n : Nat) : Except Nat (Nat × Region) :=
  match regionOf k a n with
  | none => .error Cause.tileRange
  | some r => if s.regionOwned k r then .ok (r.base + (a - r.start), r) else .error Cause.notOwned

/-! ### Tiles (R140 to R143) -/

def Tile.fmt (t : Tile) : Nat := t.format.toNat % 8
/-- DROP_Q (R105). -/
def Tile.dropQ (t : Tile) : Nat := t.format.toNat / 16
def Tile.size (t : Tile) : Nat := fmtSize t.fmt
/-- The lesser of a dimension and its clamp bound; a bound of 0 means the dimension (R141). -/
def clampTo (dim bound : Nat) : Nat := if bound = 0 then dim else min dim bound
def Tile.cr (t : Tile) : Nat := clampTo t.rows.toNat t.clampR.toNat
def Tile.cc (t : Tile) : Nat := clampTo t.cols.toNat t.clampC.toNat

/-- Core-local address of element (i, j) before the swizzle (R141). -/
def Tile.addr (t : Tile) (i j : Nat) : Int :=
  (t.base.toNat : Int) + ((i : Int) * t.rs.toInt + (j : Int) * t.cs.toInt) * t.size

/-- The lowest and the past-highest byte of a tile's footprint. -/
def Tile.span (t : Tile) : Int × Int :=
  let r := ((t.cr : Int) - 1) * t.rs.toInt * t.size
  let c := ((t.cc : Int) - 1) * t.cs.toInt * t.size
  let b : Int := t.base.toNat
  (b + min 0 r + min 0 c, b + max 0 r + max 0 c + t.size)

/-- One swizzle group's position: 0 or in the legal range of the region (Table 7.2). -/
def groupOk (cbuf : Bool) (g : Nat) : Bool :=
  decide (g = 0) || (if cbuf then decide (11 ≤ g ∧ g ≤ 16) else decide (8 ≤ g ∧ g ≤ 12))

/-- The offset in a region after the swizzle: the bank bits XORed with each present group's (R138). -/
def swizzle (cbuf : Bool) (swz o : Nat) : Nat :=
  let w := if cbuf then 5 else 4
  let lo := if cbuf then 6 else 4
  let g1 := swz % 32
  let g2 := swz / 32 % 32
  let x := (if g1 = 0 then 0 else nfield o g1 w) ^^^ (if g2 = 0 then 0 else nfield o g2 w)
  o ^^^ (x <<< lo)

/-- A tile placed in memory. -/
structure View where
  t : Tile
  reg : Region
deriving DecidableEq, Repr

/-- The check of R141 and R136: dimensions, alignment, footprint and swizzle (TILE_RANGE), own memory
only where windows are closed to the operation (TILE_RANGE), then ownership of a window (NOT_OWNED). -/
def State.view (s : State) (k : Nat) (t : Tile) (windows : Bool) : Except Nat View :=
  if t.rows = 0 ∨ t.cols = 0 ∨ t.base.toNat % t.size ≠ 0 ∨ t.span.1 < 0 then .error Cause.tileRange
  else
    match regionOf k t.span.1.toNat (t.span.2 - t.span.1).toNat with
    | none => .error Cause.tileRange
    | some r =>
      if !(groupOk r.cbuf (t.swizzle.toNat % 32) && groupOk r.cbuf (t.swizzle.toNat / 32)) then .error Cause.tileRange
      else if !windows && !r.own then .error Cause.tileRange
      else if s.regionOwned k r then .ok ⟨t, r⟩
      else .error Cause.notOwned

/-- Memory address of element (i, j) of a placed tile, clamped (R138, R142). -/
def View.at (v : View) (i j : Nat) : Nat :=
  let a := v.t.addr (min i (v.t.cr - 1)) (min j (v.t.cc - 1))
  v.reg.base + swizzle v.reg.cbuf v.t.swizzle.toNat (a.toNat - v.reg.start)

/-- The raw element (i, j), read under R142. -/
def State.elem (s : State) (v : View) (i j : Nat) : Nat := s.rd (v.at i j) v.t.size

/-- Indices (i, j) with i < r and j < c in row-major order. -/
def grid (r c : Nat) : List (Nat × Nat) :=
  (List.range r).flatMap fun i => (List.range c).map fun j => (i, j)

/-- The addresses of a tile's footprint elements, in row-major order. -/
def View.cells (v : View) : List Nat := (grid v.t.cr v.t.cc).map fun p => v.at p.1 p.2

/-- The fault of reading a tile that meets an uncorrectable word, if it does (R303). -/
def State.viewBad (s : State) (v : View) : Option Nat :=
  if s.bad.isEmpty then none
  else (v.cells.findSome? fun a => s.badWord a v.t.size).map v.reg.uncorr

/-- The fault of a write that covers only part of an uncorrectable word (R303): elements are written
one by one, so any element that is not a whole word meets it. -/
def State.viewPart (s : State) (v : View) : Option Nat :=
  if s.bad.isEmpty then none
  else (v.cells.findSome? fun a => if s.partBad a v.t.size then s.badWord a v.t.size else none).map v.reg.uncorr

/-- One raw element stored; an element outside the clamp bounds is discarded (R142). -/
def State.putElem (s : State) (v : View) (i j raw : Nat) : State :=
  if i < v.t.cr ∧ j < v.t.cc then s.wr (v.at i j) v.t.size raw else s

/-- Whether relaxed mode is in force (R284). -/
def State.relaxed (s : State) : Bool := s.bit R.devMode 1
/-- Whether strict mode is in force (R283). -/
def State.strict (s : State) : Bool := s.bit R.devMode 0

/-- The stride rules of a write with bounds and strides given (R144, R145). -/
def strideFault (acc relaxed : Bool) (cr cc : Nat) (rs cs : Int) : Option Nat :=
  if (decide (1 < cr) && decide (rs = 0)) || (decide (1 < cc) && decide (cs = 0)) then
    (if acc then none else some Cause.zeroStride)
  else if 1 < cr ∧ 1 < cc then
    let g := Nat.gcd rs.natAbs cs.natAbs
    if cs.natAbs / g ≤ cr - 1 ∧ rs.natAbs / g ≤ cc - 1 then
      (if acc && relaxed then none else some Cause.aliasedWrite)
    else none
  else none

/-- The stride rules on a tile written to. -/
def State.strides (s : State) (t : Tile) (acc : Bool) : Option Nat :=
  strideFault acc s.relaxed t.cr t.cc t.rs.toInt t.cs.toInt

/-- Whether two placed tiles have a byte in common. -/
def View.overlaps (v w : View) : Bool :=
  v.cells.any fun a => w.cells.any fun b => decide (a < b + w.t.size ∧ b < a + v.t.size)

/-- An operand element fetched for a floating engine: FP8 widened exactly, FP16 and FP32 as they are
(R106, R147). DESIGN CHOICE (log 46): a pair, as an epilogue tile may hold (R119), is read as rn(hi + lo). -/
def State.elem32 (s : State) (v : View) (i j : Nat) : W32 := rn (elemFl v.t.fmt (s.elem v i j))

end Sys2Proof.Machine
end

