-- ==== Sys2Proof/Machine/TapFold.lean ====
section
/-! DEFINITION. The tap queue as every access meets it: folding an entry into its slice (R165, R166)
and the folds that a conflicting access starts (R162). -/

namespace Sys2Proof.Machine

/-- The B operand of a matrix pass, taken as `n` rows (R91). -/
def Tile.asB (t : Tile) (n : Nat) : Tile := { t with rows := BitVec.ofNat 16 n }

/-- The captured operand as placed. -/
def State.tapView (s : State) (k : Nat) (e : TapEntry) : Except Nat View :=
  s.view k (if e.side then e.tile.asB e.depth else e.tile) false

/-- Feature f of captured token t (R161). -/
def State.feature (s : State) (v : View) (e : TapEntry) (t f : Nat) : W32 :=
  if e.side then s.elem32 v f (e.first + t) else s.elem32 v (e.first + t) f

/-- Whether captured token t is kept (R165). -/
def TapEntry.kept (e : TapEntry) (t : Nat) : Bool :=
  decide (e.s = 0) ||
    decide ((draw e.seed .tapRows e.key e.step ((e.base + e.first + t) % 2 ^ 46)).toNat / 2 ^ (32 - e.s) = 0)

/-- The bytes of a captured tile: address and length of each element. -/
def TapEntry.cells (e : TapEntry) (v : View) : List (Nat × Nat) :=
  (grid 4 e.depth).map fun p => (if e.side then v.at p.2 (e.first + p.1) else v.at (e.first + p.1) p.2, v.t.size)

/-- A tile's bytes: address and length of each element. -/
def View.bytes (v : View) : List (Nat × Nat) := v.cells.map fun a => (a, v.t.size)

/-- The bytes of a fold: it reads its captured operand, and reads and writes its slice. -/
def State.foldFoot (s : State) (k : Nat) (e : TapEntry) : Foot :=
  match s.tapView k e, s.view k e.slice false with
  | .ok v, .ok sl => { reads := e.cells v ++ sl.bytes, writes := sl.bytes }
  | _, _ => {}

/-- One entry folded into its slice, or the fault that stops it before any byte moves (R166, R303). -/
def State.foldEntry (s : State) (k : Nat) (e : TapEntry) : Except Nat State :=
  match s.tapView k e, s.view k e.slice false with
  | .error c, _ => .error c
  | _, .error c => .error c
  | .ok v, .ok sl =>
    let h := e.slice.rows.toNat
    let w := e.slice.cols.toNat
    if e.slice.fmt ≠ 1 ∨ e.depth < e.offA + h ∨ e.depth < e.offB + w then .error Cause.tileRange
    else
      let bad := if s.bad.isEmpty then none
        else ((e.cells v).findSome? fun a => s.badWord a.1 a.2).map v.reg.uncorr |>.or (s.viewBad sl)
      match bad with
      | some c => .error c
      | none =>
        let ts := (List.range 4).filter e.kept
        let new := (grid h w).map fun p =>
          (p, ts.foldl (fun acc t => fma32 (s.feature v e t (e.offA + p.1)) (s.feature v e t (e.offB + p.2)) acc)
            (BitVec.ofNat 32 (s.elem sl p.1 p.2)))
        .ok (if ts.isEmpty then s else forEach new s fun s x => s.putElem sl x.1.1 x.1.2 x.2.toNat)

/-- The first entry of the tap queue that is not begun, now begun. -/
def Core.beginFold (c : Core) (f : Foot) (auto : Bool) : Core :=
  { c with folding := c.folding + 1,
           tapQ := c.tapQ.mapIdx fun n e => if n = c.folding then { e with foot := f, auto := auto } else e }

/-- Folds the first `n` entries that have not begun, oldest first; they stay in the queue, begun,
until their matrix-array cycles end (R163, R164). -/
def State.foldFirst (s : State) (k : Nat) (n : Nat) (auto : Bool := false) : Except Nat State :=
  match n with
  | 0 => .ok s
  | n + 1 =>
    let c := s.core k
    match c.tapQ.drop c.folding with
    | [] => .ok s
    | e :: _ =>
      match s.foldEntry k e with
      | .error x => .error x
      | .ok t => (t.setCore k ((t.core k).beginFold (s.foldFoot k e) auto)).foldFirst k n auto

/-- How many entries must be folded before an access: up to the last that the access conflicts with (R162). -/
def State.conflicts (s : State) (k : Nat) (reads writes : List (Nat × Nat)) : List TapEntry → Nat
  | [] => 0
  | e :: r =>
    let n := s.conflicts k reads writes r
    let hit := match s.tapView k e, s.view k e.slice false with
      | .ok v, .ok sl => meet (reads ++ writes) sl.bytes || meet writes (e.cells v)
      | _, _ => false
    if n > 0 then n + 1 else if hit then 1 else 0

/-- The folds that an access of core k starts before it moves a byte (R162). -/
def State.settleFolds (s : State) (k : Nat) (reads writes : List (Nat × Nat)) : Except Nat State :=
  let c := s.core k
  let q := c.tapQ.drop c.folding
  if q.isEmpty then .ok s else s.foldFirst k (s.conflicts k reads writes q)

/-- The bytes of the instruction that core k issues noted (R82). -/
def State.note (s : State) (k : Nat) (reads writes : List (Nat × Nat)) : State :=
  s.setCore k { s.core k with foot := { reads := reads, writes := writes } }

/-- An access of the instruction that core k issues: the folds it starts, and its bytes noted (R82, R162). -/
def State.settleTap (s : State) (k : Nat) (reads writes : List (Nat × Nat)) : Except Nat State :=
  match s.settleFolds k reads writes with
  | .error f => .error f
  | .ok s => .ok (s.note k reads writes)

end Sys2Proof.Machine
end

