-- ==== Sys2Proof/Machine/Scalar.lean ====
section
/-! DEFINITION. The scalar class (R86, Table 4.4): arithmetic modulo 2^32 on g registers, word loads and
stores at core-local addresses, and moves between a and g registers. -/

namespace Sys2Proof.Machine

/-- What an act is: given the cause tag that the instruction's own signals carry (R44), its outcome. -/
abbrev Doing := Tag → State → Act

/-- A g register of core k receives a value computed from the core's registers. -/
def setReg (k : Nat) (gd : GReg) (f : Core → W32) : Doing := fun _ s =>
  let c := s.core k
  .next (s.setCore k (c.setG gd (f c)))

/-- The core-local address an + off (R86). -/
def Core.eff (c : Core) (an : AReg) (off : W32) : Nat := (c.ar an + off).toNat

/-- The word address of LDW and STW: the low two bits are ignored (R86). -/
def Core.wordAddr (c : Core) (an : AReg) (off : W32) : Nat := c.eff an off / 4 * 4

/-- ADD: gd receives gs1 + gs2 modulo 2^32 (Table 4.4). -/
def doAdd (k : Nat) (gd gs1 gs2 : GReg) : Doing :=
  setReg k gd fun c => (fun a b => a + b : W32 → W32 → W32) (c.gr gs1) (c.gr gs2)
def execAdd (k : Nat) (l : Launch) (gd gs1 gs2 : GReg) (s : State) : Host.Outcome State Fault Refusal :=
  .next (s.issue k (.add k l gd gs1 gs2) (doAdd k gd gs1 gs2))

/-- SUB: gd receives gs1 − gs2 modulo 2^32 (Table 4.4). -/
def doSub (k : Nat) (gd gs1 gs2 : GReg) : Doing :=
  setReg k gd fun c => (fun a b => a - b : W32 → W32 → W32) (c.gr gs1) (c.gr gs2)
def execSub (k : Nat) (l : Launch) (gd gs1 gs2 : GReg) (s : State) : Host.Outcome State Fault Refusal :=
  .next (s.issue k (.sub k l gd gs1 gs2) (doSub k gd gs1 gs2))

/-- AND: gd receives the bitwise AND (Table 4.4). -/
def doAnd (k : Nat) (gd gs1 gs2 : GReg) : Doing :=
  setReg k gd fun c => (fun a b => a &&& b : W32 → W32 → W32) (c.gr gs1) (c.gr gs2)
def execAnd (k : Nat) (l : Launch) (gd gs1 gs2 : GReg) (s : State) : Host.Outcome State Fault Refusal :=
  .next (s.issue k (.and k l gd gs1 gs2) (doAnd k gd gs1 gs2))

/-- OR: gd receives the bitwise OR (Table 4.4). -/
def doOr (k : Nat) (gd gs1 gs2 : GReg) : Doing :=
  setReg k gd fun c => (fun a b => a ||| b : W32 → W32 → W32) (c.gr gs1) (c.gr gs2)
def execOr (k : Nat) (l : Launch) (gd gs1 gs2 : GReg) (s : State) : Host.Outcome State Fault Refusal :=
  .next (s.issue k (.or k l gd gs1 gs2) (doOr k gd gs1 gs2))

/-- XOR: gd receives the bitwise XOR (Table 4.4). -/
def doXor (k : Nat) (gd gs1 gs2 : GReg) : Doing :=
  setReg k gd fun c => (fun a b => a ^^^ b : W32 → W32 → W32) (c.gr gs1) (c.gr gs2)
def execXor (k : Nat) (l : Launch) (gd gs1 gs2 : GReg) (s : State) : Host.Outcome State Fault Refusal :=
  .next (s.issue k (.xor k l gd gs1 gs2) (doXor k gd gs1 gs2))

/-- SHL: gd receives gs1 shifted left by gs2[4:0] (Table 4.4). -/
def doShl (k : Nat) (gd gs1 gs2 : GReg) : Doing :=
  setReg k gd fun c => (fun a b => a <<< (b.toNat % 32) : W32 → W32 → W32) (c.gr gs1) (c.gr gs2)
def execShl (k : Nat) (l : Launch) (gd gs1 gs2 : GReg) (s : State) : Host.Outcome State Fault Refusal :=
  .next (s.issue k (.shl k l gd gs1 gs2) (doShl k gd gs1 gs2))

/-- SHR: gd receives gs1 shifted logically right by gs2[4:0] (Table 4.4). -/
def doShr (k : Nat) (gd gs1 gs2 : GReg) : Doing :=
  setReg k gd fun c => (fun a b => a >>> (b.toNat % 32) : W32 → W32 → W32) (c.gr gs1) (c.gr gs2)
def execShr (k : Nat) (l : Launch) (gd gs1 gs2 : GReg) (s : State) : Host.Outcome State Fault Refusal :=
  .next (s.issue k (.shr k l gd gs1 gs2) (doShr k gd gs1 gs2))

/-- SRA: gd receives gs1 shifted arithmetically right by gs2[4:0] (Table 4.4). -/
def doSra (k : Nat) (gd gs1 gs2 : GReg) : Doing :=
  setReg k gd fun c => (fun a b => a.sshiftRight (b.toNat % 32) : W32 → W32 → W32) (c.gr gs1) (c.gr gs2)
def execSra (k : Nat) (l : Launch) (gd gs1 gs2 : GReg) (s : State) : Host.Outcome State Fault Refusal :=
  .next (s.issue k (.sra k l gd gs1 gs2) (doSra k gd gs1 gs2))

/-- MUL: gd receives the low 32 bits of the product (Table 4.4). -/
def doMul (k : Nat) (gd gs1 gs2 : GReg) : Doing :=
  setReg k gd fun c => (fun a b => a * b : W32 → W32 → W32) (c.gr gs1) (c.gr gs2)
def execMul (k : Nat) (l : Launch) (gd gs1 gs2 : GReg) (s : State) : Host.Outcome State Fault Refusal :=
  .next (s.issue k (.mul k l gd gs1 gs2) (doMul k gd gs1 gs2))

/-- SLT: gd receives 1 if gs1 < gs2 signed, else 0 (Table 4.4). -/
def doSlt (k : Nat) (gd gs1 gs2 : GReg) : Doing :=
  setReg k gd fun c => (fun a b => if a.slt b then 1 else 0 : W32 → W32 → W32) (c.gr gs1) (c.gr gs2)
def execSlt (k : Nat) (l : Launch) (gd gs1 gs2 : GReg) (s : State) : Host.Outcome State Fault Refusal :=
  .next (s.issue k (.slt k l gd gs1 gs2) (doSlt k gd gs1 gs2))

/-- SLTU: gd receives 1 if gs1 < gs2 unsigned, else 0 (Table 4.4). -/
def doSltu (k : Nat) (gd gs1 gs2 : GReg) : Doing :=
  setReg k gd fun c => (fun a b => if a.ult b then 1 else 0 : W32 → W32 → W32) (c.gr gs1) (c.gr gs2)
def execSltu (k : Nat) (l : Launch) (gd gs1 gs2 : GReg) (s : State) : Host.Outcome State Fault Refusal :=
  .next (s.issue k (.sltu k l gd gs1 gs2) (doSltu k gd gs1 gs2))

/-- MIN: gd receives the signed minimum (Table 4.4). -/
def doMin (k : Nat) (gd gs1 gs2 : GReg) : Doing :=
  setReg k gd fun c => (fun a b => if a.slt b then a else b : W32 → W32 → W32) (c.gr gs1) (c.gr gs2)
def execMin (k : Nat) (l : Launch) (gd gs1 gs2 : GReg) (s : State) : Host.Outcome State Fault Refusal :=
  .next (s.issue k (.min k l gd gs1 gs2) (doMin k gd gs1 gs2))

/-- MAX: gd receives the signed maximum (Table 4.4). -/
def doMax (k : Nat) (gd gs1 gs2 : GReg) : Doing :=
  setReg k gd fun c => (fun a b => if a.slt b then b else a : W32 → W32 → W32) (c.gr gs1) (c.gr gs2)
def execMax (k : Nat) (l : Launch) (gd gs1 gs2 : GReg) (s : State) : Host.Outcome State Fault Refusal :=
  .next (s.issue k (.max k l gd gs1 gs2) (doMax k gd gs1 gs2))

/-- ADDI: gd receives gs1 + imm (Table 4.4). -/
def doAddi (k : Nat) (gd gs1 : GReg) (imm : W32) : Doing :=
  setReg k gd fun c => (fun a b => a + b : W32 → W32 → W32) (c.gr gs1) imm
def execAddi (k : Nat) (l : Launch) (gd gs1 : GReg) (imm : W32) (s : State) : Host.Outcome State Fault Refusal :=
  .next (s.issue k (.addi k l gd gs1 imm) (doAddi k gd gs1 imm))

/-- ANDI: gd receives gs1 AND imm (Table 4.4). -/
def doAndi (k : Nat) (gd gs1 : GReg) (imm : W32) : Doing :=
  setReg k gd fun c => (fun a b => a &&& b : W32 → W32 → W32) (c.gr gs1) imm
def execAndi (k : Nat) (l : Launch) (gd gs1 : GReg) (imm : W32) (s : State) : Host.Outcome State Fault Refusal :=
  .next (s.issue k (.andi k l gd gs1 imm) (doAndi k gd gs1 imm))

/-- ORI: gd receives gs1 OR imm (Table 4.4). -/
def doOri (k : Nat) (gd gs1 : GReg) (imm : W32) : Doing :=
  setReg k gd fun c => (fun a b => a ||| b : W32 → W32 → W32) (c.gr gs1) imm
def execOri (k : Nat) (l : Launch) (gd gs1 : GReg) (imm : W32) (s : State) : Host.Outcome State Fault Refusal :=
  .next (s.issue k (.ori k l gd gs1 imm) (doOri k gd gs1 imm))

/-- XORI: gd receives gs1 XOR imm (Table 4.4). -/
def doXori (k : Nat) (gd gs1 : GReg) (imm : W32) : Doing :=
  setReg k gd fun c => (fun a b => a ^^^ b : W32 → W32 → W32) (c.gr gs1) imm
def execXori (k : Nat) (l : Launch) (gd gs1 : GReg) (imm : W32) (s : State) : Host.Outcome State Fault Refusal :=
  .next (s.issue k (.xori k l gd gs1 imm) (doXori k gd gs1 imm))

/-- MOVI: gd receives imm (Table 4.4). -/
def doMovi (k : Nat) (gd : GReg) (imm : W32) : Doing := setReg k gd fun _ => imm
def execMovi (k : Nat) (l : Launch) (gd : GReg) (imm : W32) (s : State) : Host.Outcome State Fault Refusal :=
  .next (s.issue k (.movi k l gd imm) (doMovi k gd imm))

/-- A read of `n` bytes by core k: the faults of R86 and R303, the folds it starts (R162), then what
follows with the address. -/
def loadAt (k a n : Nat) (go : State → Nat → Act) : Doing := fun _ s =>
  match s.local' k a n with
  | .error c => .fault c
  | .ok (p, r) =>
    match s.badWord p n with
    | some w => .fault (r.uncorr w)
    | none => match s.settleTap k [(p, n)] [] with
      | .error c => .fault c
      | .ok s => go s p

/-- A write of bytes by core k: the faults of R86, then the folds it starts; a write of part of an
uncorrectable word is a read that meets it (R303). -/
def storeAt (k a : Nat) (f : Core → List Byte) : Doing := fun _ s =>
  let bs := f (s.core k)
  match s.local' k a bs.length with
  | .error c => .fault c
  | .ok (p, r) =>
    match (if s.partBad p bs.length then s.badWord p bs.length else none) with
    | some w => .fault (r.uncorr w)
    | none => match s.settleTap k [] [(p, bs.length)] with
      | .error c => .fault c
      | .ok s => .next (s.write p bs)

/-- LDW: g receives the 32-bit word at an + off (Table 4.4). -/
def doLdw (k : Nat) (g : GReg) (an : AReg) (off : W32) : Doing := fun tag s =>
  loadAt k ((s.core k).wordAddr an off) 4
    (fun s p => .next (s.setCore k ((s.core k).setG g (BitVec.ofNat 32 (s.rd p 4))))) tag s
def execLdw (k : Nat) (l : Launch) (g : GReg) (an : AReg) (off : W32) (s : State) : Host.Outcome State Fault Refusal :=
  .next (s.issue k (.ldw k l g an off) (doLdw k g an off))

/-- STW: the 32-bit word at an + off receives g (Table 4.4). -/
def doStw (k : Nat) (g : GReg) (an : AReg) (off : W32) : Doing := fun tag s =>
  storeAt k ((s.core k).wordAddr an off) (fun c => leBytes 4 (c.gr g).toNat) tag s
def execStw (k : Nat) (l : Launch) (g : GReg) (an : AReg) (off : W32) (s : State) : Host.Outcome State Fault Refusal :=
  .next (s.issue k (.stw k l g an off) (doStw k g an off))

/-- MOVA: an receives g + off (Table 4.4). -/
def doMova (k : Nat) (g : GReg) (an : AReg) (off : W32) : Doing := fun _ s =>
  let c := s.core k
  .next (s.setCore k (c.setA an (c.gr g + off)))
def execMova (k : Nat) (l : Launch) (g : GReg) (an : AReg) (off : W32) (s : State) : Host.Outcome State Fault Refusal :=
  .next (s.issue k (.mova k l g an off) (doMova k g an off))

/-- MOVG: g receives an + off (Table 4.4). -/
def doMovg (k : Nat) (g : GReg) (an : AReg) (off : W32) : Doing := setReg k g fun c => c.ar an + off
def execMovg (k : Nat) (l : Launch) (g : GReg) (an : AReg) (off : W32) (s : State) : Host.Outcome State Fault Refusal :=
  .next (s.issue k (.movg k l g an off) (doMovg k g an off))

end Sys2Proof.Machine
end

