-- ==== Sys2Proof/Machine/TileMove.lean ====
section
/-! DEFINITION. The tile and move class (R89, R90, R146, Table 4.6). -/

namespace Sys2Proof.Machine

/-- One field of a descriptor written, truncated to its width (R90); the reserved bit [3] of FORMAT ignores a one (R105, R8). -/
def Tile.setField (t : Tile) (fld : Nat) (v : W32) : Tile :=
  match fld with
  | 0 => { t with base := v }
  | 1 => { t with rows := v.truncate 16 }
  | 2 => { t with cols := v.truncate 16 }
  | 3 => { t with rs := v.truncate 24 }
  | 4 => { t with cs := v.truncate 24 }
  | 5 => { t with format := v.truncate 8 &&& 0xF7 }
  | 6 => { t with swizzle := v.truncate 10 }
  | 7 => { t with clampR := v.truncate 16 }
  | 8 => { t with clampC := v.truncate 16 }
  | _ => t

/-- The value TD.SET writes: imm sign-extended, or register gs; for BASE it is a-register gs[3:0] (Table 4.6). -/
def tdValue (c : Core) (fld : Nat) (reg : Bool) (gs : GReg) (imm : BitVec 24) : W32 :=
  if reg then (if fld = 0 then c.ar (gs.val % 16) else c.gr gs) else imm.signExtend 32

/-- TD.SET: one field of td is written at issue. -/
def doTdSet (k : Nat) (td : TReg) (fld : Nat) (reg : Bool) (gs : GReg) (imm : BitVec 24) : Doing := fun _ s =>
  let c := s.core k
  .next (s.setCore k (c.setT td ((c.tr td).setField fld (tdValue c fld reg gs imm))))
def execTdSet (k : Nat) (l : Launch) (td : TReg) (fld : Nat) (reg : Bool) (gs : GReg) (imm : BitVec 24)
    (s : State) : Host.Outcome State Fault Refusal :=
  .next (s.issue k (.tdSet k l td fld reg gs imm) (doTdSet k td fld reg gs imm))

/-- TD.COPY: every field of tdst receives tsrc's. -/
def doTdCopy (k : Nat) (tdst tsrc : TReg) : Doing := fun _ s =>
  let c := s.core k
  .next (s.setCore k (c.setT tdst (c.tr tsrc)))
def execTdCopy (k : Nat) (l : Launch) (tdst tsrc : TReg) (s : State) : Host.Outcome State Fault Refusal :=
  .next (s.issue k (.tdCopy k l tdst tsrc) (doTdCopy k tdst tsrc))

/-- The fault of the first check that fails: TILE_RANGE, then NOT_OWNED, then the others as listed
(R100, R144; log 12). -/
def firstFault (l : List (Option Nat)) : Option Nat :=
  if l.any (· == some Cause.tileRange) then some Cause.tileRange
  else if l.any (· == some Cause.notOwned) then some Cause.notOwned
  else l.findSome? id

/-- The fault of a check that placed a tile, if it failed. -/
def failed {α : Type} : Except Nat α → Option Nat
  | .ok _ => none
  | .error c => some c

/-- A value where a condition holds that raises a fault. -/
def faultIf (b : Bool) (c : Nat) : Option Nat := if b then some c else none

/-- What TMOV stores: every destination element with its new raw value, in row-major order, or none
where a conversion is not performed. Accumulate writes read the element they add to as they come. -/
def State.moveElem (s : State) (src dst : View) (acc : Bool) (scale : Option W32) (p : Nat × Nat) (raw : Nat) :
    Option Nat :=
  if acc then accumulate src.t.fmt dst.t.fmt scale raw (s.elem dst p.1 p.2)
  else convert src.t.fmt dst.t.fmt scale raw

/-- TMOV: destination element (i, j) receives source element (i, j), read under R142 and converted, for
every element inside the destination's bounds; every source element is read first (R146). The write
descriptor is checked before any byte moves (R144, R145). -/
def doTmov (k : Nat) (tdst tsrc : TReg) (wm : Nat) (gsc : GReg) : Doing := fun _ s =>
  let c := s.core k
  let ts := c.tr tsrc
  let td := c.tr tdst
  let acc := decide (wm = 1)
  let scale := if gsc = 0 then none else some (c.gr gsc)
  let vs := s.view k ts true
  let vd := s.view k td true
  let mixes := (if acc then accumulate ts.fmt td.fmt scale 0 0 else convert ts.fmt td.fmt scale 0).isNone
  match firstFault [failed vs, failed vd, faultIf mixes Cause.tileRange, s.strides td acc], vs, vd with
  | some f, _, _ => .fault f
  | none, .ok v, .ok w =>
    match s.viewBad v, s.viewPart w, (if acc then s.viewBad w else none) with
    | some f, _, _ => .fault f
    | _, some f, _ => .fault f
    | _, _, some f => .fault f
    | none, none, none =>
      match s.settleTap k v.bytes w.bytes with
      | .error f => .fault f
      | .ok s =>
        let src := (grid w.t.cr w.t.cc).map fun p => (p, s.elem v p.1 p.2)
        .next (forEach src s fun s x => s.putElem w x.1.1 x.1.2 ((s.moveElem v w acc scale x.1 x.2).getD 0))
  | none, _, _ => .fault Cause.tileRange
def execTmov (k : Nat) (l : Launch) (tdst tsrc : TReg) (wm : Nat) (gsc : GReg) (s : State) :
    Host.Outcome State Fault Refusal :=
  .next (s.issue k (.tmov k l tdst tsrc wm gsc) (doTmov k tdst tsrc wm gsc))

/-- The raw element TFILL stores: register gsc as FP32 for a floating destination and as INT32 for an
integer one, converted (R89). -/
def fillValue (f : Nat) (v : W32) : Nat := (convert (if fmtInt f then 5 else 1) f none v.toNat).getD 0

/-- TFILL: every element of tdst receives the value in gsc (Table 4.6). -/
def doTfill (k : Nat) (tdst : TReg) (gsc : GReg) : Doing := fun _ s =>
  let c := s.core k
  let td := c.tr tdst
  let vd := s.view k td true
  match firstFault [failed vd, s.strides td false], vd with
  | some f, _ => .fault f
  | none, .ok w =>
    match s.viewPart w with
    | some f => .fault f
    | none =>
      match s.settleTap k [] w.bytes with
      | .error f => .fault f
      | .ok s => .next (forEach (grid w.t.cr w.t.cc) s fun s p => s.putElem w p.1 p.2 (fillValue td.fmt (c.gr gsc)))
  | none, _ => .fault Cause.tileRange
def execTfill (k : Nat) (l : Launch) (tdst : TReg) (gsc : GReg) (s : State) : Host.Outcome State Fault Refusal :=
  .next (s.issue k (.tfill k l tdst gsc) (doTfill k tdst gsc))

/-! ### Passes that leave their slots (R81) -/

/-- An engine's completed work counted in its EXTRA field (Table 16.1). -/
def State.countExtra (s : State) (k e : Nat) : State :=
  let c := s.core k
  let r := c.eng' e
  s.setCore k (c.setEng e { r with extra := satInc 32 r.extra 1 })

/-- A pass of an engine has completed: it is counted where it counts, what waited for it goes on. -/
def State.completed (s : State) (k e : Nat) (p : Pass) (counts : Bool) : State :=
  (((if counts then s.countExtra k e else s).inputDone k e p.foot p.tag)).goOn k

/-- The running pass of an engine completes, and the queued one starts. -/
def State.passDone (s : State) (k e : Nat) (counts : Bool) : State :=
  let c := s.core k
  let x := c.slots' e
  match x.running with
  | none => s
  | some p => if c.suspended then s else (s.setCore k (c.setSlots e { x with running := none })).completed k e p counts

/-- MOVE_PASS_COMPLETE: the running TMOV or TFILL finishes its groups and frees its slot (R392); a
TMOV is counted (Table 16.1). -/
def movePassComplete (k : Nat) (s : State) : State :=
  let isMov := match ((s.core k).slots' 3).running with
    | some p => (match p.op with | .tmov .. => true | _ => false)
    | none => false
  s.passDone k 3 isMov
def execMovePassComplete (k : Nat) (s : State) : Host.Outcome State Fault Refusal :=
  .next (movePassComplete k s)

end Sys2Proof.Machine
end

