-- ==== Sys2Proof/Machine/Matrix.lean ====
section
/-! DEFINITION. The matrix class (R91, R92, R116 to R120, R124 to R126, R132, Table 4.7): passes of one
core's 4 × 4 array, on the share of the operands that starts at (row0, col0); an unganged pass has the
share (0, 0) of 4 × 4 tiles. -/

namespace Sys2Proof.Machine

/-- What kind of accumulating pass an instruction is: its operand formats, and whether it is integer (R106). -/
structure PassKind where
  intg : Bool
  fmts : List Nat
deriving DecidableEq, Repr

def kindF16 : PassKind := ⟨false, [0, 3, 4]⟩
def kindF32 : PassKind := ⟨false, [1]⟩
def kindI16 : PassKind := ⟨true, [2]⟩

/-- The place of a core's share: its first row and column and the whole array's rows and columns; a
ganged pass takes ta and tb from the cluster buffer and tc from the own scratchpad (R128, R130). -/
structure Share where
  row0 : Nat := 0
  col0 : Nat := 0
  rows : Nat := 4
  cols : Nat := 4
  gang : Bool := false
deriving DecidableEq, Repr

/-- The format of a spill buffer: FP32 pairs, or INT64 for an integer pass (R118). -/
def spillFmt (intg : Bool) : Nat := if intg then 6 else 7

/-- A placed tile lies where the shape wants it (R130). -/
def placed (v : Except Nat View) (gang cbuf : Bool) : Bool :=
  match v with
  | .ok v => !gang || decide (v.reg.cbuf = cbuf)
  | .error _ => true

/-- The checks of a spill buffer, when the pass accesses it: a writable 4 × 4 tile of the spill format
(R91, R118, R130, R144). -/
def State.spillCheck (s : State) (k : Nat) (tc : Tile) (intg : Bool) (sh : Share) : Except Nat View :=
  let v := s.view k tc false
  match firstFault [failed v, faultIf (decide (tc.rows ≠ 4 ∨ tc.cols ≠ 4 ∨ tc.fmt ≠ spillFmt intg)) Cause.tileRange,
      faultIf (!placed v sh.gang false) Cause.tileRange, s.strides tc false] with
  | some f => .error f
  | none => v

/-- A set of the other kind refuses an accumulating pass (R116). -/
def kindClash (a : AccSet) (intg : Bool) : Bool :=
  match a.kind with
  | .unfixed => false
  | .floating => intg
  | .integer => !intg

/-- An accumulating pass's operands, checked before any operand enters: A of `rows` rows, B of `cols`
columns taken as k rows, tc where the pass spills (R91, R92, R106, R127, R130). -/
def State.mmaCheck (s : State) (k : Nat) (a : AccSet) (kind : PassKind) (ta tb tc : Tile) (n : Nat) (sh : Share) :
    Except Nat (View × View × Option View) :=
  let kk := ta.cols.toNat
  let va := s.view k ta false
  let vb := s.view k (tb.asB kk) false
  let spills := decide (n + 1 < kk)
  let vc := if spills then s.spillCheck k tc kind.intg sh else va
  match firstFault [failed va, failed vb, faultIf (decide (ta.rows.toNat ≠ sh.rows ∨ tb.cols.toNat ≠ sh.cols)) Cause.tileRange,
      faultIf (!kind.fmts.contains ta.fmt || !kind.fmts.contains tb.fmt) Cause.tileRange,
      faultIf (!placed va sh.gang true || !placed vb sh.gang true) Cause.tileRange,
      faultIf (kindClash a kind.intg) Cause.tileRange, failed vc], va, vb, vc with
  | some f, _, _, _ => .error f
  | none, .ok a, .ok b, .ok c => .ok (a, b, if spills then some c else none)
  | none, _, _, _ => .error Cause.tileRange

/-- Accumulator n with one product added: an exact product and one rounding to FP32, or an INT32 sum
with saturation (R116, R117). -/
def AccSet.addProduct (a : AccSet) (intg : Bool) (n : Nat) (x y : Nat) : AccSet :=
  if intg then
    let r := satInt 32 ((a.get n).toInt + sext 16 x * sext 16 y)
    let a := a.put n (BitVec.ofInt 32 r.1)
    if r.2 then a.noteSat n else a
  else a.put n (fma32 (BitVec.ofNat 32 x) (BitVec.ofNat 32 y) (a.get n))

/-- An operand element as the array takes it: FP32 bits of a floating element, the INT16 bits otherwise. -/
def State.operand (s : State) (intg : Bool) (v : View) (i j : Nat) : Nat :=
  if intg then s.elem v i j else (s.elem32 v i j).toNat

/-- Product step q of a share: all sixteen accumulators (R116). -/
def State.productStep (s : State) (intg : Bool) (va vb : View) (sh : Share) (a : AccSet) (q : Nat) : AccSet :=
  (List.range 16).foldl (fun a n =>
    a.addProduct intg n (s.operand intg va (sh.row0 + n / 4) q) (s.operand intg vb q (sh.col0 + n % 4))) a

/-- A spill element with accumulator value `x` folded in: the new raw element, and whether it saturated (R118). -/
def foldSpill (intg : Bool) (old : Nat) (x : W32) : Nat × Bool :=
  if intg then
    let r := satInt 64 (sext 64 old + x.toInt)
    (wrapInt 64 r.1, r.2)
  else
    let p := spillPair (BitVec.ofNat 32 old) (BitVec.ofNat 32 (old / 2 ^ 32)) x
    (p.1.toNat + p.2.toNat * 2 ^ 32, false)

/-- Accumulator n folded into its element of the spill buffer. -/
def State.spillOne (s : State) (intg : Bool) (vc : View) (a : AccSet) (n : Nat) : State × AccSet :=
  let r := foldSpill intg (s.elem vc (n / 4) (n % 4)) (a.get n)
  (s.putElem vc (n / 4) (n % 4) r.1, if r.2 then a.noteSat n else a)

/-- A spill: every accumulator is added into tc and set to zero (R118). -/
def State.spillAll (s : State) (intg : Bool) (vc : View) (a : AccSet) : State × AccSet :=
  let r := (List.range 16).foldl (fun x n => x.1.spillOne intg vc x.2 n) (s, a)
  (r.1, { r.2 with vals := [] })

/-- The first `m` product steps of a pass, with a spill after products N, 2N, ... wherever further
products of the pass follow (R116, R118). -/
def State.runPass (s : State) (kind : PassKind) (va vb : View) (vc : Option View) (n m : Nat) (sh : Share) (a : AccSet) :
    State × AccSet :=
  let a := { a with kind := if kind.intg then .integer else .floating }
  (List.range m).foldl (fun x q =>
    let a := x.1.productStep kind.intg va vb sh x.2 q
    match vc with
    | some v => if (q + 1) % (n + 1) = 0 ∧ q + 1 < va.t.cols.toNat then x.1.spillAll kind.intg v a else (x.1, a)
    | none => (x.1, a)) (s, a)

/-! ### Issue of a matrix pass (R93, R132) -/

/-- The fault of the G field against ACTIVE_SHAPE (R93). -/
def State.gangFault (s : State) (k : Nat) (g : Bool) : Option Nat :=
  faultIf (g != decide ((s.cluster (clOf k)).shape ≠ 0)) Cause.gangMismatch

/-- A share's place in the output tile for core index x of a cluster in a shape (Tables 6.1 and 6.2);
shape 0 is one core's own 4 × 4 array. -/
def shareOf (shape x : Nat) : Share :=
  let r := x / 16 % 16
  let c := x % 16
  match shape with
  | 1 => ⟨4 * r, 4 * c, 64, 64, true⟩
  | 2 => ⟨4 * (r % 4), 64 * (r / 4) + 4 * c, 16, 256, true⟩
  | 3 => ⟨0, 64 * r + 4 * c, 4, 1024, true⟩
  | _ => {}

/-- The tap's registers gN to gN+3 (R161); a gid of 0 makes all four zero. -/
def Core.tapReg (c : Core) (gid n : Nat) : Nat := if gid = 0 then 0 else (c.grOver (gid + n)).toNat

/-- Seed and step number of the work of a core (R113): of its instance and of the step its program
belongs to. -/
def State.seedOf (s : State) (k : Nat) : W64 :=
  match (s.core k).prog with
  | some p => s.reg (R.instSeed p.inst)
  | none => s.reg (R.instSeed ((s.owner (clOf k)).getD 0))
def State.stepOf (s : State) (k : Nat) : W64 :=
  match (s.core k).prog with
  | some p => p.step
  | none => 0

/-- The entry that an armed tap captures from a floating pass (R160, R161). -/
def State.capture (s : State) (k : Nat) (ta tb : Tile) (wide : Bool) (sh : Share) : State :=
  let c := s.core k
  match c.tap with
  | none => s
  | some t =>
    let e : TapEntry :=
      { tile := if t.side then tb else ta, side := t.side, first := if t.side then sh.col0 else sh.row0,
        wide := wide, s := t.s, slice := t.slice, key := BitVec.ofNat 32 (c.tapReg t.gid 0),
        base := c.tapReg t.gid 1 + c.tapReg t.gid 2 % 2 ^ 14 * 2 ^ 32,
        offA := c.tapReg t.gid 3 % 65536, offB := c.tapReg t.gid 3 / 65536, depth := ta.cols.toNat,
        seed := s.seedOf k, step := s.stepOf k }
    s.setCore k { c with tapQ := c.tapQ ++ [e] }

/-- Whether a capture must wait for the tap: it is armed and all 8 entries are occupied (R163). -/
def Core.tapFull (c : Core) : Bool := c.tap.isSome && decide (8 ≤ c.tapQ.length)

/-- The tap folds its oldest entry while a capture waits for room (R163). -/
def State.makeRoom (s : State) (k : Nat) : Act :=
  if (s.core k).folding = 0 then
    match s.foldFirst k 1 with
    | .ok s => .holdWith s
    | .error f => .fault f
  else .hold

/-- The fault of uncorrectable words under an accumulating pass's operands (R303). -/
def State.mmaBad (s : State) (v : View × View × Option View) : Option Nat :=
  match s.viewBad v.1, s.viewBad v.2.1, v.2.2.bind s.viewBad with
  | some f, _, _ => some f
  | _, some f, _ => some f
  | _, _, r => r

/-- Bytes an accumulating pass reads, and bytes it writes: its spill buffer. -/
def mmaWrites (v : View × View × Option View) : List (Nat × Nat) := (v.2.2.map View.bytes).getD []
def mmaReads (v : View × View × Option View) : List (Nat × Nat) := v.1.bytes ++ v.2.1.bytes ++ mmaWrites v

/-- An accumulating pass of `m` products into set ac of core k: the folds it conflicts with, its
products and spills (R116, R118, R162). -/
def State.applyMma (s : State) (k ac : Nat) (kind : PassKind) (v : View × View × Option View) (n m : Nat)
    (sh : Share) : Except Nat State :=
  match s.settleFolds k (mmaReads v) (mmaWrites v) with
  | .error f => .error f
  | .ok s =>
    let r := s.runPass kind v.1 v.2.1 v.2.2 n m sh ((s.core k).acc' ac)
    .ok (r.1.setCore k ((r.1.core k).setAcc ac r.2))

/-- An accumulating pass: a ganged one holds until all 256 cores have issued it, and is checked then, so that every
core raises the faults of ta and tb together (R84, R130); an unganged one runs on the core's own array. -/
def doMma (k ac : Nat) (kind : PassKind) (ta tb tc : TReg) (n : Nat) (g : Bool) : Doing := fun _ s =>
  let c := s.core k
  let full := !kind.intg && c.tapFull
  if c.gangWait then .hold
  else
    match s.gangFault k g with
    | some f => .fault f
    | none =>
      if g then (if full then s.makeRoom k else .hold)
      else
        match s.mmaCheck k (c.acc' ac) kind (c.tr ta) (c.tr tb) (c.tr tc) n {} with
        | .error f => .fault f
        | .ok v =>
          match s.mmaBad v with
          | some f => .fault f
          | none =>
            if full then s.makeRoom k
            else
              match s.applyMma k ac kind v n (c.tr ta).cols.toNat {} with
              | .error f => .fault f
              | .ok s =>
                let s := s.note k (mmaReads v) (mmaWrites v)
                .next (if kind.intg then s else s.capture k (c.tr ta) (c.tr tb) (decide (kind = kindF32)) {})

/-- MMA.F16 (R116): FP16 operands, FP8 widened on fetch (R147). -/
def doMmaF16 (k ac : Nat) (ta tb tc : TReg) (n : Nat) (g : Bool) : Doing := doMma k ac kindF16 ta tb tc n g
def execMmaF16 (k : Nat) (l : Launch) (ac : AcReg) (ta tb tc : TReg) (n : Nat) (gang : Bool) (s : State) :
    Host.Outcome State Fault Refusal :=
  .next (s.issue k (.mmaF16 k l ac ta tb tc n gang) (doMmaF16 k ac ta tb tc n gang))

/-- MMA.F32 (R116): FP32 operands. -/
def doMmaF32 (k ac : Nat) (ta tb tc : TReg) (n : Nat) (g : Bool) : Doing := doMma k ac kindF32 ta tb tc n g
def execMmaF32 (k : Nat) (l : Launch) (ac : AcReg) (ta tb tc : TReg) (n : Nat) (gang : Bool) (s : State) :
    Host.Outcome State Fault Refusal :=
  .next (s.issue k (.mmaF32 k l ac ta tb tc n gang) (doMmaF32 k ac ta tb tc n gang))

/-- MMA.I16 (R116, R117): INT16 operands, INT32 accumulators with saturation. -/
def doMmaI16 (k ac : Nat) (ta tb tc : TReg) (n : Nat) (g : Bool) : Doing := doMma k ac kindI16 ta tb tc n g
def execMmaI16 (k : Nat) (l : Launch) (ac : AcReg) (ta tb tc : TReg) (n : Nat) (gang : Bool) (s : State) :
    Host.Outcome State Fault Refusal :=
  .next (s.issue k (.mmaI16 k l ac ta tb tc n gang) (doMmaI16 k ac ta tb tc n gang))

/-! ### Output (R114, R115, R119, R120) -/

/-- What MMA.OUT and MMA.OUTS need besides the set: rounding, epilogue, keys, seed and step. -/
structure OutCtl where
  rnd : Nat
  ep : Nat
  tensor : W32
  base : Nat
  seed : W64
  step : W64
deriving DecidableEq, Repr

/-- The rounding mode of an rnd code that needs no random bits (R92). -/
def rndOf (n : Nat) : Rnd := if n = 1 then .rtz else .rne

/-- An FP32 value stored in a floating format under a rnd code (R108, R110, R111). -/
def storeFl (f rnd u : Nat) (v : W32) : Nat :=
  if f = 1 then (rn (f32 v)).toNat
  else if f = 7 then (rn (f32 v)).toNat
  else if rnd = 2 then flStoch (fmtFl f) u (f32 v)
  else flBits (fmtFl f) (rndOf rnd) (f32 v)

/-- The FP32 constant 16 / (16 − q) (R115). -/
def dropScale (q : Nat) : W32 := div32 (ofInt32 16) (ofInt32 (16 - q))

/-- Dropout of element index e at level q (R115). -/
def OutCtl.dropout (o : OutCtl) (q e : Nat) (v : W32) : W32 :=
  if q = 0 then v
  else if q ≤ (draw o.seed .dropout o.tensor o.step e).toNat / 2 ^ 28 then mul32 v (dropScale q) else 0

/-- The spill element, the value v and the saturation mark of accumulator n (R119): MMA.OUTS folds it
into its spill element first. -/
def outValue (intg : Bool) (x : W32) (old : Option Nat) : Nat × Int × W32 × Bool :=
  match old with
  | none => (0, x.toInt, x, false)
  | some p =>
    let r := foldSpill intg p x
    (r.1, sext 64 r.1, add32 (BitVec.ofNat 32 r.1) (BitVec.ofNat 32 (r.1 / 2 ^ 32)), r.2)

/-- The integer epilogue and clamp of a value: the stored element, and whether either saturated (R119, R109). -/
def outInt (ep f : Nat) (v : Int) (x : Int) : Nat × Bool :=
  let e := if ep = 1 then satInt 64 (v + x) else if ep = 2 then satInt 64 (v * x) else (v, false)
  let d := satInt (fmtIntBits f) e.1
  (wrapInt (fmtIntBits f) d.1, e.2 || d.2)

/-- The floating epilogue, dropout and conversion of a value (R119). -/
def OutCtl.outFl (o : OutCtl) (f q e : Nat) (v x : W32) : Nat :=
  let v := if o.ep = 1 then add32 v x else if o.ep = 2 then mul32 v x else v
  let v := o.dropout q e v
  let u := (draw o.seed .stochastic o.tensor o.step e).toNat / 2 ^ 16
  storeFl f o.rnd u v

/-- What a core's share of an output pass stores: the spill elements, the output elements, both in
row-major order, and the set with its status. -/
structure OutRes where
  spill : List Nat
  vals : List Nat
  acc : AccSet
deriving DecidableEq, Repr

/-- Accumulator n of an output pass: everything is read before anything is stored. Only a stored value counts as
non-finite: one outside the clamp bounds of ta is discarded (R120, R142). DESIGN CHOICE (log 45): saturations are noted
accumulator by accumulator, of each one the merge with its spill element before the epilogue and the conversion. -/
def State.outOne (s : State) (o : OutCtl) (vo : View) (vb vc : Option View) (sh : Share) (r : OutRes) (n : Nat) : OutRes :=
  let a := r.acc
  let intg := decide (a.kind = .integer)
  let i := sh.row0 + n / 4
  let j := sh.col0 + n % 4
  let w := outValue intg (a.get n) (vc.map fun v => s.elem v (n / 4) (n % 4))
  let f := vo.t.fmt
  let a := if w.2.2.2 then a.noteSat n else a
  if intg then
    let x := match vb with | some v => elemInt v.t.fmt (s.elem v i j) | none => 0
    let z := outInt o.ep f w.2.1 x
    { spill := r.spill ++ [w.1], vals := r.vals ++ [z.1], acc := if z.2 then a.noteSat n else a }
  else
    let x := match vb with | some v => s.elem32 v i j | none => 0
    let z := o.outFl f vo.t.dropQ ((o.base + i * vo.t.cols.toNat + j) % 2 ^ 46) w.2.2.1 x
    { spill := r.spill ++ [w.1], vals := r.vals ++ [z],
      acc := if nonFinite f z && decide (i < vo.t.cr ∧ j < vo.t.cc) then a.noteNf (n / 4) (n % 4) else a }

/-- The share's values of an output pass (R119, R120). -/
def State.outAll (s : State) (o : OutCtl) (vo : View) (vb vc : Option View) (sh : Share) (a : AccSet) : OutRes :=
  (List.range 16).foldl (s.outOne o vo vb vc sh) { spill := [], vals := [], acc := a }

/-- An output pass stores its share and, for MMA.OUTS, the spill buffer. -/
def State.outStore (s : State) (k ac : Nat) (vo : View) (vc : Option View) (sh : Share) (r : OutRes) : State :=
  let s := match vc with
    | none => s
    | some v => forEach ((List.range 16).zip r.spill) s fun s x => s.putElem v (x.1 / 4) (x.1 % 4) x.2
  let s := forEach ((List.range 16).zip r.vals) s fun s x =>
    s.putElem vo (sh.row0 + x.1 / 4) (sh.col0 + x.1 % 4) x.2
  s.setCore k ((s.core k).setAcc ac r.acc)

/-- The checks of an output pass (R91, R119, R127, R130, R144). -/
def State.outCheck (s : State) (k : Nat) (a : AccSet) (ta tb : Tile) (tc : Option Tile) (ep : Nat) (sh : Share) :
    Except Nat (View × Option View × Option View) :=
  let intg := decide (a.kind = .integer)
  let vo := s.view k ta false
  let vb := s.view k tb false
  let vc := tc.map fun t => s.spillCheck k t intg sh
  let dims (t : Tile) := decide (t.rows.toNat ≠ sh.rows ∨ t.cols.toNat ≠ sh.cols)
  match firstFault [failed vo, faultIf (dims ta) Cause.tileRange, faultIf (fmtInt ta.fmt != intg) Cause.tileRange,
      faultIf (!placed vo sh.gang true) Cause.tileRange,
      if ep = 0 then none else failed vb, faultIf (decide (ep ≠ 0) && dims tb) Cause.tileRange,
      faultIf (decide (ep ≠ 0) && fmtInt tb.fmt != intg) Cause.tileRange,
      faultIf (decide (ep ≠ 0) && !placed vb sh.gang true) Cause.tileRange,
      match vc with | some v => failed v | none => none,
      s.strides ta false], vo with
  | some f, _ => .error f
  | none, .error f => .error f
  | none, .ok o =>
    .ok (o, if ep = 0 then none else vb.toOption, match vc with | some (.ok v) => some v | _ => none)

/-- The fault of uncorrectable words under an output pass (R303). -/
def State.outBad (s : State) (v : View × Option View × Option View) : Option Nat :=
  match s.viewPart v.1, v.2.1.bind s.viewBad, v.2.2.bind s.viewBad with
  | some f, _, _ => some f
  | _, some f, _ => some f
  | _, _, r => r

/-- The key registers of an output pass (R114): gN to gN+2. -/
def Core.tapKeys (c : Core) (gid : Nat) : List Nat := (List.range 3).map (c.tapReg gid)

/-- What an output pass computes with: its rounding, its epilogue and its keys. -/
def outCtl (rnd ep : Nat) (keys : List Nat) (seed step : W64) : OutCtl :=
  { rnd := rnd, ep := ep, tensor := BitVec.ofNat 32 (keys.getD 0 0),
    base := keys.getD 1 0 + keys.getD 2 0 % 2 ^ 14 * 2 ^ 32, seed := seed, step := step }

/-- Bytes an output pass reads, and bytes it writes. -/
def outReads (v : View × Option View × Option View) : List (Nat × Nat) :=
  (v.2.1.map View.bytes).getD [] ++ (v.2.2.map View.bytes).getD []
def outWrites (v : View × Option View × Option View) : List (Nat × Nat) :=
  v.1.bytes ++ (v.2.2.map View.bytes).getD []

/-- MMA.OUT and MMA.OUTS: a ganged pass holds until all 256 cores have issued it, and is checked then (R84, R130). -/
def doOut (k ac : Nat) (ta tb : TReg) (tc : Option TReg) (rnd ep : Nat) (gid : GReg) (g : Bool) : Doing := fun _ s =>
  let c := s.core k
  if c.gangWait then .hold
  else
    match s.gangFault k g with
    | some f => .fault f
    | none =>
      if g then .hold
      else
        match s.outCheck k (c.acc' ac) (c.tr ta) (c.tr tb) (tc.map fun t => c.tr t) ep {} with
        | .error f => .fault f
        | .ok v =>
          match s.outBad v with
          | some f => .fault f
          | none =>
            match s.settleTap k (outReads v) (outWrites v) with
            | .error f => .fault f
            | .ok s =>
              let o := outCtl rnd ep (c.tapKeys gid.val) (s.seedOf k) (s.stepOf k)
              .next (s.outStore k ac v.1 v.2.2 {} (s.outAll o v.1 v.2.1 v.2.2 {} ((s.core k).acc' ac)))

/-- MMA.OUT (R119): each accumulator through the epilogue, dropout and conversion into ta. -/
def doMmaOut (k ac : Nat) (ta tb : TReg) (rnd ep : Nat) (gid : GReg) (g : Bool) : Doing :=
  doOut k ac ta tb none rnd ep gid g
def execMmaOut (k : Nat) (l : Launch) (ac : AcReg) (ta tb : TReg) (rnd ep : Nat) (gid : GReg) (gang : Bool)
    (s : State) : Host.Outcome State Fault Refusal :=
  .next (s.issue k (.mmaOut k l ac ta tb rnd ep gid gang) (doMmaOut k ac ta tb rnd ep gid gang))

/-- MMA.OUTS (R119): as MMA.OUT after folding the set into tc. -/
def doMmaOuts (k ac : Nat) (ta tb tc : TReg) (rnd ep : Nat) (gid : GReg) (g : Bool) : Doing :=
  doOut k ac ta tb (some tc) rnd ep gid g
def execMmaOuts (k : Nat) (l : Launch) (ac : AcReg) (ta tb tc : TReg) (rnd ep : Nat) (gid : GReg) (gang : Bool)
    (s : State) : Host.Outcome State Fault Refusal :=
  .next (s.issue k (.mmaOuts k l ac ta tb tc rnd ep gid gang) (doMmaOuts k ac ta tb tc rnd ep gid gang))

/-- MMA.CLR (R116, R126): the set becomes zero, its kind not fixed, SAT and NONFINITE clear. It takes no slot; while
earlier passes into the set are in flight it stays under way, and a later pass into the set waits for it. After a ganged
pass into the set it holds issue until that has completed (log 43). -/
def doMmaClr (k ac : Nat) : Doing := fun _ s =>
  let c := s.core k
  if c.gangWait || (s.cluster (clOf k)).passes.any (fun p => decide (setOf p.op = some ac)) then .hold
  else
    let n := c.seq + 1
    .next (s.setCore k { c.setAcc ac {} with clears := if (c.slots' 1).sums ac n then c.clears ++ [(ac, n)] else c.clears })
def execMmaClr (k : Nat) (l : Launch) (ac : AcReg) (s : State) : Host.Outcome State Fault Refusal :=
  .next (s.issue k (.mmaClr k l ac) (doMmaClr k ac))

/-! ### Passes that leave the array (R125, R126) -/

/-- Whether a pass in the running slot stays in flight when its entry has ended: an output pass is
complete when it leaves the slot (R126). -/
def staysInFlight : Instr → Bool
  | .mmaOut .. | .mmaOuts .. => false
  | _ => true

/-- The last operand of the core's running pass enters: the running slot is freed for the queued pass
(R125); an output pass is then complete and counted. -/
def State.entryEnd (s : State) (k : Nat) : State :=
  let c := s.core k
  let x := c.slots' 1
  match x.running with
  | none => s
  | some p =>
    if c.suspended then s
    else if staysInFlight p.op then
      (s.setCore k (c.setSlots 1 { x with running := none, tail := x.tail ++ [p] })).goOn k
    else s.passDone k 1 true

/-- The oldest pass in flight completes its last accumulation, and is counted (R125, Table 16.1). -/
def State.passEnd (s : State) (k : Nat) : State :=
  let c := s.core k
  let x := c.slots' 1
  match x.tail with
  | [] => s
  | p :: r => if c.suspended then s else (s.setCore k (c.setSlots 1 { x with tail := r })).completed k 1 p true

end Sys2Proof.Machine
end

