-- ==== Sys2Proof/Machine/GangCompare.lean ====
section
/-! DEFINITION. What the gang controller compares across the cores of a ganged cluster (R70, R93): ganged passes when
they start together, GANG and the factor operations of a cluster in shape 0 as each core issues them. -/

namespace Sys2Proof.Machine

/-- An accumulating pass: its set, kind, operands and n. -/
def mmaOf : Instr → Option (Nat × PassKind × TReg × TReg × TReg × Nat)
  | .mmaF16 _ _ ac ta tb tc n _ => some (ac, kindF16, ta, tb, tc, n)
  | .mmaF32 _ _ ac ta tb tc n _ => some (ac, kindF32, ta, tb, tc, n)
  | .mmaI16 _ _ ac ta tb tc n _ => some (ac, kindI16, ta, tb, tc, n)
  | _ => none

/-- An output pass: its set, operands, rnd, ep and gid. -/
def outOf : Instr → Option (Nat × TReg × TReg × Option TReg × Nat × Nat × GReg)
  | .mmaOut _ _ ac ta tb rnd ep gid _ => some (ac, ta, tb, none, rnd, ep, gid)
  | .mmaOuts _ _ ac ta tb tc rnd ep gid _ => some (ac, ta, tb, some tc, rnd, ep, gid)
  | _ => none

/-- The tile registers of a factor operation or UPD.NS. -/
def factorTiles : Instr → List TReg
  | .nsiScale _ _ t1 t2 _ _ | .nsiResid _ _ t1 t2 _ _ => [t1, t2]
  | .nsiStep _ _ t1 t2 t3 _ | .cholSn _ _ t1 t2 t3 | .ldltSn _ _ t1 t2 t3 | .trsvSn _ _ t1 t2 t3 _
  | .updNs _ _ t1 t2 t3 => [t1, t2, t3]
  | .refine _ _ t1 t2 t3 t4 => [t1, t2, t3, t4]
  | _ => []

/-- The descriptors and key registers of an instruction that R93 compares. -/
def comparedTiles (i : Instr) : List TReg :=
  match mmaOf i, outOf i with
  | some m, _ => [m.2.2.1, m.2.2.2.1]
  | _, some o => [o.2.1, o.2.2.1]
  | none, none => factorTiles i
def comparedRegs (c : Core) (i : Instr) : List Nat :=
  match outOf i with
  | some o => if o.2.2.2.2.1 = 2 ∨ (c.tr o.2.1).dropQ ≠ 0 then c.tapKeys o.2.2.2.2.2.2.val else []
  | none => []

/-- Everything of a core's instruction that is compared with core (0,0)'s: word and launch field,
descriptors and registers (R93). -/
def Core.gangKey (c : Core) (i : Instr) : GangKey := (encode i, (comparedTiles i).map fun t => c.tr t, comparedRegs c i)

/-- The comparison under way of the instructions with a number. -/
def Cluster.gangCmp (u : Cluster) (no : Nat) : GangCmp := (u.gangCmps.find? fun x => decide (x.no = no)).getD { no := no }

/-- The cluster with a comparison changed; one that all 256 cores have met is over. -/
def Cluster.setGangCmp (u : Cluster) (x : GangCmp) : Cluster :=
  let l := u.gangCmps.filter fun y => decide (y.no ≠ x.no)
  { u with gangCmps := if x.first.isSome ∧ 255 ≤ x.seen.length then l else l ++ [x] }

/-- An instruction that every core of a ganged cluster issues for itself is compared with the one of the same number of
core (0,0): a core whose values differ faults with GANG_MISMATCH, at once where core (0,0) has issued its own, else
when it does; the others fault with GANG_PEER (R71, R93). -/
def State.gangCompare (s : State) (k : Nat) (key : GangKey) (go : State → Act) : Act :=
  let c := s.core k
  let cl := clOf k
  let u := s.cluster cl
  let x := u.gangCmp c.gangNo
  let met (y : GangCmp) : State := (s.setCluster cl (u.setGangCmp y)).setCore k { c with gangNo := c.gangNo + 1 }
  if idxOf k = 0 then
    let bad := x.seen.filter fun e => decide (e.2 ≠ key)
    let s := met { x with first := some key }
    if bad.isEmpty then go s else .stop (s.faultMany cl (bad.map fun e => (cl * 256 + e.1, Cause.gangMismatch, 6)))
  else
    let s' := met { x with seen := x.seen ++ [(idxOf k, key)] }
    match x.first with
    | some f => if f = key then go s' else .fault Cause.gangMismatch
    | none => go s'

end Sys2Proof.Machine
end

