-- ==== Sys2Proof/Machine/Tap.lean ====
section
/-! DEFINITION. The curvature tap class (R160 to R166, Table 4.9). -/

namespace Sys2Proof.Machine

/-- TAP.ARM: the tap is armed with a copy of the slice, the side, the sampling exponent and the number
of the key register (R160). -/
def doTapArm (k : Nat) (tf : TReg) (side : Bool) (n : Nat) (gid : GReg) : Doing := fun _ s =>
  let c := s.core k
  .next (s.setCore k { c with tap := some { slice := c.tr tf, side := side, s := n, gid := gid.val } })
def execTapArm (k : Nat) (l : Launch) (tf : TReg) (side : Bool) (n : Nat) (gid : GReg) (s : State) :
    Host.Outcome State Fault Refusal :=
  .next (s.issue k (.tapArm k l tf side n gid) (doTapArm k tf side n gid))

/-- TAP.OFF: the tap is disarmed; queued entries stay (R160). -/
def doTapOff (k : Nat) : Doing := fun _ s => .next (s.setCore k { s.core k with tap := none })
def execTapOff (k : Nat) (l : Launch) (s : State) : Host.Outcome State Fault Refusal :=
  .next (s.issue k (.tapOff k l) (doTapOff k))

/-- TAP.AUTO: entries of slice tf may be folded in idle beats; no effect in strict mode (R163, R164). -/
def doTapAuto (k : Nat) (tf : TReg) : Doing := fun _ s =>
  let c := s.core k
  .next (if s.strict then s else s.setCore k { c with tapAuto := some (c.tr tf) })
def execTapAuto (k : Nat) (l : Launch) (tf : TReg) (s : State) : Host.Outcome State Fault Refusal :=
  .next (s.issue k (.tapAuto k l tf) (doTapAuto k tf))

/-- Tap entries whose fold has not begun. -/
def Core.unfolded (c : Core) : List TapEntry := c.tapQ.drop c.folding

/-- SYRK.TAP: folds the oldest entry into tf, which must hold exactly its armed slice; with an empty
queue it has no effect and is counted (R163, R166). The tap's two slots bound the folds under way. -/
def doSyrkTap (k : Nat) (tf : TReg) : Doing := fun _ s =>
  let c := s.core k
  match c.unfolded with
  | [] => .next (s.countExtra k 4)
  | e :: _ =>
    if e.slice ≠ c.tr tf then .fault Cause.tileRange
    else
      match s.foldFirst k 1 with
      | .ok t => .next (t.note k (s.foldFoot k e).reads (s.foldFoot k e).writes)
      | .error f => .fault f
def execSyrkTap (k : Nat) (l : Launch) (tf : TReg) (s : State) : Host.Outcome State Fault Refusal :=
  .next (s.issue k (.syrkTap k l tf) (doSyrkTap k tf))

/-- Whether a fold must wait for an earlier pass of core k whose bytes it meets (R82). -/
def State.foldWaits (s : State) (k : Nat) (e : TapEntry) : Bool :=
  (s.core k).waitsFor (some 4) ((s.core k).seq + 1) (s.foldFoot k e)

/-- TAP.DRAIN: folds every queued entry into tf, then completes when the last fold has (R163, R84). -/
def doTapDrain (k : Nat) (tf : TReg) : Doing := fun _ s =>
  let c := s.core k
  if c.tapQ.isEmpty then .next s
  else if c.unfolded.any fun e => decide (e.slice ≠ c.tr tf) then .fault Cause.tileRange
  else if c.unfolded.any fun e => s.foldWaits k e then .hold
  else
    match s.foldFirst k c.unfolded.length with
    | .ok s => .holdWith s
    | .error f => .fault f
def execTapDrain (k : Nat) (l : Launch) (tf : TReg) (s : State) : Host.Outcome State Fault Refusal :=
  .next (s.issue k (.tapDrain k l tf) (doTapDrain k tf))

/-- TAP_AUTO_FOLD: in an idle beat, with both matrix slots empty, those of the gang controller included, and outside
strict mode, the oldest entry is folded if its slice is the one TAP.AUTO named (R163, R164). -/
def tapAutoFold (k : Nat) (s : State) : State :=
  let c := s.core k
  let x := c.slots' 1
  let u := s.cluster (clOf k)
  let ganged := decide (u.shape ≠ 0) && (u.gangRun.isSome || u.gangQueued.isSome)
  if (c.st = .running ∨ c.st = .waiting) ∧ ¬s.strict ∧ x.running.isNone ∧ x.queued.isNone ∧ ¬ganged ∧ c.folding = 0 then
    match c.tapAuto, c.tapQ with
    | some tf, e :: _ =>
      if e.slice = tf ∧ ¬s.foldWaits k e then
        match s.foldFirst k 1 true with
        | .ok s => s
        | .error f => s.fault k f (causeEngine f 4)
      else s
    | _, _ => s
  else s
def execTapAutoFold (k : Nat) (s : State) : Host.Outcome State Fault Refusal := .next (tapAutoFold k s)

/-- A pass that an idle-beat fold held beyond its target beat slips with CONTENTION (R164): the passes that wait for
core k's array hear the fold's end as a late input with that tag. -/
def State.autoFoldDone (s : State) (k : Nat) : State :=
  let c := s.core k
  let hear (p : Pass) : Pass := { p with late := p.late.hear s.beat p.target (4, false) }
  let slots := c.slots.map fun x => if x.1 = 1 ∨ x.1 = 5 then (x.1, { x.2 with queued := x.2.queued.map hear }) else x
  s.setCore k { c with slots := slots, heldInput := if c.held.isSome then some (s.beat, (4, false)) else c.heldInput }

end Sys2Proof.Machine
end

