-- ==== Sys2Proof/Machine/FactorOps.lean ====
section
/-! DEFINITION. What the factor operations share: matrices of FP32 elements in the element order of
R173, the memory areas of supernode records (R212), reports to the solve controller (R216), and the
arithmetic of a supernode (R213 to R215). -/

namespace Sys2Proof.Machine

/-! ### Matrices -/

/-- A matrix of FP32 words, row by row. -/
abbrev Mat := List (List W32)

def Mat.at (m : Mat) (i j : Nat) : W32 := (m.getD i []).getD j 0
def mkMat (r c : Nat) (f : Nat → Nat → W32) : Mat :=
  (List.range r).map fun i => (List.range c).map fun j => f i j
/-- The r × c matrix that a placed tile holds, read under R142. -/
def State.matOf (s : State) (v : View) (r c : Nat) : Mat := mkMat r c (s.elem32 v)
/-- prod(P, Q) with P of r rows and k columns and Q of c columns (R173). -/
def prodM (p q : Mat) (r k c : Nat) : Mat :=
  mkMat r c fun i j => prodElem ((List.range k).map fun t => (p.at i t, q.at t j))
def transposeM (p : Mat) (r c : Nat) : Mat := mkMat c r fun i j => p.at j i
/-- An FP32 matrix stored into a placed tile. -/
def State.putMat (s : State) (v : View) (r c : Nat) (m : Mat) : State :=
  forEach (grid r c) s fun s p => s.putElem v p.1 p.2 (m.at p.1 p.2).toNat
def delta (i j : Nat) (v : W32) : W32 := if i = j then v else 0

/-- `n` bytes at `a` left holding values that the manual does not state: free values (log 4). -/
def State.scribble (s : State) (a n : Nat) : State :=
  { s.write a ((List.range n).map fun i => (Config.freeValue (s.freeCtr + i)).truncate 8) with
    freeCtr := s.freeCtr + n }

/-- A factor operation that has passed its checks: the memory it reads and writes, as (address, length)
pairs, and its effect with the word that goes to register gs, if any. -/
structure FactorOp where
  reads : List (Nat × Nat)
  writes : List (Nat × Nat)
  run : State → State × Option W32

/-- The checks of a tile that a factor operation reads, or reads and writes. -/
def State.facTile (s : State) (k : Nat) (t : Tile) (rows cols : Nat) (writes : Bool) : Except Nat View :=
  let v := s.view k t false
  match firstFault [failed v, faultIf (decide (t.rows.toNat ≠ rows ∨ t.cols.toNat ≠ cols ∨ t.fmt ≠ 1)) Cause.tileRange,
      if writes then s.strides t false else none] with
  | some f => .error f
  | none => v

/-- The fault of uncorrectable words under tiles read and tiles written (R303). -/
def State.tilesBad (s : State) (rs ws : List View) : Option Nat :=
  (rs.findSome? s.viewBad) <|> (ws.findSome? s.viewPart)

/-! ### Areas of a supernode record (R212) -/

/-- The memory address of an area of `n` bytes named by an 8-byte address field: HBM with bit 63 set,
which the instance must own, else the own scratchpad or the own cluster buffer. -/
def State.area (s : State) (k addr n : Nat) : Except Nat Nat :=
  if 2 ^ 63 ≤ addr then
    let a := addr % 2 ^ 48
    if n = 0 ∨ (a + n ≤ hbmTop ∧ s.ownsHbm ((s.owner (clOf k)).getD 0) a n) then .ok a else .error Cause.notOwned
  else
    let a := addr % 2 ^ 32
    match regionOf k a n with
    | some r => if r.own then .ok (r.base + (a - r.start)) else .error Cause.tileRange
    | none => .error Cause.tileRange

/-- The fault of an access that meets the uncorrectable word at an address: HBM is streamed through the cluster buffer
(R212, log 15). -/
def uncorrAt (w : Nat) : Nat := Cause.atWord (if 2 ^ 40 ≤ w ∧ w < 2 ^ 41 then Cause.spadUncorr else Cause.cbufUncorr) w

/-- The fault of ranges read or written that meet an uncorrectable word (R303). -/
def State.rangesBad (s : State) (reads writes : List (Nat × Nat)) : Option Nat :=
  (reads.findSome? fun r => (s.badWord r.1 r.2).map uncorrAt) <|>
  (writes.findSome? fun r => if s.partBad r.1 r.2 then (s.badWord r.1 r.2).map uncorrAt else none)

/-- A supernode record (Table 10.2). -/
structure SnRec where
  at_ : Nat
  index : Nat
  c : Nat
  r : Nat
  firstCol : Nat
  children : Nat
  form : Nat
  front : Nat
  values : Nat
  factor : Nat
  parentFront : Nat
  parentMap : Nat
  updvec : Nat
  parentVec : Nat
  childList : Nat
  stage : Nat
deriving DecidableEq, Repr

def SnRec.n (x : SnRec) : Nat := x.c + x.r

/-- The record at t1.BASE, checked: 1 to 256 columns and a front of at most 8,192 (R210, log 15). -/
def State.snRec (s : State) (k : Nat) (t1 : Tile) : Except Nat SnRec :=
  match s.area k t1.base.toNat 128 with
  | .error f => .error f
  | .ok a =>
    let g (o n : Nat) := s.rd (a + o) n
    let x : SnRec :=
      { at_ := a, index := g 0 4, c := g 4 2, r := g 6 2, firstCol := g 8 4, children := g 0xC 2, form := g 0xE 1,
        front := g 0x10 8, values := g 0x18 8, factor := g 0x20 8, parentFront := g 0x28 8, parentMap := g 0x30 8,
        updvec := g 0x38 8, parentVec := g 0x40 8, childList := g 0x48 8, stage := g 0x50 4 }
    if let some w := s.badWord a 128 then .error (uncorrAt w)
    else if 1 ≤ x.c ∧ x.c ≤ 256 ∧ x.n ≤ 8192 then .ok x else .error Cause.tileRange

/-- Whether an address field names HBM. -/
def inHbm (addr : Nat) : Bool := decide (2 ^ 63 ≤ addr)

/-- A map from the rows below a supernode's diagonal block to rows of its parent: the INT32 list at a
memory address, or the identity where the field is 0. -/
def State.rowMap (s : State) (field a t : Nat) : Nat := if field = 0 then t else s.rd (a + 4 * t) 4

/-- A range certificate entry (Table 10.1). -/
structure Cert where
  e : Int
  eParent : Int
  spillN : Nat
  tau : W32
  bound : W32
deriving DecidableEq, Repr

/-- The entry at t2.BASE, checked: exponents −64 to 63 and 1 to 4,096 products per group (log 15). -/
def State.certOf (s : State) (k : Nat) (t2 : Tile) : Except Nat Cert :=
  match s.area k t2.base.toNat 16 with
  | .error f => .error f
  | .ok a =>
    let x : Cert := { e := sext 8 (s.rd (a + 4) 1), eParent := sext 8 (s.rd (a + 5) 1), spillN := s.rd (a + 6) 2,
                      tau := BitVec.ofNat 32 (s.rd (a + 8) 4), bound := BitVec.ofNat 32 (s.rd (a + 12) 4) }
    if let some w := s.badWord a 16 then .error (uncorrAt w)
    else if -64 ≤ x.e ∧ x.e ≤ 63 ∧ -64 ≤ x.eParent ∧ x.eParent ≤ 63 ∧ 1 ≤ x.spillN ∧ x.spillN ≤ 4096 then .ok x
    else .error Cause.tileRange

/-! ### Reports to the solve controller (R216, R224, R227) -/

/-- The solve word of a solve (R221). -/
def solveWord (r : SolveRec) : Nat := cbBase r.first + 0x3FFF80

/-- The 64 lowest keys reported, in ascending order (Table 10.5). -/
def insertPivot (x : Nat × W32) : List (Nat × W32) → List (Nat × W32)
  | [] => [x]
  | y :: r => if x.1 < y.1 then x :: y :: r else y :: insertPivot x r

/-- The active solve that a core belongs to: the instance and the record. -/
def State.solveOf (s : State) (k : Nat) : Option (Nat × SolveRec) :=
  let i := (s.owner (clOf k)).getD 0
  ((s.inst i).solves.find? fun r => r.started && !r.posted && decide (r.first ≤ clOf k ∧ clOf k < r.first + r.count)).map
    fun r => (i, r)

/-- A solve record replaced, by its tag. -/
def State.putSolve (s : State) (i : Nat) (r : SolveRec) : State :=
  let x := s.inst i
  s.setInst i { x with solves := x.solves.map fun q => if q.tag = r.tag then r else q }

/-- The device keeps REG and VIOL of the solve word current (R221). -/
def State.solveCounts (s : State) (r : SolveRec) : State :=
  (s.wr (solveWord r + 0x20) 2 (min r.reg 0xFFFF)).wr (solveWord r + 0x22) 2 (min r.viol 0xFFFF)

/-- The key of a column: OUTER − 1 of the current outer iteration and the global column (Table 10.5). -/
def SolveRec.key (r : SolveRec) (col : Nat) : Nat := (r.outerNow - 1) % 64 * 2 ^ 22 + col % 2 ^ 22

/-- A regularised pivot reported. -/
def State.reportReg (s : State) (k col : Nat) (pv : W32) : State :=
  match s.solveOf k with
  | none => s
  | some (i, r) =>
    let r := { r with reg := satInc 32 r.reg 1, pivots := (insertPivot (r.key col, pv) r.pivots).take 64 }
    (((s.putSolve i r).solveCounts r).solvEvent i r.tag 2 St.okRegularised).incReg (R.solvReg i)

/-- A violation reported. -/
def State.reportViol (s : State) (k col : Nat) : State :=
  match s.solveOf k with
  | none => s
  | some (i, r) =>
    let key := r.key col
    let r := { r with viol := satInc 32 r.viol 1,
                      firstViol := some (match r.firstViol with | some x => min x key | none => key) }
    (((s.putSolve i r).solveCounts r).solvEvent i r.tag 1 St.rangeViolation).incReg (R.solvViol i)

/-- The frozen solve with a tag whose fence a write meets: writes by cores of its set into its solution slots or
batch table are discarded and counted (R222). The range is an HBM range. -/
def State.fencing (s : State) (i : Nat) (tag : Option Nat) (a n : Nat) : Option SolveRec :=
  match (s.inst i).solves.find? fun r => decide (some r.tag = tag) with
  | none => none
  | some r =>
    let sol := r.cmd.fld 0x38 8
    let len := 2 * r.cmd.fld 0x44 4
    let bt := r.cmd.fld 0x58 8
    let bl := 32 * r.cmd.fld 0x60 2
    if r.frozen && s.bit (R.solvCfg i) 1 && decide ((a < sol + len ∧ sol < a + n) ∨ (a < bt + bl ∧ bt < a + n))
    then some r else none

/-- A write that work of a solve makes, under the fence of R222. -/
def State.solveWrite (s : State) (i : Nat) (tag : Option Nat) (a : Nat) (bs : List Byte) : State :=
  match s.fencing i tag a bs.length with
  | some r => (s.putSolve i { r with lateWrites := satInc 32 r.lateWrites 1 }).solvEvent i r.tag 3 St.internal
  | none => s.write a bs

/-- The solve whose program a core runs. -/
def Core.solveTag (c : Core) : Option Nat := c.prog.bind (·.solve)

/-- A core's write that reaches HBM, or anything else, under the fence of R222. -/
def State.coreWrite (s : State) (k a : Nat) (bs : List Byte) : State :=
  s.solveWrite ((s.owner (clOf k)).getD 0) (s.core k).solveTag a bs

/-! ### The arithmetic of a supernode (R213) -/

/-- A table of integers indexed by row and column. -/
abbrev IntTab := Sparse Int
def IntTab.at (t : IntTab) (i j : Nat) : Int := sget (fun _ => 0) t (i * 8192 + j)
def IntTab.put (t : IntTab) (i j : Nat) (v : Int) : IntTab := sput (fun _ => 0) t (i * 8192 + j) v

/-- The running state of a factorisation: the front and the factor, w of LDLᵀ, the regularised pivots
and violations in order of occurrence, and the counter of free values. -/
structure Fac where
  front : IntTab
  l : IntTab := []
  w : IntTab := []
  regs : List (Nat × W32) := []
  viols : List Nat := []
  free : Nat
deriving DecidableEq, Repr

/-- A clamp to `w` bits; one that clamps is a violation at column q (R214). -/
def Fac.sat (x : Fac) (w q : Nat) (v : Int) : Int × Fac :=
  let r := satInt w v
  (r.1, if r.2 then { x with viols := x.viols ++ [q] } else x)

/-- A value as an integer multiple of 2^q, nearest even; an infinity as a value no width holds, and
none for a NaN. -/
def flToInt (x : Fl) (q : Int) : Option Int :=
  match x with
  | .nan => none
  | .inf n => some (if n then -(2 ^ 200) else 2 ^ 200)
  | .fin n m e =>
    let v : Int := if n then -m else m
    if q ≤ e then some (v * 2 ^ (e - q).toNat) else some (shrRne v (q - e).toNat)

/-- An integer made from a value the manual does not convert, a NaN: a free value (log 4). -/
def Fac.freeInt (x : Fac) (w : Nat) : Int × Fac :=
  (sext w (Config.freeValue x.free).toNat, { x with free := x.free + 1 })

/-- mant(v): v divided by 2^(E−14), rounded to nearest even and clamped to INT16 (R213). -/
def Fac.mant (x : Fac) (e : Int) (q : Nat) (v : W32) : Int × Fac :=
  match flToInt (f32 v) (e - 14) with
  | some y => x.sat 16 q y
  | none => x.freeInt 16

/-- fp32(F): F × uu rounded once (R213). -/
def fp32Of (e F : Int) : W32 := rn (.fin (decide (F < 0)) F.natAbs (2 * e - 28))

/-- A mantissa's value, m × 2^(E−14), exactly. -/
def mantVal (e m : Int) : Fl := .fin (decide (m < 0)) m.natAbs (e - 14)

/-- dsum(i, k, jmax): products in ascending j in groups of spill_n, each group in INT32 and the total
in INT64, with saturation (R214). -/
def Fac.dsum (x : Fac) (ldlt : Bool) (spillN q i k jmax : Nat) : Int × Fac :=
  let go (a : (Int × Int) × Fac) (j : Nat) : (Int × Int) × Fac :=
    let p := (if ldlt then a.2.w.at i j else a.2.l.at i j) * a.2.l.at k j
    let g := a.2.sat 32 q (a.1.1 + p)
    if (j + 1) % spillN = 0 ∨ j + 1 = jmax then
      let t := g.2.sat 64 q (a.1.2 + g.1)
      ((0, t.1), t.2)
    else ((g.1, a.1.2), g.2)
  let r := (List.range jmax).foldl go ((0, 0), x)
  (r.1.2, r.2)

/-- Assembly of one input value into the front (R214). -/
def Fac.assemble (x : Fac) (cert : Cert) (i q : Nat) (v : W32) : Fac :=
  let x := if gt32 (rn (flAbs (f32 v))) cert.bound then { x with viols := x.viols ++ [q] } else x
  let y := match flToInt (f32 v) (2 * cert.e - 28) with
    | some n => (n, x)
    | none => x.freeInt 64
  let z := y.2.sat 64 q (x.front.at i q + y.1)
  { z.2 with front := z.2.front.put i q z.1 }

/-- A pivot and its regularisation (R214): the pivot used, τ with the sign of pv and +τ for a zero, with the log entry of
the one before. -/
def Fac.pivot (x : Fac) (ldlt : Bool) (tau : W32) (q : Nat) (pv : W32) : W32 × Fac :=
  if ldlt then
    if lt32 (rn (flAbs (f32 pv))) tau then
      (if lt32 pv 0 then neg32 tau else tau,
        { x with regs := x.regs ++ [(q, pv)] })
    else (pv, x)
  else if lt32 pv tau then (tau, { x with regs := x.regs ++ [(q, pv)] })
  else (pv, x)

/-- Column q of the factorisation (R214), of n rows. -/
def Fac.column (x : Fac) (ldlt : Bool) (cert : Cert) (n q : Nat) : Fac :=
  let e := cert.e
  let fs : List Int × Fac := (List.range (n - q)).foldl (fun a t =>
    let i := q + t
    let d := a.2.dsum ldlt cert.spillN q i q q
    let f := d.2.sat 64 q (d.2.front.at i q - d.1)
    (a.1 ++ [f.1], f.2)) ([], x)
  let f (i : Nat) : Int := fs.1.getD (i - q) 0
  let p := fs.2.pivot ldlt cert.tau q (fp32Of e (f q))
  let m := p.2.mant e q (if ldlt then p.1 else sqrt32 p.1)
  let x := { m.2 with l := m.2.l.put q q m.1 }
  let rq := rn (flDiv (f32 one32) (mantVal e m.1))
  let below := (List.range (n - q - 1)).map fun t => q + 1 + t
  let x := if ldlt then below.foldl (fun x i =>
      let z := x.mant e q (fp32Of e (f i))
      { z.2 with w := z.2.w.put i q z.1 }) x
    else x
  below.foldl (fun x i =>
    let z := x.mant e q (mul32 (fp32Of e (f i)) rq)
    { z.2 with l := z.2.l.put i q z.1 }) x

/-- The update block, element (i, k) with c ≤ k ≤ i (R214); its clamps count at the last column eliminated (log 15). -/
def Fac.update (x : Fac) (ldlt : Bool) (cert : Cert) (c i k : Nat) : Int × Fac :=
  let d := x.dsum ldlt cert.spillN (c - 1) i k c
  d.2.sat 64 (c - 1) (d.2.front.at i k - d.1)

/-- An element of the update block shifted to the parent's exponent (R215). -/
def Fac.toParent (x : Fac) (cert : Cert) (c : Nat) (u : Int) : Int × Fac :=
  let sh := 2 * (cert.e - cert.eParent)
  if 0 ≤ sh then x.sat 64 (c - 1) (u * 2 ^ sh.toNat) else (shrRne u (-sh).toNat, x)

end Sys2Proof.Machine
end

