-- ==== Sys2Proof/Machine/Factor.lean ====
section
/-! DEFINITION. The factor class and UPD.NS (R174 to R178, R198, R212 to R218, Table 4.10). In a
ganged cluster the operation runs once, on the descriptors of core (0,0), when all cores have issued it
(R93); every core's gs then receives its result (log 16). -/

namespace Sys2Proof.Machine

/-- What a factor operation does on the memory and registers that core k names. -/
abbrev FactorPlan := Nat → State → Except Nat FactorOp

/-- A factor operation's effect on one core: the folds it conflicts with, then its run. -/
def State.runFactor (s : State) (k : Nat) (p : FactorPlan) : Except Nat (State × Option W32) :=
  match p k s with
  | .error f => .error f
  | .ok o =>
    match s.settleTap k o.reads o.writes with
    | .error f => .error f
    | .ok s => .ok (o.run s)

/-- The result word in register gs, where there is one. -/
def State.putGs (s : State) (k : Nat) (gs : GReg) (v : Option W32) : State :=
  match v with
  | some w => s.setCore k ((s.core k).setG gs w)
  | none => s

/-- A factor operation issues. While ACTIVE_SHAPE is not 0 it holds until all cores start it together on the ganged
array, and is checked then; else it runs on the core's own matrix engine, compared across the cores where the cluster is
ganged (R93). -/
def doFactor (k : Nat) (i : Instr) (gs : GReg) (p : FactorPlan) : Doing := fun _ s =>
  let c := s.core k
  if c.gangWait ∨ (s.cluster (clOf k)).shape ≠ 0 then .hold
  else
    let run (s : State) : Act := match s.runFactor k p with
      | .error f => .fault f
      | .ok r => .next (r.1.putGs k gs r.2)
    if c.ganged then s.gangCompare k (c.gangKey i) run else run s

/-- p of a p code (Table 4.10). -/
def pOf (code : Nat) : Nat := match code with | 0 => 1 | 1 => 2 | _ => 4

/-! ### Newton–Schulz roots (R174 to R177) -/

/-- The scaled block, its first iterate and the scale (R174). -/
def scaleBlock (n p : Nat) (lam : W32) (a : Mat) : Mat × W32 :=
  let d := mkMat n n fun i j => if i = j then add32 (a.at i j) lam else a.at i j
  let z := (List.range n).foldl (fun acc i => add32 acc (d.at i i)) 0
  if finite32 z && gt32 z 0 then
    let rz := div32 one32 z
    (mkMat n n fun i j => mul32 (d.at i j) rz, rn (flInvRoot p (f32 z)))
  else (mkMat n n fun _ _ => nan32, nan32)

/-- NSI.SCALE on t1, with the identity written to t2. -/
def planNsiScale (t1 t2 : TReg) (p : Nat) (gs : GReg) : FactorPlan := fun k s =>
  let c := s.core k
  let n := (c.tr t1).rows.toNat
  match s.facTile k (c.tr t1) n n true, s.facTile k (c.tr t2) n n true with
  | .error f, _ => .error f
  | _, .error f => .error f
  | .ok v, .ok w =>
    match s.tilesBad [v] [v, w] with
    | some f => .error f
    | none =>
      .ok { reads := v.bytes, writes := v.bytes ++ w.bytes, run := fun s =>
        let r := scaleBlock n (pOf p) (c.gr gs) (s.matOf v n n)
        ((s.putMat v n n r.1).putMat w n n (mkMat n n fun i j => delta i j one32), some r.2) }
def execNsiScale (k : Nat) (l : Launch) (t1 t2 : TReg) (p : Nat) (gs : GReg) (s : State) :
    Host.Outcome State Fault Refusal :=
  .next (s.issue k (.nsiScale k l t1 t2 p gs) (doFactor k (.nsiScale k l t1 t2 p gs) gs (planNsiScale t1 t2 p gs)))

/-- One coupled Newton step: the new X and M (Table 8.1). -/
def nsiStepMat (n p : Nat) (x m : Mat) : Mat × Mat :=
  if p = 1 then
    let e := mkMat n n fun i j => sub32 (delta i j one32) (m.at i j)
    let e2 := prodM e e n n n
    let t := mkMat n n fun i j => add32 (add32 (delta i j one32) (e.at i j)) (e2.at i j)
    (prodM x t n n n, prodM m t n n n)
  else if p = 2 then
    let t := mkMat n n fun i j => mul32 (sub32 (delta i j (ofInt32 3)) (m.at i j)) 0x3F000000
    (prodM x t n n n, prodM (prodM m t n n n) t n n n)
  else
    let t := mkMat n n fun i j => mul32 (sub32 (delta i j (ofInt32 5)) (m.at i j)) 0x3E800000
    let u := prodM t t n n n
    (prodM x t n n n, prodM (prodM m u n n n) u n n n)

/-- NSI.STEP: X is t1 and M is t2; t3 holds two or three blocks of intermediates, whose places the
manual does not give and which hold free values afterwards (R175, log 16). -/
def planNsiStep (t1 t2 t3 : TReg) (p : Nat) : FactorPlan := fun k s =>
  let c := s.core k
  let n := (c.tr t1).rows.toNat
  let tw := c.tr t3
  let blocks := if pOf p = 4 then 3 else 2
  match s.facTile k (c.tr t1) n n true, s.facTile k (c.tr t2) n n true,
      s.facTile k tw tw.rows.toNat tw.cols.toNat true with
  | .error f, _, _ => .error f
  | _, .error f, _ => .error f
  | _, _, .error f => .error f
  | .ok v, .ok w, .ok z =>
    if tw.cr * tw.cc < blocks * n * n then .error Cause.tileRange
    else
      match s.tilesBad [v, w] [v, w, z] with
      | some f => .error f
      | none =>
        .ok { reads := v.bytes ++ w.bytes, writes := v.bytes ++ w.bytes ++ z.bytes, run := fun s =>
          let r := nsiStepMat n (pOf p) (s.matOf v n n) (s.matOf w n n)
          let s := z.cells.foldl (fun s a => s.scribble a 4) s
          ((s.putMat v n n r.1).putMat w n n r.2, none) }
def execNsiStep (k : Nat) (l : Launch) (t1 t2 t3 : TReg) (p : Nat) (s : State) : Host.Outcome State Fault Refusal :=
  .next (s.issue k (.nsiStep k l t1 t2 t3 p) (doFactor k (.nsiStep k l t1 t2 t3 p) 0 (planNsiStep t1 t2 t3 p)))

/-- A matrix applied `n` times to a column (R177). -/
def applyTimes (n : Nat) (x : Mat) : Nat → List W32 → List W32
  | 0, v => v
  | t + 1, v =>
    applyTimes n x t ((List.range n).map fun i => prodElem ((List.range n).map fun q => (x.at i q, v.getD q 0)))

/-- The residual on the sampled basis (R177). -/
def residual (n p : Nat) (x a : Mat) : W32 :=
  let es := (List.range 16).flatMap fun t =>
    let j := t * (n / 16) + n / 32
    let v := applyTimes n x p ((List.range n).map fun i => a.at i j)
    (List.range n).map fun i => f32 (sub32 (delta i j one32) (v.getD i 0))
  if es.any (· == .nan) then nan32 else rn (es.foldl (fun m e => flMax m (flAbs e)) (.fin false 0 0))

/-- NSI.RESID: the residual of iterate t1 against block t2 goes to gs. -/
def planNsiResid (t1 t2 : TReg) (p : Nat) : FactorPlan := fun k s =>
  let c := s.core k
  let n := (c.tr t1).rows.toNat
  match s.facTile k (c.tr t1) n n false, s.facTile k (c.tr t2) n n false with
  | .error f, _ => .error f
  | _, .error f => .error f
  | .ok v, .ok w =>
    match s.tilesBad [v, w] [] with
    | some f => .error f
    | none =>
      .ok { reads := v.bytes ++ w.bytes, writes := [], run := fun s =>
        (s, some (residual n (pOf p) (s.matOf v n n) (s.matOf w n n))) }
def execNsiResid (k : Nat) (l : Launch) (t1 t2 : TReg) (p : Nat) (gs : GReg) (s : State) :
    Host.Outcome State Fault Refusal :=
  .next (s.issue k (.nsiResid k l t1 t2 p gs) (doFactor k (.nsiResid k l t1 t2 p gs) gs (planNsiResid t1 t2 p)))

/-- UPD.NS: one Newton–Schulz iteration on the r × k block X in t1, with p in t2 and q in t3 (R198). -/
def planUpdNs (t1 t2 t3 : TReg) : FactorPlan := fun k s =>
  let c := s.core k
  let r := (c.tr t1).rows.toNat
  let m := (c.tr t1).cols.toNat
  let i := (s.owner (clOf k)).getD 0
  let co (off : Nat) : W32 := (s.reg off).truncate 32
  match s.facTile k (c.tr t1) r m true, s.facTile k (c.tr t2) r r true, s.facTile k (c.tr t3) r r true with
  | .error f, _, _ => .error f
  | _, .error f, _ => .error f
  | _, _, .error f => .error f
  | .ok v, .ok w, .ok z =>
    if m < r then .error Cause.tileRange
    else
      match s.tilesBad [v] [v, w, z] with
      | some f => .error f
      | none =>
        .ok { reads := v.bytes, writes := v.bytes ++ w.bytes ++ z.bytes, run := fun s =>
          let x := s.matOf v r m
          let p := prodM x (transposeM x r m) r m r
          let q0 := prodM p p r r r
          let q := mkMat r r fun a b => add32 (mul32 (co (R.nsB i)) (p.at a b)) (mul32 (co (R.nsC i)) (q0.at a b))
          let y := prodM q x r r m
          let x' := mkMat r m fun a b => add32 (mul32 (co (R.nsA i)) (x.at a b)) (y.at a b)
          (((s.putMat w r r p).putMat z r r q).putMat v r m x', none) }
def execUpdNs (k : Nat) (l : Launch) (t1 t2 t3 : TReg) (s : State) : Host.Outcome State Fault Refusal :=
  .next (s.issue k (.updNs k l t1 t2 t3) (doFactor k (.updNs k l t1 t2 t3) 0 (planUpdNs t1 t2 t3)))

/-! ### Supernodes (R214 to R217) -/

/-- The staging area, when an area lies in HBM: 256 KiB of the own cluster buffer (R212). -/
def SnRec.stageArea (x : SnRec) (k : Nat) (used : Bool) : Except Nat (Option Nat) :=
  if used then
    match regionOf k x.stage 0x40000 with
    | some r => if r.own && r.cbuf then .ok (some (r.base + (x.stage - r.start))) else .error Cause.tileRange
    | none => .error Cause.tileRange
  else .ok none

/-- The memory address of element (i, j) of a parent's front of an order, mirrored to the lower triangle (R215). -/
def parentAt (pf order i j : Nat) : Nat :=
  let r := max i j
  let c := min i j
  pf + 8 * (r * order + c)

/-- The resolved areas of a factorisation; `order` is the c + r of the parent, the row length of its front. -/
structure SnAreas where
  front : Nat
  values : Nat
  factor : Nat
  pfront : Nat
  order : Nat
  pmap : Nat
  log : Nat
  stage : Option Nat
deriving DecidableEq, Repr

/-- The order of the parent's front: no field of the child's record gives it, a free value above every position that the
update block goes to (R212, R215, log 14). -/
def State.parentOrder (s : State) (x : SnRec) (pmap : Nat) : Nat :=
  max (Config.frontOrder s.freeCtr % 8193) ((List.range x.r).foldl (fun m t => max m (s.rowMap x.parentMap pmap t + 1)) 1)

/-- The areas of CHOL.SN and LDLT.SN, or the fault of the first that breaks R212. -/
def State.snAreas (s : State) (k : Nat) (x : SnRec) (t3 : Tile) : Except Nat SnAreas := do
  let n := x.n
  let front ← s.area k x.front (8 * n * n)
  let values ← s.area k x.values (4 * n * x.c)
  let factor ← s.area k x.factor (2 * n * x.c)
  let pmap ← if x.parentMap = 0 then .ok 0 else s.area k x.parentMap (4 * x.r)
  let pfront ← if x.parentFront = 0 then .ok 0 else s.area k x.parentFront 8
  let log ← s.area k t3.base.toNat 528
  let stage ← x.stageArea k (inHbm x.front || inHbm x.values || inHbm x.factor || inHbm x.parentFront
    || inHbm x.parentMap)
  return ⟨front, values, factor, pfront, s.parentOrder x pmap, pmap, log, stage⟩

/-- The elements (i, k) of the lower triangle of an update block of r rows, in row-major order. -/
def blockCells (r : Nat) : List (Nat × Nat) := (grid r r).filter fun p => decide (p.2 ≤ p.1)

/-- Element (i, k) of the update block in the parent's front (R215). -/
def State.parentCell (s : State) (x : SnRec) (a : SnAreas) (p : Nat × Nat) : Nat :=
  parentAt a.pfront a.order (s.rowMap x.parentMap a.pmap p.1) (s.rowMap x.parentMap a.pmap p.2)

/-- The parent's elements that the update block touches: none at a root (R215). -/
def State.parentCells (s : State) (x : SnRec) (a : SnAreas) : List Nat :=
  if x.parentFront = 0 then [] else (blockCells x.r).map (s.parentCell x a)

/-- The fault of a parent element that lies outside the areas of R212: it is checked like the front itself. -/
def State.parentFault (s : State) (k : Nat) (x : SnRec) (a : SnAreas) : Option Nat :=
  (s.parentCells x a).findSome? fun p =>
    failed (s.area k (x.parentFront + (p - a.pfront)) 8)

/-- One element of the update block, formed, and added into the parent's front where there is one (R214, R215). -/
def addParent (ldlt : Bool) (cert : Cert) (x : SnRec) (a : SnAreas) (k : Nat) (z : State × Fac) (p : Nat × Nat) : State × Fac :=
  let u := z.2.update ldlt cert x.c (x.c + p.1) (x.c + p.2)
  if x.parentFront = 0 then (z.1, u.2)
  else
    let at_ := z.1.parentCell x a p
    let v := u.2.toParent cert x.c u.1
    let t := v.2.sat 64 (x.c - 1) (sext 64 (z.1.rd at_ 8) + v.1)
    (z.1.coreWrite k at_ (leBytes 8 (wrapInt 64 t.1)), t.2)

/-- The pivot log after regularisations and violations: its header whole, and the entries (R216). -/
def State.pivotLog (s : State) (k a firstCol : Nat) (f : Fac) : State :=
  let reg := s.rd a 4
  let viol := s.rd (a + 4) 4
  let first := if viol ≠ 0 then s.rd (a + 8) 4 else match f.viols with
    | q :: _ => firstCol + q
    | [] => 0xFFFFFFFF
  let s := s.coreWrite k a (leBytes 4 (satInc 32 reg f.regs.length) ++ leBytes 4 (satInc 32 viol f.viols.length) ++
    leBytes 4 first ++ zeros 4)
  forEach ((List.range f.regs.length).zip f.regs) s fun s p =>
    let n := reg + p.1
    if n < 64 then s.coreWrite k (a + 16 + 8 * n) (leBytes 4 (firstCol + p.2.1) ++ leBytes 4 p.2.2.toNat) else s

/-- The pairs of a supernode's lower trapezium, rows 0 to n − 1 and columns 0 to c − 1, row by row. -/
def lowerCells (n c : Nat) : List (Nat × Nat) := (grid n c).filter fun p => decide (p.2 ≤ p.1)

/-- CHOL.SN and LDLT.SN (R214 to R216): assembly of the input values into the front, the columns, the
update block into the parent, FACTOR and FORM, the pivot log and the reports. -/
def runSn (ldlt : Bool) (k : Nat) (x : SnRec) (cert : Cert) (a : SnAreas) (s : State) : State :=
  let n := x.n
  let c := x.c
  let lower := (grid n n).filter fun p => decide (p.2 ≤ p.1)
  let front : IntTab := lower.foldl (fun t p => t.put p.1 p.2 (sext 64 (s.rd (a.front + 8 * (p.1 * n + p.2)) 8))) []
  let f : Fac := { front := front, free := s.freeCtr }
  let f := (lowerCells n c).foldl (fun f p =>
    f.assemble cert p.1 p.2 (BitVec.ofNat 32 (s.rd (a.values + 4 * (p.1 * c + p.2)) 4))) f
  let f0 := f.front
  let f := (List.range c).foldl (fun f q => f.column ldlt cert n q) f
  let s := { s with freeCtr := f.free }
  let s := forEach (lowerCells n c) s fun s p =>
    s.coreWrite k (a.front + 8 * (p.1 * n + p.2)) (leBytes 8 (wrapInt 64 (f0.at p.1 p.2)))
  let s := forEach (grid n c) s fun s p =>
    s.coreWrite k (a.factor + 2 * (p.1 * c + p.2)) (leBytes 2 (wrapInt 16 (if p.2 ≤ p.1 then f.l.at p.1 p.2 else 0)))
  let s := s.coreWrite k (x.at_ + 0xE) [if ldlt then 1 else 0]
  let s := { s with factorE := sput (fun _ => none) s.factorE a.factor (some cert.e), freeCtr := s.freeCtr + 1 }
  let z := (blockCells x.r).foldl (addParent ldlt cert x a k) (s, f)
  let s := z.1.pivotLog k a.log x.firstCol z.2
  let s := forEach z.2.regs s fun s p => s.reportReg k (x.firstCol + p.1) p.2
  let s := forEach z.2.viols s fun s q => s.reportViol k (x.firstCol + q)
  match a.stage with
  | some b => s.scribble b 0x40000
  | none => s

/-- The rows of a lower trapezium of n rows and c columns that lies at an address, elements of w bytes in rows of m. -/
def lowerRows (at_ w m n c : Nat) : List (Nat × Nat) := (List.range n).map fun i => (at_ + w * (i * m), w * min (i + 1) c)

/-- Ranges that a supernode factorisation reads and writes: the lower triangles only (Table 10.2), the parent's elements
and the pivot log's header among them. -/
def snReads (s : State) (x : SnRec) (a : SnAreas) : List (Nat × Nat) :=
  [(x.at_, 128), (a.log, 16)] ++ lowerRows a.front 8 x.n x.n x.n ++ lowerRows a.values 4 x.c x.n x.c
    ++ (if x.parentMap = 0 then [] else [(a.pmap, 4 * x.r)]) ++ (s.parentCells x a).map fun p => (p, 8)
def snWrites (s : State) (x : SnRec) (a : SnAreas) : List (Nat × Nat) :=
  [(x.at_ + 0xE, 1), (a.factor, 2 * x.n * x.c), (a.log, 528)] ++ lowerRows a.front 8 x.n x.n x.c
    ++ ((s.parentCells x a).map fun p => (p, 8)) ++ (match a.stage with | some b => [(b, 0x40000)] | none => [])

/-- The plan of CHOL.SN and LDLT.SN. -/
def planSn (ldlt : Bool) (t1 t2 t3 : TReg) : FactorPlan := fun k s =>
  let c := s.core k
  match s.snRec k (c.tr t1), s.certOf k (c.tr t2) with
  | .error f, _ => .error f
  | _, .error f => .error f
  | .ok x, .ok cert =>
    match s.snAreas k x (c.tr t3) with
    | .error f => .error f
    | .ok a =>
      match s.parentFault k x a, s.rangesBad (snReads s x a) (snWrites s x a) with
      | some f, _ => .error f
      | _, some f => .error f
      | none, none => .ok { reads := snReads s x a, writes := snWrites s x a, run := fun s => (runSn ldlt k x cert a s, none) }

/-- A supernode factorisation issues, but not on a core whose solve is frozen: no later supernode starts (R222). -/
def doSn (k : Nat) (i : Instr) (p : FactorPlan) : Doing := fun tag s => if s.solveFrozen k then .hold else doFactor k i 0 p tag s

/-- CHOL.SN: block fixed-point Cholesky of a supernode. -/
def planCholSn (t1 t2 t3 : TReg) : FactorPlan := planSn false t1 t2 t3
def execCholSn (k : Nat) (l : Launch) (t1 t2 t3 : TReg) (s : State) : Host.Outcome State Fault Refusal :=
  .next (s.issue k (.cholSn k l t1 t2 t3) (doSn k (.cholSn k l t1 t2 t3) (planCholSn t1 t2 t3)))

/-- LDLT.SN: the same in LDLᵀ form. -/
def planLdltSn (t1 t2 t3 : TReg) : FactorPlan := planSn true t1 t2 t3
def execLdltSn (k : Nat) (l : Launch) (t1 t2 t3 : TReg) (s : State) : Host.Outcome State Fault Refusal :=
  .next (s.issue k (.ldltSn k l t1 t2 t3) (doSn k (.ldltSn k l t1 t2 t3) (planLdltSn t1 t2 t3)))

/-- One entry of CHILD_LIST: the child's UPDVEC field, its r and its PARENT_MAP field (Table 10.2). -/
structure Child where
  vec : Nat
  r : Nat
  map : Nat
deriving DecidableEq, Repr

def State.childAt (s : State) (a i : Nat) : Child :=
  let w := s.rd (a + 16 * i) 8
  { vec := (if 2 ^ 63 ≤ w then 2 ^ 63 else 0) + w % 2 ^ 48, r := w / 2 ^ 48 % 2 ^ 15, map := s.rd (a + 16 * i + 8) 8 }

/-- What TRSV.SN solves on: the record, its areas, and the working tile of m columns. -/
structure Trsv where
  x : SnRec
  factor : Nat
  pmap : Nat
  updvec : Nat
  pvec : Nat
  kids : List (Child × Nat × Nat)
  list : Nat
  stage : Option Nat
  y : View
  m : Nat

/-- The exact FP32 value of factor element (i, j): a mantissa m × 2^(E−14) (R213, R217). -/
def State.facVal (s : State) (z : Trsv) (e : Int) (i j : Nat) : W32 :=
  rn (mantVal e (sext 16 (s.rd (z.factor + 2 * (i * z.x.c + j)) 2)))

/-- The forward solve of one column y (R217, p = 0). -/
def State.forward (s : State) (z : Trsv) (e : Int) (col : Nat) (y : List W32) : List W32 :=
  let y := z.kids.foldl (fun y kid =>
    (List.range kid.1.r).foldl (fun y t =>
      let j := s.rowMap kid.1.map kid.2.2 t
      y.set j (add32 (y.getD j 0) (BitVec.ofNat 32 (s.rd (kid.2.1 + 4 * (t * z.m + col)) 4)))) y) y
  (List.range z.x.c).foldl (fun y q =>
    let y := if z.x.form = 0 then y.set q (div32 (y.getD q 0) (s.facVal z e q q)) else y
    (List.range (z.x.n - q - 1)).foldl (fun y t =>
      let i := q + 1 + t
      y.set i (fma32 (neg32 (s.facVal z e i q)) (y.getD q 0) (y.getD i 0))) y) y

/-- The diagonal solve of one column (R217, p = 1). -/
def State.diagonal (s : State) (z : Trsv) (e : Int) (y : List W32) : List W32 :=
  if z.x.form = 1 then (List.range z.x.c).foldl (fun y q => y.set q (div32 (y.getD q 0) (s.facVal z e q q))) y else y

/-- The backward solve of one column (R217, p = 2). -/
def State.backward (s : State) (z : Trsv) (e : Int) (col : Nat) (y : List W32) : List W32 :=
  let y := (List.range z.x.r).foldl (fun y t =>
    y.set (z.x.c + t) (BitVec.ofNat 32 (s.rd (z.pvec + 4 * (s.rowMap z.x.parentMap z.pmap t * z.m + col)) 4))) y
  (List.range z.x.c).reverse.foldl (fun y q =>
    let y := (List.range (z.x.n - q - 1)).foldl (fun y t =>
      let i := q + 1 + t
      y.set q (fma32 (neg32 (s.facVal z e i q)) (y.getD i 0) (y.getD q 0))) y
    if z.x.form = 0 then y.set q (div32 (y.getD q 0) (s.facVal z e q q)) else y) y

/-- TRSV.SN's effect on every column of the working tile; a forward solve also writes UPDVEC. -/
def runTrsv (k p : Nat) (z : Trsv) (e : Int) (s : State) : State :=
  let cols := (List.range z.m).map fun col =>
    let y := (List.range z.x.n).map fun i => s.elem32 z.y i col
    if p = 0 then s.forward z e col y else if p = 1 then s.diagonal z e y else s.backward z e col y
  let s := forEach (grid z.x.n z.m) s fun s q => s.putElem z.y q.1 q.2 ((cols.getD q.2 []).getD q.1 0).toNat
  if p = 0 then
    forEach (grid z.x.r z.m) s fun s q =>
      s.coreWrite k (z.updvec + 4 * (q.1 * z.m + q.2)) (leBytes 4 ((cols.getD q.2 []).getD (z.x.c + q.1) 0).toNat)
  else s

/-- The exponent of the mantissas that TRSV.SN reads: that of the factorisation which wrote the panel (R213), a free value
for a panel that none wrote (log 14). -/
def State.facExp (s : State) (z : Trsv) : Int :=
  (sget (fun _ => none) s.factorE z.factor).getD (Config.factorExponent z.x.index).toInt

/-- The areas of TRSV.SN: FACTOR, and by p the children's vectors and UPDVEC, or the parent's vector. Where one of those
besides FACTOR, which t3 stages, lies in HBM, it goes through STAGE (R212, R217). -/
def State.trsvAreas (s : State) (k p : Nat) (x : SnRec) (y : View) (m : Nat) : Except Nat Trsv := do
  let factor ← s.area k x.factor (2 * x.n * x.c)
  let pmap ← if x.parentMap = 0 then .ok 0 else s.area k x.parentMap (4 * x.r)
  let updvec ← if p = 0 then s.area k x.updvec (4 * x.r * m) else .ok 0
  let rows := (List.range x.r).map fun t => s.rowMap x.parentMap pmap t + 1
  let pvec ← if p = 2 then s.area k x.parentVec (4 * m * rows.foldl max 0) else .ok 0
  let list ← if p = 0 ∧ x.children ≠ 0 then s.area k x.childList (16 * x.children) else .ok 0
  let kids ← (if p = 0 then List.range x.children else []).mapM fun i => do
    let c := s.childAt list i
    let v ← s.area k c.vec (4 * c.r * m)
    let q ← if c.map = 0 then .ok 0 else s.area k c.map (4 * c.r)
    if (List.range c.r).any fun t => decide (x.n ≤ s.rowMap c.map q t) then .error Cause.tileRange
    return (c, v, q)
  let far : Bool := if p = 0 then inHbm x.updvec || (decide (x.children ≠ 0) && inHbm x.childList) || kids.any fun q => inHbm q.1.vec || inHbm q.1.map
    else decide (p = 2) && (inHbm x.parentVec || inHbm x.parentMap)
  let stage ← x.stageArea k far
  return ⟨x, factor, pmap, updvec, pvec, kids, list, stage, y, m⟩

/-- Ranges that TRSV.SN reads besides its tile: the factor's lower triangle, its diagonal for p = 1, and the vectors and
maps that p uses. -/
def trsvReads (s : State) (z : Trsv) (p : Nat) : List (Nat × Nat) :=
  let x := z.x
  [(x.at_, 128)] ++ (if p ≠ 1 then lowerRows z.factor 2 x.c x.n x.c
      else if x.form = 1 then (List.range x.c).map fun q => (z.factor + 2 * (q * x.c + q), 2) else [])
    ++ (if p = 2 then (List.range x.r).map (fun t => (z.pvec + 4 * (s.rowMap x.parentMap z.pmap t * z.m), 4 * z.m)) ++
          (if x.parentMap = 0 then [] else [(z.pmap, 4 * x.r)]) else [])
    ++ (if z.kids.isEmpty then [] else [(z.list, 16 * x.children)])
    ++ z.kids.flatMap fun k => [(k.2.1, 4 * k.1.r * z.m)] ++ if k.1.map = 0 then [] else [(k.2.2, 4 * k.1.r)]

/-- Ranges that TRSV.SN writes besides its tile and t3. -/
def trsvWrites (z : Trsv) (p : Nat) : List (Nat × Nat) :=
  (if p = 0 then [(z.updvec, 4 * z.x.r * z.m)] else []) ++ match z.stage with | some b => [(b, 0x40000)] | none => []

/-- TRSV.SN on the record t1 and the FP32 working tile t2 of c + r rows and 1 to 4,096 columns; t3 is
staging of at least 64 KiB when FACTOR lies in HBM, and holds free values afterwards (R217). -/
def planTrsvSn (t1 t2 t3 : TReg) (p : Nat) : FactorPlan := fun k s =>
  let c := s.core k
  match s.snRec k (c.tr t1) with
  | .error f => .error f
  | .ok x =>
    let m := (c.tr t2).cols.toNat
    let tw := c.tr t3
    match s.facTile k (c.tr t2) x.n m true,
        (if inHbm x.factor then s.view k tw false else s.facTile k (c.tr t2) x.n m true) with
    | .error f, _ => .error f
    | _, .error f => .error f
    | .ok y, .ok st =>
      if 1 < x.form ∨ 4096 < m ∨ (inHbm x.factor ∧ tw.cr * tw.cc * tw.size < 0x10000) then .error Cause.tileRange
      else
        match s.trsvAreas k p x y m with
        | .error f => .error f
        | .ok z =>
          match s.tilesBad [y] [y], s.rangesBad (trsvReads s z p) (trsvWrites z p) with
          | some f, _ => .error f
          | _, some f => .error f
          | none, none =>
            .ok { reads := y.bytes ++ trsvReads s z p,
                  writes := y.bytes ++ trsvWrites z p ++ (if inHbm x.factor then st.bytes else []), run := fun s =>
              let s := if inHbm x.factor then st.cells.foldl (fun s a => s.scribble a tw.size) s else s
              let s := runTrsv k p z (s.facExp z) s
              (match z.stage with | some b => s.scribble b 0x40000 | none => s, none) }
def execTrsvSn (k : Nat) (l : Launch) (t1 t2 t3 : TReg) (p : Nat) (s : State) : Host.Outcome State Fault Refusal :=
  .next (s.issue k (.trsvSn k l t1 t2 t3 p) (doFactor k (.trsvSn k l t1 t2 t3 p) 0 (planTrsvSn t1 t2 t3 p)))

/-! ### REFINE (R218) -/

/-- A row block of the sparse mode: FIRST_ROW, ROWS, and the addresses of the row pointers, column
indices and values; pointers and indices are taken as 4-byte words (log 15). -/
structure RowBlock where
  at_ : Nat
  first : Nat
  rows : Nat
  ptr : Nat
  idx : Nat
  val : Nat
deriving DecidableEq, Repr

/-- The row-block record at t1.BASE with its areas resolved. -/
def State.rowBlock (s : State) (k : Nat) (t : Tile) : Except Nat RowBlock := do
  let a ← s.area k t.base.toNat 32
  let rows := s.rd (a + 4) 4
  let ptr ← s.area k (s.rd (a + 8) 8) (4 * (rows + 1))
  let nnz := (List.range (rows + 1)).foldl (fun m i => max m (s.rd (ptr + 4 * i) 4)) 0
  let idx ← s.area k (s.rd (a + 16) 8) (4 * nnz)
  let val ← s.area k (s.rd (a + 24) 8) (4 * nnz)
  if s.poisoned a 32 then .error (uncorrAt a)
  return ⟨a, s.rd a 4, rows, ptr, idx, val⟩

/-- The ranges of a row block: its record, its row pointers, and the indices and values of its rows. -/
def State.rowRanges (s : State) (b : RowBlock) : List (Nat × Nat) :=
  [(b.at_, 32), (b.ptr, 4 * (b.rows + 1))] ++ (List.range b.rows).flatMap fun t =>
    let lo := s.rd (b.ptr + 4 * t) 4
    let n := s.rd (b.ptr + 4 * (t + 1)) 4 - lo
    [(b.idx + 4 * lo, 4 * n), (b.val + 4 * lo, 4 * n)]

/-- Stored entries of row t of a block: column and value. -/
def State.rowEntries (s : State) (b : RowBlock) (t : Nat) : List (Nat × W32) :=
  let lo := s.rd (b.ptr + 4 * t) 4
  let hi := s.rd (b.ptr + 4 * (t + 1)) 4
  (List.range (hi - lo)).map fun n =>
    (s.rd (b.idx + 4 * (lo + n)) 4, BitVec.ofNat 32 (s.rd (b.val + 4 * (lo + n)) 4))

/-- REFINE: the sparse residual of a row block, or the dense residual and correction (R218). -/
def planRefine (t1 t2 t3 t4 : TReg) : FactorPlan := fun k s =>
  let c := s.core k
  let a := c.tr t1
  if a.fmt = 5 then
    let xt := c.tr t2
    let m := xt.cols.toNat
    match s.rowBlock k a, s.facTile k xt xt.rows.toNat m false, s.facTile k (c.tr t3) (c.tr t3).rows.toNat m false,
        s.facTile k (c.tr t4) (c.tr t4).rows.toNat m true with
    | .error f, _, _, _ => .error f
    | _, .error f, _, _ => .error f
    | _, _, .error f, _ => .error f
    | _, _, _, .error f => .error f
    | .ok b, .ok x, .ok r, .ok z =>
      let last := b.first + b.rows
      let reads := s.rowRanges b
      if (c.tr t3).rows.toNat < last ∨ (c.tr t4).rows.toNat < last
          ∨ (List.range b.rows).any fun t => (s.rowEntries b t).any fun e => decide (xt.rows.toNat ≤ e.1) then
        .error Cause.tileRange
      else
        match s.tilesBad [x, r] [z], s.rangesBad reads [] with
        | some f, _ => .error f
        | _, some f => .error f
        | none, none =>
          .ok { reads := x.bytes ++ r.bytes ++ reads, writes := z.bytes, run := fun s =>
            let vals := (grid b.rows m).map fun p =>
              (p, sub32 (s.elem32 r (b.first + p.1) p.2)
                (prodElem ((s.rowEntries b p.1).map fun e => (e.2, s.elem32 x e.1 p.2))))
            (forEach vals s fun s q => s.putElem z (b.first + q.1.1) q.1.2 q.2.toNat, none) }
  else
    let n := a.rows.toNat
    match s.facTile k a n n false, s.facTile k (c.tr t2) n n true, s.facTile k (c.tr t3) n n false,
        s.facTile k (c.tr t4) n n true with
    | .error f, _, _, _ => .error f
    | _, .error f, _, _ => .error f
    | _, _, .error f, _ => .error f
    | _, _, _, .error f => .error f
    | .ok v, .ok x, .ok b, .ok z =>
      match s.tilesBad [v, x, b] [x, z] with
      | some f => .error f
      | none =>
        .ok { reads := v.bytes ++ x.bytes ++ b.bytes, writes := x.bytes ++ z.bytes, run := fun s =>
          let xm := s.matOf x n n
          let p := prodM (s.matOf v n n) xm n n n
          let bm := s.matOf b n n
          let r := mkMat n n fun i j => sub32 (bm.at i j) (p.at i j)
          let q := prodM xm r n n n
          ((s.putMat z n n r).putMat x n n (mkMat n n fun i j => add32 (xm.at i j) (q.at i j)), none) }
def execRefine (k : Nat) (l : Launch) (t1 t2 t3 t4 : TReg) (s : State) : Host.Outcome State Fault Refusal :=
  .next (s.issue k (.refine k l t1 t2 t3 t4) (doFactor k (.refine k l t1 t2 t3 t4) 0 (planRefine t1 t2 t3 t4)))

end Sys2Proof.Machine
end

