-- ==== Sys2Proof/Machine/Gang.lean ====
section
/-! DEFINITION. The gang controller (R70, R84, R93, R127 to R133): GANG and the change of shape, the
start of a ganged pass, and the passes that leave the array. -/

namespace Sys2Proof.Machine

/-- GANG (R132), compared with core (0,0)'s whatever the shape (R93): an equal shape with no change pending has no
effect; another shape goes to the shadow register, and the core issues no matrix, factor or UPD.NS instruction, and no
second GANG, until the change (R70). -/
def doGang (k : Nat) (i : Instr) (shape : Nat) : Doing := fun _ s =>
  let c := s.core k
  let cl := clOf k
  if !c.ganged then .fault Cause.gangMismatch
  else if c.gangWait then .hold
  else
    s.gangCompare k (c.gangKey i) fun s =>
      let u := s.cluster cl
      if shape = u.shape ∧ ¬u.pending then .next s
      else
        let u := if u.pending then u else { u with shadow := shape, pending := true }
        .next ((s.setCluster cl { u with gangIssued := u.gangIssued ++ [(idxOf k, i)] }).setCore k
          { s.core k with gangWait := true })
def execGang (k : Nat) (l : Launch) (shape : Nat) (s : State) : Host.Outcome State Fault Refusal :=
  .next (s.issue k (.gang k l shape) (doGang k (.gang k l shape) shape))

/-- The cores of a cluster, in index order. -/
def clusterCores (cl : Nat) : List Nat := (List.range 256).map fun x => cl * 256 + x

/-- GANG_SHAPE_CHANGE: at a gang pass boundary after all 256 cores have issued the GANG, the new shape
becomes active; cores whose GANG differs from that of core (0,0) fault instead (R70, R93). -/
def gangShapeChange (cl : Nat) (s : State) : State :=
  let u := s.cluster cl
  if u.pending ∧ u.gangIssued.length = 256 ∧ ¬u.inFlight then
    let of0 := (u.gangIssued.find? fun e => e.1 = 0).bind fun e => encode e.2
    let bad := u.gangIssued.filter fun e => decide (encode e.2 ≠ of0)
    if bad.isEmpty then
      let s := s.setCluster cl { u with shape := u.shadow, shadow := 0, pending := false, gangIssued := [] }
      forEach (clusterCores cl) s fun s k => s.setCore k { s.core k with gangWait := false }
    else s.faultMany cl (bad.map fun e => (cl * 256 + e.1, Cause.gangMismatch, 6))
  else s
def execGangShapeChange (cl : Nat) (s : State) : Host.Outcome State Fault Refusal := .next (gangShapeChange cl s)

/-! ### What a ganged pass is -/

/-- The plan and gs of a factor operation. -/
def factorPlanOf : Instr → Option (FactorPlan × GReg)
  | .nsiScale _ _ t1 t2 p gs => some (planNsiScale t1 t2 p gs, gs)
  | .nsiStep _ _ t1 t2 t3 p => some (planNsiStep t1 t2 t3 p, 0)
  | .nsiResid _ _ t1 t2 p gs => some (planNsiResid t1 t2 p, gs)
  | .cholSn _ _ t1 t2 t3 => some (planCholSn t1 t2 t3, 0)
  | .ldltSn _ _ t1 t2 t3 => some (planLdltSn t1 t2 t3, 0)
  | .trsvSn _ _ t1 t2 t3 p => some (planTrsvSn t1 t2 t3 p, 0)
  | .refine _ _ t1 t2 t3 t4 => some (planRefine t1 t2 t3 t4, 0)
  | .updNs _ _ t1 t2 t3 => some (planUpdNs t1 t2 t3, 0)
  | _ => none

/-- Whether an instruction is carried out by all cores of a ganged cluster together: G = 1, a factor
operation or UPD.NS (R93). -/
def joins : Instr → Bool
  | .mmaF16 _ _ _ _ _ _ _ g | .mmaF32 _ _ _ _ _ _ _ g | .mmaI16 _ _ _ _ _ _ _ g
  | .mmaOut _ _ _ _ _ _ _ _ g | .mmaOuts _ _ _ _ _ _ _ _ _ g => g
  | i => (factorPlanOf i).isSome

/-- The descriptors of a ganged matrix pass as core c names them: ta, tb and tc. -/
def Core.passTiles (c : Core) (i : Instr) : List Tile :=
  match mmaOf i, outOf i with
  | some m, _ => [c.tr m.2.2.1, c.tr m.2.2.2.1, c.tr m.2.2.2.2.1]
  | _, some o => [c.tr o.2.1, c.tr o.2.2.1] ++ o.2.2.2.1.toList.map fun t => c.tr t
  | none, none => []

/-- Tile n of the core with index x in a pass, and its key registers. -/
def GangPass.tile (p : GangPass) (x n : Nat) : Tile := (p.tiles.getD x []).getD n {}

/-- The placed operands of core k's part of an accumulating pass with these descriptors. -/
def State.mmaViews (s : State) (k shape : Nat) (i : Instr) (ts : List Tile) : Option (View × View × Option View) :=
  match mmaOf i with
  | some m => (s.mmaCheck k {} m.2.1 (ts.getD 0 {}) (ts.getD 1 {}) (ts.getD 2 {}) m.2.2.2.2.2 (shareOf shape (idxOf k))).toOption
  | none => none

/-- The placed operands of core k's part of an output pass with these descriptors. -/
def State.outViews (s : State) (k shape : Nat) (i : Instr) (ts : List Tile) : Option (View × Option View × Option View) :=
  match outOf i with
  | some o => (s.outCheck k ((s.core k).acc' o.1) (ts.getD 0 {}) (ts.getD 1 {}) (ts[2]?) o.2.2.2.2.2.1 (shareOf shape (idxOf k))).toOption
  | none => none

/-- The bytes of core k's part of a ganged pass with these descriptors. -/
def State.partFoot (s : State) (k shape : Nat) (i : Instr) (ts : List Tile) : Foot :=
  match s.mmaViews k shape i ts, s.outViews k shape i ts, factorPlanOf i with
  | some v, _, _ => { reads := mmaReads v, writes := mmaWrites v }
  | _, some v, _ => { reads := outReads v, writes := outWrites v }
  | _, _, some p =>
    match p.1 k s with
    | .ok o => { reads := o.reads, writes := o.writes }
    | .error _ => {}
  | _, _, _ => {}

/-! ### Start of a ganged pass (R84) -/

/-- CHOL.SN and LDLT.SN: none starts on a core whose solve is frozen (R222). -/
def startsSn : Instr → Bool
  | .cholSn .. | .ldltSn .. => true
  | _ => false

/-- The held ganged pass of a core that may start, if it has one: the core's own matrix and factor slots are free. -/
def State.readyGang (s : State) (k : Nat) : Option Instr :=
  let c := s.core k
  match c.held with
  | some i =>
    let full : Bool := match mmaOf i with
      | some m => !m.2.1.intg && c.tapFull
      | none => false
    let busy (e : Nat) : Bool := (c.slots' e).running.isSome || (c.slots' e).queued.isSome
    if c.st = .running ∧ joins i ∧ ¬c.gangWait ∧ ¬c.boundary ∧ ¬s.resumeHolds k ∧ ¬(startsSn i ∧ s.solveFrozen k) ∧ ¬s.traceHolds k ∧ ¬full ∧ ¬busy 1 ∧ ¬busy 5 then some i else none
  | none => none

/-- The cause and engine of the fault of a core's own part of a ganged pass, if it has one. The descriptors of a factor
operation are core (0,0)'s, so that every core raises their fault together; core (0,0) alone meets an uncorrectable
word of them (R93, R130). -/
def State.gangPartFault (s : State) (k shape : Nat) (i : Instr) : Option (Nat × Nat × Nat) :=
  let c := s.core k
  let sh := shareOf shape (idxOf k)
  match mmaOf i, outOf i, factorPlanOf i with
  | some m, _, _ =>
    match s.mmaCheck k (c.acc' m.1) m.2.1 (c.tr m.2.2.1) (c.tr m.2.2.2.1) (c.tr m.2.2.2.2.1) m.2.2.2.2.2 sh with
    | .error f => some (k, f, causeEngine f 1)
    | .ok v => (v.2.2.bind s.viewBad).map fun f => (k, f, causeEngine f 1)
  | _, some o, _ =>
    match s.outCheck k (c.acc' o.1) (c.tr o.2.1) (c.tr o.2.2.1) (o.2.2.2.1.map fun t => c.tr t) o.2.2.2.2.2.1 sh with
    | .error f => some (k, f, causeEngine f 1)
    | .ok v =>
      (v.2.2.bind s.viewBad).map (fun f => (k, f, causeEngine f 1)) <|>
        (if idxOf k = 0 then (s.outBad v).map fun f => (k, f, 6) else none)
  | _, _, some p =>
    let k0 := clOf k * 256
    (failed (p.1 k0 s)).bind fun f => if k = k0 ∨ (Cause.word f).isNone then some (k, f, causeEngine f 5) else none
  | none, none, none => none

/-- The first product step, from step `n` on, whose A column or B row meets an uncorrectable word, and that word (R133). -/
def State.firstBad (s : State) (v : View × View × Option View) (n : Nat) : Option (Nat × Nat) :=
  if s.bad.isEmpty then none
  else ((List.range v.1.t.cols.toNat).drop n).findSome? fun q =>
    (((List.range v.1.t.rows.toNat).findSome? fun i => s.badWord (v.1.at i q) v.1.t.size) <|>
      ((List.range v.2.1.t.cols.toNat).findSome? fun j => s.badWord (v.2.1.at q j) v.2.1.t.size)).map fun w => (q, w)

/-- The data effect of an accumulating ganged pass on every core, `m` products of it (R129, R133). -/
def State.gangAccum (s : State) (cl : Nat) (p : GangPass) (m : Nat) : State :=
  match mmaOf p.op with
  | none => s
  | some o =>
    forEach (clusterCores cl) s fun s k =>
      match s.mmaViews k p.shape p.op (p.tiles.getD (idxOf k) []) with
      | none => s
      | some v =>
        match s.applyMma k o.1 o.2.1 v o.2.2.2.2.2 m (shareOf p.shape (idxOf k)) with
        | .ok s => s
        | .error f => s.fault k f (causeEngine f 1)

/-- The captures of a ganged floating pass by the armed taps (R129, R160). -/
def State.gangCapture (s : State) (cl shape : Nat) (i : Instr) : State :=
  match mmaOf i with
  | none => s
  | some m =>
    if m.2.1.intg then s
    else forEach (clusterCores cl) s fun s k =>
      s.capture k ((s.core k).tr m.2.2.1) ((s.core k).tr m.2.2.2.1) (decide (m.2.1 = kindF32)) (shareOf shape (idxOf k))

/-- The data effect of a ganged output pass: every share is computed before any is stored (R130). -/
def State.gangOut (s : State) (cl : Nat) (p : GangPass) : State :=
  match outOf p.op with
  | none => s
  | some o =>
    let views (s : State) (k : Nat) := s.outViews k p.shape p.op (p.tiles.getD (idxOf k) [])
    let s := forEach (clusterCores cl) s fun s k =>
      match views s k with
      | none => s
      | some v =>
        match s.settleFolds k (outReads v) (outWrites v) with
        | .ok s => s
        | .error f => s.fault k f (causeEngine f 1)
    let res := (clusterCores cl).filterMap fun k =>
      (views s k).map fun v =>
        let ctl := outCtl o.2.2.2.2.1 o.2.2.2.2.2.1 (p.keys.getD (idxOf k) []) (s.seedOf k) (s.stepOf k)
        (k, v, s.outAll ctl v.1 v.2.1 v.2.2 (shareOf p.shape (idxOf k)) ((s.core k).acc' o.1))
    forEach res s fun s r => s.outStore r.1 o.1 r.2.1.1 r.2.1.2.2 (shareOf p.shape (idxOf r.1)) r.2.2

/-- The data effect of a factor operation in a ganged cluster: once, on core (0,0)'s operands, after the folds that its
accesses conflict with on any core (R162); every core's gs receives its result (log 16). -/
def State.gangFactor (s : State) (cl : Nat) (i : Instr) : State :=
  match factorPlanOf i with
  | none => s
  | some p =>
    let k0 := cl * 256
    let f := s.partFoot k0 0 i []
    let s := forEach (clusterCores cl) s fun s k =>
      match s.settleFolds k f.reads f.writes with
      | .ok s => s
      | .error f => s.fault k f (causeEngine f 4)
    match s.runFactor k0 p.1 with
    | .error f => s.fault k0 f (causeEngine f 5)
    | .ok r => forEach (clusterCores cl) r.1 fun s k => s.putGs k p.2 r.2

/-- A slip of a ganged pass: counted once, by the gang controller (R131). One that held issue until now is the earlier
instruction of rule 2 for every core. -/
def State.gangSlip (s : State) (cl : Nat) (i : Instr) (target : W64) (tag : Tag) (held : Bool) : State :=
  let n := (s.beat - target).toNat
  let u := s.cluster cl
  let s := s.setCluster cl { u with eng := u.eng.slip tag.1 n tag.2 }
  let s := if held then forEach (clusterCores cl) s fun s k => s.setCore k { s.core k with lastSlip := some (s.beat, tag.1) } else s
  let s := s.trace (cl * 256) 2 (clsOp i) n (tag.1 + tag.2.toNat * 8)
  match (s.core (cl * 256)).prog with
  | some p => s.modLaunch p.id (·.slip tag.1 n tag.2)
  | none => s

/-- Whether a ganged pass may take the running slot: output passes wait for passes into their set (R126), and every
pass for the tap folds that the cores' arrays are busy with (R164). -/
def State.gangReady (s : State) (cl : Nat) (p : GangPass) : Bool :=
  let waits : Bool := match outOf p.op with
    | some o => (s.cluster cl).gangTail.any fun q => decide (setOf q.op = some o.1)
    | none => false
  !waits && (s.coresIn cl).all fun k => decide ((s.core k).folding = 0)

/-- A ganged pass takes the running slot: it slips where its target beat has passed, an output pass stores its tile,
and an accumulating pass begins entry (R131, R133). -/
def State.gangBegin (s : State) (cl : Nat) (p : GangPass) (held : Bool) : State :=
  let bad := (s.mmaViews (cl * 256) p.shape p.op (p.tiles.getD 0 [])).bind fun v => (s.firstBad v 0).map (·.1)
  let s := s.setCluster cl { s.cluster cl with gangRun := some { p with badAt := bad, tag := s.ownTag p.target p.late } }
  let s := match p.target with
    | some t => if t < s.beat then s.gangSlip cl p.op t p.late.tag held else s
    | none => s
  s.gangOut cl p

/-- A ganged pass takes the gang controller's running or queued slot (R81, R131). -/
def State.enterGang (s : State) (cl : Nat) (p : GangPass) : State :=
  let u := s.cluster cl
  if u.gangRun.isNone ∧ u.gangQueued.isNone ∧ s.gangReady cl p then s.gangBegin cl p true
  else s.setCluster cl { u with gangQueued := some p }

/-- The queued ganged pass begins when the running slot is free (R125, R131). -/
def State.promoteGang (s : State) (cl : Nat) : State :=
  let u := s.cluster cl
  match u.gangRun, u.gangQueued with
  | none, some p =>
    if s.gangReady cl p then (s.setCluster cl { u with gangQueued := none }).gangBegin cl p false else s
  | _, _ => s

/-- Why a ganged pass is late (R43, R131): by rules 1 and 2 as core (0,0) has them, DESIGN CHOICE (log 47); else by the
hold of a debugger or of trace, or the last of the inputs, that any of its cores waited for. -/
def State.gangLate (s : State) (cl : Nat) (target : Option W64) : Late :=
  let cs := (clusterCores cl).map s.core
  let last := cs.foldl (fun (x : Option (W64 × Tag)) c => match x, c.heldInput with
    | some a, some b => if a.1 < b.1 then some b else some a
    | none, y => y
    | x, none => x) none
  let inp : InputTag :=
    if cs.any (·.dbgHeld) then { late := true, cause := 7, prop := false }
    else match last with
      | some (b, z) => { late := target.any fun t => decide (t < b), cause := z.1, prop := z.2 }
      | none => {}
  (s.core (cl * 256)).lateness target inp

/-- The pass starts on all cores: it is issued on every core with the registers it has there, its captures and the
kind of its set are fixed, a factor operation runs, and it takes a slot. -/
def State.startGang (s : State) (cl : Nat) (i : Instr) (foot : Foot) : State :=
  let k0 := cl * 256
  let shape := (s.cluster cl).shape
  let target := (s.core k0).target i
  let held := (clusterCores cl).map fun k => (k, (s.core k).held)
  let p : GangPass :=
    { op := i, tiles := held.map fun e => (e.2.map (s.core e.1).passTiles).getD [],
      keys := held.map fun e => match e.2.bind outOf with
        | some o => (s.core e.1).tapKeys o.2.2.2.2.2.2.val
        | none => [],
      shape := shape, target := target, late := s.gangLate cl target, foot := foot }
  let s := match mmaOf i with
    | some m => forEach (clusterCores cl) s fun s k =>
        s.setCore k ((s.core k).setAcc m.1 { (s.core k).acc' m.1 with kind := if m.2.1.intg then .integer else .floating })
    | none => s
  let s := (s.gangCapture cl shape i).gangFactor cl i
  let s := forEach held s fun s e =>
    match e.2 with
    | some j => (s.countIssue e.1 j).moveOn e.1 false
    | none => s
  s.enterGang cl p

/-- GANGED_PASS_START: all 256 cores have issued a ganged pass and the target beat of core (0,0) is
reached. Passes that differ from core (0,0)'s fault with GANG_MISMATCH, and cores whose own part breaks
a rule fault with its cause (R84, R93, R130). A core whose earlier passes, or ganged passes in flight, still hold bytes
that its part needs makes all wait (R38, R82). -/
def gangedPassStart (cl : Nat) (s : State) : State :=
  let u := s.cluster cl
  let k0 := cl * 256
  let l := (clusterCores cl).map fun k => (k, s.readyGang k)
  match s.readyGang k0 with
  | none => s
  | some i =>
    let reached : Bool := match (s.core k0).target i with | some t => !decide (s.beat < t) | none => true
    if u.shape = 0 ∨ (u.gangRun.isSome ∧ u.gangQueued.isSome) ∨ ¬reached ∨ l.any (fun e => e.2.isNone) then s
    else
      let key (e : Nat × Option Instr) := e.2.map fun j => (s.core e.1).gangKey j
      let bad := l.filter fun e => decide (key e ≠ key (k0, some i))
      if !bad.isEmpty then s.faultMany cl (bad.map fun e => (e.1, Cause.gangMismatch, 6))
      else
        let faults := l.filterMap fun e => e.2.bind fun j => s.gangPartFault e.1 u.shape j
        if !faults.isEmpty then s.faultMany cl faults
        else
          let feet := l.filterMap fun e => e.2.map fun j =>
            (e.1, if (factorPlanOf j).isSome then s.partFoot k0 u.shape i [] else s.partFoot e.1 u.shape j ((s.core e.1).passTiles j))
          let waits (e : Nat × Foot) : Bool :=
            (s.core e.1).waitsFor none ((s.core e.1).seq + 1) e.2 ||
              ((factorPlanOf i).isSome && u.passes.any fun p => e.2.clash p.foot)
          if feet.any waits then
            forEach feet s fun s e => s.setCore e.1 { s.core e.1 with heldFoot := e.2 }
          else
            s.startGang cl i { reads := feet.flatMap (·.2.reads), writes := feet.flatMap (·.2.writes) }
def execGangedPassStart (cl : Nat) (s : State) : Host.Outcome State Fault Refusal := .next (gangedPassStart cl s)

/-! ### The feed and the end of passes -/

/-- A ganged pass has completed: the gang controller counts it (Table 16.1), and it is an input of what waited for its
bytes on any core (R38, R84). -/
def State.gangDone (s : State) (cl : Nat) (p : GangPass) : State :=
  let u := s.cluster cl
  let s := s.setCluster cl { u with eng := { u.eng with extra := satInc 32 u.eng.extra 1 } }
  let s := forEach (s.coresIn cl) s fun s k => s.inputDone k (if (factorPlanOf p.op).isSome then 5 else 1) p.foot p.tag
  s.promoteGang cl

/-- GANG_FEED_UNCORRECTABLE: entry of the running pass stops where the feed meets an uncorrectable
word, after `entered` product steps: the products already entered are completed on every core, and the sets keep those
sums; core (0,0) records CBUF_UNCORRECTABLE with ENGINE 6, and the others fault with GANG_PEER (R133). A word that was
bad when entry began is met when its step comes. DESIGN CHOICE (log 47): a pass that is queued behind is given up, as one
whose entry has not begun. -/
def gangFeedUncorrectable (cl entered : Nat) (s : State) : State :=
  let u := s.cluster cl
  let k0 := cl * 256
  match u.gangRun with
  | none => s
  | some p =>
    match (s.mmaViews k0 p.shape p.op (p.tiles.getD 0 [])).bind fun v => s.firstBad v entered with
    | none => s
    | some (q, w) =>
      if q = entered ∧ ¬p.badAt.any (fun n => decide (n < entered)) then
        let s := (s.setCluster cl { u with gangRun := none, gangQueued := none }).gangAccum cl p entered
        s.faultMany cl [(k0, Cause.atWord Cause.cbufUncorr w, 6)]
      else s
def execGangFeedUncorrectable (cl entered : Nat) (s : State) : Host.Outcome State Fault Refusal :=
  .next (gangFeedUncorrectable cl entered s)

/-- A drain timeout holds the ganged passes of a cluster suspended until its cores resume (R343). -/
def State.gangSuspended (s : State) (cl : Nat) : Bool := (s.coresIn cl).any fun k => (s.core k).suspended

/-- The last operand of the running ganged pass enters: an accumulating pass has its products in the sets, an output
pass is complete (R126, R131). -/
def State.gangEntryEnd (s : State) (cl : Nat) : State :=
  let u := s.cluster cl
  match u.gangRun with
  | none => s
  | some p =>
    if p.badAt.isSome ∨ (factorPlanOf p.op).isSome ∨ s.gangSuspended cl then s
    else if staysInFlight p.op then
      ((s.setCluster cl { u with gangRun := none, gangTail := u.gangTail ++ [p] }).gangAccum cl p
        (p.tile 0 0).cols.toNat).promoteGang cl
    else (s.setCluster cl { u with gangRun := none }).gangDone cl p

/-- The oldest ganged pass in flight completes (R131). -/
def State.gangPassEnd (s : State) (cl : Nat) : State :=
  let u := s.cluster cl
  match u.gangTail with
  | [] => s
  | p :: r => if s.gangSuspended cl then s else (s.setCluster cl { u with gangTail := r }).gangDone cl p

/-- MATRIX_ENTRY_END: the last operand of the running pass enters; its slot goes to the queued pass (R125). -/
def matrixEntryEnd (u : Nat) (gang : Bool) (s : State) : State := if gang then s.gangEntryEnd u else s.entryEnd u
def execMatrixEntryEnd (u : Nat) (gang : Bool) (s : State) : Host.Outcome State Fault Refusal :=
  .next (matrixEntryEnd u gang s)

/-- MATRIX_PASS_COMPLETE: F operation cycles later the pass is done (R125). -/
def matrixPassComplete (u : Nat) (gang : Bool) (s : State) : State := if gang then s.gangPassEnd u else s.passEnd u
def execMatrixPassComplete (u : Nat) (gang : Bool) (s : State) : Host.Outcome State Fault Refusal :=
  .next (matrixPassComplete u gang s)

/-- TAP_FOLD_COMPLETE: the oldest fold under way ends its array cycles and frees its entry; what waited for its bytes
or for the array goes on (R82, R164). -/
def tapFoldComplete (k : Nat) (s : State) : State :=
  let c := s.core k
  match c.tapQ with
  | e :: r =>
    if c.folding = 0 ∨ c.suspended then s
    else
      let s := (s.setCore k { c with tapQ := r, folding := c.folding - 1 }).inputDone k 4 e.foot (0, false)
      let s := (if e.auto then s.autoFoldDone k else s).goOn k
      let cl := clOf k
      let u := s.cluster cl
      let hear (p : GangPass) : GangPass := if e.auto then { p with late := p.late.hear s.beat p.target (4, false) } else p
      (s.setCluster cl { u with gangQueued := u.gangQueued.map hear }).promoteGang cl
  | [] => s
def execTapFoldComplete (k : Nat) (s : State) : Host.Outcome State Fault Refusal := .next (tapFoldComplete k s)

/-- Whether a factor operation is of the factor class, which the factor engine counts (Table 16.1). -/
def countsFactor : Instr → Bool
  | .updNs .. => false
  | _ => true

/-- A core of a frozen solve whose CHOL.SN or LDLT.SN has completed is at a supernode boundary and issues
nothing further (R222). -/
def State.markBoundary (s : State) (k : Nat) : State :=
  if s.solveFrozen k then s.setCore k { s.core k with boundary := true } else s

/-- FACTOR_OP_COMPLETE: the running factor operation completes its passes and frees its slot (R126). -/
def factorOpComplete (u : Nat) (gang : Bool) (s : State) : State :=
  if gang then
    let c := s.cluster u
    match c.gangRun with
    | none => s
    | some p =>
      if (factorPlanOf p.op).isSome && !s.gangSuspended u then
        let s := s.setCluster u { c with gangRun := none }
        let s := if countsFactor p.op then forEach (clusterCores u) s fun s k => s.countExtra k 5 else s
        let s := if countsFactor p.op then forEach (clusterCores u) s State.markBoundary else s
        s.gangDone u p
      else s
  else
    match ((s.core u).slots' 5).running with
    | some p =>
      if (s.core u).suspended then s
      else
        let s := s.passDone u 5 (countsFactor p.op)
        if countsFactor p.op then s.markBoundary u else s
    | none => s
def execFactorOpComplete (u : Nat) (gang : Bool) (s : State) : Host.Outcome State Fault Refusal :=
  .next (factorOpComplete u gang s)

end Sys2Proof.Machine
end

