-- ==== Sys2Proof/Machine/Check.lean ====
section
/-! DEFINITION. The check and digest class, UPD.NF and the counter and debug class (R100 to R102, R193,
R302, R336, Table 4.15). -/

namespace Sys2Proof.Machine

/-- A tile to be examined: placed, readable, and with the folds it conflicts with done (R101, R136). -/
def examine (k : Nat) (t : TReg) (go : State → View → Act) : Doing := fun _ s =>
  match s.view k ((s.core k).tr t) false with
  | .error f => .fault f
  | .ok v =>
    match s.viewBad v with
    | some f => .fault f
    | none =>
      match s.settleTap k v.bytes [] with
      | .error f => .fault f
      | .ok s => go s v

/-- The footprint elements of a tile in row-major order (R101). -/
def View.indices (v : View) : List (Nat × Nat) := grid v.t.cr v.t.cc

/-- The tile check: CRC-64 over the stored bytes of the footprint elements (R101). -/
def State.tileCheck (s : State) (v : View) : W64 :=
  crc64 0 (v.cells.flatMap fun a => s.rbs a v.t.size)

/-- TCHK: pair g receives the tile check of t1. -/
def doTchk (k : Nat) (t1 : TReg) (g : GReg) : Doing := examine k t1 fun s v =>
  .next (s.setCore k ((s.core k).setPair g (s.tileCheck v)))
def execTchk (k : Nat) (l : Launch) (t1 : TReg) (g : GReg) (s : State) : Host.Outcome State Fault Refusal :=
  .next (s.issue k (.tchk k l t1 g) (doTchk k t1 g))

/-- Whether an element's magnitude exceeds an FP32 bound (Table 4.15). DESIGN CHOICE (log 55): the magnitude of an FP32-pair
element is that of hi + lo rounded to FP32, as every other reader of a pair takes it. -/
def exceeds (f raw : Nat) (bound : W32) : Bool :=
  let x : Fl := if fmtInt f then .fin false (elemInt f raw).natAbs 0 else flAbs (elemFl f raw)
  match flCmp x (f32 bound) with
  | none => true
  | some o => decide (o = .gt)

/-- CHK.RANGE: g receives 1 if any element exceeds the bound in gs, which fails the core's step
contribution (R302), else 0. -/
def doChkRange (k : Nat) (t1 : TReg) (g gs : GReg) : Doing := examine k t1 fun s v =>
  let hit := v.indices.any fun p => exceeds v.t.fmt (s.elem v p.1 p.2) ((s.core k).gr gs)
  let s := s.setCore k ((s.core k).setG g (if hit then 1 else 0))
  .next (if hit then (s.raise 3 St.plausibility .upd 2 (coreUid k 3 0) (s.instOf k)).failCore k (coreUid k 3 0) else s)
def execChkRange (k : Nat) (l : Launch) (t1 : TReg) (g gs : GReg) (s : State) : Host.Outcome State Fault Refusal :=
  .next (s.issue k (.chkRange k l t1 g gs) (doChkRange k t1 g gs))

/-- The position of a tile's first non-finite element, if it has one. -/
def State.firstNf (s : State) (v : View) : Option (Nat × Nat) :=
  v.indices.find? fun p => nonFinite v.t.fmt (s.elem v p.1 p.2)

/-- CHK.NF: g receives bit 31, row and column of the first non-finite element, or 0. -/
def doChkNf (k : Nat) (t1 : TReg) (g : GReg) : Doing := examine k t1 fun s v =>
  let w : W32 := match s.firstNf v with
    | some p => BitVec.ofNat 32 (2 ^ 31 + p.1 % 2 ^ 15 * 2 ^ 16 + p.2 % 2 ^ 16)
    | none => 0
  .next (s.setCore k ((s.core k).setG g w))
def execChkNf (k : Nat) (l : Launch) (t1 : TReg) (g : GReg) (s : State) : Host.Outcome State Fault Refusal :=
  .next (s.issue k (.chkNf k l t1 g) (doChkNf k t1 g))

/-- The non-finite flag of a step of an instance set (R193). -/
def State.setNf (s : State) (i : Nat) (st : W64) : State :=
  if s.bit (R.updCfg i) 0 then
    let g := s.gate i
    let s0 := s.reg (R.updStep i)
    s.setGate i (if st = s0 then { g with nf := true } else if st = s0 + 1 then { g with nfNext := true } else g)
  else s

/-- UPD.NF: any non-finite element sets the non-finite flag of the step that the program belongs to (R193). -/
def doUpdNf (k : Nat) (t1 : TReg) : Doing := examine k t1 fun s v =>
  .next (match s.firstNf v, (s.core k).prog with
    | some _, some p => s.setNf p.inst p.step
    | _, _ => s)
def execUpdNf (k : Nat) (l : Launch) (t1 : TReg) (s : State) : Host.Outcome State Fault Refusal :=
  .next (s.issue k (.updNf k l t1) (doUpdNf k t1))

/-- DIG.FOLD: the CRC of R101 over the 8 bytes of pair gs, continued from the accumulator. -/
def doDigFold (k : Nat) (gs : GReg) (acc : Fin 4) : Doing := fun _ s =>
  let c := s.core k
  .next (s.setCore k (c.setDig acc (crc64 (c.digr acc) (leBytes 8 (c.pair gs).toNat))))
def execDigFold (k : Nat) (l : Launch) (gs : GReg) (acc : Fin 4) (s : State) : Host.Outcome State Fault Refusal :=
  .next (s.issue k (.digFold k l gs acc) (doDigFold k gs acc))

/-- DIG.RD: pair g receives the accumulator. -/
def doDigRd (k : Nat) (g : GReg) (acc : Fin 4) : Doing := fun _ s =>
  let c := s.core k
  .next (s.setCore k (c.setPair g (c.digr acc)))
def execDigRd (k : Nat) (l : Launch) (g : GReg) (acc : Fin 4) (s : State) : Host.Outcome State Fault Refusal :=
  .next (s.issue k (.digRd k l g acc) (doDigRd k g acc))

/-- DIG.CLR: the accumulator becomes 0. -/
def doDigClr (k : Nat) (acc : Fin 4) : Doing := fun _ s => .next (s.setCore k ((s.core k).setDig acc 0))
def execDigClr (k : Nat) (l : Launch) (acc : Fin 4) (s : State) : Host.Outcome State Fault Refusal :=
  .next (s.issue k (.digClr k l acc) (doDigClr k acc))

/-! ### Counters (R334 to R336) -/

/-- Sum of a sparse table of counts. -/
def sumCounts (l : Sparse Nat) : Nat := l.foldl (fun a e => a + e.2) 0

/-- IDLE: the beats counted that are neither busy nor stalled (R335). -/
def EngRec.idle (r : EngRec) (beats : Nat) : Nat := beats - r.busy - sumCounts r.stall

/-- Word n of an engine record (Table 16.1). -/
def EngRec.word (r : EngRec) (beats n : Nat) : W32 :=
  let half (x : Nat) : Nat := if n % 2 = 0 then x else x / 2 ^ 32
  let get (t : Sparse Nat) (i : Nat) : Nat := sget (fun _ => 0) t i
  BitVec.ofNat 32 (if n < 2 then half r.busy
    else if n < 4 then half (r.idle beats)
    else if n < 20 then half (get r.stall ((n - 4) / 2))
    else if n < 28 then get r.slipN (n - 20)
    else if n < 36 then get r.slipB (n - 28)
    else if n = 36 then r.propN
    else if n = 37 then r.propB
    else if n = 38 then r.extra
    else r.errors)

/-- The bytes of an engine record. -/
def EngRec.bytes (r : EngRec) (beats : Nat) : List Byte :=
  (List.range 40).flatMap fun n => leBytes 4 (r.word beats n).toNat

/-- The record that CNT.RD selects: an engine of the own core, or the gang controller (R336). -/
def State.engRec (s : State) (k e : Nat) : EngRec :=
  if e = 6 then (s.cluster (clOf k)).eng else (s.core k).eng' e

/-- CNT.RD: g receives one word of an engine record; the low word of a 64-bit field latches the high
word for the next read of it (R336). -/
def doCntRd (k : Nat) (g : GReg) (imm : W32) : Doing := fun _ s =>
  let c := s.core k
  let e := imm.toNat % 8
  let n := imm.toNat / 8 % 64
  let r := s.engRec k e
  let v := r.word s.beatsCounted n
  if 20 ≤ n then .next (s.setCore k (c.setG g v))
  else if n % 2 = 0 then
    let c := { c with cntLatch := sput (fun _ => none) c.cntLatch (e + 8 * (n + 1)) (some (r.word s.beatsCounted (n + 1))) }
    .next (s.setCore k (c.setG g v))
  else
    let w := (sget (fun _ => none) c.cntLatch (e + 8 * n)).getD v
    let c := { c with cntLatch := sput (fun _ => none) c.cntLatch (e + 8 * n) none }
    .next (s.setCore k (c.setG g w))
def execCntRd (k : Nat) (l : Launch) (g : GReg) (imm : W32) (s : State) : Host.Outcome State Fault Refusal :=
  .next (s.issue k (.cntRd k l g imm) (doCntRd k g imm))

/-- ATTR.SET: the layer and operator of later trace entries (R339). -/
def doAttrSet (k : Nat) (gs1 gs2 : GReg) : Doing := fun _ s =>
  let c := s.core k
  .next (s.setCore k { c with layer := (c.gr gs1).truncate 16, oper := (c.gr gs2).truncate 16 })
def execAttrSet (k : Nat) (l : Launch) (gs1 gs2 : GReg) (s : State) : Host.Outcome State Fault Refusal :=
  .next (s.issue k (.attrSet k l gs1 gs2) (doAttrSet k gs1 gs2))

/-- TRACE.MARK: a marker with imm[15:0] in the cluster's trace buffer (Table 16.4). -/
def doTraceMark (k : Nat) (imm : W32) : Doing := fun _ s => .next (s.trace k 3 (imm.toNat % 65536) 0 0)
def execTraceMark (k : Nat) (l : Launch) (imm : W32) (s : State) : Host.Outcome State Fault Refusal :=
  .next (s.issue k (.traceMark k l imm) (doTraceMark k imm))

end Sys2Proof.Machine
end

