-- ==== Sys2Proof/Machine/Time.lean ====
section
/-! DEFINITION. The time class (R99, Table 4.12) and BEAT.WAIT (R41). -/

namespace Sys2Proof.Machine

/-- BA changed, with the beat of the change recorded for slip rule 1 (R99, R43). -/
def setBa (k : Nat) (f : State → Core → W64) : Doing := fun _ s =>
  let c := s.core k
  .next (s.setCore k { c with ba := f s c, baBeat := s.beat })

/-- BA.SET: BA receives a register pair. -/
def doBaSet (k : Nat) (g : GReg) : Doing := setBa k fun _ c => c.pair g
def execBaSet (k : Nat) (l : Launch) (g : GReg) (s : State) : Host.Outcome State Fault Refusal :=
  .next (s.issue k (.baSet k l g) (doBaSet k g))

/-- BA.ADV: BA advances by an unsigned immediate. -/
def doBaAdv (k : Nat) (imm : W32) : Doing := setBa k fun _ c => c.ba + imm.zeroExtend 64
def execBaAdv (k : Nat) (l : Launch) (imm : W32) (s : State) : Host.Outcome State Fault Refusal :=
  .next (s.issue k (.baAdv k l imm) (doBaAdv k imm))

/-- BA.NOW: BA receives the local beat counter plus imm. -/
def doBaNow (k : Nat) (imm : W32) : Doing := setBa k fun s _ => s.beat + imm.zeroExtend 64
def execBaNow (k : Nat) (l : Launch) (imm : W32) (s : State) : Host.Outcome State Fault Refusal :=
  .next (s.issue k (.baNow k l imm) (doBaNow k imm))

/-- BEAT.WAIT: issue is held until the local counter reaches BA + imm; it never slips (R41). -/
def doBeatWait (k : Nat) (imm : W32) : Doing := fun _ s =>
  if s.beat < (s.core k).ba + imm.zeroExtend 64 ∨ s.solveFrozen k then .hold else .next s
def execBeatWait (k : Nat) (l : Launch) (imm : W32) (s : State) : Host.Outcome State Fault Refusal :=
  .next (s.issue k (.beatWait k l imm) (doBeatWait k imm))

/-- BEAT.RD: a register pair receives the local beat counter. -/
def doBeatRd (k : Nat) (g : GReg) : Doing := fun _ s =>
  .next (s.setCore k ((s.core k).setPair g s.beat))
def execBeatRd (k : Nat) (l : Launch) (g : GReg) (s : State) : Host.Outcome State Fault Refusal :=
  .next (s.issue k (.beatRd k l g) (doBeatRd k g))

end Sys2Proof.Machine
end

