-- ==== Sys2Proof/Machine/Sync.lean ====
section
/-! DEFINITION. The sync class (R97, R98, R243, Table 4.11) and the moment a signal takes effect (R83). -/

namespace Sys2Proof.Machine

/-- The target cluster of a gt field: 0 is the core's own cluster, otherwise bits [11:0] of the
register (R80). -/
def Core.target' (c : Core) (k : Nat) (gt : GReg) : Nat :=
  if gt = 0 then clOf k else (c.gr gt).toNat % 4096

/-- A release-ordered signal leaves the core: it waits in the core until its writes are complete (R83). -/
def sendSig (k : Nat) (x : Sig) : Doing := fun tag s =>
  let c := s.core k
  .next (s.setCore k { c with signals := c.signals ++ [{ sig := x, cause := tag.1, prop := tag.2, seq := c.seq + 1 }] })

/-- SIG.CNT: an addition of val to a counter of the target cluster, which the instance must own. -/
def doSigCnt (k idx : Nat) (gt : GReg) (val : W16) : Doing := fun tag s =>
  let cl := (s.core k).target' k gt
  if s.owns (s.instOf k) cl then sendSig k (.cnt cl idx val.toNat) tag s else .fault Cause.notOwned
def execSigCnt (k : Nat) (l : Launch) (idx : Nat) (gt : GReg) (val : W16) (s : State) :
    Host.Outcome State Fault Refusal :=
  .next (s.issue k (.sigCnt k l idx gt val) (doSigCnt k idx gt val))

/-- WAIT.CNT: WAITING until the own counter is at least val, then val is subtracted in one action. -/
def doWaitCnt (k idx : Nat) (val : W16) : Doing := fun _ s =>
  if s.solveFrozen k then .hold
  else if val.toNat ≤ s.cnt (clOf k) idx then .next (s.takeCnt (clOf k) idx val.toNat)
  else .wait s (.cnt idx val.toNat)
def execWaitCnt (k : Nat) (l : Launch) (idx : Nat) (val : W16) (s : State) : Host.Outcome State Fault Refusal :=
  .next (s.issue k (.waitCnt k l idx val) (doWaitCnt k idx val))

/-- SET.CNT: the own counter receives val. -/
def doSetCnt (k idx : Nat) (val : W16) : Doing := fun _ s => .next (s.putCnt (clOf k) idx val.toNat)
def execSetCnt (k : Nat) (l : Launch) (idx : Nat) (val : W16) (s : State) : Host.Outcome State Fault Refusal :=
  .next (s.issue k (.setCnt k l idx val) (doSetCnt k idx val))

/-- BAR.ARRIVE: the core's arrival at a barrier the instance owns; the core keeps the index and PHASE. -/
def doBarArrive (k idx : Nat) : Doing := fun tag s =>
  if s.ownsBar (s.instOf k) idx then
    sendSig k (.bar idx) tag (s.setCore k { s.core k with barKept := some (idx, s.barPhase idx) })
  else .fault Cause.notOwned
def execBarArrive (k : Nat) (l : Launch) (idx : Nat) (s : State) : Host.Outcome State Fault Refusal :=
  .next (s.issue k (.barArrive k l idx) (doBarArrive k idx))

/-- The PHASE that a BAR.WAIT compares with: the kept one of the core's latest BAR.ARRIVE on that
barrier, else the present one (R243). -/
def State.phaseKept (s : State) (k idx : Nat) : Nat :=
  match (s.core k).barKept with
  | some (i, p) => if i = idx then p else s.barPhase idx
  | none => s.barPhase idx

/-- BAR.WAIT: WAITING until the barrier's phase differs from the kept one. -/
def doBarWait (k idx : Nat) : Doing := fun _ s =>
  if s.solveFrozen k then .hold
  else if s.barPhase idx ≠ s.phaseKept k idx then .next s
  else .wait s (.bar idx (s.phaseKept k idx))
def execBarWait (k : Nat) (l : Launch) (idx : Nat) (s : State) : Host.Outcome State Fault Refusal :=
  .next (s.issue k (.barWait k l idx) (doBarWait k idx))

/-- FLAG.SET: sets a host flag the instance owns. -/
def doFlagSet (k idx : Nat) : Doing := fun tag s =>
  if s.ownsFlag (s.instOf k) idx then sendSig k (.flag idx) tag s else .fault Cause.notOwned
def execFlagSet (k : Nat) (l : Launch) (idx : Nat) (s : State) : Host.Outcome State Fault Refusal :=
  .next (s.issue k (.flagSet k l idx) (doFlagSet k idx))

/-- FLAG.WAIT: WAITING until an owned host flag is set; the flag stays set. -/
def doFlagWait (k idx : Nat) : Doing := fun _ s =>
  if !s.ownsFlag (s.instOf k) idx then .fault Cause.notOwned
  else if s.solveFrozen k then .hold
  else if s.flag idx then .next s
  else .wait s (.flag idx)
def execFlagWait (k : Nat) (l : Launch) (idx : Nat) (s : State) : Host.Outcome State Fault Refusal :=
  .next (s.issue k (.flagWait k l idx) (doFlagWait k idx))

/-- FLAG.CLR: clears an owned host flag. -/
def doFlagClr (k idx : Nat) : Doing := fun _ s =>
  if s.ownsFlag (s.instOf k) idx then .next (s.putFlag idx false 0 false) else .fault Cause.notOwned
def execFlagClr (k : Nat) (l : Launch) (idx : Nat) (s : State) : Host.Outcome State Fault Refusal :=
  .next (s.issue k (.flagClr k l idx) (doFlagClr k idx))

/-- HOST.IRQ: raises the instance's MSI-X vector idx, numbered from 0 in its own table (R230). -/
def doHostIrq (k idx : Nat) : Doing := fun tag s =>
  if s.hasVec (s.instOf k) idx then sendSig k (.irq idx) tag s else .fault Cause.notOwned
def execHostIrq (k : Nat) (l : Launch) (idx : Nat) (s : State) : Host.Outcome State Fault Refusal :=
  .next (s.issue k (.hostIrq k l idx) (doHostIrq k idx))

/-- Whether a write that core k issued before a signal is still to be completed: by a pass in flight, a ganged one
included, or by a fold under way (R83). -/
def State.writesBefore (s : State) (k : Nat) (x : Signal) : Bool :=
  let c := s.core k
  (c.passes.any fun p => decide (p.2.seq < x.seq) && !p.2.foot.writes.isEmpty) || decide (c.folding ≠ 0) ||
    (c.ganged && (s.cluster (clOf k)).passes.any fun p => !p.foot.writes.isEmpty)

/-- The oldest signal of a core that may take effect, with the reason for which a unit delayed it on its way (0 for
none): a delayed signal carries that reason, another one what its sender gave it (R44). -/
def State.readySig (s : State) (e : Delayed) : Option Signal :=
  match (s.core e.id).signals with
  | [] => none
  | x :: _ => if s.writesBefore e.id x then none
    else some (if e.delay = 0 then x else { x with cause := e.delay, prop := false })

/-- SIGNAL_TAKES_EFFECT: the oldest signals of the cores named, which take effect in one instant, reach their counters,
barriers, flags and vectors, once every write that their cores issued before them is complete (R83); then the waiters
that they satisfy are released, so that a waiter on a counter sees all of the additions or none (R98). -/
def signalTakesEffect (k : List Delayed) (s : State) : State :=
  let r := k.foldl (fun (x : State × List Signal) e =>
    match x.1.readySig e with
    | none => x
    | some g =>
      ((x.1.setCore e.id { x.1.core e.id with signals := (x.1.core e.id).signals.tail }).applySig e.id g, x.2 ++ [g])) (s, [])
  forEach r.2 r.1 fun s g => s.wakeSig g
def execSignalTakesEffect (k : List Delayed) (s : State) : Host.Outcome State Fault Refusal :=
  .next (signalTakesEffect k s)

end Sys2Proof.Machine
end

