-- ==== Sys2Proof/Machine/Transfer.lean ====
section
/-! DEFINITION. Transfers (R100, R150 to R154, R275): the transfer descriptor and its checks, XFER.POST,
and the chunks that the die-level DMA engine moves. -/

namespace Sys2Proof.Machine

/-! ### Descriptors (Table 7.4) -/

def fieldAt (b : List Byte) (o n : Nat) : Nat := leNat ((b.drop o).take n)

def XDesc.of (b : List Byte) : XDesc :=
  let g := fieldAt b
  { kind := g 0 1, wm := nbit (g 1 1) 0, arrival := nbit (g 1 1) 1, srcSpace := g 2 1, dstSpace := g 3 1,
    rows := g 4 4, cols := g 8 4, indexAddr := g 0xC 4,
    srcAddr := g 0x10 8, srcCoord := BitVec.ofNat 32 (g 0x18 4), srcStride := sext 32 (g 0x1C 4),
    dstAddr := g 0x20 8, dstCoord := BitVec.ofNat 32 (g 0x28 4), dstStride := sext 32 (g 0x2C 4),
    srcFmt := g 0x30 1, dstFmt := g 0x31 1, srcSwz := g 0x32 2, dstSwz := g 0x34 2,
    scale := BitVec.ofNat 32 (g 0x38 4), rowLimit := g 0x3C 4 }

/-- One side of a transfer: its place, and how many rows its footprint spans. -/
structure Side where
  space : Nat
  addr : Nat
  coord : W32
  stride : Int
  fmt : Nat
  swz : Nat
  rows : Nat
  cols : Nat
deriving DecidableEq, Repr

/-- The indexed side's footprint spans ROW_LIMIT rows (Table 7.4). -/
def XDesc.src (d : XDesc) : Side :=
  ⟨d.srcSpace, d.srcAddr, d.srcCoord, d.srcStride, d.srcFmt, d.srcSwz, if d.kind = 1 then d.rowLimit else d.rows, d.cols⟩
def XDesc.dst (d : XDesc) : Side :=
  ⟨d.dstSpace, d.dstAddr, d.dstCoord, d.dstStride, d.dstFmt, d.dstSwz, if d.kind = 2 then d.rowLimit else d.rows, d.cols⟩

def Side.size (x : Side) : Nat := fmtSize x.fmt
def Side.remote (x : Side) : Bool := x.coord.msb

/-- The lowest and the past-highest address of a side's footprint. -/
def Side.span (x : Side) : Int × Int :=
  let e := ((x.rows : Int) - 1) * x.stride * x.size
  let b : Int := x.addr
  (b + min 0 e, b + max 0 e + x.cols * x.size)
def Side.len (x : Side) : Nat := (x.span.2 - x.span.1).toNat

/-- The region of a core-local side (R135). -/
def Side.region (x : Side) (k : Nat) : Option Region := regionOf k x.span.1.toNat x.len

/-- The memory address of element (r, c) of a side of this module. -/
def Side.at (x : Side) (k r c : Nat) : Nat :=
  let a := ((x.addr : Int) + ((r : Int) * x.stride + c) * x.size).toNat
  match x.space with
  | 0 => a
  | 1 =>
    match x.region k with
    | some g => g.base + swizzle g.cbuf x.swz (a - g.start)
    | none => a
  | _ => hostBase + a

/-- The codes, reserved bits and ranges of a descriptor (R151, R152, R154): whether one breaks them. -/
def fieldsBad (relaxed : Bool) (b : List Byte) (d : XDesc) : Bool :=
  decide (2 < d.kind) || decide (3 < fieldAt b 1 1) || decide (2 < d.srcSpace) || decide (2 < d.dstSpace) ||
  decide (d.rows = 0) || decide (2 ^ 24 < d.rows) || decide (d.cols = 0) || decide (2 ^ 24 < d.cols) ||
  decide (7 < d.srcFmt) || decide (7 < d.dstFmt) || decide (fieldAt b 0x36 2 ≠ 0) ||
  (decide (d.kind = 0) && decide (d.indexAddr ≠ 0 ∨ d.rowLimit ≠ 0)) ||
  (decide (d.kind ≠ 0) && decide (d.indexAddr % 4 ≠ 0)) ||
  decide (2 ^ 10 ≤ d.srcSwz) || decide (2 ^ 10 ≤ d.dstSwz) ||
  (decide (d.srcSwz ≠ 0) && decide (d.srcSpace ≠ 1)) || (decide (d.dstSwz ≠ 0) && decide (d.dstSpace ≠ 1)) ||
  decide (d.srcCoord.toNat / 2 ^ 24 % 128 ≠ 0) || decide (d.dstCoord.toNat / 2 ^ 24 % 128 ≠ 0) ||
  (d.srcCoord.msb && decide (d.srcSpace ≠ 0)) || (d.dstCoord.msb && decide (d.dstSpace ≠ 0)) ||
  (d.arrival && !(relaxed && d.wm)) ||
  (if d.wm then accumulate d.srcFmt d.dstFmt none 0 0 else convert d.srcFmt d.dstFmt none 0).isNone

/-- The range check of a side: a footprint below address zero, above the backed HBM, across regions or
with an illegal swizzle position is out of range (R150, R138, R152). -/
def Side.rangeBad (x : Side) (k : Option Nat) : Bool :=
  if x.rows = 0 then false
  else if x.span.1 < 0 then true
  else
    match x.space with
    | 0 => decide ((hbmTop : Int) < x.span.2)
    | 1 =>
      match k with
      | none => true
      | some k =>
        match x.region k with
        | none => true
        | some g => !(groupOk g.cbuf (x.swz % 32) && groupOk g.cbuf (x.swz / 32))
    | _ => decide ((2 ^ 64 : Int) < x.span.2)

/-- Whether a side names memory that the instance does not own (R136, R156). A remote side is checked at
its module (R151). -/
def State.sideForeign (s : State) (i : Nat) (k : Option Nat) (x : Side) : Bool :=
  if x.rows = 0 ∨ x.remote then false
  else
    match x.space with
    | 0 => !s.ownsHbm i x.span.1.toNat x.len
    | 1 =>
      match k with
      | none => true
      | some k =>
        match x.region k with
        | none => true
        | some g => !s.regionOwned k g
    | _ => false

/-- The index list lies wholly in the own scratchpad or own cluster buffer (R152). -/
def indexBad (k : Option Nat) (d : XDesc) : Bool :=
  if d.kind = 0 then false
  else
    match k with
    | none => true
    | some k =>
      match regionOf k d.indexAddr (4 * d.rows) with
      | some g => !g.own
      | none => true

/-- The checks of a transfer descriptor in the order of R100: fields, ownership, then those of a write descriptor, of
which SCATTER has the stride tests only (R144, R153). -/
def State.checkX (s : State) (i : Nat) (k : Option Nat) (b : List Byte) : Except Nat XDesc :=
  let d := XDesc.of b
  if fieldsBad s.relaxed b d || d.src.rangeBad k || d.dst.rangeBad k || indexBad k d then .error Cause.tileRange
  else if s.sideForeign i k d.src || s.sideForeign i k d.dst then .error Cause.notOwned
  else if d.kind ≠ 2 ∧ d.dst.addr % d.dst.size ≠ 0 then .error Cause.tileRange
  else
    match strideFault d.wm s.relaxed d.dst.rows d.cols d.dstStride 1 with
    | some f => .error f
    | none => .ok d

/-! ### Posts -/

/-- The byte ranges of a side's footprint on this module. -/
def Side.ranges (x : Side) (k : Nat) : List (Nat × Nat) :=
  if x.swz = 0 then (List.range x.rows).map fun r => (x.at k r 0, x.cols * x.size)
  else (grid x.rows x.cols).map fun p => (x.at k p.1 p.2, x.size)

def Poster.core? : Poster → Nat
  | .core k .. => k
  | .cmd _ => 0

/-- The unit named in a transfer's records: the posting core's move engine, or IOA:0 for a command. -/
def Poster.uid : Poster → W32
  | .core k .. => coreUid k 3 0
  | .cmd _ => pcieUid

/-- The command that a post belongs to (R295). -/
def State.posterCmd (s : State) : Poster → Nat
  | .cmd c => c.id
  | .core _ _ _ _ l => ((l.bind s.launchRec).map (·.cmd.id)).getD 0xFFFF

/-- NORETRY of a record of a post's work: set for an accumulating COPY and for every program (R295). -/
def noRetry (p : Poster) (wm : Bool) : Nat :=
  match p with
  | .cmd _ => if wm then 2 else 0
  | .core .. => 2

/-- An accumulate transfer in flight of the same instance whose destination meets a new one's (R154). -/
def State.orderConflict (s : State) (i : Nat) (p : Poster) (d : XDesc) : Option Xfer :=
  if d.wm && !s.relaxed then
    s.xfers.find? fun x =>
      decide (x.inst = i ∧ x.gen = s.gen i ∧ x.desc.wm ∧ ¬x.dropped ∧ x.desc.dst.remote = d.dst.remote
        ∧ (d.dst.remote → x.desc.dstCoord = d.dstCoord))
      && meet (x.desc.dst.ranges x.poster.core?) (d.dst.ranges p.core?)
  else none

/-- Whether a core's program belongs to a run-ahead step that has been undone: what it posts is abandoned, and its
signals are still sent (R205). -/
def State.coreUndone (s : State) (k : Nat) : Bool :=
  match (s.core k).prog with
  | some p => s.launches.any fun l => decide (l.id = p.id) && l.undone
  | none => false
def State.posterUndone (s : State) : Poster → Bool
  | .core k .. => s.coreUndone k
  | .cmd c => c.undone

/-- Posted work that failed the contribution of its step: the LAUNCH of its program is marked (R302). -/
def State.failPost (s : State) (i : Nat) (p : Poster) (step : W64) (unit : W32) : State :=
  let s := match p with
    | .core _ _ _ _ (some l) => s.markLaunch i l
    | _ => s
  s.failContribution i step unit

/-- A transfer posted (R152, R154): one that conflicts is not performed, but its signal is still sent; one of an undone
run-ahead step is abandoned before its first chunk (R205). -/
def State.postX (s : State) (i : Nat) (p : Poster) (d : XDesc) (step : W64) (tag : Nat × Bool) : State :=
  let x : Xfer := { id := s.nextXfer, inst := i, gen := s.gen i, poster := p, desc := d, step := step,
                    prov := s.provisional i step, cause := tag.1, prop := tag.2,
                    solve := match p with | .core k .. => (s.core k).solveTag | .cmd _ => none }
  if s.posterUndone p then
    { s with xfers := s.xfers ++ [{ x with done := true, abandon := true, status := St.tainted }], nextXfer := s.nextXfer + 1 }
  else match s.orderConflict i p d with
  | none => { s with xfers := s.xfers ++ [x], nextXfer := s.nextXfer + 1 }
  | some y =>
    let s := { s with xfers := s.xfers ++ [{ x with done := true, dropped := true, status := St.plausibility }],
                      nextXfer := s.nextXfer + 1 }
    let s := (s.setBit R.poolErr 3 true).raise 2 St.plausibility .mem 3 p.uid i (s.posterCmd p) y.poster.uid []
      (noRetry p true)
    s.failPost i p step p.uid

/-- A post of a core: at most 16 in flight (R100); the descriptor is 64 aligned bytes of the own
scratchpad (R152); the target counter's cluster is the instance's, as for SIG.CNT. -/
def postAt (k : Nat) (an : AReg) (gt : GReg) (go : List Byte → Nat → State → Act) : Doing := fun _ s =>
  let c := s.core k
  let a := (c.ar an).toNat
  let cl := c.target' k gt
  if 16 ≤ c.posts then .hold
  else if a % 64 ≠ 0 ∨ 0xC000 < a + 64 then .fault Cause.tileRange
  else
    let p := spBase k + a
    if let some w := s.badWord p 64 then .fault (Cause.atWord Cause.spadUncorr w)
    else
      match s.settleTap k [(p, 64)] [] with
      | .error f => .fault f
      | .ok s =>
        match go (s.rbs p 64) cl s with
        | .next s => .next (s.setCore k { s.core k with posts := (s.core k).posts + 1 })
        | a => a

/-- Whether the cluster that receives a post's signal is the instance's (R97, R100). -/
def State.signalOwned (s : State) (k cl : Nat) : Bool := s.owns (s.instOf k) cl

/-- The step that a core's posts belong to: that of its LAUNCH (R191). -/
def State.coreStep (s : State) (k : Nat) : W64 :=
  match (s.core k).prog with
  | some p => p.step
  | none => s.reg (R.updStep (s.instOf k))

/-- XFER.POST: posts a transfer to the die-level DMA engine; on completion counter cnt of the target
cluster receives val (R100). -/
def doXferPost (k : Nat) (an : AReg) (cnt : Nat) (gt : GReg) (val : W16) : Doing := fun tag s =>
  postAt k an gt (fun b cl s =>
    let i := s.instOf k
    match s.checkX i (some k) b with
    | .error f => .fault f
    | .ok d =>
      if s.signalOwned k cl then .next (s.postX i (.core k cnt cl val.toNat (s.launchOn k)) d (s.coreStep k) tag)
      else .fault Cause.notOwned) tag s
def execXferPost (k : Nat) (l : Launch) (an : AReg) (cnt : Nat) (gt : GReg) (val : W16) (s : State) :
    Host.Outcome State Fault Refusal :=
  .next (s.issue k (.xferPost k l an cnt gt val) (doXferPost k an cnt gt val))

/-! ### Chunks (R153) -/

/-- Source and destination row of list row r: none where its index is not below ROW_LIMIT. -/
def State.xRow (s : State) (x : Xfer) (r : Nat) : Option (Nat × Nat) :=
  if x.desc.kind = 0 then some (r, r)
  else
    match regionOf x.poster.core? x.desc.indexAddr (4 * x.desc.rows) with
    | none => none
    | some g =>
      let n := s.rd (g.base + (x.desc.indexAddr - g.start) + 4 * r) 4
      if x.desc.rowLimit ≤ n then none else if x.desc.kind = 1 then some (n, r) else some (r, n)

/-- The address of an index list entry. -/
def Xfer.indexAt (x : Xfer) (r : Nat) : Nat :=
  match regionOf x.poster.core? x.desc.indexAddr (4 * x.desc.rows) with
  | none => 0
  | some g => g.base + (x.desc.indexAddr - g.start) + 4 * r

/-- Elements in a chunk: 64 KiB of the source, within one row when a side is remote (log 18). -/
def Xfer.chunkLen (x : Xfer) : Nat :=
  let left := x.desc.rows * x.desc.cols - x.pos
  if x.desc.src.remote || x.desc.dst.remote then
    min (65536 / max x.desc.src.size x.desc.dst.size) (x.desc.cols - x.pos % x.desc.cols)
  else min (65536 / x.desc.src.size) left

/-- The parts of rows that the next chunk holds: list row, first column, number of columns. -/
def Xfer.parts (x : Xfer) : List (Nat × Nat × Nat) :=
  let n := x.chunkLen
  let r0 := x.pos / x.desc.cols
  let r1 := (x.pos + n - 1) / x.desc.cols
  (List.range (r1 + 1 - r0)).map fun t =>
    let r := r0 + t
    let lo := max x.pos (r * x.desc.cols)
    let hi := min (x.pos + n) ((r + 1) * x.desc.cols)
    (r, lo - r * x.desc.cols, hi - lo)

/-- Runs of bytes joined where they touch. -/
def joinRuns (l : List (Nat × List Byte)) : List (Nat × List Byte) :=
  l.foldr (fun e acc =>
    match acc with
    | (b, y) :: t => if e.1 + e.2.length = b then (e.1, e.2 ++ y) :: t else e :: acc
    | [] => [e]) []

/-- The addresses of `n` elements of a side from (r, c). -/
def Side.run (x : Side) (k r c n : Nat) : List Nat := (List.range n).map fun j => x.at k r (c + j)

/-- The value an element of the destination receives. -/
def XDesc.value (d : XDesc) (raw old : Nat) : Nat :=
  let scale := if d.scale = 0 then none else some d.scale
  if d.wm then (accumulate d.srcFmt d.dstFmt scale raw old).getD 0 else (convert d.srcFmt d.dstFmt scale raw).getD 0

/-- A write of a transfer, under the fence of R222 when a core posted it. -/
def State.xWrite (s : State) (x : Xfer) (a : Nat) (bs : List Byte) : State :=
  match x.poster with
  | .core .. => s.solveWrite x.inst x.solve a bs
  | .cmd _ => s.write a bs

/-- Source elements stored at the destination row `dr` from column `c`: plain, or added (R145, R153). -/
def State.storePart (s : State) (x : Xfer) (dr c : Nat) (raws : List Nat) : State :=
  let d := x.desc
  let size := d.dst.size
  let out := (raws.zip (d.dst.run x.poster.core? dr c raws.length)).map fun e =>
    (e.2, leBytes size (d.value e.1 (s.rd e.2 size)))
  forEach (joinRuns out) s fun s e => s.xWrite x e.1 e.2

/-- The uncorrectable word that a part of a chunk meets, if it does (R303). -/
def State.partMeets (s : State) (x : Xfer) (p : Nat × Nat × Nat) : Option Nat :=
  if s.bad.isEmpty then none
  else
    let d := x.desc
    let k := x.poster.core?
    let hit (a n : Nat) (part : Bool) : Option Nat :=
      s.bad.find? fun w => decide (w < a + n ∧ a < w + 8 ∧ ¬(part ∧ a ≤ w ∧ w + 8 ≤ a + n))
    let idx : Option Nat := if d.kind = 0 then none else hit (x.indexAt p.1) 4 false
    idx <|>
      match s.xRow x p.1 with
      | none => none
      | some (sr, dr) =>
        let src : Option Nat := if d.src.remote then none
          else (d.src.run k sr p.2.1 p.2.2).findSome? fun a => hit a d.src.size false
        let runs := joinRuns ((d.dst.run k dr p.2.1 p.2.2).map fun a => (a, zeros d.dst.size))
        let dst : Option Nat := if d.dst.remote then none
          else runs.findSome? fun e => hit e.1 e.2.length (!d.wm)
        src <|> dst

/-- A transfer changed, by its id. -/
def State.putX (s : State) (x : Xfer) : State :=
  { s with xfers := s.xfers.map fun y => if y.id = x.id then x else y }

/-- A row whose index is not below ROW_LIMIT: a class B event, and the contribution fails (R153). -/
def State.rowOver (s : State) (x : Xfer) : State :=
  (s.raise 2 St.plausibility .mem (openDetail .mem St.plausibility) x.poster.uid x.inst (s.posterCmd x.poster) x.poster.uid []
    (noRetry x.poster x.desc.wm)).failPost x.inst x.poster x.step x.poster.uid

/-- The LAUNCH of the program that posted work which met an uncorrectable word completes with MEMORY_UNCORRECTABLE (R303). -/
def State.postUncorrectable (s : State) : Poster → State
  | .core _ _ _ _ (some l) => s.modLaunch l fun l => { l with bad := true, uncorrectable := true }
  | _ => s

/-- A chunk that meets an uncorrectable word: the transfer stops, and its signal is still sent (R303). -/
def State.xMemory (s : State) (x : Xfer) (w : Nat) : State :=
  let s := s.raise 1 St.memoryUncorrectable .mem (openDetail .mem St.memoryUncorrectable) (memUid w) x.inst (s.posterCmd x.poster) (memUid w)
    (s.ctxRegs R.poolErr R.poolLast) (noRetry x.poster x.desc.wm)
  ((s.postUncorrectable x.poster).putX { x with done := true, status := St.memoryUncorrectable }).failContribution x.inst x.step (memUid w)

/-- The transfer past `n` elements: done after the last, or at a chunk boundary when abandoned (R205). -/
def Xfer.past (x : Xfer) (n : Nat) : Xfer :=
  let p := x.pos + n
  { x with pos := p, awaiting := 0, held := [], done := x.abandon || decide (x.desc.rows * x.desc.cols ≤ p),
           status := if x.status = 0 then (if x.abandon then St.tainted else 0) else x.status }

/-- The status a transfer has come to, with a failed check noted. -/
def Xfer.flawed (x : Xfer) : Xfer := { x with status := if x.status = 0 then St.plausibility else x.status }

/-- One more index at or above ROW_LIMIT counted (R153). -/
def Xfer.overRow (x : Xfer) : Xfer := { x.flawed with overRows := x.overRows + 1 }

/-- The address that a remote side gives its target. -/
def Side.remoteAt (x : Side) (r c : Nat) : Nat := ((x.addr : Int) + ((r : Int) * x.stride + c) * x.size).toNat

/-- A transfer's message to a module (R275). -/
def State.xMessage (s : State) (x : Xfer) (typ : Nat) (coord : W32) (addr : Nat) (payload : List Byte) : State :=
  s.send { s.header x.inst typ 2 (coord.toNat % 2 ^ 24) x.step with
    seq := x.id % 2 ^ 32, chunk := x.pos % 2 ^ 32, attr := addr, payload := payload }

/-- The source elements `raws` of the next part reach the destination: stored, sent as XFER_WRITE, or,
when added at a remote destination, kept until the old values have been read (R275, log 19). -/
def State.deliver (s : State) (x : Xfer) (dr c : Nat) (raws : List Nat) : State :=
  let d := x.desc
  if !d.dst.remote then (s.storePart x dr c raws).putX (x.past raws.length)
  else if d.wm then
    (s.xMessage x Msg.readReq d.dstCoord (d.dst.remoteAt dr c) (leBytes 8 (raws.length * d.dst.size))).putX
      { x with awaiting := 2, held := raws.flatMap (leBytes d.src.size) }
  else
    (s.xMessage x Msg.write d.dstCoord (d.dst.remoteAt dr c)
      (raws.flatMap fun v => leBytes d.dst.size (d.value v 0))).putX (x.past raws.length)

/-- The next chunk with a remote side: one part of one row. -/
def State.chunkRemote (s : State) (x : Xfer) : State :=
  let d := x.desc
  let p := x.parts.getD 0 (0, 0, 0)
  match s.partMeets x p with
  | some w => s.xMemory x w
  | none =>
    match s.xRow x p.1 with
    | none => (s.rowOver x).putX (x.overRow.past (d.cols - p.2.1))
    | some (sr, dr) =>
      if d.src.remote then
        (s.xMessage x Msg.readReq d.srcCoord (d.src.remoteAt sr p.2.1) (leBytes 8 (p.2.2 * d.src.size))).putX
          { x with awaiting := 1 }
      else
        let raws := (d.src.run x.poster.core? sr p.2.1 p.2.2).map fun a => s.rd a d.src.size
        s.deliver x dr p.2.1 raws

/-- The next chunk on this module: its row parts in ascending row, each read and then stored. -/
def State.chunkLocal (s : State) (x : Xfer) : State :=
  let d := x.desc
  match x.parts.findSome? (s.partMeets x) with
  | some w => s.xMemory x w
  | none =>
    let r := x.parts.foldl (fun (a : State × Xfer) p =>
      match a.1.xRow x p.1 with
      | none => if p.2.1 = 0 then (a.1.rowOver x, a.2.overRow) else a
      | some (sr, dr) =>
        let raws := (d.src.run x.poster.core? sr p.2.1 p.2.2).map fun q => a.1.rd q d.src.size
        (a.1.storePart x dr p.2.1 raws, a.2)) (s, x)
    r.1.putX (r.2.past x.chunkLen)

/-- The die whose DMA engine moves a transfer: that of the core that posted it (Table 4.13). DESIGN CHOICE (log 18): for a
COPY the die whose HBM holds the first byte of the destination, else of the source, else die 0. -/
def Xfer.die (x : Xfer) : Nat :=
  match x.poster with
  | .core k .. => dieOf (clOf k)
  | .cmd _ =>
    let d := x.desc
    if d.dstSpace = 0 ∧ !d.dst.remote then hbmDie d.dstAddr
    else if d.srcSpace = 0 ∧ !d.src.remote then hbmDie d.srcAddr
    else 0

/-- Whether a transfer has a chunk that its engine can move: it waits for no other module. -/
def Xfer.ready (x : Xfer) : Bool := !x.done && decide (x.awaiting = 0)

/-- The instance whose turn it is in a die's DMA engine, among those with a transfer there that is ready (R230). -/
def State.dmaPick (s : State) (die : Nat) : Option Nat :=
  (sget (fun _ => {}) s.dmaTurn die).pick ((List.range 64).filter fun i =>
    s.xfers.any fun x => x.ready && decide (x.inst = i ∧ x.gen = s.gen i ∧ x.die = die))

/-- A chunk of a transfer taken by its engine: a turn of an instance lasts INST_WEIGHT.DMA chunks (R230, log 18). -/
def State.takeDma (s : State) (x : Xfer) : State :=
  let r := (sget (fun _ => {}) s.dmaTurn x.die).take x.inst (s.fld (R.instWeight x.inst) 0 8)
  { s with dmaTurn := sput (fun _ => {}) s.dmaTurn x.die r }

/-- DMA_CHUNK_DONE: the DMA engine moves the next 64 KiB chunk of transfer x, of the instance whose turn it is; the writes
of one that a reset has left with an old generation are dropped and counted, and it waits for no other module any more
(R153, R230, R241, R249). A reason for which the engine or a memory delayed the chunk becomes the tag that the completion
carries (R44). -/
def dmaChunkDone (x : Delayed) (s : State) : State :=
  match s.xfers.find? fun y => y.id = x.id with
  | none => s
  | some y =>
    let y := if x.delay = 0 then y else { y with cause := x.delay, prop := false }
    if y.done then s
    else if y.gen ≠ s.gen y.inst then (s.stale y.inst).putX { y with done := true, awaiting := 0, held := [] }
    else if y.awaiting ≠ 0 then s
    else if s.dmaPick y.die ≠ some y.inst then s
    else if y.desc.src.remote || y.desc.dst.remote then (s.takeDma y).chunkRemote y
    else (s.takeDma y).chunkLocal y
def execDmaChunkDone (x : Delayed) (s : State) : Host.Outcome State Fault Refusal := .next (dmaChunkDone x s)

/-- An item held for a reset instance has gone (R249 step 4). -/
def State.orphanGone (s : State) (i : Nat) : State :=
  s.setReg (R.instOrphans i) (BitVec.ofNat 64 ((s.reg (R.instOrphans i)).toNat - 1))

/-- The completion signal of a post: counter cnt of cluster cl receives val as if by SIG.CNT, and the
core has one post fewer (R100). -/
def State.postDone (s : State) (k cnt cl val cause : Nat) (prop : Bool) : State :=
  let s := s.setCore k { s.core k with posts := (s.core k).posts - 1 }
  s.addCnt cl cnt val (coreUid k 0 0) cause prop

/-- The tag of the completion of work that took data from another module: XMODULE where nothing else delayed it and its
sender did not slip (R44, R52, R53). -/
def farTag (far : Bool) (t : Tag) : Tag := if far ∧ t = (0, false) then (6, false) else t
def Xfer.tag (x : Xfer) : Tag := farTag x.desc.src.remote (x.cause, x.prop)

/-- TRANSFER_COMPLETE: a transfer that has moved its last chunk signals its completion, or completes its
COPY; one of an old generation is dropped and counted (R100, R241). -/
def transferComplete (x : Nat) (s : State) : State :=
  match s.xfers.find? fun y => y.id = x with
  | none => s
  | some y =>
    if !y.done then s
    else
      let s := { s with xfers := s.xfers.filter fun z => decide (z.id ≠ x) }
      if y.gen ≠ s.gen y.inst then (s.stale y.inst).orphanGone y.inst
      else
        match y.poster with
        | .core k cnt cl val _ => s.postDone k cnt cl val y.tag.1 y.tag.2
        | .cmd c => s.complete c y.status
def execTransferComplete (x : Nat) (s : State) : Host.Outcome State Fault Refusal := .next (transferComplete x s)

end Sys2Proof.Machine
end

