-- ==== Sys2Proof/Machine/Update.lean ====
section
/-! DEFINITION. Shards and the update unit (R187 to R199): the shard table, the update rules, and the
posts of UPD.APPLY. -/

namespace Sys2Proof.Machine

/-! ### The shard table (Table 9.1) -/

/-- A shard-table entry. -/
structure Shard where
  at_ : Nat
  tensor : W32
  layer : Nat
  rule : Nat
  fallback : Nat
  flags : Nat
  format : Nat
  hset : Nat
  rows : Nat
  cols : Nat
  grows : Nat
  gcols : Nat
  offRow : Nat
  offCol : Nat
  pbase : Nat
  w0 : Nat
  w1 : Nat
  m0 : Nat
  m1 : Nat
  grad : Nat
  zero : Bool
deriving DecidableEq, Repr

/-- The entry of a shard of an instance (R187). -/
def State.shard (s : State) (i n : Nat) : Shard :=
  let a := (s.reg (R.shardBase i)).toNat + 128 * n
  let g (o k : Nat) : Nat := s.rd (a + o) k
  { at_ := a, tensor := BitVec.ofNat 32 (g 0 4), layer := g 4 2, rule := g 6 1, fallback := g 7 1, flags := g 8 1,
    format := g 9 1, hset := g 0xA 1, rows := g 0xC 4, cols := g 0x10 4, grows := g 0x14 4, gcols := g 0x18 4,
    offRow := g 0x1C 4, offCol := g 0x20 4, pbase := g 0x28 8, w0 := g 0x30 8, w1 := g 0x38 8, m0 := g 0x40 8,
    m1 := g 0x48 8, grad := g 0x50 8,
    zero := decide (g 0xB 1 = 0 ∧ g 0x24 4 = 0) && (s.rbs (a + 0x58) 40).all (· = 0) }

def Shard.frozen (h : Shard) : Bool := nbit h.flags 0
/-- The committed slot; a frozen shard has only slot 0 (R188). -/
def Shard.active (h : Shard) : Nat := if !h.frozen && nbit h.flags 1 then 1 else 0
def Shard.wslot (h : Shard) (n : Nat) : Nat := if n = 0 then h.w0 else h.w1
def Shard.mslot (h : Shard) (n : Nat) : Nat := if n = 0 then h.m0 else h.m1
/-- Bytes of a weight: FP16, or FP8 of a frozen shard (R188). -/
def Shard.wsize (h : Shard) : Nat := if h.format = 0 then 2 else 1
/-- Bytes of a moment slot under a rule (Table 9.3). -/
def Shard.mlen (h : Shard) (rule : Nat) : Nat :=
  match rule with
  | 2 => 8 * (h.rows * h.cols)
  | 4 => 4 * (h.rows + h.cols)
  | _ => 4 * (h.rows * h.cols)

/-- The ACTIVE or NEWEST bit of a shard written by the device (R187): bit 1 or 2 of FLAGS. -/
def State.setShardBit (s : State) (h : Shard) (b v : Nat) : State := s.putShardBit (h.at_ + 8) b v

/-! ### Selection (R195) -/

/-- The address of a layer-table entry (R182). -/
def State.layerAt (s : State) (i l : Nat) : Nat := (s.reg (R.layerBase i)).toNat + 128 * l
/-- STATE and FOLDS of a layer as the update unit keeps them since the first commit under CURV_CFG.ENABLE, if it does
(R172, R182). -/
def State.layerKept (s : State) (i l : Nat) : Option (Nat × Nat) :=
  if s.bit (R.curvCfg i) 0 then sget (fun _ => none) (s.inst i).layerSt l else none
/-- STATE of a layer: 0 COLD, 1 WARMING, 2 READY, 3 STALE (Table 8.2). -/
def State.layerState (s : State) (i l : Nat) : Nat :=
  match s.layerKept i l with
  | some k => k.1
  | none => s.rd (s.layerAt i l + 3) 1

/-- The rule that applies to a shard (R195). -/
def State.selected (s : State) (i : Nat) (h : Shard) : Nat :=
  if (h.rule = 5 ∧ s.layerState i h.layer ≠ 2) ∨ (s.bit (R.updCfg i) 2 ∧ h.fallback ≠ 0xFF) then h.fallback
  else h.rule

/-! ### Entry checks (R190) -/

/-- Whether a field of an entry lies outside its range. -/
def Shard.badFields (h : Shard) : Bool :=
  decide (5 < h.rule) || !decide (h.fallback = 6 ∨ h.fallback = 7 ∨ h.fallback = 0xFF) ||
  decide (h.rule = 5 ∧ h.fallback = 0xFF) || decide (8 ≤ h.flags) || decide (15 < h.hset) || !h.zero ||
  !(decide (h.format = 0) || (decide (h.format = 3 ∨ h.format = 4) && h.frozen)) ||
  decide (h.rows = 0) || decide (h.cols = 0) || decide (h.grows < h.offRow + h.rows) ||
  decide (h.gcols < h.offCol + h.cols) || decide (2 ^ 46 ≤ h.pbase)

/-- Whether an entry fails the check of R190; `rule` is the selected rule, which gives the moment layout. -/
def State.badShard (s : State) (i : Nat) (h : Shard) (rule : Nat) : Bool :=
  let n := h.rows * h.cols
  h.badFields || !s.ownsHbm i h.w0 (2 * n) || !s.ownsHbm i h.w1 (2 * n) || !s.ownsHbm i h.m0 (h.mlen rule) ||
  !s.ownsHbm i h.m1 (h.mlen rule) || !s.ownsHbm i h.grad (2 * n)

/-! ### The update rules (R192 to R197, Table 9.3) -/

/-- A hyperparameter set (R194). -/
structure HSet where
  lr : W32
  mu : W32
  beta2 : W32
  eps : W32
  wd : W32
  b1 : W32
  b2 : W32
deriving DecidableEq, Repr

def State.hset (s : State) (i n : Nat) : HSet :=
  let a := (s.reg (R.hsetBase i)).toNat + 32 * n
  let g (o : Nat) : W32 := BitVec.ofNat 32 (s.rd (a + o) 4)
  { lr := g 0, mu := g 4, beta2 := g 8, eps := g 0xC, wd := g 0x10, b1 := g 0x14, b2 := g 0x18 }

/-- The loss-scale exponent E (R192). -/
def State.lossExp (s : State) (i : Nat) : Int := sext 8 (s.fld (R.lscale i) 0 8)

/-- x = rn(g × 2^−E): an FP32 value unscaled (R192). -/
def unscale (e : Int) (g : W32) : W32 :=
  match f32 g with
  | .fin n m x => rn (.fin n m (x - e))
  | y => rn y

/-- A word of memory as FP32. -/
def State.rf (s : State) (a : Nat) : W32 := BitVec.ofNat 32 (s.rd a 4)
/-- An FP16 element widened exactly to FP32. -/
def State.rh (s : State) (a : Nat) : W32 := rn (flOf .fp16 (s.rd a 2))

/-- rn(rn(b·m) + rn(omb·x)): a moving average (Table 9.3). -/
def average (b omb m x : W32) : W32 := add32 (mul32 b m) (mul32 omb x)

/-- The sign of an FP32 value: −1, +0 or +1, a NaN giving the canonical NaN (rule 3). -/
def sign32 (x : W32) : W32 :=
  match flCmp (f32 x) (.fin false 0 0) with
  | none => nan32
  | some .lt => 0xBF800000
  | some .eq => 0
  | some .gt => one32

/-- What a rule computes for one element: the direction and the words written to the moment slot, as
(offset in the slot, value). -/
structure Moved where
  x : W32
  d : W32
  moments : List (Nat × W32)
deriving DecidableEq, Repr

/-- The rule applied to element p = i × COLS + j of a shard: x is the unscaled gradient or DIR element,
`m` reads the committed moment slot (Table 9.3, all rules but 4). -/
def ruleElem (rule op n p : Nat) (hs : HSet) (x : W32) (m : Nat → W32) : Moved :=
  let m0 := m (4 * p)
  let mom := add32 (mul32 hs.mu m0) x
  let omb1 := sub32 one32 hs.mu
  let omb2 := sub32 one32 hs.beta2
  match rule with
  | 1 => { x := x, d := add32 (mul32 hs.mu mom) x, moments := [(4 * p, mom)] }
  | 2 =>
    let m1 := average hs.mu omb1 m0 x
    let v1 := average hs.beta2 omb2 (m (4 * n + 4 * p)) (mul32 x x)
    { x := x, d := div32 (mul32 m1 hs.b1) (add32 (sqrt32 (mul32 v1 hs.b2)) hs.eps),
      moments := [(4 * p, m1), (4 * n + 4 * p, v1)] }
  | 3 => { x := x, d := sign32 (average hs.mu omb1 m0 x), moments := [(4 * p, average hs.beta2 omb2 m0 x)] }
  | 6 => if op = 2 then { x := x, d := x, moments := [] } else { x := x, d := mom, moments := [(4 * p, mom)] }
  | _ => { x := x, d := mom, moments := [(4 * p, mom)] }

/-- The sum of FP32 values in order. -/
def sum32 (l : List W32) : W32 := l.foldl add32 0
/-- rn(1/n). -/
def recip32 (n : Nat) : W32 := rn (flDiv (.fin false 1 0) (.fin false n 0))

/-- The row and column averages of rule 4 and the sum R of the row averages (Table 9.3). -/
def factored (rows cols : Nat) (hs : HSet) (x : Nat → Nat → W32) (m : Nat → W32) : List W32 × List W32 × W32 :=
  let omb := sub32 one32 hs.beta2
  let sq (i j : Nat) : W32 := mul32 (x i j) (x i j)
  let r := (List.range rows).map fun i =>
    average hs.beta2 omb (m (4 * i)) (mul32 (sum32 ((List.range cols).map fun j => sq i j)) (recip32 cols))
  let c := (List.range cols).map fun j =>
    average hs.beta2 omb (m (4 * (rows + j))) (mul32 (sum32 ((List.range rows).map fun i => sq i j)) (recip32 rows))
  (r, c, sum32 r)

/-- The direction of rule 4 for one element. -/
def factoredDir (hs : HSet) (x r c total : W32) : W32 :=
  div32 x (add32 (sqrt32 (div32 (mul32 r c) total)) hs.eps)

/-- The index that keys a weight's draw (R197). -/
def Shard.index (h : Shard) (i j : Nat) : Nat := (h.pbase + (h.offRow + i) * h.gcols + h.offCol + j) % 2 ^ 46

/-- w′ = sr(rn(w − rn(η × rn(d + rn(WD × w))))), the FP16 bits written (R197). -/
def newWeight (hs : HSet) (u : Nat) (w d : W32) : Nat :=
  flStoch .fp16 u (f32 (sub32 w (mul32 hs.lr (add32 d (mul32 hs.wd w)))))

/-- The update of an element: its moments, its weight (unless the phase is MOMENT), and whether a value is
not finite (R193). -/
structure Done where
  s : State
  nf : Bool

/-- Moments and weight of element (i, j) written to the provisional slots. -/
def Done.put (a : Done) (h : Shard) (hs : HSet) (post : UpdPost) (seed : W64) (i j : Nat) (r : Moved) : Done :=
  let p := i * h.cols + j
  let cur := h.active
  let prov := 1 - cur
  let s := forEach r.moments a.s fun s e => s.wr (h.mslot prov + e.1) 4 e.2.toNat
  let nf := a.nf || !finite32 r.x || !finite32 r.d || r.moments.any fun e => !finite32 e.2
  if post.op = 1 then { s := s, nf := nf }
  else
    let u := (draw seed .stochastic h.tensor post.step (h.index i j)).toNat / 2 ^ 16
    let b := newWeight hs u (s.rh (h.wslot cur + 2 * p)) r.d
    { s := s.wr (h.wslot prov + 2 * p) 2 b, nf := nf || !flFinite (flOf .fp16 b) }

/-- The unscaled input of element (i, j): the gradient, or the DIR row element of rules 5, 7 and 6's
APPLY; rule 6's direction is taken as it is (R192, Table 9.3). -/
def State.updInput (s : State) (h : Shard) (rule : Nat) (e : Int) (post : UpdPost) (i j : Nat) : W32 :=
  let dir := s.rf (post.dir + 4 * ((i - post.rowFirst) * h.cols + j))
  match rule with
  | 5 | 7 => unscale e dir
  | 6 => if post.op = 2 then dir else unscale e (s.rh (h.grad + 2 * (i * h.cols + j)))
  | _ => unscale e (s.rh (h.grad + 2 * (i * h.cols + j)))

/-- The update of the rows of a post (R195 to R197). -/
def State.applyRule (s : State) (i : Nat) (h : Shard) (rule : Nat) (post : UpdPost) : Done :=
  let hs := s.hset i h.hset
  let e := s.lossExp i
  let seed := s.reg (R.instSeed i)
  let rows := (List.range post.rows).map fun r => post.rowFirst + r
  let cells := rows.flatMap fun r => (List.range h.cols).map fun c => (r, c)
  let m (s : State) (o : Nat) : W32 := s.rf (h.mslot h.active + o)
  if rule = 4 then
    let f := factored h.rows h.cols hs (fun r c => s.updInput h rule e post r c) (m s)
    let out := h.mslot (1 - h.active)
    let s1 := s.write out ((f.1 ++ f.2.1).flatMap fun x => leBytes 4 x.toNat)
    let nf := (f.1 ++ f.2.1).any fun x => !finite32 x
    cells.foldl (fun a p =>
      let x := a.s.updInput h rule e post p.1 p.2
      a.put h hs post seed p.1 p.2
        { x := x, d := factoredDir hs x (f.1.getD p.1 0) (f.2.1.getD p.2 0) f.2.2, moments := [] }) { s := s1, nf := nf }
  else
    cells.foldl (fun a p =>
      let x := a.s.updInput h rule e post p.1 p.2
      a.put h hs post seed p.1 p.2 (ruleElem rule post.op (h.rows * h.cols) (p.1 * h.cols + p.2) hs x (m a.s)))
      { s := s, nf := false }

/-! ### Posts (R199) -/

/-- Whether OP is allowed for a rule (R199). -/
def opAllowed (rule op : Nat) : Bool := if rule = 6 then decide (op = 1 ∨ op = 2) else decide (op = 0)

/-- Whether a rule and phase read direction rows (Table 9.4). -/
def readsDir (rule op : Nat) : Bool := decide (rule = 5 ∨ rule = 7 ∨ (rule = 6 ∧ op = 2))

/-- The post that a descriptor asks for (Table 9.4), or the fault that refuses it (R199). -/
def State.checkU (s : State) (i k : Nat) (cnt cl val : Nat) (tag : Nat × Bool) (b : List Byte) : Except Nat UpdPost :=
  let g := fieldAt b
  let p : UpdPost :=
    { gen := s.gen i, launch := s.launchOn k, core := k, cnt := cnt, cl := cl, val := val, op := g 0 1, rule := g 1 1, shard := g 4 4,
      rowFirst := g 8 4, rows := g 0xC 4, dir := g 0x10 8, step := s.coreStep k, cause := tag.1, prop := tag.2 }
  let h := s.shard i p.shard
  if 2 < p.op ∨ 7 < p.rule ∨ g 2 2 ≠ 0 ∨ (b.drop 0x18).any (· ≠ 0) ∨ s.shards i ≤ p.shard ∨ p.rows = 0 ∨
      h.rows < p.rowFirst + p.rows ∨ h.frozen ∨ (p.rule = 4 ∧ (p.rowFirst ≠ 0 ∨ p.rows ≠ h.rows)) ∨
      (p.rule < 5 ∧ p.dir ≠ 0) then .error Cause.tileRange
  else if readsDir p.rule p.op ∧ ¬s.ownsHbm i p.dir (4 * (p.rows * h.cols)) then .error Cause.notOwned
  else .ok p

/-- Whether a post made now is discarded, its signal still sent: one of an undone run-ahead program, one of step S while
S is TAINTED or SKIPPED, and, while the gate runs, one of a step that has resolved (R189, R205, log 28). -/
def State.postDiscarded (s : State) (i k : Nat) : Bool :=
  let st := s.coreStep k
  let g := s.gate i
  s.coreUndone k || (s.gateOn i && ((decide (st ≠ s.s0 i) && !s.provisional i st) ||
    (decide (st = s.s0 i) && decide (g.st = .tainted ∨ g.st = .skipped))))

/-- UPD.APPLY: posts an update to the update unit (R100, R199). -/
def doUpdApply (k : Nat) (an : AReg) (cnt : Nat) (gt : GReg) (val : W16) : Doing := fun tag s =>
  postAt k an gt (fun b cl s =>
    let i := s.instOf k
    match s.checkU i k cnt cl val.toNat tag b with
    | .error f => .fault f
    | .ok p =>
      if !s.signalOwned k cl then .fault Cause.notOwned
      else
        let g := s.gate i
        .next (s.setGate i { g with posts := g.posts ++ [{ p with discard := s.postDiscarded i k }] })) tag s
def execUpdApply (k : Nat) (l : Launch) (an : AReg) (cnt : Nat) (gt : GReg) (val : W16) (s : State) :
    Host.Outcome State Fault Refusal :=
  .next (s.issue k (.updApply k l an cnt gt val) (doUpdApply k an cnt gt val))

/-- Whether a post belongs to the run-ahead step, and is held until step S resolves (R199). -/
def State.postHeld (s : State) (i : Nat) (p : UpdPost) : Bool :=
  !p.discard && s.provisional i p.step

/-- Whether an export in flight reads the slot that a post would write (R199). -/
def State.postMeetsExport (s : State) (i : Nat) (p : UpdPost) : Bool :=
  let slot := 1 - (s.shard i p.shard).active
  decide (p.op ≠ 1) && !p.discard && (s.inst i).exports.any fun e => decide (e.shard = p.shard ∧ e.slot = slot)

/-- The saved areas that the checkpoint engine has not read to their end: each is protected whole until it has been
read (R320, R321). -/
def CkptSrc.unread (c : CkptSrc) : List (Nat × Nat × Option Nat) :=
  (c.regions.foldl (fun a r =>
    let n := a.1 + cdiv r.2.1 65536
    (n, if n ≤ c.next then a.2 else a.2 ++ [r])) (0, [])).2

/-- Whether a post would write a shard slot that the checkpoint engine has not read yet, or NEWEST of a shard entry in a
listed region that it has not read (R321). -/
def State.postMeetsCkpt (s : State) (i : Nat) (p : UpdPost) : Bool :=
  let h := s.shard i p.shard
  let w := h.wslot (1 - h.active)
  let m := h.mslot (1 - h.active)
  let meets (r : Nat × Nat × Option Nat) (a n : Nat) : Bool := decide (a < r.1 + r.2.1 ∧ r.1 < a + n)
  !p.discard && !h.frozen && decide (s.fld R.ckptCfg 8 6 = i) &&
    match s.ckpt.src with
    | none => false
    | some c => c.unread.any fun r =>
      match r.2.2 with
      | some _ => (decide (p.op ≠ 1) && meets r w (2 * (h.rows * h.cols))) || (decide (p.op ≠ 2) && meets r m (h.mlen p.rule))
      | none => decide (p.op ≠ 1) && meets r (h.at_ + 8) 1

/-- The slip cause of a hold for the checkpoint engine: HOST where this module's BEGIN waits on a drain at its buddy,
else CONTENTION (R321, R327). No message tells the source of that drain: the choice is a free value (log 26). -/
def State.ckptHoldCause (s : State) : Nat := if Config.buddyDrains s.freeCtr then 5 else 4

/-- Whether an export or the checkpoint engine holds a post (R199, R321). -/
def State.postStopped (s : State) (i : Nat) (p : UpdPost) : Bool := s.postMeetsExport i p || s.postMeetsCkpt i p

/-- The ranges that a post reads, and those that it writes. -/
def State.postRanges (s : State) (i : Nat) (h : Shard) (rule : Nat) (p : UpdPost) :
    List (Nat × Nat) × List (Nat × Nat) :=
  let o := p.rowFirst * h.cols
  let n := p.rows * h.cols
  let cur := h.active
  let rows (base size : Nat) : Nat × Nat := (base + size * o, size * n)
  let mom (slot : Nat) : List (Nat × Nat) :=
    match rule with
    | 2 => [rows slot 4, rows (slot + 4 * (h.rows * h.cols)) 4]
    | 4 => [(slot, h.mlen 4)]
    | _ => [rows slot 4]
  let usesMom := !(decide (rule = 6 ∧ p.op = 2))
  let input := if readsDir rule p.op then (p.dir, 4 * n) else rows h.grad 2
  (input :: ((s.reg (R.hsetBase i)).toNat + 32 * h.hset, 32) ::
      ((if usesMom then mom (h.mslot cur) else []) ++ (if p.op = 1 then [] else [rows (h.wslot cur) 2])),
   (if usesMom then mom (h.mslot (1 - cur)) else []) ++ (if p.op = 1 then [] else [rows (h.wslot (1 - cur)) 2]))

/-- Who made a post. -/
def UpdPost.poster (p : UpdPost) : Poster := .core p.core p.cnt p.cl p.val p.launch

/-- A post that the entry check refuses (R190, R199): bit 5 BAD_SHARD or 4 RULE_MISMATCH. -/
def State.refusePost (s : State) (i : Nat) (p : UpdPost) (b : Nat) : State :=
  ((s.gateEvent i s.coord b).raise 2 St.plausibility .upd b p.poster.uid i (s.posterCmd p.poster) p.poster.uid [] 2).failPost i p.poster
    p.step p.poster.uid

/-- A post that meets an uncorrectable word: a class A event, the LAUNCH of its program is marked, and the contribution
fails (R302, R303). -/
def State.postMemory (s : State) (i : Nat) (p : UpdPost) (w : Nat) : State :=
  let s := s.raise 1 St.memoryUncorrectable .upd (openDetail .upd St.memoryUncorrectable) (memUid w) i (s.posterCmd p.poster)
    (memUid w) (s.ctxRegs (R.gateErr i) (R.gateLast i)) 2
  (s.postUncorrectable p.poster).failContribution i p.step (memUid w)

/-- Whether the rows from `first` to `stop` of a shard lie in posts of phase MOMENT that have been performed. -/
def rowsCovered (l : List (Nat × Nat × Nat)) (shard stop : Nat) : Nat → Nat → Bool
  | 0, first => decide (stop ≤ first)
  | fuel + 1, first =>
    if stop ≤ first then true
    else
      match l.find? fun e => decide (e.1 = shard ∧ e.2.1 ≤ first ∧ first < e.2.1 + e.2.2) with
      | some e => rowsCovered l shard stop fuel (e.2.1 + e.2.2)
      | none => false

/-- Whether the phase of a post comes in its turn: for rule 6, APPLY only to rows whose MOMENT the step has performed
(R199, log 52). -/
def State.inTurn (s : State) (i : Nat) (p : UpdPost) : Bool :=
  let l := (s.gate i).moments
  decide (p.op ≠ 2) || rowsCovered l p.shard (p.rowFirst + p.rows) (l.length + 1) p.rowFirst

/-- A post performed, without its signal. A shard that has been frozen since the post was made is not updated (R188,
log 52). -/
def State.performPost (s : State) (i : Nat) (p : UpdPost) : State :=
  let h := s.shard i p.shard
  let rule := s.selected i h
  if let some w := s.badWord h.at_ 128 then s.postMemory i p w
  else if s.badShard i h rule then s.refusePost i p 5
  else if rule ≠ p.rule ∨ ¬opAllowed rule p.op ∨ ¬s.inTurn i p then s.refusePost i p 4
  else if h.frozen then s
  else
    let r := s.postRanges i h rule p
    match s.badAmong r.1 false <|> s.badAmong r.2 true with
    | some w => s.postMemory i p w
    | none =>
      let a := s.applyRule i h rule p
      let s := if a.nf then a.s.setNf i p.step else a.s
      if p.op = 1 then
        let g := s.gate i
        s.setGate i { g with moments := g.moments ++ [(p.shard, p.rowFirst, p.rows)] }
      else
        let s := s.setShardBit h 2 (1 - h.active)
        let g := s.gate i
        s.setGate i { g with updated := if g.updated.contains p.shard then g.updated else g.updated ++ [p.shard] }

/-- UPDATE_POST_PERFORM: the update unit performs the first post that step S does not hold back: the entry
check, the rule, the provisional slots and NEWEST, then the post's signal (R189, R190, R195 to R199). A
post that an export holds waits with cause CONTENTION, one that the checkpoint engine holds with that cause or HOST (R199,
R321, R327); one of an old generation is dropped (R241). -/
def updatePostPerform (i : Nat) (s : State) : State :=
  let g := s.gate i
  let mark (p : UpdPost) : UpdPost :=
    if s.postHeld i p then p
    else if s.postMeetsExport i p then { p with cause := 4, prop := false }
    else if s.postMeetsCkpt i p then { p with cause := s.ckptHoldCause, prop := false }
    else p
  let engine := g.posts.any fun p => !s.postHeld i p && !s.postMeetsExport i p && s.postMeetsCkpt i p
  let g := { g with posts := g.posts.map mark }
  let s := { s with freeCtr := s.freeCtr + engine.toNat }.setGate i g
  match g.posts.find? fun p => !s.postHeld i p && !s.postStopped i p with
  | none => s
  | some p =>
    let s := s.setGate i { g with posts := g.posts.erase p }
    if p.gen ≠ s.gen i then (s.stale i).orphanGone i
    else (if p.discard then s else s.performPost i p).postDone p.core p.cnt p.cl p.val p.cause p.prop
def execUpdatePostPerform (i : Nat) (s : State) : Host.Outcome State Fault Refusal := .next (updatePostPerform i s)

end Sys2Proof.Machine
end

