-- ==== Sys2Proof/Machine/Audit.lean ====
section
/-! DEFINITION. Audit records (R288 to R292): their digests, the ring, and what they hold back. -/

namespace Sys2Proof.Machine

/-! ### Digests (R288, R291) -/

/-- Bytes written to HBM; no byte lands where no HBM is (R150). -/
def State.hbmWrite (s : State) (a : Nat) (b : List Byte) : State :=
  if a + b.length ≤ hbmTop then s.write a b else s

/-- The step digest of R288: the fold of the digest table. A table outside the instance's buffers gives 0 (log 25). -/
def State.stepDigest (s : State) (i : Nat) : State × W64 :=
  let a := (s.reg (R.audDigests i)).toNat
  let n := 8 * (s.reg (R.audDlen i)).toNat
  if n = 0 ∨ !s.ownsHbm i a n then (s, 0)
  else
    let x := s.hashRanges i [(a, n)] fun _ => leBytes 8 (crc64 0 (s.rbs a n)).toNat
    (x.1, BitVec.ofNat 64 (leNat x.2))

/-- The SHA-256 of the committed slot of a shard (R291, Table 9.6). -/
def State.shardDigest (s : State) (i n : Nat) : State × List Byte :=
  let h := s.shard i n
  let a := h.wslot h.active
  let len := h.rows * h.cols * h.wsize
  s.hashRanges i [(a, len)] fun _ => sha256 (s.rbs a len)

/-! ### Jobs -/

/-- Whether the ring has no free entry for one more record (R292). -/
def State.auditFull (s : State) (i : Nat) : Bool :=
  let x := s.inst i
  decide (s.fld (R.audSize i) 0 16 ≤ x.auditUsed + x.audits.length)

/-- RING_FULL with the class B event of a hold that begins (R292). -/
def State.ringFull (s : State) (i : Nat) : State := (s.setBit (R.audStat i) 0 true).raise 2 St.internal .dev 0 pcieUid i

/-- A solve whose completion waits because the ring has no free entry for its record: the hold begins (R292). -/
def State.holdSolve (s : State) (i tag : Nat) : State :=
  let x := s.inst i
  let mark (r : SolveRec) : SolveRec := if r.tag = tag then { r with ringHeld := some s.beat } else r
  if x.solves.any fun r => decide (r.tag = tag) && r.ringHeld.isNone then (s.setInst i { x with solves := x.solves.map mark }).ringFull i
  else s

/-- A record's certified time: a missing one sets NO_CERT_TIME (R292). -/
def State.newAudit (s : State) (i : Nat) (j : AuditJob) : State :=
  let cert := s.certTime j.beat
  let s := match cert with
    | some _ => s
    | none => s.sticky .dev (R.audStat i) 2 St.internal i
  let x := s.inst i
  s.setInst i { x with audits := x.audits ++ [{ j with cert := cert.getD [] }] }

/-- The record of a commit: `st` is its code, `c` and `s0` the C it made and the S it resolved (Table 13.3). -/
def State.auditStep (s : State) (i st : Nat) (c s0 : W64) : State :=
  let d := s.stepDigest i
  let h := d.1.hashInputs i
  let s := h.1
  let x := s.inst i
  let weights := s.bit (R.audCfg i) 1
  let j : AuditJob :=
    { kind := 1, status := st, id := c, detail := s0, beat := s.beat, state := zeros 32, out := d.2,
      shardsLeft := if weights then List.range (s.shards i) else [], program := sha256 (x.programs.flatMap (·.2)),
      badInputs := h.2.outside, inputs := h.2.digest, tuned := x.tuned, noWeights := !weights, cert := [] }
  (s.setInst i { x with programs := [] }).newAudit i j

/-- The 256 bytes of a record (Table 13.3). -/
def State.auditBytes (s : State) (i : Nat) (j : AuditJob) (seq : Nat) (prev : List Byte) : List Byte :=
  let m := s.reg R.devMode
  let flags := m.toNat % 4 + 4 * j.tuned.toNat + 8 * j.cert.isEmpty.toNat + 16 * j.badInputs.toNat + 32 * j.noWeights.toNat
  [0x57, 0x46, 0x41, 0x55] ++ leBytes 2 1 ++ leBytes 1 j.kind ++ leBytes 1 j.status ++ leBytes 1 i ++
  leBytes 1 s.fuses.binV.toNat ++ leBytes 1 flags ++ zeros 1 ++ leBytes 4 seq ++ leBytes 8 j.id.toNat ++ leBytes 8 j.detail.toNat ++
  leBytes 8 j.beat.toNat ++ leBytes 4 (s.reg R.devFwVer).toNat ++ leBytes 4 (s.reg R.devMcFwVer).toNat ++
  leBytes 8 (s.reg (R.instSeed i)).toNat ++ (if j.cert.isEmpty then zeros 16 else j.cert) ++ j.program ++
  (if j.kind = 1 ∧ !j.noWeights then sha256 j.shardAcc else j.state) ++ j.inputs ++
  ((List.range 8).flatMap fun n => leBytes 4 (s.reg (R.dumapDigest n)).toNat) ++ leBytes 8 j.out.toNat ++
  (if prev.isEmpty then zeros 32 else sha256 prev) ++ zeros 16

/-- AUDIT_RECORD_WRITE: the first record whose digests are complete is written at the ring's tail; a full ring
holds it (R289 to R292). -/
def auditRecordWrite (i : Nat) (s : State) : State :=
  let x := s.inst i
  let n := s.fld (R.audSize i) 0 16
  match x.audits.find? fun j => j.shardsLeft.isEmpty with
  | none => s
  | some j =>
    if n = 0 then s.setInst i { x with audits := x.audits.erase j }
    else if n ≤ x.auditUsed then
      match j.tag with
      | some t => s.holdSolve i t
      | none => s
    else
      let t := s.fld (R.audPtr i) 16 16
      let b := s.auditBytes i j (x.auditSeq + 1) x.auditPrev
      let s := s.hbmWrite ((s.reg (R.audRing i)).toNat + 256 * t) b
      let s := s.setInst i { x with audits := x.audits.erase j, auditUsed := x.auditUsed + 1, auditSeq := x.auditSeq + 1, auditPrev := b }
      (s.setFld (R.audPtr i) 16 16 ((t + 1) % n)).incReg (R.audCount i)
def execAuditRecordWrite (i : Nat) (s : State) : Host.Outcome State Fault Refusal := .next (auditRecordWrite i s)

/-- The next shard of the first STATE digest under way is done (R291, R292). -/
def State.shardDone (s : State) (i : Nat) : State :=
  let x := s.inst i
  match x.audits.find? fun j => !j.shardsLeft.isEmpty with
  | none => s
  | some j =>
    match j.shardsLeft with
    | [] => s
    | n :: r =>
      let d := s.shardDigest i n
      let up (k : AuditJob) : AuditJob := if k = j then { k with shardsLeft := r, shardAcc := k.shardAcc ++ d.2 } else k
      d.1.setInst i { x with audits := x.audits.map up }

/-- Whether a shard's STATE digest is still being computed (R292). -/
def State.digesting (s : State) (i n : Nat) : Bool := (s.inst i).audits.any fun j => j.shardsLeft.contains n

end Sys2Proof.Machine
end

