-- ==== Sys2Proof/Machine/Frames.lean ====
section
/-! DEFINITION. What travels on a port as bytes (R256 to R258): messages cut into flits, frames with their control word,
and the sixteen lanes. -/

namespace Sys2Proof

open Machine

/-! ### Messages and flits (R258, Table 12.3) -/

/-- The 32-byte header of a message (Table 12.3). -/
def Message.header (m : Message) : List Byte :=
  leBytes 1 m.typ ++ leBytes 1 (m.gen % 16 + m.step % 4 * 16 + m.prov.toNat * 64 + m.dclass % 2 * 128) ++
  leBytes 2 m.job ++ leBytes 4 (m.dst % 2 ^ 24) ++ leBytes 4 (m.src % 2 ^ 24) ++ leBytes 4 m.payload.length ++
  leBytes 4 m.seq ++ leBytes 4 m.chunk ++ leBytes 8 m.attr

/-- Header, payload and the payload's CRC-32C. -/
def Message.bytes (m : Message) : List Byte := m.header ++ m.payload ++ leBytes 4 m.crc.toNat

/-- Flit n of a message, the last one padded with zero bytes. -/
def Message.flit (m : Message) (n : Nat) : List Byte :=
  let b := (m.bytes.drop (256 * n)).take 256
  b ++ zeros (256 - b.length)

/-- The flits of a message with n bytes of payload: header, payload and CRC in 256-byte flits. -/
def flitsOf (n : Nat) : Nat := cdiv (36 + n) 256
def msgFlits (m : Message) : Nat := flitsOf m.payload.length

/-- The payload length that a HEAD flit names. -/
def lenOf (head : List Byte) : Nat := leNat ((head.drop 0xC).take 4)

/-- The message that the bytes of its flits spell on a VC. -/
def messageOf (vc : Nat) (b : List Byte) : Message :=
  let g (o n : Nat) : Nat := leNat ((b.drop o).take n)
  let tags := g 1 1
  { typ := g 0 1, vc := vc, gen := tags % 16, step := tags / 16 % 4, prov := nbit tags 6, dclass := tags / 128, job := g 2 2,
    dst := g 4 4 % 2 ^ 24, src := g 8 4 % 2 ^ 24, seq := g 0x10 4, chunk := g 0x14 4, attr := g 0x18 8,
    payload := (b.drop 32).take (lenOf b), crc := BitVec.ofNat 32 (g (32 + lenOf b) 4) }

/-! ### Frames and lanes (R256, R257, Table 12.2) -/

/-- The lanes of a frame: byte b of the flit area on lane b mod 16, bits [20L + 19:20L] of the control word on lane L. -/
def lanesOf (area fcw : List Byte) : List LaneWord :=
  (List.range 16).map fun l =>
    { flits := (List.range 640).map fun j => nth 0 area (16 * j + l), fcw := BitVec.ofNat 20 (leNat fcw / 2 ^ (20 * l)) }

/-- The 10,240-byte flit area of a frame. -/
def Frame.area (f : Frame) : List Byte :=
  (List.range 10240).map fun b => nth 0 (nth {} f.lanes (b % 16)).flits (b / 16)
/-- The 40-byte control word of a frame. -/
def Frame.fcw (f : Frame) : List Byte :=
  leBytes 40 (((List.range 16).map fun l => (nth {} f.lanes l).fcw.toNat * 2 ^ (20 * l)).sum)

/-- A field of the control word (Table 12.2). -/
def Frame.field (f : Frame) (o n : Nat) : Nat := leNat ((f.fcw.drop o).take n)
def Frame.fseq (f : Frame) : Nat := f.field 0 2
def Frame.ack (f : Frame) : Nat := f.field 2 2
def Frame.nack (f : Frame) : Bool := nbit (f.field 4 1) 0
def Frame.mark (f : Frame) : Option Nat := if nbit (f.field 4 1) 1 then some (f.field 0x1C 8) else none
def Frame.credit (f : Frame) : Nat := f.field 6 2
/-- The VC of flit slot n, and whether a HEAD flit stands there. -/
def Frame.slot (f : Frame) (n : Nat) : Nat × Bool :=
  let x := nfield (f.field 8 20) (4 * n) 4
  (x % 8, nbit x 3)
/-- The flit in slot n. -/
def Frame.flit (f : Frame) (n : Nat) : List Byte := (f.area.drop (256 * n)).take 256

/-- Whether a frame is good: FEC has corrected every codeword, and FCRC is the CRC-32C of the flit area and the first 36
bytes of the control word (R257). -/
def Frame.good (f : Frame) : Bool :=
  decide (f.uncorr = 0) && decide ((crc32c (f.area ++ f.fcw.take 0x24)).toNat = f.field 0x24 4)

/-- The control word of a frame that leaves now, without its FCRC: its body's fields with the present ACK, NACK and
marker (Table 12.2). -/
def Machine.FrameBody.head (b : FrameBody) (ack : Nat) (nack : Bool) (mark : Option Nat) : List Byte :=
  let slots := ((List.range 40).map fun n =>
    let x := nth (0, true) b.slots n
    (x.1 % 8 + x.2.toNat * 8) * 2 ^ (4 * n)).sum
  leBytes 2 b.fseq ++ leBytes 2 ack ++ leBytes 1 (nack.toNat + mark.isSome.toNat * 2) ++ zeros 1 ++
    leBytes 2 b.credit ++ leBytes 20 slots ++ leBytes 8 (mark.getD 0)

/-- A frame that leaves now, with its FCRC, on its sixteen lanes (R256, R257). -/
def Machine.FrameBody.frame (b : FrameBody) (ack : Nat) (nack : Bool) (mark : Option Nat) : Frame :=
  let head := b.head ack nack mark
  { lanes := lanesOf b.area (head ++ leBytes 4 (crc32c (b.area ++ head)).toNat) }

/-! ### Putting messages together again -/

/-- What a port's receiver holds after one flit of a frame: the flits of each VC's message so far, which of them came in
a frame sent again, and the messages that are whole. An IDLE message fills its slot and nothing else (R258). -/
structure Inflow where
  parts : Sparse (List Byte)
  hit : Sparse Bool
  whole : List Message := []
deriving DecidableEq, Repr

/-- One flit slot taken in; `again` says that its frame was sent again (R260). -/
def Inflow.take (x : Inflow) (vc : Nat) (head : Bool) (flit : List Byte) (again : Bool) : Inflow :=
  let had := sget (fun _ => []) x.parts vc
  if (head && decide (flit.take 1 = [0])) || (!head && had.isEmpty) then x
  else
    let b := if head then flit else had ++ flit
    let hit := again || (!head && sget (fun _ => false) x.hit vc)
    if 256 * flitsOf (lenOf b) ≤ b.length then
      { parts := sput (fun _ => []) x.parts vc [], hit := sput (fun _ => false) x.hit vc false,
        whole := x.whole ++ [{ messageOf vc b with retried := hit }] }
    else { x with parts := sput (fun _ => []) x.parts vc b, hit := sput (fun _ => false) x.hit vc hit }

/-- The forty slots of a good frame taken in. -/
def Inflow.frame (x : Inflow) (f : Frame) (again : Bool) : Inflow :=
  (List.range 40).foldl (fun x n => x.take (f.slot n).1 (f.slot n).2 (f.flit n) again) x

end Sys2Proof
end

