-- ==== Sys2Proof/Machine/Collective.lean ====
section
/-! DEFINITION. Collectives (R121 to R123, R267 to R274, R277): the descriptor and its checks, COLL.POST,
the trees inside the module, and the chunks that travel along the axes. -/

namespace Sys2Proof.Machine

/-! ### Descriptors (Table 12.6) -/

def CDesc.of (b : List Byte) : CDesc :=
  let g := fieldAt b
  { kind := g 0 1, levels := g 1 1, cuts := g 2 1, fmt := g 3 1, elems := g 4 4, dst := g 0x10 8, dstFmt := g 0x18 1,
    vc := g 0x19 1, first := g 0x1A 2, count := g 0x1C 2, peer := g 0x1E 1, mask := g 0x20 4, seq := g 0x24 4,
    tokens := g 0x28 4 }

/-- The axis that COLL_CUT binds cut b to; 4 is none (R265). -/
def State.cutAxis (s : State) (i b : Nat) : Nat := s.fld (R.collCut i) (3 * b) 3
def State.slowAxis (s : State) (i : Nat) : Nat := s.fld (R.collCut i) 12 3

/-- The axes of a descriptor's cuts in X, Y, Z, W order with the slow axis last (R272). -/
def State.axesOf (s : State) (i cuts : Nat) : List Nat :=
  let l := [0, 1, 2, 3].filter fun ax => (List.range 4).any fun b => nbit cuts b && decide (s.cutAxis i b = ax)
  l.filter (fun ax => decide (ax ≠ s.slowAxis i)) ++ l.filter fun ax => decide (ax = s.slowAxis i)

def popCount4 (x : Nat) : Nat := ((List.range 4).filter fun b => nbit x b).length

def CDesc.fl (d : CDesc) : Bool := !fmtInt d.fmt
def collFmt (f : Nat) : Bool := decide (f = 0 ∨ f = 1 ∨ f = 5 ∨ f = 6)

/-- Contribution bytes. -/
def CDesc.srcLen (d : CDesc) : Nat := d.elems * fmtSize d.fmt

/-- The dies that hold a cluster of the set, in ascending order. -/
def CDesc.dies (d : CDesc) : List Nat :=
  (List.range 16).filter fun die => (List.range d.count).any fun j => decide ((d.first + j) / 256 = die)

/-- How many results the highest level leaves (R269). -/
def CDesc.results (d : CDesc) : Nat :=
  if d.cuts ≠ 0 then 1 else if d.levels = 1 then d.count else if d.levels = 3 then d.dies.length else 1

def CDesc.dstLen (d : CDesc) : Nat := d.results * d.elems * fmtSize d.dstFmt

/-- The codes, ranges and cut rules of a collective descriptor (R268, Table 12.6): whether one breaks
them. `k` is the posting core. -/
def State.collBad (s : State) (i : Nat) (k : Option Nat) (b : List Byte) (d : CDesc) : Bool :=
  let zero (o n : Nat) : Bool := decide (fieldAt b o n = 0)
  let unbound := (List.range 4).any fun c => nbit d.cuts c && decide (3 < s.cutAxis i c)
  let single := popCount4 d.cuts = 1
  let seqCut := nbit d.cuts 3
  decide (5 < d.kind) || !(decide (d.levels = 0 ∨ d.levels = 7) || (decide (d.levels = 1 ∨ d.levels = 3) && decide (d.cuts = 0))) ||
  decide (15 < d.cuts) || !collFmt d.fmt || !collFmt d.dstFmt || decide (d.elems = 0) || decide (2 ^ 28 < d.elems) ||
  (fmtInt d.fmt != fmtInt d.dstFmt) || !decide (d.vc = 0 ∨ d.vc = 6 ∨ d.vc = 7) || unbound ||
  (decide (d.kind ≠ 0) && !decide single) || decide (63 < d.peer) || !zero 0x1F 1 || !zero 0x2C 20 ||
  (if seqCut then decide (d.tokens = 0) else decide (d.tokens ≠ 0 ∧ d.tokens ≤ 2 ^ 20)) ||
  (decide (3 ≤ d.kind) && decide (s.jobExt i ((s.axesOf i d.cuts).getD 0 0) ≤ d.peer)) ||
  (decide (d.levels ≠ 0) &&
    (k.isNone || decide (d.count = 0) || decide (4096 < d.first + d.count) || (regionOf 0 d.mask 32).all fun g => !(g.own && g.cbuf)))

/-- Where a contribution lies in memory: an HBM range, or the poster's own scratchpad or cluster buffer. -/
def srcPlace (k : Option Nat) (src n : Nat) : Option Nat :=
  if 2 ^ 63 ≤ src then some (src % 2 ^ 48)
  else
    match k with
    | none => none
    | some k =>
      match regionOf k (src % 2 ^ 32) n with
      | some g => if g.own ∧ src < 2 ^ 32 then some (g.base + (src - g.start)) else none
      | none => none

/-- The checks of a collective descriptor in the order of R100, with the place of the contribution; a
core-fault cause, or 0x100 for a token count above the limit (R268). The clusters of column 15 that bin V lacks are
absent leaves of the trees (R122). -/
def State.checkC (s : State) (i : Nat) (k : Option Nat) (b : List Byte) : Except Nat (CDesc × Nat) :=
  let d := CDesc.of b
  let src := fieldAt b 8 8
  if s.collBad i k b d then .error Cause.tileRange
  else if 2 ^ 20 < d.tokens then .error 0x100
  else
    match srcPlace k src d.srcLen with
    | none => .error Cause.tileRange
    | some p =>
      let open_ := s.colls.find? fun c => decide (c.inst = i ∧ c.gen = s.gen i ∧ c.desc.seq = d.seq ∧ ¬c.done)
      let differs : Bool := match open_ with | some c => decide (c.desc ≠ d) | none => false
      let foreign : Bool := decide (d.levels ≠ 0) && (List.range d.count).any fun j =>
        s.exists' (d.first + j) && !s.owns i (d.first + j)
      if differs ∨ (2 ^ 63 ≤ src ∧ hbmTop < p + d.srcLen) ∨ (d.kind ≠ 4 ∧ hbmTop < d.dst + d.dstLen) then
        .error Cause.tileRange
      else if (2 ^ 63 ≤ src ∧ ¬s.ownsHbm i p d.srcLen) ∨ (d.kind ≠ 4 ∧ ¬s.ownsHbm i d.dst d.dstLen) ∨ foreign then
        .error Cause.notOwned
      else .ok (d, p)

/-! ### Values -/

/-- An element read and widened exactly: FP32 or INT64 (R269). -/
def widen (f raw : Nat) : W64 :=
  if fmtInt f then BitVec.ofInt 64 (elemInt f raw) else (rn (elemFl f raw)).zeroExtend 64

/-- The contribution at a memory address. -/
def State.readVec (s : State) (d : CDesc) (a : Nat) : List W64 :=
  (List.range d.elems).map fun j => widen d.fmt (s.rd (a + j * fmtSize d.fmt) (fmtSize d.fmt))

/-- The sum of two elements: FP32 rounded once, or INT64 saturating (R121, R123). -/
def addElem (fl : Bool) (x y : W64) : W64 :=
  if fl then (add32 (x.truncate 32) (y.truncate 32)).zeroExtend 64
  else BitVec.ofInt 64 (satInt 64 (x.toInt + y.toInt)).1

def addVec (fl : Bool) (x y : List W64) : List W64 := (x.zip y).map fun e => addElem fl e.1 e.2

/-- One level of the tree: neighbours summed, an absent one passing the other unchanged (R121). -/
def treeLevel (fl : Bool) : List (Option (List W64)) → List (Option (List W64))
  | some x :: some y :: r => some (addVec fl x y) :: treeLevel fl r
  | some x :: none :: r => some x :: treeLevel fl r
  | none :: y :: r => y :: treeLevel fl r
  | [x] => [x]
  | [] => []

/-- `depth` levels of the tree. -/
def treeSum (fl : Bool) : Nat → List (Option (List W64)) → Option (List W64)
  | 0, l => l.getD 0 none
  | n + 1, l => treeSum fl n (treeLevel fl l)

/-- Whether a vector of FP32 words holds a NaN or an infinity. -/
def vecNf (fl : Bool) (l : List W64) : Bool := fl && l.any fun x => !finite32 (x.truncate 32)

/-- A value stored in the destination format (R273). -/
def dstRaw (d : CDesc) (x : W64) : Nat :=
  (convert (if d.fl then 1 else 6) d.dstFmt none (if d.fl then (x.truncate 32 : W32).toNat else x.toNat)).getD 0

/-- A run of result elements of a collective written to DST from element `first`, under the fence of R222 where a core
of a solve posted it. -/
def State.writeDst (s : State) (c : Coll) (first : Nat) (l : List W64) : State :=
  let z := fmtSize c.desc.dstFmt
  s.solveWrite c.inst c.solve (c.desc.dst + first * z) (l.flatMap fun x => leBytes z (dstRaw c.desc x))

/-! ### Chunks of a level (R270, R271) -/

/-- Whether an axis level is narrowed: floating reductions on the slow axis. -/
def State.narrow (s : State) (c : Coll) (ax : Nat) : Bool :=
  c.desc.fl && decide (c.desc.kind ≤ 1) && decide (ax = s.slowAxis c.inst)

/-- Elements of a 64 KiB chunk of a level. -/
def chunkElems (fl narrow : Bool) : Nat := if !fl then 8192 else if narrow then 65536 else 32768

/-- floor(log2) of a finite non-zero value. -/
def flLog2 : Fl → Int
  | .fin _ m e => (Nat.log2 m : Int) + e
  | _ => 0

/-- A value times a power of two, exactly. -/
def flScale (x : Fl) (k : Int) : Fl :=
  match x with
  | .fin n m e => .fin n m (e + k)
  | y => y

/-- The scale exponent of a narrowed chunk (R271). -/
def scaleExp (l : List W64) : Int :=
  let mags := l.filterMap fun x =>
    match f32 (x.truncate 32) with
    | .fin _ m e => if m = 0 then none else some (Fl.fin false m e)
    | _ => none
  match mags with
  | [] => 0
  | x :: r => min 127 (14 - flLog2 (r.foldl flMax x))

/-- A chunk in the level's format: its scale exponent and its bytes. -/
def encodeChunk (fl narrow : Bool) (l : List W64) : Int × List Byte :=
  if !fl then (0, l.flatMap fun x => leBytes 8 x.toNat)
  else if narrow then
    let k := scaleExp l
    (k, l.flatMap fun x => leBytes 1 (flBits .e5m2 .rne (flScale (f32 (x.truncate 32)) k)))
  else (0, l.flatMap fun x => leBytes 2 (flBits .fp16 .rne (f32 (x.truncate 32))))

/-- The items of a list in groups of `n` bytes. -/
def groups (n : Nat) (b : List Byte) : List (List Byte) :=
  (List.range (b.length / n)).map fun i => (b.drop (n * i)).take n

/-- A chunk's values, widened exactly. -/
def decodeChunk (fl narrow : Bool) (k : Int) (b : List Byte) : List W64 :=
  if !fl then (groups 8 b).map fun g => BitVec.ofNat 64 (leNat g)
  else if narrow then b.map fun x => (rn (flScale (flOf .e5m2 x.toNat) (-k))).zeroExtend 64
  else (groups 2 b).map fun g => (rn (flOf .fp16 (leNat g))).zeroExtend 64

/-! ### The collective on its way -/

def State.putColl (s : State) (c : Coll) : State :=
  { s with colls := s.colls.map fun d => if d.id = c.id then c else d }

def State.myPos (s : State) (i ax : Nat) : Nat := s.relPos i s.coord ax

/-- The LAUNCHes of the programs that posted to a collective which met an uncorrectable word (R303). -/
def State.collUncorrectable (s : State) (c : Coll) : State :=
  forEach c.posters s fun s p => s.postUncorrectable p.1

/-- A collective ended with a status that is not OK. -/
def Coll.fail (c : Coll) (status : Nat) : Coll := { c with done := true, status := if c.done then c.status else status }

/-- The step's contribution has a chunk that left the module, and took part in a collective (R204). -/
def State.chunkLeft (s : State) (i : Nat) (step : W64) (seq : Nat) : State :=
  let g := s.gate i
  let lo (o : Option Nat) : Option Nat := some (match o with | some x => min x seq | none => seq)
  if step = s.s0 i then
    s.setGate i { g with chunkLeft := true, seqFirst := lo g.seqFirst, seqLast := max g.seqLast seq }
  else if step = s.s0 i + 1 then
    s.setGate i { g with chunkLeftNext := true, seqFirstNext := lo g.seqFirstNext, seqLastNext := max g.seqLastNext seq }
  else s

/-- Whether the first port of a route has failed. -/
def State.routeFailed (s : State) (dst : Nat) : Bool :=
  match s.routePort dst with
  | none => false
  | some p => decide (s.fld (R.linkStat p) 0 2 = 3)

/-- The port by which a message of another module reaches this one: its last hop is on the last axis on which the two
differ (R253, R262). -/
def State.arrivePort (s : State) (src : Nat) : Option Nat :=
  ([3, 2, 1, 0].find? fun ax => decide (coordAxis src ax ≠ coordAxis s.coord ax)).map fun ax =>
    let e := s.extOf ax
    let d := (coordAxis s.coord ax + e - coordAxis src ax % e) % e
    if d ≤ e / 2 then ax + 4 else ax

/-- The ports that a collective needs on an axis here: those to the member it sends to, and from the member it receives
from (R270, R272, R277). -/
def State.axisPorts (s : State) (c : Coll) (ax : Nat) : List Nat :=
  let n := s.jobExt c.inst ax
  let p := s.myPos c.inst ax
  let at_ (q : Nat) : Nat := s.atRel c.inst s.coord ax q
  let out (q : Nat) : List Nat := (s.routePort (at_ q)).toList
  let in_ (q : Nat) : List Nat := (s.arrivePort (at_ q)).toList
  if n = 1 then []
  else
    match c.desc.kind with
    | 3 => (if (p + 1) % n = c.desc.peer then [] else out ((p + 1) % n)) ++ if p = c.desc.peer then [] else in_ ((p + n - 1) % n)
    | 4 => out c.desc.peer
    | 5 => in_ c.desc.peer
    | _ => out ((p + 1) % n) ++ in_ ((p + n - 1) % n)

/-- Whether the route of a collective, on an axis still before it, needs a port for which `bad` holds (R274). -/
def State.routeNeeds (s : State) (c : Coll) (axes : List Nat) (bad : Nat → Bool) : Bool :=
  axes.any fun ax => (s.axisPorts c ax).any bad

/-- A collective ended with LINK_FAILED (R274). -/
def State.linkFailed (s : State) (c : Coll) : State :=
  (s.sticky .coll (R.collStat c.inst) 2 St.linkFailed c.inst).putColl (c.fail St.linkFailed)

/-- The token offset of chunk x: its first element in tokens of the sequence (Table 12.3). -/
def Coll.tokenOff (c : Coll) (elem : Nat) : Nat :=
  if c.desc.tokens = 0 then 0 else elem * c.desc.tokens / c.desc.elems

/-- A chunk sent to the member at a relative position, and kept until it is acknowledged (R274); a
route through a failed port ends the collective. -/
def State.sendChunk (s : State) (c : Coll) (ax x : Nat) (down : Bool) (k : Int) (bytes : List Byte) (rel : Nat) :
    State × Coll :=
  let dst := s.atRel c.inst s.coord ax rel
  if s.routeFailed dst then
    (s.sticky .coll (R.collStat c.inst) 2 St.linkFailed c.inst, c.fail St.linkFailed)
  else
    let nar := s.narrow c ax
    let vc := if c.desc.vc ≠ 0 then c.desc.vc else if 4 ≤ c.desc.kind then 6 else 1
    let fmt := if !c.desc.fl then 6 else if nar then 4 else 0
    let m : Message := { s.header c.inst Msg.chunk vc dst c.step with
      src := s.coord, seq := c.desc.seq, chunk := x, payload := bytes,
      attr := wrapInt 8 k + fmt * 2 ^ 8 + ax * 2 ^ 11 + down.toNat * 2 ^ 13
        + c.tokenOff (x * chunkElems c.desc.fl nar) % 2 ^ 20 * 2 ^ 14 }
    ((s.chunkLeft c.inst c.step c.desc.seq).send m, { c with kept := c.kept ++ [(m, 0)] })

/-- Chunk x of the present vector. -/
def Coll.slice (c : Coll) (K x : Nat) : List W64 := (c.vec.drop (x * K)).take K

/-- The final value of chunk x noted. -/
def Coll.final (c : Coll) (x : Nat) (l : List W64) : Coll :=
  { c with finals := sput (fun _ => []) c.finals x l, passed := if c.passed.contains x then c.passed else c.passed ++ [x] }

/-- Whether the axis has nothing more to wait for. -/
def Coll.axisDone (c : Coll) (chunks : Nat) : Bool :=
  match c.desc.kind with
  | 1 => decide (chunks ≤ c.passed.length)
  | 4 => c.kept.isEmpty
  | _ => decide (chunks ≤ c.finals.length)

/-- The result written to DST: the final chunks of the last axis (R272, R273). -/
def State.writeResult (s : State) (c : Coll) (K : Nat) : State × Coll :=
  let wr := c.finals.map fun e => (c.desc.dst + e.1 * K * fmtSize c.desc.dstFmt, e.2.length * fmtSize c.desc.dstFmt)
  match wr.findSome? fun r => s.bad.find? fun w => decide (w < r.1 + r.2 ∧ r.1 < w + 8 ∧ ¬(r.1 ≤ w ∧ w + 8 ≤ r.1 + r.2)) with
  | some w =>
    let s := s.raise 1 St.memoryUncorrectable .coll (openDetail .coll St.memoryUncorrectable) (memUid w) c.inst 0xFFFF (memUid w) [] 2
    ((s.collUncorrectable c).failContribution c.inst c.step (memUid w), c.fail St.memoryUncorrectable)
  | none =>
    let s := if c.desc.kind = 4 then s else forEach c.finals s fun s e => s.writeDst c (e.1 * K) e.2
    (s, { c with done := true })

/-- The chunks that start an axis at this module (R270, R272, R277). -/
def State.startAxis (s : State) (c : Coll) (ax K chunks : Nat) : State × Coll :=
  let n := s.jobExt c.inst ax
  let p := s.myPos c.inst ax
  let next := (p + 1) % n
  let fl := c.desc.fl
  let nar := s.narrow c ax
  let enc (x : Nat) : Int × List Byte := encodeChunk fl nar (c.slice K x)
  let run (l : List Nat) (f : State × Coll → Nat → State × Coll) : State × Coll := l.foldl f (s, c)
  if n = 1 then run (List.range chunks) fun a x => (a.1, a.2.final x (c.slice K x))
  else
    match c.desc.kind with
    | 0 | 1 =>
      run ((List.range chunks).filter fun x => decide ((x + 1) % n = p)) fun a x =>
        let e := enc x
        let r := a.1.sendChunk a.2 ax x false e.1 e.2 next
        (r.1, if c.desc.kind = 1 then { r.2 with passed := r.2.passed ++ [x] } else r.2)
    | 2 =>
      run ((List.range chunks).filter fun x => decide (x % n = p)) fun a x =>
        let e := enc x
        a.1.sendChunk (a.2.final x (c.slice K x)) ax x true e.1 e.2 next
    | 3 =>
      if p = c.desc.peer then
        run (List.range chunks) fun a x =>
          let e := enc x
          a.1.sendChunk (a.2.final x (c.slice K x)) ax x true e.1 e.2 next
      else (s, c)
    | 4 => run (List.range chunks) fun a x => let e := enc x; a.1.sendChunk a.2 ax x false e.1 e.2 c.desc.peer
    | _ => (s, c)

/-- The axes from `l` on: each starts when the one before has ended; after the last the result is written. -/
def State.runAxes (s : State) (c : Coll) : List Nat → State × Coll
  | [] => (s, c)
  | ax :: r =>
    let K := chunkElems c.desc.fl (s.narrow c ax)
    let chunks := cdiv c.desc.elems K
    let a := s.startAxis { c with axes := ax :: r, finals := [], passed := [] } ax K chunks
    if a.2.done then a
    else if a.2.axisDone chunks then
      match r with
      | [] => a.1.writeResult a.2 K
      | _ => a.1.runAxes { a.2 with vec := a.2.finals.flatMap (·.2) } r
    else a

/-- The present axis after a chunk has been taken: the next axis, or the result. -/
def State.nextAxis (s : State) (c : Coll) : State × Coll :=
  match c.axes with
  | [] => (s, c)
  | ax :: r =>
    let K := chunkElems c.desc.fl (s.narrow c ax)
    if c.done ∨ !c.axisDone (cdiv c.desc.elems K) then (s, c)
    else
      match r with
      | [] => s.writeResult c K
      | _ => s.runAxes { c with vec := c.finals.flatMap (·.2) } r

/-! ### The module's value (R269) -/

/-- Whether core j of a cluster contributes, by the mask in that cluster's buffer. -/
def State.inMask (s : State) (d : CDesc) (cl j : Nat) : Bool :=
  nbit (s.rb (cbBase cl + (d.mask - 0x100000) + j / 8)).toNat (j % 8)

/-- The cores that contribute: none in a cluster that the module does not have (R122). -/
def State.contributors (s : State) (d : CDesc) : List Nat :=
  (List.range d.count).flatMap fun j =>
    ((List.range 256).filter fun x => s.exists' (d.first + j) && s.inMask d (d.first + j) x).map fun x => (d.first + j) * 256 + x

/-- The value of each cluster of the set, each die and the module. -/
def Coll.clusterVal (c : Coll) (val : Nat → Option (List W64)) (cl : Nat) : Option (List W64) :=
  if c.desc.first ≤ cl ∧ cl < c.desc.first + c.desc.count then
    treeSum c.desc.fl 8 ((List.range 256).map fun x => val (cl * 256 + x))
  else none
def Coll.dieVal (c : Coll) (val : Nat → Option (List W64)) (die : Nat) : Option (List W64) :=
  treeSum c.desc.fl 8 ((List.range 256).map fun x => c.clusterVal val (die * 256 + x))
def Coll.moduleVal (c : Coll) (val : Nat → Option (List W64)) : Option (List W64) :=
  treeSum c.desc.fl 4 ((List.range 16).map fun d => c.dieVal val d)

/-- The results that the trees form, in DST order, with the absent ones as zero elements. -/
def Coll.treeVals (c : Coll) (val : Nat → Option (List W64)) : List (List W64) :=
  let none0 := List.replicate c.desc.elems (0 : W64)
  match c.desc.levels with
  | 1 => (List.range c.desc.count).map fun j => (c.clusterVal val (c.desc.first + j)).getD none0
  | 3 => c.desc.dies.map fun d => (c.dieVal val d).getD none0
  | 7 => [(c.moduleVal val).getD none0]
  | _ => [(val 0).getD none0]

/-- Whether any tree result that is formed on the way is non-finite (R273). -/
def Coll.treeNf (c : Coll) (val : Nat → Option (List W64)) : Bool :=
  let nf (o : Option (List W64)) : Bool := match o with | some l => vecNf c.desc.fl l | none => false
  decide (c.desc.levels ≠ 0) &&
    (((List.range c.desc.count).any fun j => nf (c.clusterVal val (c.desc.first + j)))
      || (decide (3 ≤ c.desc.levels) && c.desc.dies.any fun d => nf (c.dieVal val d))
      || (decide (c.desc.levels = 7) && nf (c.moduleVal val)))

/-- The value is formed once every contributing core has posted; it is written, or starts along the
first axis, rounded to FP16 when floating (R269). -/
def State.formColl (s : State) (c : Coll) : State :=
  let d := c.desc
  let ready : Bool := if d.levels = 0 then true else (s.contributors d).all fun k => c.srcs.any fun e => e.1 = k
  if c.formed ∨ c.done ∨ !ready then s.putColl c
  else
    let meets := c.srcs.findSome? fun e => s.bad.find? fun w => decide (w < e.2 + d.srcLen ∧ e.2 < w + 8)
    match meets with
    | some w =>
      let s := s.raise 1 St.memoryUncorrectable .coll (openDetail .coll St.memoryUncorrectable) (memUid w) c.inst 0xFFFF (memUid w) [] 2
      ((s.putColl (c.fail St.memoryUncorrectable)).collUncorrectable c).failContribution c.inst c.step (memUid w)
    | none =>
      let live := if d.levels = 0 then c.srcs else c.srcs.filter fun e => (s.contributors d).contains e.1
      let vals := live.map fun e => (if d.levels = 0 then 0 else e.1, s.readVec d e.2)
      let val (k : Nat) : Option (List W64) := (vals.find? fun e => e.1 = k).map (·.2)
      let res := c.treeVals val
      let s := if c.treeNf val then s.setNf c.inst c.step else s
      let c := { c with formed := true, since := s.beat }
      if d.cuts = 0 then
        let r := s.writeResult { c with finals := (List.range res.length).zip res } d.elems
        r.1.putColl r.2
      else
        let v := res.getD 0 []
        let v := if d.fl then decodeChunk true false 0 (encodeChunk true false v).2 else v
        let s := if vecNf d.fl v then s.setNf c.inst c.step else s
        let axes := s.axesOf c.inst d.cuts
        if s.routeNeeds c axes fun p => decide (s.fld (R.linkStat p) 0 2 = 3) then s.linkFailed c
        else
          let r := s.runAxes { c with vec := v, axes := axes } axes
          r.1.putColl r.2

/-- A post to the collective of its SEQ, which it opens if none is open (R267); one of an undone run-ahead step is
abandoned (R205). -/
def State.postC (s : State) (i : Nat) (p : Poster) (key : Nat) (d : CDesc) (src : Nat) (step : W64) (tag : Nat × Bool) :
    State :=
  let tagOf : Option Nat := match p with | .core k .. => (s.core k).solveTag | .cmd _ => none
  let fresh : Coll := { id := s.nextXfer, inst := i, gen := s.gen i, desc := d, posters := [(p, tag.1, tag.2)],
                        srcs := [(key, src)], step := step, since := s.beat, solve := tagOf }
  if s.posterUndone p then { s with colls := s.colls ++ [fresh.undo], nextXfer := s.nextXfer + 1 }
  else match s.colls.find? fun c => decide (c.inst = i ∧ c.gen = s.gen i ∧ c.desc.seq = d.seq ∧ ¬c.done) with
  | some c =>
    s.formColl { c with solve := c.solve.or tagOf,
                         posters := c.posters ++ [(p, tag.1, tag.2)],
                        srcs := if c.srcs.any fun e => e.1 = key then c.srcs else c.srcs ++ [(key, src)] }
  | none => { s with colls := s.colls ++ [fresh], nextXfer := s.nextXfer + 1 }.formColl fresh

/-- COLL.POST: posts a contribution to the die-level collective engine (R100, R267); a TOKENS value above
the limit also sets COLL_STAT.SEQ_LIMIT (R268). -/
def doCollPost (k : Nat) (an : AReg) (cnt : Nat) (gt : GReg) (val : W16) : Doing := fun tag s =>
  postAt k an gt (fun b cl s =>
    let i := s.instOf k
    match s.checkC i (some k) b with
    | .error f =>
      if f = 0x100 then .faultIn (s.sticky .coll (R.collStat i) 3 St.sequenceLimit i) Cause.tileRange else .fault f
    | .ok (d, src) =>
      if s.signalOwned k cl then .next (s.postC i (.core k cnt cl val.toNat (s.launchOn k)) k d src (s.coreStep k) tag)
      else .fault Cause.notOwned) tag s
def execCollPost (k : Nat) (l : Launch) (an : AReg) (cnt : Nat) (gt : GReg) (val : W16) (s : State) :
    Host.Outcome State Fault Refusal :=
  .next (s.issue k (.collPost k l an cnt gt val) (doCollPost k an cnt gt val))

/-! ### Delivered messages (R264) -/

/-- The flits of a message return as credit to the port it came by (R261). -/
def State.freeFlits (s : State) (m : Message) : State :=
  match m.came with
  | none => s
  | some (p, cls) =>
    let l := s.link p
    let key := 2 * m.vc + cls
    s.setLink p { l with freed := sput (fun _ => 0) l.freed key (sget (fun _ => 0) l.freed key + msgFlits m) }

/-- A message taken out of those delivered. -/
def State.consume (s : State) (m : Message) : State := ({ s with inbox := s.inbox.erase m } : State).freeFlits m

/-- What became of the first delivered message of a type. -/
inductive Taken where
  | none
  | dropped (s : State)
  | got (m : Message) (i : Nat) (s : State)

/-- Whether a message of a collective or of a transfer bears the step tag of the run-ahead step while that step is
being undone (R205, R264). -/
def State.undone (s : State) (i : Nat) (m : Message) : Bool :=
  (s.gate i).undo && decide (Msg.chunk ≤ m.typ ∧ m.typ ≤ Msg.refused ∧ m.step = (s.s0 i + 1).toNat % 4)

/-- The instance that a delivered message is dropped for, because it bears another generation: the ACTIVE one of its
job, or one of that job that is being reset (R241, R249, R264). -/
def State.staleFor (s : State) (m : Message) : Option Nat :=
  match s.jobInst m.job with
  | some i => if m.gen ≠ s.gen i then some i else none
  | none => (s.insts.find? fun e =>
      decide (e.2.st = .resetting ∧ s.fld (R.collJob e.1) 0 16 = m.job ∧ m.gen ≠ s.gen e.1)).map (·.1)

/-- A delivered message: dropped as one of an old generation, dropped and counted where no ACTIVE instance holds its job,
dropped where it belongs to an undone step, or handed over with its instance (R264). -/
def State.deliverTo (s : State) (m : Message) : Taken :=
  match s.staleFor m, s.jobInst m.job with
  | some i, _ => .dropped ((s.consume m).stale i)
  | .none, .none => .dropped (((s.consume m).incReg R.dropCount).sticky .coll R.collMstat 0 St.internal)
  | .none, some i => if s.undone i m then .dropped (s.consume m) else .got m i (s.consume m)

/-- The first delivered message of a type that is to be dropped, or that `ok` says can be handled (R264). -/
def State.take (s : State) (typ : Nat) (ok : Nat → Message → Bool) : Taken :=
  let ready (m : Message) : Bool :=
    match s.jobInst m.job with
    | .none => true
    | some i => decide (m.gen ≠ s.gen i) || s.undone i m || ok i m
  match (s.inbox.filter fun m => decide (m.typ = typ)).find? ready with
  | .none => .none
  | some m => s.deliverTo m

/-- A message that answers another: back to its sender, with the same SEQ and CHUNK. -/
def State.answer (s : State) (i : Nat) (m : Message) (typ : Nat) (payload : List Byte) : State :=
  s.send { s.header i typ (if typ = Msg.readData then 2 else 0) m.src (s.reg (R.updStep i)) with
    step := m.step, prov := m.prov, seq := m.seq, chunk := m.chunk, payload := payload }

/-! ### COLL_CHUNK and its answers (R270 to R274) -/

/-- The collective that a chunk belongs to, if it can take it now: formed, not ended, and on the chunk's
axis (R277: a chunk that comes early is held). -/
def State.chunkColl (s : State) (i : Nat) (m : Message) : Option Coll :=
  s.colls.find? fun c => decide (c.inst = i ∧ c.gen = s.gen i ∧ c.desc.seq = m.seq ∧ c.formed ∧ ¬c.done ∧ c.desc.kind ≠ 4
    ∧ c.axes.head? = some (nfield m.attr 11 2))

/-- A chunk of the reducing pass at this member: its own value added, then on to the next member, or
final and distributed (R270). -/
def State.reduceChunk (s : State) (c : Coll) (ax x : Nat) (l : List W64) : State × Coll :=
  let nar := s.narrow c ax
  let K := chunkElems c.desc.fl nar
  let n := s.jobExt c.inst ax
  let p := s.myPos c.inst ax
  let sum := addVec c.desc.fl l (c.slice K x)
  let e := encodeChunk c.desc.fl nar sum
  let v := decodeChunk c.desc.fl nar e.1 e.2
  let s := if vecNf c.desc.fl v then s.setNf c.inst c.step else s
  if x % n = p then
    let c := c.final x v
    if c.desc.kind = 0 then s.sendChunk c ax x true e.1 e.2 ((p + 1) % n) else (s, c)
  else
    let c := if c.passed.contains x then c else { c with passed := c.passed ++ [x] }
    s.sendChunk c ax x false e.1 e.2 ((p + 1) % n)

/-- A distributed chunk: final here, and passed on unless the next member is where it started. -/
def State.passChunk (s : State) (c : Coll) (ax x : Nat) (m : Message) (l : List W64) : State × Coll :=
  let n := s.jobExt c.inst ax
  let p := s.myPos c.inst ax
  let origin := if c.desc.kind = 3 then c.desc.peer else x % n
  let c := c.final x l
  if c.desc.kind = 5 ∨ (p + 1) % n = origin then (s, c)
  else s.sendChunk c ax x true (sext 8 m.attr) m.payload ((p + 1) % n)

/-- A chunk whose CRC fails is discarded and answered with CHUNK_NACK; the fourth failure of one chunk
ends the collective and fails this module's contribution; its delay has cause LINK_RETRY here too (R274). -/
def State.badChunk (s : State) (c : Coll) (m : Message) : State :=
  let key := 2 * m.chunk + nfield m.attr 13 1
  let n := sget (fun _ => 0) c.badCrc key + 1
  let c := { c with badCrc := sput (fun _ => 0) c.badCrc key n, since := s.beat, resent := true }
  let s := s.answer c.inst m Msg.nack []
  if n ≤ 3 then s.putColl c
  else
    ((s.sticky .coll (R.collStat c.inst) 1 St.linkFailed c.inst).putColl (c.fail St.linkFailed)).failContribution c.inst c.step pcieUid

/-- COLL_CHUNK: the first received chunk that its collective can take is checked, acknowledged, and
reduced or distributed (R270 to R274). -/
def collChunk (s : State) : State :=
  match s.take Msg.chunk fun i m => (s.chunkColl i m).isSome with
  | .none => s
  | .dropped s => s
  | .got m i s =>
    match s.chunkColl i m with
    | none => s
    | some c =>
      if crc32c m.payload ≠ m.crc then s.badChunk c m
      else
        let ax := nfield m.attr 11 2
        let s := (s.dlBreak i).answer i m Msg.ack []
        let l := decodeChunk c.desc.fl (s.narrow c ax) (sext 8 m.attr) m.payload
        let c := { c with since := s.beat, resent := c.resent || m.retried }
        let r := if nbit m.attr 13 ∨ c.desc.kind = 5 then s.passChunk c ax m.chunk m l else s.reduceChunk c ax m.chunk l
        let r := r.1.nextAxis r.2
        r.1.putColl r.2
def execCollChunk (s : State) : Host.Outcome State Fault Refusal := .next (collChunk s)

/-- The collective that keeps a chunk named by an acknowledgement. -/
def State.keeper (s : State) (i : Nat) (m : Message) : Option (Coll × Message × Nat) :=
  s.colls.findSome? fun c =>
    if c.inst = i ∧ c.gen = s.gen i ∧ c.desc.seq = m.seq then
      (c.kept.find? fun e => decide (e.1.chunk = m.chunk ∧ e.1.dst = m.src)).map fun e => (c, e.1, e.2)
    else none

/-- A collective whose completion has been signalled goes when its last kept chunk has. -/
def State.reap (s : State) : State :=
  { s with colls := s.colls.filter fun c => !(c.done && c.posters.isEmpty && c.kept.isEmpty) }

/-- CHUNK_ACK: the producer releases the kept chunk (R274); a SEND whose chunks have all been
acknowledged ends. -/
def chunkAck (s : State) : State :=
  match s.take Msg.ack fun _ _ => true with
  | .none => s
  | .dropped s => s
  | .got m i s =>
    match s.keeper i m with
    | none => s
    | some (c, k, n) =>
      let c := { c with kept := c.kept.erase (k, n) }
      let r := if c.desc.kind = 4 then s.nextAxis c else (s, c)
      (r.1.putColl r.2).reap
def execChunkAck (s : State) : Host.Outcome State Fault Refusal := .next (chunkAck s)

/-- CHUNK_NACK: the producer resends the kept chunk, counted, with cause LINK_RETRY; after the third
failed resend the collective ends with LINK_FAILED (R274). -/
def chunkNack (s : State) : State :=
  match s.take Msg.nack fun _ _ => true with
  | .none => s
  | .dropped s => s
  | .got m i s =>
    match s.keeper i m with
    | none => s
    | some (c, k, n) =>
      if 3 ≤ n then
        ((s.sticky .coll (R.collStat i) 1 St.linkFailed i).putColl
          { c.fail St.linkFailed with kept := c.kept.erase (k, n) }).reap
      else
        let s := (s.incReg (R.resendCount i)).sticky .coll (R.collStat i) 0 St.internal i
        (s.putColl { c with kept := c.kept.map fun e => if e = (k, n) then (k, n + 1) else e, resent := true }).send k
def execChunkNack (s : State) : Host.Outcome State Fault Refusal := .next (chunkNack s)

/-- COLL_CHUNK_TIMEOUT: an expected chunk has not arrived within COLL_CHUNK_TIMEOUT beats: the collective
ends with LINK_FAILED (R274). -/
def collChunkTimeout (i seq : Nat) (s : State) : State :=
  match s.colls.find? fun c => decide (c.inst = i ∧ c.gen = s.gen i ∧ c.desc.seq = seq ∧ c.formed ∧ ¬c.done ∧ c.desc.kind ≠ 4) with
  | none => s
  | some c =>
    if (s.beat - c.since).toNat < (s.reg (R.chunkTimeout i)).toNat then s
    else s.linkFailed c
def execCollChunkTimeout (i seq : Nat) (s : State) : Host.Outcome State Fault Refusal := .next (collChunkTimeout i seq s)

/-- Collectives of a failed port end with LINK_FAILED: those whose route needs the port (R274). -/
def State.failColls (s : State) (p : Nat) : State :=
  forEach s.colls s fun s c =>
    if c.formed && !c.done && s.routeNeeds c c.axes fun q => decide (q = p) then s.linkFailed c else s

/-- The tag of a completion signal: LINK_RETRY when a chunk had to be resent, else what the post carried, or XMODULE
where the result takes values of other modules (R44, R52, R53, R274). -/
def Coll.tag (c : Coll) (t : Tag) : Tag := if c.resent then (1, false) else farTag (decide (c.desc.cuts ≠ 0)) t

/-- COLLECTIVE_COMPLETE: the whole result is written on this module, or the collective has ended: its
posts signal and its command completes (R273). One of an old generation is abandoned (R249). A reason for which a unit
delayed it is the tag of its signals (R44). -/
def collectiveComplete (i : Nat) (seq : Delayed) (s : State) : State :=
  match s.colls.find? fun c => decide (c.inst = i ∧ c.desc.seq = seq.id ∧ (c.gen ≠ s.gen i ∨ (c.done ∧ ¬c.posters.isEmpty))) with
  | none => s
  | some c =>
    if c.gen ≠ s.gen i then ({ s with colls := s.colls.filter fun d => decide (d.id ≠ c.id) }).orphanGone i
    else
      let s := (s.putColl { c with posters := [] }).setReg (R.lastSeq i) (BitVec.ofNat 64 seq.id)
      (forEach c.posters s fun s p =>
        let t := if seq.delay = 0 then c.tag p.2 else (seq.delay, false)
        match p.1 with
        | .core k cnt cl val _ => s.postDone k cnt cl val t.1 t.2
        | .cmd q => s.complete q c.status).reap
def execCollectiveComplete (i : Nat) (seq : Delayed) (s : State) : Host.Outcome State Fault Refusal :=
  .next (collectiveComplete i seq s)

end Sys2Proof.Machine
end

