-- ==== Sys2Proof/Machine/Branch.lean ====
section
/-! DEFINITION. The branch and loop class (R87, R88, Table 4.5). -/

namespace Sys2Proof.Machine

/-- A branch: taken, pc is the branch's address plus off, and the loops whose body the target leaves
close; not taken, it completes issue like any other instruction (R87, R88). -/
def branchIf (k : Nat) (off : BitVec 11) (p : Core → Bool) : Doing := fun _ s =>
  let c := s.core k
  if p c then
    let t := (((c.pc : Int) + off.toInt) % 1024).toNat
    .jump (s.setCore k { c with pc := t, loops := closeLoops t c.loops })
  else .next s

/-- BR: always taken. -/
def doBr (k : Nat) (off : BitVec 11) : Doing := branchIf k off fun _ => true
def execBr (k : Nat) (l : Launch) (off : BitVec 11) (s : State) : Host.Outcome State Fault Refusal :=
  .next (s.issue k (.br k l off) (doBr k off))

/-- BEQ: taken when gs1 and gs2 are equal (Table 4.5). -/
def doBeq (k : Nat) (gs1 gs2 : GReg) (off : BitVec 11) : Doing :=
  branchIf k off fun c => (fun a b : W32 => decide (a = b)) (c.gr gs1) (c.gr gs2)
def execBeq (k : Nat) (l : Launch) (gs1 gs2 : GReg) (off : BitVec 11) (s : State) : Host.Outcome State Fault Refusal :=
  .next (s.issue k (.beq k l gs1 gs2 off) (doBeq k gs1 gs2 off))

/-- BNE: taken when gs1 and gs2 are not equal (Table 4.5). -/
def doBne (k : Nat) (gs1 gs2 : GReg) (off : BitVec 11) : Doing :=
  branchIf k off fun c => (fun a b : W32 => decide (a ≠ b)) (c.gr gs1) (c.gr gs2)
def execBne (k : Nat) (l : Launch) (gs1 gs2 : GReg) (off : BitVec 11) (s : State) : Host.Outcome State Fault Refusal :=
  .next (s.issue k (.bne k l gs1 gs2 off) (doBne k gs1 gs2 off))

/-- BLT: taken when gs1 and gs2 are signed less (Table 4.5). -/
def doBlt (k : Nat) (gs1 gs2 : GReg) (off : BitVec 11) : Doing :=
  branchIf k off fun c => (fun a b : W32 => a.slt b) (c.gr gs1) (c.gr gs2)
def execBlt (k : Nat) (l : Launch) (gs1 gs2 : GReg) (off : BitVec 11) (s : State) : Host.Outcome State Fault Refusal :=
  .next (s.issue k (.blt k l gs1 gs2 off) (doBlt k gs1 gs2 off))

/-- BGE: taken when gs1 and gs2 are signed greater or equal (Table 4.5). -/
def doBge (k : Nat) (gs1 gs2 : GReg) (off : BitVec 11) : Doing :=
  branchIf k off fun c => (fun a b : W32 => !a.slt b) (c.gr gs1) (c.gr gs2)
def execBge (k : Nat) (l : Launch) (gs1 gs2 : GReg) (off : BitVec 11) (s : State) : Host.Outcome State Fault Refusal :=
  .next (s.issue k (.bge k l gs1 gs2 off) (doBge k gs1 gs2 off))

/-- BLTU: taken when gs1 and gs2 are unsigned less (Table 4.5). -/
def doBltu (k : Nat) (gs1 gs2 : GReg) (off : BitVec 11) : Doing :=
  branchIf k off fun c => (fun a b : W32 => a.ult b) (c.gr gs1) (c.gr gs2)
def execBltu (k : Nat) (l : Launch) (gs1 gs2 : GReg) (off : BitVec 11) (s : State) : Host.Outcome State Fault Refusal :=
  .next (s.issue k (.bltu k l gs1 gs2 off) (doBltu k gs1 gs2 off))

/-- BGEU: taken when gs1 and gs2 are unsigned greater or equal (Table 4.5). -/
def doBgeu (k : Nat) (gs1 gs2 : GReg) (off : BitVec 11) : Doing :=
  branchIf k off fun c => (fun a b : W32 => !a.ult b) (c.gr gs1) (c.gr gs2)
def execBgeu (k : Nat) (l : Launch) (gs1 gs2 : GReg) (off : BitVec 11) (s : State) : Host.Outcome State Fault Refusal :=
  .next (s.issue k (.bgeu k l gs1 gs2 off) (doBgeu k gs1 gs2 off))

/-- The count of a LOOP: bits [15:0] of gs when gs is not 0, cnt otherwise (R88). -/
def loopCount (c : Core) (gs : GReg) (cnt : W16) : W16 :=
  if gs = 0 then cnt else (c.gr gs).truncate 16

/-- LOOP: a count of zero skips the body; otherwise lc takes the count and the body opens, at most
four deep and with an lc no open loop uses; it is itself the last body instruction of a loop that ends at it (R88). -/
def doLoop (k : Nat) (lc : Fin 4) (gs : GReg) (len : Nat) (cnt : W16) : Doing := fun _ s =>
  let c := s.core k
  let n := loopCount c gs cnt
  if n = 0 then .jump (s.setCore k (c.advanceIn ((c.pc + 1 + len) % 1024) [] c.loops))
  else if 4 ≤ c.loops.length ∨ c.loops.any (fun r => decide (r.lc = lc.val)) then .fault Cause.loopDepth
  else .jump (s.setCore k ((c.setLc lc n).advanceIn ((c.pc + 1) % 1024) [⟨lc, c.pc + 1, c.pc + len⟩] c.loops))
def execLoop (k : Nat) (l : Launch) (lc : Fin 4) (gs : GReg) (len : Nat) (cnt : W16) (s : State) :
    Host.Outcome State Fault Refusal :=
  .next (s.issue k (.loop k l lc gs len cnt) (doLoop k lc gs len cnt))

end Sys2Proof.Machine
end

