-- ==== Sys2Proof/Machine/System.lean ====
section
/-! DEFINITION. The system class and HALT (R58, R59, R61, R102, R103, Table 4.15), pass boundaries and
swaps. -/

namespace Sys2Proof.Machine

/-- Whether no engine of a core has a pass in flight, and no tap entry is queued (R59, R163). -/
def State.quiet (s : State) (k : Nat) : Bool :=
  let c := s.core k
  c.enginesEmpty && c.tapQ.isEmpty && !(c.ganged && (s.cluster (clOf k)).inFlight)

/-- Whether a draining core is done: no pass is in flight; a halt leaves tap entries queued (R58, R163). -/
def State.settledFor (s : State) (k : Nat) : Bool :=
  if (s.core k).after = .toHalted then s.passesDone k else s.quiet k

/-- The tap folds every queued entry, as the drain before END and BANK.SWAP does (R163). -/
def State.drainTap (s : State) (k : Nat) : Except Nat State := s.foldFirst k (s.core k).unfolded.length

/-- The entry point and length of a bank. -/
def Core.entryOf (c : Core) (b : Bool) : Nat := if b then c.entry1 else c.entry0
def Core.lenOf (c : Core) (b : Bool) : Nat := if b then c.len1 else c.len0

/-- A swap: the shadow becomes active, the former active bank an invalid shadow; the registers take
their start values with BA and the scratchpad kept, and pc the entry point (R61). A FAULTED core keeps its
registers, for reading through the debug block (R71). -/
def Core.swap (c : Core) : Core :=
  { (if c.st = .faulted then c else c.startRegs c.ba (c.entryOf (!c.activeBank))) with
    activeBank := !c.activeBank, shadowValid := false, swapPending := false, activeValid := true,
    ganged := c.shadowGanged }

/-- HALT: DRAINING, then HALTED; RESUME goes on after it (Table 4.15). -/
def doHalt (k : Nat) : Doing := fun _ s =>
  .next ((s.setCore k { s.core k with after := .toHalted, haltAt := s.beat }).setSt k .draining)
def execHalt (k : Nat) (l : Launch) (s : State) : Host.Outcome State Fault Refusal :=
  .next (s.issue k (.halt k l) (doHalt k))

/-- NOP. -/
def doNop : Doing := fun _ s => .next s
def execNop (k : Nat) (l : Launch) (s : State) : Host.Outcome State Fault Refusal :=
  .next (s.issue k (.nop k l) doNop)

/-- The signal that END carries, or none where the instance does not own what it names (R103). -/
def State.endSignal (s : State) (k kind : Nat) (gt : GReg) (idx : Nat) (val : W16) : Option (Option Sig) :=
  let i := s.instOf k
  let cl := (s.core k).target' k gt
  match kind with
  | 0 => some none
  | 1 => if s.owns i cl then some (some (.cnt cl idx val.toNat)) else none
  | 2 => if s.ownsFlag i idx then some (some (.flag idx)) else none
  | _ => if s.hasVec i idx then some (some (.irq idx)) else none

/-- END: the tap's entries are folded, then the core drains to IDLE or, with a swap pending, LOADED,
and sends its signal (R58, R103, R163). No instruction follows it: pc stays at END. -/
def doEndProg (k kind : Nat) (gt : GReg) (idx : Nat) (val : W16) : Doing := fun tag s =>
  match s.endSignal k kind gt idx val with
  | none => .fault Cause.notOwned
  | some sig =>
    match s.drainTap k with
    | .error f => .fault f
    | .ok s =>
      let x := sig.map fun g => ({ sig := g, cause := tag.1, prop := tag.2, seq := (s.core k).seq + 1 } : Signal)
      .jump ((s.setCore k { s.core k with after := .toEnd x }).setSt k .draining)
def execEndProg (k : Nat) (l : Launch) (kind : Nat) (gt : GReg) (idx : Nat) (val : W16) (s : State) :
    Host.Outcome State Fault Refusal :=
  .next (s.issue k (.endProg k l kind gt idx val) (doEndProg k kind gt idx val))

/-- BANK.SWAP: holds issue until the core's engines have drained and the shadow is valid, then swaps;
without a valid shadow or a load in progress it faults (R59, R61). -/
def doBankSwap (k : Nat) : Doing := fun _ s =>
  let c := s.core k
  if !c.shadowValid && c.load.isNone then .fault Cause.noShadow
  else
    match s.drainTap k with
    | .error f => .fault f
    | .ok s =>
      if s.quiet k && c.shadowValid then .jump ((s.setCore k (s.core k).swap).swapDone k) else .holdWith s
def execBankSwap (k : Nat) (l : Launch) (s : State) : Host.Outcome State Fault Refusal :=
  .next (s.issue k (.bankSwap k l) (doBankSwap k))

/-- Whether an engine of a core has work in flight: a ganged pass is in the matrix engine, and a fold
in the tap (R81). -/
def State.engineBusy (s : State) (k e : Nat) : Bool :=
  let c := s.core k
  !(c.slots' e).empty || (decide (e = 1) && c.ganged && (s.cluster (clOf k)).inFlight) || (decide (e = 4) && decide (c.folding ≠ 0))

/-- FENCE: holds issue until the engines that imm[5:1] names, or all with imm = 0, have no pass in flight. -/
def doFence (k : Nat) (imm : W32) : Doing := fun _ s =>
  if (fenced imm).any fun e => s.engineBusy k e then .hold else .next s
def execFence (k : Nat) (l : Launch) (imm : W32) (s : State) : Host.Outcome State Fault Refusal :=
  .next (s.issue k (.fence k l imm) (doFence k imm))

/-- The value of a STAT.RD selector (Table 4.14). -/
def Core.stat (c : Core) (sel : Nat) : W32 :=
  match sel with
  | 0 => c.cstat
  | 1 => c.cfault
  | 6 => BitVec.ofNat 32 c.tapQ.length
  | n => (c.acc' (n - 2)).status

/-- STAT.RD: g receives the value of selector imm. The status of a set waits for the ganged passes into it that
have yet to add their products. -/
def doStatRd (k : Nat) (g : GReg) (imm : W32) : Doing := fun _ s =>
  let c := s.core k
  if (s.cluster (clOf k)).adding (imm.toNat - 2) && decide (2 ≤ imm.toNat ∧ imm.toNat ≤ 5) then .hold
  else .next (s.setCore k (c.setG g (c.stat imm.toNat)))
def execStatRd (k : Nat) (l : Launch) (g : GReg) (imm : W32) (s : State) : Host.Outcome State Fault Refusal :=
  .next (s.issue k (.statRd k l g imm) (doStatRd k g imm))

end Sys2Proof.Machine
end

