-- ==== Sys2Proof/Machine/Vector.lean ====
section
/-! DEFINITION. The vector class (R94, R95, R148, R149, Table 4.8). -/

namespace Sys2Proof.Machine

/-- The element format of a vector operation: FP16 for fp = 0, FP32 for fp = 1 (R94). -/
def vfmt (fp : Bool) : Nat := if fp then 1 else 0
/-- Lanes of a register: 16 of FP16 or 8 of FP32. -/
def lanes (fp : Bool) : Nat := if fp then 8 else 16
/-- Bits of a lane. -/
def laneBits (fp : Bool) : Nat := if fp then 32 else 16

/-- Lane i of a register's value. -/
def lane (fp : Bool) (v : BitVec 256) (i : Nat) : Nat := nfield v.toNat (i * laneBits fp) (laneBits fp)

/-- A register's value from its lanes. -/
def ofLanes (fp : Bool) (l : List Nat) : BitVec 256 :=
  BitVec.ofNat 256 (l.foldr (fun x acc => x + acc * 2 ^ laneBits fp) 0)

/-- What a vector operation computes from one lane of va, vb and vc, and the mask bit: the lane's new
value, or none where the destination lane is left unchanged (R94). -/
abbrev LaneOp := Bool → Nat → Nat → Nat → Bool → Option Nat

/-- An operation that rounds once to nearest even, on enabled lanes. -/
def masked (f : Fl → Fl → Fl → Fl) : LaneOp := fun fp a b c m =>
  let g := fmtFl (vfmt fp)
  if m then some (flBits g .rne (f (flOf g a) (flOf g b) (flOf g c))) else none

/-- A register form: every lane by the operation, under the mask (R94). -/
def Core.vreg (c : Core) (op : LaneOp) (vd va vb vc : VReg) (m : MReg) (fp : Bool) : Core :=
  let old := c.vr vd
  c.setV vd (ofLanes fp ((List.range (lanes fp)).map fun i =>
    (op fp (lane fp (c.vr va) i) (lane fp (c.vr vb) i) (lane fp (c.vr vc) i) ((c.mr m).getLsbD i)).getD (lane fp old i)))

/-- Whether two descriptors are the same operand in place (R149). -/
def sameTile (x y : Tile) : Bool :=
  decide (x.base = y.base ∧ x.rs = y.rs ∧ x.cs = y.cs ∧ x.format = y.format ∧ x.swizzle = y.swizzle
    ∧ x.clampR = y.clampR ∧ x.clampC = y.clampC)

/-- A tile form's faults: a format other than the lanes' (R148), R141, R144, and a destination that
overlaps a source in another way than in place (R149). -/
def State.vtileFault (s : State) (fp : Bool) (d : Except Nat View) (td : Tile) (srcs : List (Except Nat View)) :
    Option Nat :=
  let fmts := (failed d).isNone && decide (td.fmt ≠ vfmt fp)
  firstFault ([failed d] ++ srcs.map failed ++ [faultIf fmts Cause.tileRange,
    faultIf (srcs.any fun v => match v with | .ok v => decide (v.t.fmt ≠ vfmt fp) | _ => false) Cause.tileRange,
    s.strides td false,
    faultIf (match d with
      | .ok w => srcs.any fun v => match v with
        | .ok v => v.overlaps w && !sameTile v.t w.t
        | _ => false
      | _ => false) Cause.aliasedWrite])

/-- A tile form: every element of the destination by the operation, element (i, j) under mask bit
j mod 16 or j mod 8; bc 1 takes row 0 of vb and bc 2 its column 0; every source element is read before
any is written (R94, R149; log 13). -/
def vtile (k : Nat) (op : LaneOp) (vd va vb : VReg) (vc : Option VReg) (m : MReg) (bc : Nat) (fp : Bool) : Doing :=
  fun _ s =>
    let c := s.core k
    let td := c.tr vd
    let d := s.view k td false
    let a := s.view k (c.tr va) false
    let b := s.view k (c.tr vb) false
    let x := match vc with | some r => s.view k (c.tr r) false | none => a
    match s.vtileFault fp d td [a, b, x], d, a, b, x with
    | some f, _, _, _, _ => .fault f
    | none, .ok w, .ok va, .ok vb, .ok vx =>
      match [s.viewBad va, s.viewBad vb, s.viewBad vx, s.viewPart w].findSome? id with
      | some f => .fault f
      | none =>
        match s.settleTap k (va.bytes ++ vb.bytes ++ vx.bytes) w.bytes with
        | .error f => .fault f
        | .ok s =>
          let new := (grid w.t.cr w.t.cc).map fun p =>
            (p, op fp (s.elem va p.1 p.2)
              (s.elem vb (if bc = 1 then 0 else p.1) (if bc = 2 then 0 else p.2)) (s.elem vx p.1 p.2)
              ((c.mr m).getLsbD (p.2 % lanes fp)))
          .next (forEach new s fun s e => match e.2 with
            | some v => s.putElem w e.1.1 e.1.2 v
            | none => s)
    | none, _, _, _, _ => .fault Cause.tileRange

/-- A vector operation in its register or its tile form. -/
def vop (k : Nat) (op : LaneOp) (tile : Bool) (vd va vb : VReg) (vc : Option VReg) (m : MReg) (bc : Nat) (fp : Bool) :
    Doing := fun tag s =>
  if tile then vtile k op vd va vb vc m bc fp tag s
  else .next (s.setCore k ((s.core k).vreg op vd va vb (vc.getD va) m fp))

/-- VADD: vd receives va + vb (Table 4.8). -/
def doVadd (k : Nat) (tile : Bool) (vd va vb : VReg) (m : MReg) (bc : Nat) (fp : Bool) : Doing :=
  vop k (masked fun a b _ => flAdd a b) tile vd va vb none m bc fp
def execVadd (k : Nat) (l : Launch) (tile : Bool) (vd va vb : VReg) (m : MReg) (bc : Nat) (fp : Bool) (s : State) :
    Host.Outcome State Fault Refusal :=
  .next (s.issue k (.vadd k l tile vd va vb m bc fp) (doVadd k tile vd va vb m bc fp))

/-- VMUL: vd receives va × vb (Table 4.8). -/
def doVmul (k : Nat) (tile : Bool) (vd va vb : VReg) (m : MReg) (bc : Nat) (fp : Bool) : Doing :=
  vop k (masked fun a b _ => flMul a b) tile vd va vb none m bc fp
def execVmul (k : Nat) (l : Launch) (tile : Bool) (vd va vb : VReg) (m : MReg) (bc : Nat) (fp : Bool) (s : State) :
    Host.Outcome State Fault Refusal :=
  .next (s.issue k (.vmul k l tile vd va vb m bc fp) (doVmul k tile vd va vb m bc fp))

/-- VFMA: vd receives va × vb + vc with one rounding (Table 4.8). -/
def doVfma (k : Nat) (tile : Bool) (vd va vb vc : VReg) (m : MReg) (bc : Nat) (fp : Bool) : Doing :=
  vop k (masked fun a b c => flAdd (flMul a b) c) tile vd va vb (some vc) m bc fp
def execVfma (k : Nat) (l : Launch) (tile : Bool) (vd va vb vc : VReg) (m : MReg) (bc : Nat) (fp : Bool) (s : State) :
    Host.Outcome State Fault Refusal :=
  .next (s.issue k (.vfma k l tile vd va vb vc m bc fp) (doVfma k tile vd va vb vc m bc fp))

/-- VSEL: vd receives va where the mask bit is 1, else vb; every lane is written (Table 4.8). -/
def doVsel (k : Nat) (tile : Bool) (vd va vb : VReg) (m : MReg) (bc : Nat) (fp : Bool) : Doing :=
  vop k (fun _ a b _ m => some (if m then a else b)) tile vd va vb none m bc fp
def execVsel (k : Nat) (l : Launch) (tile : Bool) (vd va vb : VReg) (m : MReg) (bc : Nat) (fp : Bool) (s : State) :
    Host.Outcome State Fault Refusal :=
  .next (s.issue k (.vsel k l tile vd va vb m bc fp) (doVsel k tile vd va vb m bc fp))

/-- VMIN: vd receives minimumNumber of va and vb (Table 4.8). -/
def doVmin (k : Nat) (tile : Bool) (vd va vb : VReg) (m : MReg) (bc : Nat) (fp : Bool) : Doing :=
  vop k (masked fun a b _ => flMin a b) tile vd va vb none m bc fp
def execVmin (k : Nat) (l : Launch) (tile : Bool) (vd va vb : VReg) (m : MReg) (bc : Nat) (fp : Bool) (s : State) :
    Host.Outcome State Fault Refusal :=
  .next (s.issue k (.vmin k l tile vd va vb m bc fp) (doVmin k tile vd va vb m bc fp))

/-- VMAX: vd receives maximumNumber of va and vb (Table 4.8). -/
def doVmax (k : Nat) (tile : Bool) (vd va vb : VReg) (m : MReg) (bc : Nat) (fp : Bool) : Doing :=
  vop k (masked fun a b _ => flMax a b) tile vd va vb none m bc fp
def execVmax (k : Nat) (l : Launch) (tile : Bool) (vd va vb : VReg) (m : MReg) (bc : Nat) (fp : Bool) (s : State) :
    Host.Outcome State Fault Refusal :=
  .next (s.issue k (.vmax k l tile vd va vb m bc fp) (doVmax k tile vd va vb m bc fp))

/-- A comparison by its code; one with a NaN is false, except NE (R95). -/
def vcmpOf (cmp : Nat) (x y : Fl) : Bool :=
  match flCmp x y with
  | none => decide (cmp = 1)
  | some o =>
    match cmp with
    | 0 => decide (o = .eq)
    | 1 => decide (o ≠ .eq)
    | 2 => decide (o = .lt)
    | 3 => decide (o ≠ .gt)
    | 4 => decide (o = .gt)
    | _ => decide (o ≠ .lt)

/-- VCMP: a mask register receives the per-lane predicate; with fp = 1 bits [15:8] are zero (Table 4.8). -/
def doVcmp (k : Nat) (md : MReg) (va vb : VReg) (cmp : Nat) (fp : Bool) : Doing := fun _ s =>
  let c := s.core k
  let g := fmtFl (vfmt fp)
  let bits := (List.range (lanes fp)).foldl (fun acc i =>
    acc + (vcmpOf cmp (flOf g (lane fp (c.vr va) i)) (flOf g (lane fp (c.vr vb) i))).toNat * 2 ^ i) 0
  .next (s.setCore k (c.setM md (BitVec.ofNat 16 bits)))
def execVcmp (k : Nat) (l : Launch) (md : MReg) (va vb : VReg) (cmp : Nat) (fp : Bool) (s : State) :
    Host.Outcome State Fault Refusal :=
  .next (s.issue k (.vcmp k l md va vb cmp fp) (doVcmp k md va vb cmp fp))

/-- The address of VLD and VST: an plus the signed offset, its low 5 bits ignored (Table 4.8). -/
def Core.vecAddr (c : Core) (an : AReg) (off : W16) : Nat := c.eff an (off.signExtend 32) / 32 * 32

/-- VLD: 32 bytes are loaded as 16 lanes of 2 bytes, the enabled ones (Table 4.8). -/
def doVld (k : Nat) (vd : VReg) (an : AReg) (m : MReg) (off : W16) : Doing := fun tag s =>
  loadAt k ((s.core k).vecAddr an off) 32 (fun s p =>
    let c := s.core k
    let new := BitVec.ofNat 256 (s.rd p 32)
    .next (s.setCore k (c.setV vd (ofLanes false ((List.range 16).map fun i =>
      if (c.mr m).getLsbD i then lane false new i else lane false (c.vr vd) i))))) tag s
def execVld (k : Nat) (l : Launch) (vd : VReg) (an : AReg) (m : MReg) (off : W16) (s : State) :
    Host.Outcome State Fault Refusal :=
  .next (s.issue k (.vld k l vd an m off) (doVld k vd an m off))

/-- The runs of bytes VST writes: a whole 8-byte word where its four lanes are enabled, else lane by lane. -/
def vstRuns (p : Nat) (m : W16) (v : BitVec 256) : List (Nat × List Byte) :=
  (List.range 4).flatMap fun w =>
    if (m.toNat >>> (4 * w)) % 16 = 15 then [(p + 8 * w, leBytes 8 (nfield v.toNat (64 * w) 64))]
    else ((List.range 4).filter fun j => m.getLsbD (4 * w + j)).map fun j =>
      (p + 8 * w + 2 * j, leBytes 2 (lane false v (4 * w + j)))

/-- VST: the 2-byte lanes enabled by the mask are stored (Table 4.8). -/
def doVst (k : Nat) (vd : VReg) (an : AReg) (m : MReg) (off : W16) : Doing := fun _ s =>
  let c := s.core k
  match s.local' k (c.vecAddr an off) 32 with
  | .error f => .fault f
  | .ok (p, r) =>
    let runs := vstRuns p (c.mr m) (c.vr vd)
    match runs.findSome? (fun x => if s.partBad x.1 x.2.length then s.badWord x.1 x.2.length else none) with
    | some w => .fault (r.uncorr w)
    | none => match s.settleTap k [] (runs.map fun x => (x.1, x.2.length)) with
      | .error f => .fault f
      | .ok s => .next (forEach runs s fun s x => s.write x.1 x.2)
def execVst (k : Nat) (l : Launch) (vd : VReg) (an : AReg) (m : MReg) (off : W16) (s : State) :
    Host.Outcome State Fault Refusal :=
  .next (s.issue k (.vst k l vd an m off) (doVst k vd an m off))

/-- VECTOR_PASS_COMPLETE: the running vector pass writes its last result and frees its slot (R148). -/
def vectorPassComplete (k : Nat) (s : State) : State := s.passDone k 2 true
def execVectorPassComplete (k : Nat) (s : State) : Host.Outcome State Fault Refusal :=
  .next (vectorPassComplete k s)

end Sys2Proof.Machine
end

