-- ==== Sys2Proof/Machine/Perform.lean ====
section
/-! DEFINITION. What a held core instruction does when it starts (R39, R84): the same act as at issue. -/

namespace Sys2Proof.Machine

/-- The act of a core instruction; every other command is no instruction of a core. -/
def perform (i : Instr) : Doing :=
  match i with
  | .add k _l gd gs1 gs2 => doAdd k gd gs1 gs2
  | .sub k _l gd gs1 gs2 => doSub k gd gs1 gs2
  | .and k _l gd gs1 gs2 => doAnd k gd gs1 gs2
  | .or k _l gd gs1 gs2 => doOr k gd gs1 gs2
  | .xor k _l gd gs1 gs2 => doXor k gd gs1 gs2
  | .shl k _l gd gs1 gs2 => doShl k gd gs1 gs2
  | .shr k _l gd gs1 gs2 => doShr k gd gs1 gs2
  | .sra k _l gd gs1 gs2 => doSra k gd gs1 gs2
  | .mul k _l gd gs1 gs2 => doMul k gd gs1 gs2
  | .slt k _l gd gs1 gs2 => doSlt k gd gs1 gs2
  | .sltu k _l gd gs1 gs2 => doSltu k gd gs1 gs2
  | .min k _l gd gs1 gs2 => doMin k gd gs1 gs2
  | .max k _l gd gs1 gs2 => doMax k gd gs1 gs2
  | .addi k _l gd gs1 imm => doAddi k gd gs1 imm
  | .andi k _l gd gs1 imm => doAndi k gd gs1 imm
  | .ori k _l gd gs1 imm => doOri k gd gs1 imm
  | .xori k _l gd gs1 imm => doXori k gd gs1 imm
  | .movi k _l gd imm => doMovi k gd imm
  | .ldw k _l g an off => doLdw k g an off
  | .stw k _l g an off => doStw k g an off
  | .mova k _l g an off => doMova k g an off
  | .movg k _l g an off => doMovg k g an off
  | .br k _l off => doBr k off
  | .beq k _l gs1 gs2 off => doBeq k gs1 gs2 off
  | .bne k _l gs1 gs2 off => doBne k gs1 gs2 off
  | .blt k _l gs1 gs2 off => doBlt k gs1 gs2 off
  | .bge k _l gs1 gs2 off => doBge k gs1 gs2 off
  | .bltu k _l gs1 gs2 off => doBltu k gs1 gs2 off
  | .bgeu k _l gs1 gs2 off => doBgeu k gs1 gs2 off
  | .loop k _l lc gs len cnt => doLoop k lc gs len cnt
  | .tdSet k _l td fld reg gs imm => doTdSet k td fld reg gs imm
  | .tdCopy k _l tdst tsrc => doTdCopy k tdst tsrc
  | .tmov k _l tdst tsrc wm gsc => doTmov k tdst tsrc wm gsc
  | .tfill k _l tdst gsc => doTfill k tdst gsc
  | .mmaF16 k _l ac ta tb tc n gang => doMmaF16 k ac ta tb tc n gang
  | .mmaF32 k _l ac ta tb tc n gang => doMmaF32 k ac ta tb tc n gang
  | .mmaI16 k _l ac ta tb tc n gang => doMmaI16 k ac ta tb tc n gang
  | .mmaOut k _l ac ta tb rnd ep gid gang => doMmaOut k ac ta tb rnd ep gid gang
  | .mmaOuts k _l ac ta tb tc rnd ep gid gang => doMmaOuts k ac ta tb tc rnd ep gid gang
  | .mmaClr k _l ac => doMmaClr k ac
  | .gang k l shape => doGang k (.gang k l shape) shape
  | .vadd k _l tile vd va vb m bc fp => doVadd k tile vd va vb m bc fp
  | .vmul k _l tile vd va vb m bc fp => doVmul k tile vd va vb m bc fp
  | .vfma k _l tile vd va vb vc m bc fp => doVfma k tile vd va vb vc m bc fp
  | .vcmp k _l md va vb cmp fp => doVcmp k md va vb cmp fp
  | .vsel k _l tile vd va vb m bc fp => doVsel k tile vd va vb m bc fp
  | .vmin k _l tile vd va vb m bc fp => doVmin k tile vd va vb m bc fp
  | .vmax k _l tile vd va vb m bc fp => doVmax k tile vd va vb m bc fp
  | .vld k _l vd an m off => doVld k vd an m off
  | .vst k _l vd an m off => doVst k vd an m off
  | .tapArm k _l tf side n gid => doTapArm k tf side n gid
  | .tapOff k _l => doTapOff k
  | .tapAuto k _l tf => doTapAuto k tf
  | .syrkTap k _l tf => doSyrkTap k tf
  | .tapDrain k _l tf => doTapDrain k tf
  | .nsiScale k l t1 t2 p gs => doFactor k (.nsiScale k l t1 t2 p gs) gs (planNsiScale t1 t2 p gs)
  | .nsiStep k l t1 t2 t3 p => doFactor k (.nsiStep k l t1 t2 t3 p) 0 (planNsiStep t1 t2 t3 p)
  | .nsiResid k l t1 t2 p gs => doFactor k (.nsiResid k l t1 t2 p gs) gs (planNsiResid t1 t2 p)
  | .cholSn k l t1 t2 t3 => doSn k (.cholSn k l t1 t2 t3) (planCholSn t1 t2 t3)
  | .ldltSn k l t1 t2 t3 => doSn k (.ldltSn k l t1 t2 t3) (planLdltSn t1 t2 t3)
  | .trsvSn k l t1 t2 t3 p => doFactor k (.trsvSn k l t1 t2 t3 p) 0 (planTrsvSn t1 t2 t3 p)
  | .refine k l t1 t2 t3 t4 => doFactor k (.refine k l t1 t2 t3 t4) 0 (planRefine t1 t2 t3 t4)
  | .sigCnt k _l idx gt val => doSigCnt k idx gt val
  | .waitCnt k _l idx val => doWaitCnt k idx val
  | .setCnt k _l idx val => doSetCnt k idx val
  | .barArrive k _l idx => doBarArrive k idx
  | .barWait k _l idx => doBarWait k idx
  | .flagSet k _l idx => doFlagSet k idx
  | .flagWait k _l idx => doFlagWait k idx
  | .flagClr k _l idx => doFlagClr k idx
  | .hostIrq k _l idx => doHostIrq k idx
  | .baSet k _l g => doBaSet k g
  | .baAdv k _l imm => doBaAdv k imm
  | .baNow k _l imm => doBaNow k imm
  | .beatWait k _l imm => doBeatWait k imm
  | .beatRd k _l g => doBeatRd k g
  | .xferPost k _l an cnt gt val => doXferPost k an cnt gt val
  | .collPost k _l an cnt gt val => doCollPost k an cnt gt val
  | .updApply k _l an cnt gt val => doUpdApply k an cnt gt val
  | .updNs k l t1 t2 t3 => doFactor k (.updNs k l t1 t2 t3) 0 (planUpdNs t1 t2 t3)
  | .updNf k _l t1 => doUpdNf k t1
  | .tchk k _l t1 g => doTchk k t1 g
  | .chkRange k _l t1 g gs => doChkRange k t1 g gs
  | .chkNf k _l t1 g => doChkNf k t1 g
  | .digFold k _l gs acc => doDigFold k gs acc
  | .digRd k _l g acc => doDigRd k g acc
  | .digClr k _l acc => doDigClr k acc
  | .cntRd k _l g imm => doCntRd k g imm
  | .attrSet k _l gs1 gs2 => doAttrSet k gs1 gs2
  | .traceMark k _l imm => doTraceMark k imm
  | .halt k _l => doHalt k
  | .nop _k _l => doNop
  | .endProg k _l kind gt idx val => doEndProg k kind gt idx val
  | .bankSwap k _l => doBankSwap k
  | .fence k _l imm => doFence k imm
  | .statRd k _l g imm => doStatRd k g imm
  | _ => fun _ _ => .hold

/-- INSTRUCTION_START: a held instruction of core k is tried again: it starts once its target beat is
reached and its inputs, slot and condition are ready (R39, R84). `inp` is what its last input carries (R43, R44). -/
def instructionStart (k : Nat) (inp : InputTag) (s : State) : State :=
  let c := s.core k
  match c.held with
  | some i => if c.st = .running ∧ ¬c.gangWait ∧ ¬c.boundary ∧ ¬s.resumeHolds k ∧ ¬s.traceHolds k then s.begin k i (perform i) inp else s
  | none => s
def execInstructionStart (k : Nat) (inp : InputTag) (s : State) : Host.Outcome State Fault Refusal :=
  .next (instructionStart k inp s)

end Sys2Proof.Machine
end

