-- ==== Sys2Proof/Machine/Launch.lean ====
section
/-! DEFINITION. Program images (R68, R69), LAUNCH (R64 to R67), and what happens to a core between
programs: loads, swaps, starts, drains and faults (R58 to R63, R66, R71). -/

namespace Sys2Proof.Machine

/-! ### Images (Table 3.6, R68, R69) -/

/-- A validated stream. -/
structure Stream where
  words : List W64
  entry : Nat
deriving DecidableEq, Repr

/-- A core that an image places, with its stream. -/
structure Placed where
  core : Nat
  stream : Stream
  ganged : Bool
deriving DecidableEq, Repr

/-- A validated image. -/
structure Image where
  digest : List Byte
  tuned : Bool
  certOff : Nat
  certLen : Nat
  bytes : List Byte
  placed : List Placed
deriving DecidableEq, Repr

/-- Whether the instruction at pc of a stream of n instructions may stand there: it is assigned, and a
branch target or loop body lies within the stream (R69, R88). -/
def placeOk (n pc : Nat) (w : W64) : Bool :=
  let near (off : BitVec 11) : Bool :=
    let t : Int := (pc : Int) + off.toInt
    decide (0 ≤ t ∧ t < n)
  match decodeWord 0 w.toNat with
  | none => false
  | some (.br _ _ off) | some (.beq _ _ _ _ off) | some (.bne _ _ _ _ off) | some (.blt _ _ _ _ off)
  | some (.bge _ _ _ _ off) | some (.bltu _ _ _ _ off) | some (.bgeu _ _ _ _ off) => near off
  | some (.loop _ _ _ _ len _) => decide (pc + len < n)
  | some _ => true

/-- Whether a word may end a stream: END or an unconditional branch (R69). -/
def endsStream (w : W64) : Bool :=
  match decodeWord 0 w.toNat with
  | some (.endProg ..) | some (.br ..) => true
  | _ => false

/-- Whether a stream is valid (R68, R69). -/
def Stream.ok (x : Stream) : Bool :=
  let n := x.words.length
  decide (1 ≤ n ∧ n ≤ 768 ∧ x.entry < n) &&
  ((List.range n).all fun pc => placeOk n pc (x.words.getD pc 0)) &&
  (match x.words.getLast? with | some w => endsStream w | none => false)

/-- Entry j of an image's stream table at `off`. -/
def streamAt (b : List Byte) (off j : Nat) : Option Stream :=
  let o := off + 16 * j
  let p := fieldAt b o 8
  let n := fieldAt b (o + 8) 2
  if o + 16 ≤ b.length ∧ p + 8 * n ≤ b.length ∧ n ≤ 768 then
    let x : Stream := { words := (List.range n).map fun t => BitVec.ofNat 64 (fieldAt b (p + 8 * t) 8),
                        entry := fieldAt b (o + 10) 2 }
    if x.ok then some x else none
  else none

/-- The stream of each core of a placement entry: none for one that is not placed. -/
def mapOf (b : List Byte) (streams : List Stream) (ganged : Bool) (ref : Nat) : Option (List (Option Stream)) :=
  if ganged then (streams[ref]?).map fun x => List.replicate 256 (some x)
  else if ref + 512 ≤ b.length then
    (List.range 256).mapM fun j =>
      let t := fieldAt b (ref + 2 * j) 2
      if t = 0xFFFF then some none else (streams[t]?).map some
  else none

/-- The cores that placement entry j places in a set from cluster `first`. -/
def placeAt (b : List Byte) (streams : List Stream) (first count off j : Nat) : Option (Nat × List Placed) :=
  let o := off + 16 * j
  let pos := fieldAt b o 2
  let g := nbit (fieldAt b (o + 2) 1) 0
  if o + 16 ≤ b.length ∧ pos < count then
    (mapOf b streams g (fieldAt b (o + 4) 4)).map fun m =>
      (pos, (List.range 256).filterMap fun c => (m.getD c none).map fun x =>
        { core := (first + pos) * 256 + c, stream := x, ganged := g })
  else none

/-- The disabled-unit map digest as bytes (R27). -/
def State.dumapBytes (s : State) : List Byte :=
  (List.range 8).flatMap fun n => leBytes 4 (s.reg (R.dumapDigest n)).toNat

/-- An image of these bytes for a set of `count` clusters from `first`, if R68 accepts it. DESIGN CHOICE (log 51): an
image with two placement entries of one cluster position is malformed. -/
def State.parseImage (s : State) (first count : Nat) (b : List Byte) : Option Image :=
  let g := fieldAt b
  let tuned := nbit (g 6 2) 0
  let digest := (b.drop 0x10).take 32
  let ns := g 0x54 4
  if g 0 4 ≠ 0x49504657 ∨ g 4 2 ≠ 1 ∨ g 8 1 ≠ s.fuses.binV.toNat ∨ g 0x50 4 ≠ count ∨ b.length < 16 * ns ∨
      (tuned ∧ (b.drop 0x30).take 32 ≠ s.dumapBytes) ∨ sha256 (b.take 0x10 ++ zeros 32 ++ b.drop 0x30) ≠ digest then none
  else
    match (List.range ns).mapM (streamAt b (g 0x60 8)) with
    | none => none
    | some streams =>
      match (List.range count).mapM (placeAt b streams first count (g 0x58 8)) with
      | none => none
      | some l =>
        if (l.map (·.1)).Nodup then
          some { digest := digest, tuned := tuned, certOff := g 0x68 8, certLen := g 0x70 8, bytes := b, placed := l.flatMap (·.2) }
        else none

/-- What became of reading an image. -/
inductive ImageRead where
  | ok (x : Image)
  | bad
  | memory (w : Nat)

/-- The image at an HBM address: it is read whole and checked (R68); one that leaves the backed HBM is
malformed, and an uncorrectable word is never delivered (R303). -/
def State.readImage (s : State) (a first count : Nat) : ImageRead :=
  if hbmTop < a + 128 then .bad
  else
    let n := s.rd (a + 0x78) 8
    if n < 128 ∨ hbmTop < a + n then .bad
    else
      match s.bad.find? fun w => decide (w < a + n ∧ a < w + 8) with
      | some w => .memory w
      | none =>
        match s.parseImage first count (s.rbs a n) with
        | some x => .ok x
        | none => .bad

/-! ### Launch records -/

/-- The counters of a core latched at its program's start, with the gang controller of its cluster when
it is the first core of the cluster to start (R338). -/
def State.latchCounters (s : State) (k : Nat) (others : List Nat) : State :=
  let c := s.core k
  let s := s.setCore k { c with engAt := c.eng, beatsAt := s.beatsCounted }
  let cl := clOf k
  if others.any fun j => decide (clOf j = cl) then s
  else
    let u := s.cluster cl
    s.setCluster cl { u with engAt := u.eng, beatsAt := s.beatsCounted }

/-- The difference of two engine records over a number of beats: busy, stall and error counts are added
to the record's totals; slips are counted as they happen (R46, R338). -/
def LaunchRec.addDiff (l : LaunchRec) (now was : EngRec) (beats : Nat) : LaunchRec :=
  let st (r : EngRec) (n : Nat) : Nat := sget (fun _ => 0) r.stall n
  let d : Sparse Nat := (List.range 8).foldl (fun t n => sput (fun _ => 0) t n (st l.ctr n + (st now n - st was n))) []
  let stalled := (List.range 8).foldl (fun a n => a + (st now n - st was n)) 0
  { l with engines := l.engines + 1,
           ctr := { l.ctr with busy := l.ctr.busy + (now.busy - was.busy), stall := d,
                               errors := satInc 32 l.ctr.errors (now.errors - was.errors) },
           idleSum := l.idleSum + (beats - (now.busy - was.busy) - stalled) }

/-- Core k leaves its program: by END, or by a fault, a freeze or a reset (`bad`), R338. -/
def State.leaveProgram (s : State) (k : Nat) (bad : Bool) : State :=
  let c := s.core k
  match c.prog with
  | none => s
  | some p =>
    let cl := clOf k
    let beats := s.beatsCounted - c.beatsAt
    let u := s.cluster cl
    let f (l : LaunchRec) : LaunchRec :=
      let left := l.left.erase k
      let l := (List.range 6).foldl (fun l e =>
        l.addDiff (c.eng' e) (sget (fun _ => {}) c.engAt e) beats) { l with left := left, bad := l.bad || bad, stop := s.beat }
      if left.any fun j => decide (clOf j = cl) then l else l.addDiff u.eng u.engAt (s.beatsCounted - u.beatsAt)
    (s.modLaunch p.id f).setCore k { c with prog := none }

/-! ### Loads and swaps (R59 to R63) -/

/-- A core at a pass boundary (R59). RUNNING reaches one only at END or a BANK.SWAP, and, resumed with a swap pending
and a pass suspended, when that pass has completed. -/
def State.atBoundary (s : State) (k : Nat) : Bool :=
  let c := s.core k
  match c.st with
  | .idle | .loaded | .faulted => true
  | .halted => !c.suspended
  | .running => c.resumeSwap && !s.resumeWaits k
  | _ => false

/-- A pending swap takes effect on a core at a pass boundary with a valid shadow; an IDLE core becomes
LOADED, the others keep their state (R58, R61). -/
def State.trySwap (s : State) (k : Nat) : State :=
  let c := s.core k
  if s.atBoundary k && c.swapReady then
    let s := s.setCore k { c.swap with resumeSwap := false }
    (if c.st = .idle then s.setSt k .loaded else s).swapDone k
  else s

/-- The load begun next on a core: the shadow it writes is invalid until it completes (R60). -/
def Core.nextLoad (c : Core) : Core :=
  match c.loadNext with
  | [] => { c with load := none }
  | l :: r => { c with load := some l, loadNext := r, shadowValid := c.shadowValid && l.toActive }

/-- Whether a load into the active bank is under way or waits. -/
def Core.activeLoad (c : Core) : Bool := (c.load.toList ++ c.loadNext).any fun l => l.toActive

/-- A HALTED core returns to RUNNING; the inputs of its next instruction carry cause DEBUG, and suspended passes
continue (R343); a swap that is pending takes effect when they have completed, before the core issues again (R59, R61).
DESIGN CHOICE (log 48): while a load into its active bank is under way the core stays HALTED, and goes on when the load
is complete. -/
def State.resumeCore (s : State) (k : Nat) (one : Bool) : State :=
  let c := s.core k
  if c.st = .halted then
    if c.activeLoad then s.setCore k { c with resumeDue := true, stepOne := one }
    else
      (s.setCore k { c with suspended := false, resumeDue := false, resumeSwap := c.suspended && c.swapPending,
                            dbgHeld := true, stepOne := one }).setSt k .running
  else s

/-- The words of a stream written into a bank. -/
def State.writeBank (s : State) (k : Nat) (b : Bool) (words : List W64) : State :=
  s.write (bankBase k b) (words.flatMap fun w => leBytes 8 w.toNat)

/-- PROGRAM_LOAD_COMPLETE: a program load finishes writing its bank. A shadow becomes valid, and a pending
swap takes effect at a pass boundary; a load into the active bank leaves an IDLE or LOADED core LOADED and a
HALTED core HALTED at the entry point of the new stream (R60, R61, R63). -/
def programLoadComplete (k : Nat) (s : State) : State :=
  let c := s.core k
  match c.load with
  | none => s
  | some l =>
    let b := if l.toActive then c.activeBank else !c.activeBank
    let c2 : Core := if b then { c with entry1 := l.entry, len1 := l.words.length }
                     else { c with entry0 := l.entry, len0 := l.words.length }
    let c3 : Core :=
      if l.toActive then
        let d : Core := { c2 with activeValid := true, ganged := l.ganged }
        if c.st = .halted then d.startRegs c.ba l.entry else d
      else { c2 with shadowValid := true, shadowGanged := l.ganged }
    let s := (s.writeBank k b l.words).setCore k c3.nextLoad
    let s := s.modLaunch l.launch fun r => { r with loads := r.loads.erase k }
    let s := if l.toActive ∧ c.st = .idle then s.setSt k .loaded else s
    let s := (s.trySwap k).settleLaunches
    if (s.core k).resumeDue then s.resumeCore k (s.core k).stepOne else s
def execProgramLoadComplete (k : Nat) (s : State) : Host.Outcome State Fault Refusal := .next (programLoadComplete k s)

/-- SWAP_TAKES_EFFECT: at the core's pass boundary a pending swap makes the shadow active; a core that
BANK.SWAP holds swaps once its engines have drained (R59, R61). -/
def swapTakesEffect (k : Nat) (s : State) : State :=
  let c := s.core k
  match c.st, c.held with
  | .running, some (.bankSwap ..) => instructionStart k {} s
  | _, _ => s.trySwap k
def execSwapTakesEffect (k : Nat) (s : State) : Host.Outcome State Fault Refusal := .next (swapTakesEffect k s)

/-! ### Start (R37, R66) -/

/-- CORE_START: a placed LOADED core starts its first instruction at its launch beat, with BA holding the
launch beat and every register at its start value; a past beat starts at once (R37, R56, R66). DESIGN CHOICE (log 41):
the BA that a LAUNCH sets counts as set by no instruction, so that rule 1 of R43 does not name it: `baBeat` is 0. A
ganged cluster whose first core starts has compared nothing yet (R93). -/
def coreStart (k : Nat) (s : State) : State :=
  let c := s.core k
  match s.launches.find? fun l => l.starts && l.unstarted.contains k with
  | none => s
  | some l =>
    let waiting : Bool := match l.solve with
      | some t => (s.inst l.inst).solves.any fun r => decide (r.tag = t) && r.frozen
      | none => false
    if c.st ≠ .loaded ∨ c.activeLoad ∨ c.swapPending ∨ s.beat < l.launchBeat ∨ waiting then s
    else
      let p : Prog := { id := l.id, inst := l.inst, scope := l.scope, faultFlag := l.faultFlag, first := l.first,
                        count := l.count, step := l.step, solve := l.solve }
      let c' : Core := c.startRegs l.launchBeat (c.entryOf c.activeBank)
      let cl := clOf k
      let fresh : Bool := (s.coresIn cl).all fun j => (s.core j).prog.isNone
      let s := if fresh then s.setCluster cl { s.cluster cl with gangCmps := [] } else s
      let s := s.latchCounters k ((l.left.filter fun j => decide (j ∉ l.unstarted)))
      let c0 := s.core k
      let s := s.setCore k
        { c' with prog := some p, engAt := c0.engAt, beatsAt := c0.beatsAt, issuedAt := none, boundary := false, baBeat := 0,
                  gangNo := 0, resumeSwap := false }
      let s := s.setSt k .running
      let mark (l : LaunchRec) : LaunchRec :=
        { l with unstarted := l.unstarted.erase k, start := some (l.start.getD s.beat) }
      let s := s.modLaunch l.id mark
      let s := match l.solve with
        | none => s
        | some t =>
          let x := s.inst l.inst
          let note (r : SolveRec) : SolveRec :=
            if r.tag = t ∧ r.firstStart.isNone then { r with firstStart := some s.beat } else r
          s.setInst l.inst { x with solves := x.solves.map note }
      s.settleLaunch l.id
def execCoreStart (k : Nat) (s : State) : Host.Outcome State Fault Refusal := .next (coreStart k s)

/-! ### The end of a drain (R58) -/

/-- END's drain is over: the core leaves its program, takes a pending swap, and sends END's signal. -/
def State.endCore (s : State) (k : Nat) (sig : Option Signal) (bad : Bool) : State :=
  let c := s.core k
  let s := (s.leaveProgram k bad).setCore k
    { (s.core k) with after := .none, prog := none, signals := c.signals ++ sig.toList, held := none, wait := none, waitTarget := none }
  let s := s.setCore k { s.core k with boundary := false }
  (s.setSt k (if c.swapReady then .loaded else .idle)).trySwap k

/-- A core at a reset of its instance: both banks invalid, the window registers at their reset values (Tables 3.3 and
3.8). Its counters go on; its comparators have been cleared. -/
def Core.reset (c : Core) : Core :=
  { c.startRegs 0 0 with
    after := .none, prog := none, activeBank := false, activeValid := false, shadowValid := false, swapPending := false,
    load := none, loadNext := [], resumeDue := false, resumeSwap := false, fault := {}, ganged := false,
    shadowGanged := false, suspended := false, stepOne := false, dbgHeld := false, gangWait := false, gangNo := 0,
    boundary := false, slots := [], posts := 0, tapQ := [], folding := 0, doneAt := [] }

/-- What a core becomes when its drain ends (Table 3.3). -/
def State.drained (s : State) (k : Nat) : State :=
  let c := s.core k
  match c.after with
  | .none => s
  | .toHalted => ((s.setCore k { c with after := .none }).setSt k .halted).trySwap k
  | .toEnd sig => s.endCore k sig false
  | .toFaulted => (((s.leaveProgram k true).setCore k { (s.core k) with after := .none, prog := none }).setSt k .faulted).trySwap k
  | .toFrozen => s.endCore k none true
  | .toReset =>
    let s := s.leaveProgram k true
    (s.setCore k (s.core k).reset).setSt k .idle

/-- DRAIN_COMPLETE: when no engine of a DRAINING core has a pass in flight, the core enters IDLE, LOADED,
HALTED or FAULTED, and END's signal is sent (R58, R103). -/
def drainComplete (k : Nat) (s : State) : State :=
  let c := s.core k
  if c.st = .draining ∧ c.after ≠ .none ∧ s.settledFor k then s.drained k else s
def execDrainComplete (k : Nat) (s : State) : Host.Outcome State Fault Refusal := .next (drainComplete k s)

/-- CORE_FAULT: a fault of a cause of Table 3.7 strikes a core: an uncorrectable word, a parity error, or
another cause that hardware finds (R71 to R73). -/
def coreFault (k cause engine : Nat) (s : State) : State :=
  if 1 ≤ cause ∧ cause ≤ 0x0C ∧ engine < 8 then s.fault k cause (causeEngine cause engine) else s
def execCoreFault (k cause engine : Nat) (s : State) : Host.Outcome State Fault Refusal := .next (coreFault k cause engine s)

/-! ### LAUNCH (R64 to R67) -/

/-- The flags of a LAUNCH (Table 3.5). -/
structure LFlags where
  load : Bool
  active : Bool
  swap : Bool
  start : Bool
  clear : Bool
deriving DecidableEq, Repr

def lflags (c : Cmd) : LFlags :=
  let f := c.fld 0x14 1
  { load := nbit f 0, active := nbit f 1, swap := nbit f 2, start := nbit f 3, clear := nbit f 4 }

/-- The cores of a cluster set. -/
def setCores (s : State) (first count : Nat) : List Nat :=
  (s.cores.map (·.1)).filter fun k => decide (first ≤ clOf k ∧ clOf k < first + count)

/-- Whether an instance owns every cluster of a set. -/
def State.ownsSet (s : State) (i first count : Nat) : Bool := (List.range count).all fun j => s.owns i (first + j)

/-- The cores a command without LOAD acts on: those that the image at IMAGE_ADDR places, or, where no valid
image lies there, those whose active bank, or with SWAP whose shadow, holds a program (log 21). -/
def State.placedNow (s : State) (a first count : Nat) (swap : Bool) : List Nat :=
  match s.readImage a first count with
  | .ok x => x.placed.map (·.core)
  | _ => (setCores s first count).filter fun k => (s.core k).activeValid || (swap && (s.core k).shadowValid)

/-- The load rules of R60 and R63 for one core: whether they refuse it. -/
def Core.loadRefused (c : Core) (active : Bool) : Bool :=
  if active then !decide (c.st = .idle ∨ c.st = .loaded ∨ c.st = .halted ∨ c.st = .faulted) else c.swapPending

/-- Whether a placed core is LOADED, or becomes LOADED through the command's own LOAD and SWAP (R65 step 6). DESIGN
CHOICE (log 49): a RUNNING or WAITING core does not count, although the swap makes it LOADED at its END: the command's
LOAD and SWAP alone do not. -/
def Core.willLoad (c : Core) (f : LFlags) : Bool :=
  decide (c.st = .loaded) ||
  (decide (c.st = .idle ∨ (c.st = .faulted ∧ f.clear)) && ((f.load && (f.active || f.swap)) || (!f.load && f.swap && c.shadowValid)))

/-- CLEAR: CFAULT of every core of the set is cleared, FAULTED cores become IDLE, and the gang shape returns
to 0 with any pending shape discarded (R64, R72, R133). -/
def State.clearFaults (s : State) (first count : Nat) : State :=
  let s := forEach (setCores s first count) s fun s k =>
    let s := s.setCore k { s.core k with fault := {}, gangWait := false, gangNo := 0 }
    if (s.core k).st = .faulted then s.setSt k .idle else s
  forEach ((s.clusters.map (·.1)).filter fun cl => decide (first ≤ cl ∧ cl < first + count)) s fun s cl =>
    s.setCluster cl { s.cluster cl with shape := 0, shadow := 0, pending := false, gangIssued := [], gangCmps := [] }

/-- A load begun on a placed core, behind those that its banks are still receiving: its shadow is invalid until the load
completes, and with SWAP the swap is pending at once (R60, R61). -/
def State.beginLoad (s : State) (id : Nat) (f : LFlags) (p : Placed) : State :=
  let c := s.core p.core
  let l : Load := { launch := id, toActive := f.active, words := p.stream.words, entry := p.stream.entry, ganged := p.ganged }
  let c : Core := { c with loadNext := c.loadNext ++ [l], swapPending := c.swapPending || (f.swap && (!f.active || c.shadowValid)) }
  s.setCore p.core (if c.load.isNone then c.nextLoad else { c with shadowValid := c.shadowValid && f.active })

/-- The refusal of a LAUNCH by an uncorrectable word of its image (R303); its step's contribution fails (R302). -/
def State.imageMemory (s : State) (c : Cmd) (w : Nat) : State :=
  ((s.raise 1 St.memoryUncorrectable .mem (openDetail .mem St.memoryUncorrectable) (memUid w) c.inst c.id (memUid w)
    (s.ctxRegs R.poolErr R.poolLast) 2).failContribution c.inst c.step (memUid w)).complete c St.memoryUncorrectable

/-- The image that a command loads, noted for the audit's PROGRAM digest in the order of acceptance (R291). -/
def State.noteImage (s : State) (c : Cmd) (x : Image) : State :=
  let y := s.inst c.inst
  let before := y.programs.takeWhile fun e => decide (e.1 ≤ c.tag)
  s.setInst c.inst { y with programs := before ++ (c.tag, x.digest) :: y.programs.drop before.length, tuned := y.tuned || x.tuned }

/-- The id of the next launch record: one that no record holds. -/
def State.freshLaunch (s : State) : Nat := s.launches.foldl (fun n l => max n (l.id + 1)) s.nextLaunch

/-- A LAUNCH that has passed its checks up to step 3: `img` is its image with LOAD. DESIGN CHOICE (log 50): of a
FAULT_FLAG above the 4,096 host flags the low 12 bits name the flag. -/
def State.doLaunch (s : State) (c : Cmd) (img : Option Image) : State :=
  let f := lflags c
  let first := c.fld 0x10 2
  let count := c.fld 0x12 2
  let a := c.fld 0x18 8
  let cores := match img with
    | some x => x.placed.map (·.core)
    | none => if f.start || f.swap then s.placedNow a first count f.swap else []
  if !f.clear && (setCores s first count).any fun k => decide ((s.core k).st = .faulted) then s.complete c St.illegalInState
  else if f.load && cores.any fun k => (s.core k).loadRefused f.active then s.complete c St.programBusy
  else if f.start && cores.any fun k => !(s.core k).willLoad f then s.complete c St.illegalInState
  else
    let s := if f.clear then s.clearFaults first count else s
    let id := s.freshLaunch
    let swaps := if f.swap then
        (if f.load then (if f.active then cores.filter fun k => (s.core k).shadowValid else cores) else cores.filter fun k => (s.core k).shadowValid || (s.core k).load.isSome)
      else []
    let digest4 := match img with
      | some x => BitVec.ofNat 32 (fieldAt x.digest 0 4)
      | none => BitVec.ofNat 32 (s.rd (a + 0x10) 4)
    let rec_ : LaunchRec :=
      { id := id, inst := c.inst, cmd := c, launchBeat := BitVec.ofNat 64 (c.fld 0x20 8), step := c.step,
        scope := nfield (c.fld 0x14 1) 5 2, faultFlag := c.fld 0x16 2 % 4096, first := first, count := count, digest4 := digest4,
        loads := if f.load then cores else [], swaps := swaps, starts := f.start,
        unstarted := if f.start then cores else [], left := if f.start then cores else [], undone := c.undone }
    let s := { s with launches := s.launches ++ [rec_], nextLaunch := id + 1 }
    let s := match img with
      | some x => forEach x.placed (s.noteImage c x) fun s p => s.beginLoad id f p
      | none => forEach swaps s fun s k => (s.setCore k { s.core k with swapPending := true }).trySwap k
    s.settleLaunch id

/-- LAUNCH: checks in the order of R65, then clears, loads, swaps and starts the cores of the cluster set as
its flags direct (R64 to R67). -/
def launch (q : Nat) (s : State) : State :=
  match s.nextOf q Op.launch fun _ => true with
  | none => s
  | some c =>
    let s := s.startCmd c
    let first := c.fld 0x10 2
    let count := c.fld 0x12 2
    if count = 0 ∨ 4096 < count then s.complete c St.badDescriptor
    else if !s.ownsSet c.inst first count then s.complete c St.ownership
    else if (lflags c).load then
      match s.readImage (c.fld 0x18 8) first count with
      | .bad => s.complete c St.badDescriptor
      | .memory w => s.imageMemory c w
      | .ok x => s.doLaunch c (some x)
    else s.doLaunch c none
def execLaunch (q : Nat) (s : State) : Host.Outcome State Fault Refusal := .next (launch q s)

end Sys2Proof.Machine
end

