-- ==== Sys2Proof/Machine/Queues.lean ====
section
/-! DEFINITION. Queues and doorbells (R231 to R236, R238, R241, R243, R244): what the host writes to
them, the commands fetched from them and the completions posted to them. -/

namespace Sys2Proof.Machine

/-! ### Who writes (R228, R385, R386, R389) -/

/-- Function 0 is the physical function, 1 to 63 the virtual functions; 64 stands for the management
controller, which has the rights of the physical function (R389). -/
def fnPhysical (fn : Nat) : Bool := decide (fn = 0 ∨ fn = 64)
/-- Whether a function may write the page of an instance (R186, R385). -/
def fnMay (fn i : Nat) : Bool := decide (i < 64) && (fnPhysical fn || decide (fn = i))
/-- Whether a function reaches a queue (R250, R386). -/
def State.fnQueue (s : State) (fn q : Nat) : Bool :=
  decide (q < 16384) && (fnPhysical fn || (decide (fn < 64) && decide (s.qOwner q = fn)))

/-! ### Rings -/

def State.qEnabled (s : State) (q : Nat) : Bool := s.bit (R.qCfg q) 0
def State.sqSize (s : State) (q : Nat) : Nat := 2 ^ s.fld (R.qCfg q) 4 5
def State.cqSize (s : State) (q : Nat) : Nat := 2 ^ s.fld (R.qCfg q) 9 5

/-- The memory address of a ring's entry: HBM or host memory (R231). -/
def ringAt (base : Nat) (hbm : Bool) (n : Nat) : Nat := (if hbm then base % 2 ^ 48 else hostBase + base) + 64 * n
def State.sqAt (s : State) (q n : Nat) : Nat := ringAt (s.reg (R.qSqBase q)).toNat (s.bit (R.qCfg q) 2) n
def State.cqAt (s : State) (q n : Nat) : Nat := ringAt (s.reg (R.qCqBase q)).toNat (s.bit (R.qCfg q) 3) n

/-- Whether a completion ring is full: its tail would reach the head (log 22). -/
def State.cqFull (s : State) (q : Nat) : Bool :=
  let u := s.queue q
  decide ((u.cqTail + 1) % s.cqSize q = u.cqHead)

/-! ### Doorbells (R232) -/

/-- A doorbell value at or above the ring size: ignored, and BAD_DOORBELL is set (R232). -/
def State.badDoorbell (s : State) (q : Nat) : State :=
  s.sticky .qctl (R.qStat q) 1 St.internal (s.qOwner q)

/-- SQ_TAIL_DOORBELL: entries up to the new tail are submitted (R232). -/
def sqTailDoorbell (fn q v : Nat) (s : State) : State :=
  let n := v % 65536
  if !s.fnQueue fn q ∨ !s.qEnabled q then s
  else if s.sqSize q ≤ n then s.badDoorbell q
  else s.setQueue q { s.queue q with sqTail := n }
def execSqTailDoorbell (fn q v : Nat) (s : State) : Host.Outcome State Fault Refusal := .next (sqTailDoorbell fn q v s)

/-- CQ_HEAD_DOORBELL: completion entries up to the new head are consumed (R232, R234). -/
def cqHeadDoorbell (fn q v : Nat) (s : State) : State :=
  let n := v % 65536
  if !s.fnQueue fn q ∨ !s.qEnabled q then s
  else if s.cqSize q ≤ n then s.badDoorbell q
  else s.setQueue q { s.queue q with cqHead := n }
def execCqHeadDoorbell (fn q v : Nat) (s : State) : Host.Outcome State Fault Refusal := .next (cqHeadDoorbell fn q v s)

/-- A host write of a flag through a queue's doorbell page: only a flag of the queue's instance (R231, R244). -/
def State.flagDoorbell (s : State) (fn q idx : Nat) (v : Bool) : State :=
  let n := idx % 4096
  if s.fnQueue fn q && s.ownsFlag (s.qOwner q) n then s.putFlag n v 5 false else s

/-- DOORBELL_FLAG_SET. -/
def doorbellFlagSet (fn q idx : Nat) (s : State) : State := s.flagDoorbell fn q idx true
def execDoorbellFlagSet (fn q idx : Nat) (s : State) : Host.Outcome State Fault Refusal := .next (doorbellFlagSet fn q idx s)

/-- DOORBELL_FLAG_CLR. -/
def doorbellFlagClr (fn q idx : Nat) (s : State) : State := s.flagDoorbell fn q idx false
def execDoorbellFlagClr (fn q idx : Nat) (s : State) : Host.Outcome State Fault Refusal := .next (doorbellFlagClr fn q idx s)

/-! ### Fetching (R232, R233, R236) -/

/-- A field of a command: offset, bytes, and the bits it uses. -/
def fbits (off n : Nat) : Nat := (2 ^ (8 * n) - 1) * 2 ^ (8 * off)
def fmask (off m : Nat) : Nat := m * 2 ^ (8 * off)

/-- The bits of the header that are not reserved (Table 11.2). -/
def headBits : Nat := fbits 0 1 ||| fmask 1 1 ||| fbits 2 2 ||| fmask 4 0xF ||| fbits 6 2 ||| fbits 8 2

/-- The bits of a command's payload that are not reserved; none for an unassigned opcode (Table 11.3). -/
def payBits (op : Nat) : Option Nat :=
  match op with
  | 0x01 => some (fmask 0x10 0xFFF ||| fmask 0x12 0x1FFF ||| fmask 0x14 0x7F ||| fbits 0x16 2 ||| fbits 0x18 8 ||| fbits 0x20 8)
  | 0x02 | 0x03 => some (fbits 0x10 8)
  | 0x04 => some (fbits 0x10 8 ||| fmask 0x18 1)
  | 0x05 => some (fmask 0x10 0xFFF ||| fmask 0x12 0x1FFF ||| fbits 0x14 3 ||| fbits 0x18 8 ||| fbits 0x20 8 ||| fbits 0x28 8
      ||| fbits 0x30 8 ||| fbits 0x38 8 ||| fbits 0x40 1 ||| fbits 0x44 4 ||| fbits 0x48 4 ||| fbits 0x50 8 ||| fbits 0x58 8
      ||| fbits 0x60 2)
  | 0x06 => some (fbits 0x10 1 ||| fbits 0x18 8 ||| fbits 0x20 8)
  | 0x07 => some (fbits 0x10 1 ||| fmask 0x11 1 ||| fbits 0x18 8 ||| fbits 0x20 8 ||| fbits 0x28 8)
  | 0x08 => some (fbits 0x10 1 ||| fbits 0x12 2 ||| fbits 0x14 2 ||| fbits 0x16 2)
  | 0x09 => some (fbits 0x10 1 ||| fbits 0x12 2 ||| fbits 0x14 2 ||| fbits 0x16 2 ||| fbits 0x18 8 ||| fbits 0x20 4)
  | 0x0A => some (fbits 0x10 4)
  | 0x0B => some (fmask 0x10 0xFFFFF)
  | 0x0C => some (fmask 0x10 0xFFF ||| fmask 0x12 0x1FFF ||| fbits 0x14 1 ||| fbits 0x18 8 ||| fbits 0x20 8)
  | 0x0D => some (fbits 0x10 4 ||| fbits 0x14 1 ||| fbits 0x18 8 ||| fbits 0x20 8)
  | _ => none

/-- Whether a command passes step 2 of R236. -/
def wellFormedCmd (b : List Byte) : Bool :=
  let op := fieldAt b 0 1
  match payBits op with
  | none => false
  | some m => decide (leNat b &&& (headBits ||| m) = leNat b) && (decide (op ≠ Op.solve) || decide (fieldAt b 0x40 1 = 0x7F))

/-- A command of these bytes. -/
def cmdOf (q i tag : Nat) (beat : W64) (b : List Byte) : Cmd :=
  { q := q, inst := i, id := fieldAt b 2 2, gen := fieldAt b 4 1 % 16, opcode := fieldAt b 0 1, fence := nbit (fieldAt b 1 1) 0,
    layer := fieldAt b 6 2, oper := fieldAt b 8 2, bytes := b, accepted := beat, tag := tag }

/-- A command refused before it is accepted: its completion waits for the ring; it never started (R236, R239). -/
def State.refuseCmd (s : State) (c : Cmd) (status : Nat) : State :=
  let u := s.queue c.q
  s.setQueue c.q { u with waiting := u.waiting ++ [s.entryFor c none status 0 0 none], halted := u.halted || s.haltsOn c.q status }

/-- Whether a STEP_COMMIT for the open step S has been accepted and has not started: commands behind it
belong to step S + 1 (R191, R200). -/
def State.commitAhead (s : State) (i : Nat) : Bool :=
  let s0 := (s.reg (R.updStep i)).toNat
  s.bit (R.updCfg i) 0 && decide ((s.gate i).st = .open_) &&
    (s.inst i).accepted.any fun c =>
      decide (c.opcode = Op.stepCommit ∧ c.fld 0x10 8 = s0) && !nbit (c.fld 0x18 1) 0 && c.started.isNone

/-- Whether a queue has a submitted command that may be fetched, but for room in its completion ring: it is enabled, not
halted, its instance ACTIVE, start-up did not stop (R370), and a command of two entries lies wholly before the tail
(R232, R238). -/
def State.hasCommand (s : State) (q : Nat) : Bool :=
  let u := s.queue q
  !s.power.stopped && s.qEnabled q && decide ((s.inst (s.qOwner q)).st = .active) && !u.halted &&
    decide (u.sqHead ≠ u.sqTail) &&
    !(decide (s.rd (s.sqAt q u.sqHead) 1 = Op.solve) && decide ((u.sqHead + 1) % s.sqSize q = u.sqTail))

/-- The queues that are served: those with a command and room for a completion (R234). -/
def State.served (s : State) : List Nat := (s.queues.map (·.1)).filter fun q => s.hasCommand q && !s.cqFull q

/-- The instance whose turn it is, and of its served queues the one whose turn it is (R233). A turn in an instance is one
queue's, and lasts WEIGHT commands of that queue; then the turn passes to the next instance (log 18). -/
def State.turnQueue (s : State) : Option Nat :=
  let l := s.served
  match s.qTurn.pick ((s.insts.map (·.1)).filter fun i => l.any fun q => decide (s.qOwner q = i)) with
  | none => none
  | some i => (s.inst i).qTurn.pick (l.filter fun q => decide (s.qOwner q = i))

/-- The turns after a command of a queue has been fetched (R233). -/
def State.takeTurn (s : State) (q : Nat) : State :=
  let i := s.qOwner q
  let r := (s.inst i).qTurn.take q (s.fld (R.qCfg q) 22 8)
  { s with qTurn := { cur := if r.left = 0 then i + 1 else i, left := r.left } }.setInst i { s.inst i with qTurn := r }

/-- CQ_STALL of a queue whose completion ring is full (R234). -/
def State.cqStall (s : State) (q : Nat) : State :=
  if s.cqFull q && !s.bit (R.qStat q) 2 then s.sticky .qctl (R.qStat q) 2 St.internal (s.qOwner q) else s

/-- COMMAND_FETCH: the next submitted command of the queue whose turn it is is fetched in ring order, checked and
accepted (R232 to R236); it belongs to the newest unresolved step (R191). A full completion ring stalls the fetch of its
queue (R234). -/
def commandFetch (q : Nat) (s : State) : State :=
  let u := s.queue q
  let i := s.qOwner q
  let n := s.sqSize q
  if s.hasCommand q && s.cqFull q then s.cqStall q
  else if s.turnQueue ≠ some q then s
  else
    let a := s.sqAt q u.sqHead
    let two := decide (s.rd a 1 = Op.solve)
    let a2 := s.sqAt q ((u.sqHead + 1) % n)
    match s.bad.find? fun w => decide (w < a + 64 ∧ a < w + 8) || (two && decide (w < a2 + 64 ∧ a2 < w + 8)) with
    | some w => s.raise 1 St.memoryUncorrectable .mem (openDetail .mem St.memoryUncorrectable) (memUid w) i 0xFFFF (memUid w) (s.ctxRegs R.poolErr R.poolLast) 2
    | none =>
      let b := s.rbs a 64 ++ (if two then s.rbs a2 64 else [])
      let c := cmdOf q i s.nextXfer s.beat b
      let s := (s.takeTurn q).setQueue q { u with sqHead := (u.sqHead + (if two then 2 else 1)) % n }
      if fieldAt b 4 1 % 16 ≠ s.gen i then s.refuseCmd c St.staleGeneration
      else if !wellFormedCmd b then s.refuseCmd c St.badDescriptor
      else
        let g := s.gate i
        let step := if s.commitAhead i then s.reg (R.updStep i) + 1 else s.stepNow i
        let c := { c with step := step, undone := g.undo && s.provisional i step }
        let x := s.inst i
        { s with nextXfer := s.nextXfer + 1 }.setInst i { x with accepted := x.accepted ++ [c] }
def execCommandFetch (q : Nat) (s : State) : Host.Outcome State Fault Refusal := .next (commandFetch q s)

/-! ### Completions (R234, R239) -/

/-- The 64 bytes of a completion entry (Table 11.4). -/
def Completion.bytes (e : Completion) (q sqHead : Nat) (phase : Bool) : List Byte :=
  leBytes 2 e.id ++ leBytes 1 (e.gen % 16 + phase.toNat * 128) ++ leBytes 1 e.status ++ leBytes 1 e.opcode ++ zeros 1 ++
  leBytes 2 sqHead ++ leBytes 2 q ++ zeros 2 ++ leBytes 4 e.resultLo.toNat ++ leBytes 8 e.result.toNat ++
  leBytes 8 e.start.toNat ++ leBytes 8 e.stop.toNat ++ leBytes 4 e.slips ++ leBytes 4 e.propBeats ++
  (List.range 8).flatMap fun n => leBytes 2 (min 0xFFFF (sget (fun _ => 0) e.causeBeats n))

/-- A completion entry written at the CQ tail of a ring that has room, with its phase and any interrupt; CQ_STALL is set
when the entry fills the ring (R234). -/
def State.postEntry (s : State) (q : Nat) (e : Completion) : State :=
  let u := s.queue q
  let s := s.write (s.cqAt q u.cqTail) (e.bytes q u.sqHead u.phase)
  let t := (u.cqTail + 1) % s.cqSize q
  let s := s.setQueue q { u with cqTail := t, phase := if t = 0 then !u.phase else u.phase }
  let s := if s.bit (R.qIrq q) 11 then s.irq (s.qOwner q) (s.fld (R.qIrq q) 0 11) else s
  s.cqStall q

/-- COMPLETION_POST: the oldest completion of a queue is written at the CQ tail, with its phase and any
interrupt; a full ring makes it wait, with CQ_STALL set (R234). -/
def completionPost (q : Nat) (s : State) : State :=
  let u := s.queue q
  match u.waiting with
  | [] => s
  | e :: r =>
    if s.cqFull q then s.cqStall q
    else (s.setQueue q { u with waiting := r }).postEntry q e
def execCompletionPost (q : Nat) (s : State) : Host.Outcome State Fault Refusal := .next (completionPost q s)

/-- QUEUE_RESUME: a write of QCTL_CTRL.RESUME ends a halt (R238). -/
def queueResume (fn q : Nat) (v : W32) (s : State) : State :=
  if s.fnQueue fn q && v.getLsbD 0 then s.setQueue q { s.queue q with halted := false } else s
def execQueueResume (fn q : Nat) (v : W32) (s : State) : Host.Outcome State Fault Refusal := .next (queueResume fn q v s)

/-! ### Barriers (R243) -/

/-- BARRIER_MEMBERS_WRITE: a write of MEMBERS takes effect at once: a non-zero value at or below ARRIVED
completes the phase; 0 disables the barrier (R243). A virtual function writes its own barriers (R251). -/
def barrierMembersWrite (fn n : Nat) (v : W32) (s : State) : State :=
  if decide (n < 256) && (fnPhysical fn || s.ownsBar fn n) then
    let m := v.toNat % 2 ^ 21
    let s := s.setFld (R.barCfg n) 0 21 m
    if m ≠ 0 ∧ m ≤ s.barArrived n then s.completePhase n 5 false else s
  else s
def execBarrierMembersWrite (fn n : Nat) (v : W32) (s : State) : Host.Outcome State Fault Refusal :=
  .next (barrierMembersWrite fn n v s)

end Sys2Proof.Machine
end

