-- ==== Sys2Proof/Machine/Debug.lean ====
section
/-! DEFINITION. Command records and telemetry (R338, R339), breakpoints and halts (R341 to R344), debug sessions and
the access window (R345, R346). -/

namespace Sys2Proof.Machine

/-! ### Command records (Table 16.3) -/

/-- TAG of a command's record (R339). -/
def State.cmdTag (s : State) (l : LaunchRec) : Nat :=
  if s.bit (R.instCfg l.inst) 0 then l.cmd.layer + l.cmd.oper * 65536 else l.digest4.toNat

/-- The 256 bytes of a command record. -/
def State.cmdRecord (s : State) (l : LaunchRec) : List Byte :=
  let at_ (m : Sparse Nat) (n : Nat) : Nat := sget (fun _ => 0) m n
  let eight (n : Nat) (m : Sparse Nat) : List Byte := (List.range 8).flatMap fun j => leBytes n (at_ m j)
  let slips := ((List.range 8).map (at_ l.ctr.slipN)).sum + l.ctr.propN
  leBytes 2 l.cmd.id ++ leBytes 2 l.cmd.q ++ leBytes 1 l.cmd.opcode ++ leBytes 1 (l.cmd.gen % 16) ++
  leBytes 1 ((s.bit (R.instCfg l.inst) 0).toNat + 2 * l.bad.toNat) ++ zeros 1 ++ leBytes 4 (s.cmdTag l) ++ leBytes 4 l.engines ++
  leBytes 8 (l.start.getD 0).toNat ++ leBytes 8 l.stop.toNat ++ leBytes 8 l.ctr.busy ++ leBytes 8 l.idleSum ++ eight 8 l.ctr.stall ++
  leBytes 4 l.ctr.errors ++ leBytes 4 (min (2 ^ 32 - 1) slips) ++ zeros 8 ++ eight 4 l.ctr.slipN ++ eight 4 l.ctr.slipB ++
  leBytes 4 l.ctr.propN ++ leBytes 4 l.ctr.propB ++ zeros 56

/-- A record written to an instance's command ring, or dropped and counted where the ring is full (R338). -/
def State.ringRecord (s : State) (i : Nat) (b : List Byte) : State :=
  let n := s.fld (R.cmdSize i) 0 16
  let x := s.inst i
  if n ≤ x.cmdUsed then ((s.incReg (R.cmdDrop i)).sticky .cnt (R.cntStat i) 0 St.internal i)
  else
    let t := s.fld (R.cmdPtr i) 16 16
    let s := s.hbmWrite ((s.reg (R.cmdRing i)).toNat / 256 * 256 + 256 * t) b
    (s.setInst i { x with cmdUsed := x.cmdUsed + 1 }).setFld (R.cmdPtr i) 16 16 ((t + 1) % n)

/-- A record sent to the collector on VC5, or dropped and counted where VC5 has no credit (R339). -/
def State.sendTelemetry (s : State) (i : Nat) (b : List Byte) (step : W64) : State :=
  let dst := s.fld (R.telem i) 0 24
  let credit : Bool := match s.routePort dst with
    | none => true
    | some p => decide (0 < sget (fun _ => 0) (s.link p).credits (10 + (s.wraps p).toNat))
  if credit then s.send { s.header i Msg.telemetry 5 dst step with payload := [1, 1] ++ zeros 6 ++ b }
  else s.incReg (R.telemDrop i)

/-- Whether the last program of a record's command has ended. -/
def State.recordDue (s : State) (l : LaunchRec) : Bool :=
  l.starts && l.unstarted.isEmpty && l.left.isEmpty &&
  match l.solve with
  | none => l.done
  | some t => !(s.inst l.inst).solves.any fun r => decide (r.tag = t) && !r.posted

/-- COMMAND_RECORD_WRITE: the record of the first command whose last program has ended (R338); nothing is written without
CMD_REC. -/
def commandRecordWrite (i : Nat) (s : State) : State :=
  match s.launches.find? fun l => decide (l.inst = i) && s.recordDue l with
  | none => s
  | some l =>
    let s := { s with launches := s.launches.filter fun m => decide (m.id ≠ l.id) }
    if !s.bit (R.cntCfg i) 0 then s
    else
      let b := s.cmdRecord l
      let s := s.ringRecord i b
      if s.bit (R.telem i) 31 then s.sendTelemetry i b l.step else s
def execCommandRecordWrite (i : Nat) (s : State) : Host.Outcome State Fault Refusal := .next (commandRecordWrite i s)

/-- TELEMETRY: the collector writes each received record into the command ring of the instance that holds the job (R339). -/
def telemetry (s : State) : State :=
  match s.take Msg.telemetry fun _ _ => true with
  | .none => s
  | .dropped s => s
  | .got m i s => if fieldAt m.payload 0 1 = 1 then s.ringRecord i ((m.payload.drop 8).take 256) else s
def execTelemetry (s : State) : Host.Outcome State Fault Refusal := .next (telemetry s)

/-! ### Sessions (R345) -/

/-- Whether an instance's session, or the module's, is open. -/
def State.modSession (s : State) : Bool := match s.moduleSession with
  | some e => decide (s.beat < e)
  | none => false
def State.session (s : State) (i : Nat) : Bool :=
  (s.bit (R.authStat i) 0 && decide (s.beat < s.reg (R.authExp i))) || s.modSession

/-- The challenge of a page: DBG_AUTH_NONCE0–3. -/
def State.nonce (s : State) (i : Nat) : BitVec 128 := Config.debugNonce i (sget (fun _ => 0) s.nonces i)

/-- An access without a session: DENIED, and a class B event. -/
def State.denied (s : State) (i : Nat) : State :=
  (s.setBit (R.dbgStat i) 0 true).raise 2 St.internal .dbg 0 pcieUid i

/-- Whether a page may act on a cluster: one of its instance's, or any under a module session on page 0. -/
def State.dbgReach (s : State) (i cl : Nat) : Bool :=
  s.owns i cl || (decide (i = 0) && s.modSession && s.exists' cl)

/-- DEBUG_UNLOCK: a signature over the present challenge that verifies opens a session, and the nonce changes. -/
def debugUnlock (i : Nat) (module : Bool) (expiry : W64) (challenge : BitVec 128) (sig : List Byte) (s : State) : State :=
  let page := if module then 0 else i
  if challenge ≠ s.nonce page ∨ !Config.debugSignatureOk challenge sig then s
  else
    let s := { s with nonces := sput (fun _ => 0) s.nonces page (sget (fun _ => 0) s.nonces page + 1) }
    if module then { s with moduleSession := some expiry }
    else (s.setBit (R.authStat i) 0 true).setReg (R.authExp i) expiry
def execDebugUnlock (i : Nat) (module : Bool) (expiry : W64) (challenge : BitVec 128) (sig : List Byte) (s : State) :
    Host.Outcome State Fault Refusal := .next (debugUnlock i module expiry challenge sig s)

/-- DEBUG_LOCK: DBG_AUTH_LOCK ends the page's session; on page 0 the module's too. -/
def debugLock (fn i : Nat) (s : State) : State :=
  if fnMay fn i then
    let s := (s.setBit (R.authStat i) 0 false).setReg (R.authExp i) 0
    if i = 0 then { s with moduleSession := none } else s
  else s
def execDebugLock (fn i : Nat) (s : State) : Host.Outcome State Fault Refusal := .next (debugLock fn i s)

/-- DEBUG_SESSION_EXPIRE: DBG_AUTH_EXP is reached. -/
def debugSessionExpire (i : Nat) (s : State) : State :=
  let s := if s.bit (R.authStat i) 0 && decide (s.reg (R.authExp i) ≤ s.beat) then
      (s.setBit (R.authStat i) 0 false).setReg (R.authExp i) 0 else s
  if s.moduleSession.isSome && !s.modSession then { s with moduleSession := none } else s
def execDebugSessionExpire (i : Nat) (s : State) : Host.Outcome State Fault Refusal := .next (debugSessionExpire i s)

/-! ### Breakpoints (R341, R342) -/

def Core.cmp (c : Core) (n : Nat) : Comparator := sget (fun _ => {}) c.cmps n
def Core.setCmp (c : Core) (n : Nat) (x : Comparator) : Core := { c with cmps := sput (fun _ => {}) c.cmps n x }
def Comparator.on (x : Comparator) : Bool := x.cfg.getLsbD 0
def Comparator.typ (x : Comparator) : Nat := nfield x.cfg.toNat 1 2
def Comparator.scope (x : Comparator) : Nat := nfield x.cfg.toNat 3 2
def Comparator.count (x : Comparator) : Nat := max 1 (nfield x.cfg.toNat 5 16)

/-- Whether a comparator matches the instruction about to issue: its pc, its class and op, the beat, or the range of
addresses its operands touch (R341). -/
def Comparator.matches (x : Comparator) (pc clsop lo hi : Nat) (beat : W64) : Bool :=
  match x.typ with
  | 0 => decide (pc = x.lo.toNat % 1024)
  | 1 => decide (clsop = x.lo.toNat % 4096)
  | 2 => decide (x.lo ≤ beat) && decide (x.seen = 0)
  | _ => decide (lo ≤ x.hi.toNat ∧ x.lo.toNat ≤ hi)

/-- The cores that a scope of R342 names: the core, its cluster, its instance, or the module. -/
def State.scopeCores (s : State) (i k scope : Nat) : List Nat :=
  match scope with
  | 0 => [k]
  | 1 => s.coresIn (clOf k)
  | 2 => s.coresOf i
  | _ => s.cores.map (·.1)

/-- Whether a halt of the instance is in force or draining. -/
def State.halting (s : State) (i : Nat) : Bool :=
  (s.coresOf i).any fun k => decide ((s.core k).st = .halted ∨ ((s.core k).st = .draining ∧ (s.core k).after = .toHalted))

/-- DBG_HIT_UID and DBG_HIT_BEAT: the hit of lowest UID of the first beat of a halt. -/
def State.recordHit (s : State) (i k : Nat) (was : Bool) : State :=
  let u := coreUid k 0 0
  let first := !was || (decide (s.reg (R.hitBeat i) = s.beat) && decide (u.toNat < (s.reg (R.hitUid i)).toNat))
  if first then (s.setReg (R.hitUid i) (u.zeroExtend 64)).setReg (R.hitBeat i) s.beat else s

/-- BREAKPOINT_HIT: comparator `comp` of core k is offered the instruction about to issue: its class and op, and the
core-local range its operands touch. Its COUNT-th match halts the cores of the scope: the instruction does not issue, and
a hit on a ganged core acts at cluster scope at least (R341, R342). -/
def breakpointHit (k comp clsop lo hi : Nat) (s : State) : State :=
  let c := s.core k
  let x := c.cmp comp
  if c.st ≠ .running ∨ 3 < comp ∨ !x.on ∨ !x.matches c.pc clsop lo hi s.beat then s
  else
    let x' := { x with seen := x.seen + 1 }
    let s := s.setCore k (c.setCmp comp x')
    if x'.seen ≠ x.count then s
    else
      let i := s.instOf k
      let scope := if x.scope = 0 ∧ c.ganged then 1 else x.scope
      let was := s.halting i
      let s := (s.trace k 6 comp 0 0).recordHit i k was
      forEach (s.scopeCores i k scope) s State.haltCore
def execBreakpointHit (k comp clsop lo hi : Nat) (s : State) : Host.Outcome State Fault Refusal :=
  .next (breakpointHit k comp clsop lo hi s)

/-- DRAIN_TIMEOUT: a halt drains longer than DBG_DRAIN_MAX: HALTED with its passes suspended (R343). -/
def drainTimeout (k : Nat) (s : State) : State :=
  let c := s.core k
  let i := s.instOf k
  if c.st ≠ .draining ∨ c.after ≠ .toHalted ∨ (s.beat - c.haltAt).toNat ≤ (s.reg (R.drainMax i)).toNat ∨ s.settledFor k then s
  else
    let s := (s.setCore k { c with after := .none, suspended := true }).setSt k .halted
    s.sticky .dbg (R.dbgStat i) 2 St.internal i (coreUid k 0 0)
def execDrainTimeout (k : Nat) (s : State) : Host.Outcome State Fault Refusal := .next (drainTimeout k s)

/-! ### DBG_CTRL (R342, R343) -/

/-- Whether an operation of DBG_CTRL is accepted: a target the page reaches, and the module scope on page 0 under a
module session. -/
def State.ctrlOk (s : State) (i scope cl : Nat) : Bool :=
  if 3 ≤ scope then decide (i = 0) && s.modSession else decide (scope = 2) || s.dbgReach i cl

/-- A write of DBG_CTRL: 1 HALT, 2 RESUME, 3 STEP. -/
def State.dbgCtrl (s : State) (fn i op scope cl core : Nat) : State :=
  if !fnMay fn i then s
  else if !s.session i then s.denied i
  else if !s.ctrlOk i scope cl then s
  else
    let k := 256 * cl + core % 256
    match op with
    | 1 => forEach (s.scopeCores i k scope) s State.haltCore
    | 2 => forEach (s.scopeCores i k scope) s fun s j => s.resumeCore j false
    | 3 => if scope = 0 then s.resumeCore k true else s
    | _ => s

/-- DEBUG_HALT. -/
def execDebugHalt (fn i scope cl core : Nat) (s : State) : Host.Outcome State Fault Refusal := .next (s.dbgCtrl fn i 1 scope cl core)
/-- DEBUG_RESUME. -/
def execDebugResume (fn i scope cl core : Nat) (s : State) : Host.Outcome State Fault Refusal := .next (s.dbgCtrl fn i 2 scope cl core)
/-- DEBUG_STEP. -/
def execDebugStep (fn i cl core : Nat) (s : State) : Host.Outcome State Fault Refusal := .next (s.dbgCtrl fn i 3 0 cl core)

/-! ### Breakpoint registers -/

/-- The core and comparator that DBG_BP_SEL names. -/
def State.bpAt (s : State) (i : Nat) : Nat × Nat :=
  (256 * s.fld (R.bpSel i) 0 12 + s.fld (R.bpSel i) 12 8, s.fld (R.bpSel i) 20 2)

/-- A breakpoint register of a page written: the selector, or the configuration (which restarts the match count), LO or
HI of the selected comparator (R341). -/
def State.bpWrite (s : State) (fn i off : Nat) (v : W64) : State :=
  if !fnMay fn i then s
  else if !s.session i then s.denied i
  else if off = R.bpSel i then s.rawWrite off v
  else
    let t := s.bpAt i
    let c := s.core t.1
    let x := c.cmp t.2
    if !s.dbgReach i (clOf t.1) then s
    else if off = R.bpCfg i then
      if nfield v.toNat 3 2 = 3 ∧ ¬(i = 0 ∧ s.modSession) then s.denied i
      else s.setCore t.1 (c.setCmp t.2 { x with cfg := BitVec.ofNat 32 (v.toNat % 2 ^ 21), seen := 0 })
    else if off = R.bpLo i then s.setCore t.1 (c.setCmp t.2 { x with lo := v })
    else s.setCore t.1 (c.setCmp t.2 { x with hi := v })

/-- BREAKPOINT_CONFIG_WRITE. -/
def execBreakpointConfigWrite (fn i : Nat) (v : W32) (s : State) : Host.Outcome State Fault Refusal :=
  .next (s.bpWrite fn i (R.bpCfg i) (v.zeroExtend 64))

/-! ### The access window (R346, Table 16.5) -/

/-- The 32 bytes of a tile descriptor in fld order, its strides sign-extended. -/
def Tile.bytes (t : Tile) : List Byte :=
  leBytes 4 t.base.toNat ++ leBytes 2 t.rows.toNat ++ leBytes 2 t.cols.toNat ++ leBytes 4 (t.rs.signExtend 32).toNat ++
  leBytes 4 (t.cs.signExtend 32).toNat ++ leBytes 1 t.format.toNat ++ zeros 1 ++ leBytes 2 t.swizzle.toNat ++
  leBytes 2 t.clampR.toNat ++ leBytes 2 t.clampC.toNat ++ zeros 8

/-- A tile descriptor read from such bytes; the reserved bit of FORMAT takes no one (R8). -/
def Tile.ofBytes (b : List Byte) : Tile :=
  let f (o n w : Nat) : BitVec w := BitVec.ofNat w (fieldAt b o n)
  { base := f 0 4 32, rows := f 4 2 16, cols := f 6 2 16, rs := f 8 4 24, cs := f 12 4 24, format := f 16 1 8 &&& 0xF7,
    swizzle := f 18 2 10, clampR := f 20 2 16, clampC := f 22 2 16 }

/-- The register bytes of a core from offset 0x2_0000 of its map. -/
def Core.regBytes (c : Core) : List Byte :=
  ((List.range 32).flatMap fun n => leBytes 4 (c.gr n).toNat) ++ ((List.range 16).flatMap fun n => leBytes 4 (c.ar n).toNat) ++
  ((List.range 8).flatMap fun n => leBytes 2 (c.mr n).toNat) ++ ((List.range 4).flatMap fun n => leBytes 2 (c.lcr n).toNat) ++ zeros 8 ++
  leBytes 8 c.ba.toNat ++ leBytes 2 c.pc ++ zeros 22 ++ ((List.range 16).flatMap fun n => (c.tr n).bytes) ++
  ((List.range 16).flatMap fun n => leBytes 32 (c.vr n).toNat) ++
  ((List.range 4).flatMap fun n => (List.range 16).flatMap fun m => leBytes 4 ((c.acc' n).get m).toNat) ++
  ((List.range 4).flatMap fun n => leBytes 4 (c.acc' n).status.toNat) ++ leBytes 4 c.tapQ.length ++ zeros 4

/-- A set's status written as Table 4.14 lays it out. -/
def AccSet.withStatus (a : AccSet) (v : W32) : AccSet :=
  { a with sat := v.getLsbD 0, nonfin := v.getLsbD 1,
           kind := if v.getLsbD 2 then (if v.getLsbD 3 then .integer else .floating) else .unfixed,
           satIdx := nfield v.toNat 4 4, nfRow := nfield v.toNat 16 8, nfCol := nfield v.toNat 24 8 }

/-- The registers that eight bytes written at an offset of that map hold; the queue count, which follows from the queue, is
not written. -/
def Core.putRegs (c : Core) (o : Nat) (v : W64) : Core :=
  let lo : W32 := v.truncate 32
  let hi : W32 := (v >>> 32).truncate 32
  let half (n : Nat) : W16 := BitVec.ofNat 16 (nfield v.toNat (16 * n) 16)
  if o < 0x80 then (c.setG (o / 4) lo).setG (o / 4 + 1) hi
  else if o < 0xC0 then (c.setA ((o - 0x80) / 4) lo).setA ((o - 0x80) / 4 + 1) hi
  else if o < 0xD0 then [0, 1, 2, 3].foldl (fun c n => c.setM ((o - 0xC0) / 2 + n) (half n)) c
  else if o = 0xD0 then [0, 1, 2, 3].foldl (fun c n => c.setLc n (half n)) c
  else if o = 0xE0 then { c with ba := v }
  else if o = 0xE8 then { c with pc := v.toNat % 1024 }
  else if 0x100 ≤ o ∧ o < 0x300 then
    let n := (o - 0x100) / 32
    let b := (c.tr n).bytes
    let p := o % 32
    c.setT n (Tile.ofBytes (b.take p ++ leBytes 8 v.toNat ++ b.drop (p + 8)))
  else if 0x300 ≤ o ∧ o < 0x500 then
    let n := (o - 0x300) / 32
    let b := leBytes 32 (c.vr n).toNat
    let p := o % 32
    c.setV n (BitVec.ofNat 256 (leNat (b.take p ++ leBytes 8 v.toNat ++ b.drop (p + 8))))
  else if 0x500 ≤ o ∧ o < 0x600 then
    let n := (o - 0x500) / 64
    let m := o % 64 / 4
    c.setAcc n (((c.acc' n).put m lo).put (m + 1) hi)
  else if 0x600 ≤ o ∧ o < 0x610 then
    let n := (o - 0x600) / 4
    let c := c.setAcc n ((c.acc' n).withStatus lo)
    c.setAcc (n + 1) ((c.acc' (n + 1)).withStatus hi)
  else c

/-- Where an offset of the core map lies in memory: the scratchpad, or a bank. -/
def coreMem (k off : Nat) : Option Nat :=
  if off < 0xC000 then some (spBase k + off)
  else if 0x10000 ≤ off ∧ off < 0x11800 then some (bankBase k false + (off - 0x10000))
  else if 0x12000 ≤ off ∧ off < 0x13800 then some (bankBase k true + (off - 0x12000))
  else none

/-- What DBG_ACC_UID and DBG_ACC_OFF name. -/
inductive AccTarget where
  | core (k off : Nat)
  | ring (cl off : Nat)
  | none
deriving DecidableEq, Repr

def State.accTarget (s : State) (i : Nat) : AccTarget :=
  let u : W32 := (s.reg (R.accUid i)).truncate 32
  let off := (s.reg (R.accOff i)).toNat
  let cl := uidCl u
  if uidDie u ≥ 16 ∨ off % 8 ≠ 0 ∨ !s.dbgReach i cl then .none
  else if uidEng u = 0 ∧ uidSub u = 0 then .core (uidCore u) off
  else if u = gangUid cl 2 then .ring cl off
  else .none

/-- Whether a core's state lets debug access it: IDLE, LOADED, HALTED or FAULTED. -/
def Core.stopped (c : Core) : Bool := decide (c.st = .idle ∨ c.st = .loaded ∨ c.st = .halted ∨ c.st = .faulted)

/-- A refused access: ACC_REFUSED. -/
def State.accRefused (s : State) (i : Nat) : State := s.sticky .dbg (R.dbgStat i) 1 St.internal i

/-- Eight bytes read by DBG_ACC_DATA, or zero. -/
def State.accRead (s : State) (i : Nat) : State × W64 :=
  match s.accTarget i with
  | .none => (s.accRefused i, 0)
  | .ring cl off =>
    let u := s.cluster cl
    if off < 0x10000 then (s, (((sget (fun _ => 0) u.trace (off / 16)) >>> (8 * (off % 16)))).truncate 64)
    else if off = 0x10000 then (s, BitVec.ofNat 64 (u.ttail + u.thead * 2 ^ 32))
    else (s, 0)
  | .core k off =>
    let c := s.core k
    if !c.stopped && decide (0xC000 ≤ off) then (s.accRefused i, 0)
    else
      match coreMem k off with
      | some a =>
        if s.poisoned a 8 then (s.raise 1 St.memoryUncorrectable .dbg (openDetail .dbg St.memoryUncorrectable) (memUid a) i, 0) else (s, BitVec.ofNat 64 (s.rd a 8))
      | none =>
        if 0x20000 ≤ off ∧ off < 0x20618 then (s, BitVec.ofNat 64 (leNat ((c.regBytes.drop (off - 0x20000)).take 8))) else (s, 0)

/-- Eight bytes written by DBG_ACC_DATA. HEAD of a trace ring frees its entries; a bank is not validated. -/
def State.accWrite (s : State) (i : Nat) (v : W64) : State :=
  match s.accTarget i with
  | .none => s.accRefused i
  | .ring cl off =>
    if off = 0x10000 then
      let u := s.cluster cl
      let h := nfield v.toNat 32 12
      s.setCluster cl { u with thead := h, tcount := (u.ttail + 4096 - h) % 4096 }
    else s
  | .core k off =>
    let c := s.core k
    if !c.stopped then s.accRefused i
    else
      match coreMem k off with
      | some a => s.write a (leBytes 8 v.toNat)
      | none => if 0x20000 ≤ off then s.setCore k (c.putRegs (off - 0x20000) v) else s

/-- DEBUG_ACCESS_READ: without a session it reads zero, with DENIED. -/
def debugAccessRead (fn i : Nat) (s : State) : State :=
  let s := s.dropHeld (R.accData i)
  if !fnMay fn i then { s with readData := 0 }
  else if !s.session i then { s.denied i with readData := 0 }
  else { (s.accRead i).1 with readData := (s.accRead i).2 }
def execDebugAccessRead (fn i : Nat) (s : State) : Host.Outcome State Fault Refusal := .next (debugAccessRead fn i s)

/-- DEBUG_ACCESS_WRITE: without a session it is ignored, with DENIED. -/
def debugAccessWrite (fn i : Nat) (v : W64) (s : State) : State :=
  let s := s.dropHeld (R.accData i)
  if !fnMay fn i then s else if !s.session i then s.denied i else s.accWrite i v
def execDebugAccessWrite (fn i : Nat) (v : W64) (s : State) : Host.Outcome State Fault Refusal := .next (debugAccessWrite fn i v s)

end Sys2Proof.Machine
end

