-- ==== Sys2Proof/Machine/Curv.lean ====
section
/-! DEFINITION. Curvature at commits (R168, R171, R172, R180 to R185): the layer table, the fold of the
stage into the factors, activation of roots, and the refresh wheel. -/

namespace Sys2Proof.Machine

/-! ### The layer table (R168, Table 8.2) -/

/-- A layer-table entry. -/
structure Layer where
  at_ : Nat
  flags : Nat
  iter : Nat
  log2 : Nat
  state : Nat
  beta : W32
  lambda : W32
  w : Nat
  offset : Nat
  lead : Nat
  folds : Nat
  dimL : Nat
  dimR : Nat
  scaleL : W32
  scaleR : W32
  factor : Nat
  stage : Nat
  snap : Nat
  root : Nat
  record : Nat
  zero : Bool
deriving DecidableEq, Repr

/-- Layer entries of an instance; at most 65,536 (Table 8.5). -/
def State.layers (s : State) (i : Nat) : Nat := s.fld (R.layerCount i) 0 17

/-- The entry of a layer of an instance (R182). -/
def State.layer (s : State) (i l : Nat) : Layer :=
  let a := s.layerAt i l
  let g (o k : Nat) : Nat := s.rd (a + o) k
  { at_ := a, flags := g 0 1, iter := g 1 1, log2 := g 2 1, state := g 3 1, beta := BitVec.ofNat 32 (g 4 4),
    lambda := BitVec.ofNat 32 (g 8 4), w := g 0xC 2, offset := g 0xE 2, lead := g 0x10 2, folds := g 0x12 2,
    dimL := g 0x14 4, dimR := g 0x18 4, scaleL := BitVec.ofNat 32 (g 0x1C 4), scaleR := BitVec.ofNat 32 (g 0x20 4),
    factor := g 0x28 8, stage := g 0x30 8, snap := g 0x38 8, root := g 0x40 8, record := g 0x48 8,
    zero := decide (g 0x24 4 = 0) && (s.rbs (a + 0x50) 48).all (· = 0) }

def Layer.enabled (y : Layer) : Bool := nbit y.flags 0
def Layer.method (y : Layer) : Nat := nfield y.flags 1 1
def Layer.p (y : Layer) : Nat := nfield y.flags 2 2
def Layer.n (y : Layer) : Nat := 2 ^ y.log2
/-- Blocks of the left side, and of both sides (R168). -/
def Layer.leftBlocks (y : Layer) : Nat := cdiv y.dimL y.n
def Layer.blocks (y : Layer) : Nat := y.leftBlocks + cdiv y.dimR y.n
/-- Size of block g (R168). -/
def Layer.size (y : Layer) (g : Nat) : Nat :=
  if g < y.leftBlocks then min y.n (y.dimL - g * y.n) else min y.n (y.dimR - (g - y.leftBlocks) * y.n)
/-- Byte offset of block g in an area (R168). -/
def Layer.off (y : Layer) (g : Nat) : Nat := ((List.range g).map fun j => y.size j ^ 2 * 4).sum
/-- Bytes of the factor area. -/
def Layer.total (y : Layer) : Nat := y.off y.blocks
/-- The address of a slot of the root of block g, and of its record (Table 8.2). -/
def Layer.rootAt (y : Layer) (g slot : Nat) : Nat := y.root + slot * y.total + y.off g
def Layer.recAt (y : Layer) (g : Nat) : Nat := y.record + 32 * g

/-- Whether the fields that lay out a layer's blocks lie in their ranges (R168). -/
def Layer.shaped (y : Layer) : Bool :=
  let dim (d : Nat) : Bool := decide (d % 256 = 0 ∧ 256 ≤ d ∧ d ≤ 65536)
  decide (8 ≤ y.log2 ∧ y.log2 ≤ 12) && dim y.dimL && (decide (y.dimR = 0) || dim y.dimR)

/-- Whether a field of an entry lies outside its range (Table 8.2, R168, R178). -/
def Layer.badFields (y : Layer) : Bool :=
  let zero : W32 := 0
  decide (16 ≤ y.flags) || decide (y.p = 3) || decide (y.method = 1 ∧ y.p ≠ 0) ||
  (if y.method = 0 then !decide (4 ≤ y.iter ∧ y.iter ≤ 32) else decide (4 < y.iter)) ||
  decide (3 < y.state) || lt32 y.beta zero || !lt32 y.beta one32 || !gt32 y.lambda zero ||
  decide (y.w = 0) || decide (y.w ≤ y.offset) || decide (y.lead = 0) || decide (y.w < y.lead) ||
  !y.shaped || !y.zero

/-- Whether an entry fails the check of R182. -/
def State.badLayer (s : State) (i : Nat) (y : Layer) : Bool :=
  s.poisoned y.at_ 128 || y.badFields ||
  !(s.ownsHbm i y.factor y.total && s.ownsHbm i y.stage y.total && s.ownsHbm i y.snap y.total &&
    s.ownsHbm i y.root (2 * y.total) && s.ownsHbm i y.record (32 * y.blocks))

/-- The latest curvature event (Table 8.5). -/
def State.curvEvent (s : State) (i l g b ev : Nat) : State :=
  (s.setBit (R.curvStat i) b true).setReg (R.curvLast i) (BitVec.ofNat 64 (l % 65536 + g % 512 * 2 ^ 16 + ev * 2 ^ 25))

/-- The layers that take part in a commit: enabled, with a good entry. -/
def State.liveLayers (s : State) (i : Nat) : List Nat :=
  (List.range (s.layers i)).filter fun l => (s.layer i l).enabled && !s.badLayer i (s.layer i l)

/-- The layers whose blocks have records: their layout is good, and the instance owns the records. Clearing ENABLED, or
another field that fails the check, stops only fold and dispatch (R182, R184, R185). -/
def State.recordedLayers (s : State) (i : Nat) : List Nat :=
  (List.range (s.layers i)).filter fun l =>
    let y := s.layer i l
    !s.poisoned y.at_ 128 && y.shaped && s.ownsHbm i y.record (32 * y.blocks)

/-- STATE and FOLDS as the update unit keeps them, written over what the runtime has put there (R182). -/
def State.restateLayers (s : State) (i : Nat) : State :=
  forEach (List.range (s.layers i)) s fun s l =>
    match s.layerKept i l with
    | some k => (s.wr (s.layerAt i l + 3) 1 k.1).wr (s.layerAt i l + 0x12) 2 k.2
    | none => s

/-- What the update unit keeps of each layer after a commit: a STATE out of its range is not taken up (R172, R182). -/
def State.keepLayers (s : State) (i : Nat) : State :=
  let x := s.inst i
  s.setInst i { x with layerSt := (List.range (s.layers i)).foldl (fun m l =>
    let y := s.layer i l
    if 3 < y.state ∨ s.poisoned y.at_ 128 then m else sput (fun _ => none) m l (some (y.state, y.folds))) x.layerSt }

/-- Every entry checked: a bad one sets BAD_LAYER with a class B event (R182). -/
def State.checkLayers (s : State) (i : Nat) : State :=
  forEach (List.range (s.layers i)) s fun s l =>
    if s.badLayer i (s.layer i l) then (s.curvEvent i l 0 5 5).raise 2 St.internal .curv 5 pcieUid i else s

/-! ### Roots (R184, R185, Table 8.4) -/

/-- A root record. -/
structure RootRec where
  target : Nat
  resid : W32
  valid : Bool
  active : Nat
  suspects : Nat
deriving DecidableEq, Repr

def State.rootRec (s : State) (y : Layer) (g : Nat) : RootRec :=
  let a := y.recAt g
  { target := s.rd a 4, resid := BitVec.ofNat 32 (s.rd (a + 4) 4), valid := decide (s.rd (a + 0xC) 1 = 1),
    active := s.rd (a + 0xD) 1 % 2, suspects := s.rd (a + 0xE) 1 }

/-- Whether late roots hold the commit: LATE is 0, or strict mode (R184, R283). -/
def State.lateWaits (s : State) (i : Nat) : Bool := !s.bit (R.curvCfg i) 2 || s.bit R.devMode 0

/-- The blocks of an instance that have a record, in ascending (layer, block). -/
def State.recordedBlocks (s : State) (i : Nat) : List (Nat × Nat) :=
  (s.recordedLayers i).flatMap fun l => (List.range (s.layer i l).blocks).map fun g => (l, g)

/-- The blocks whose record carries the target of the commit that makes `c`, in ascending (layer, block);
with `late`, also the blocks kept back at an earlier commit whose root is valid by now (R184). A record that an
uncorrectable word makes unreadable is not judged (R303). -/
def State.rootsDue (s : State) (i : Nat) (c : W64) (late : Bool) : List (Nat × Nat) :=
  (s.recordedBlocks i).filter fun e =>
    let y := s.layer i e.1
    let r := s.rootRec y e.2
    !s.poisoned (y.recAt e.2) 32 &&
      (decide (r.target = c.toNat % 2 ^ 32) || (late && (s.inst i).lateRoots.contains e && r.valid))

/-- The blocks that hold the commit making `c` (R184). -/
def State.rootsMissing (s : State) (i : Nat) (c : W64) : List (Nat × Nat) :=
  if s.bit (R.curvCfg i) 0 && s.lateWaits i then
    (s.rootsDue i c false).filter fun e => !(s.rootRec (s.layer i e.1) e.2).valid
  else []

/-- A suspect root: the previous one stays active (R184). -/
def State.suspectRoot (s : State) (i l g : Nat) : State :=
  let y := s.layer i l
  let n := min 255 ((s.rootRec y g).suspects + 1)
  let s := ((s.wr (y.recAt g + 0xE) 1 n).curvEvent i l g 0 1).incReg (R.suspectCount i)
  let s := s.raise 2 St.rootSuspect .curv 0 pcieUid i
  let s := s.setGate i { s.gate i with suspectRoot := true }
  let lim := s.fld (R.rootLim i) 0 8
  if lim ≠ 0 ∧ n = lim then (s.setBit (R.curvStat i) 3 true).raise 1 St.rootSuspect .curv 3 pcieUid i else s

/-- A root that came late or is not dispatched because it is outstanding: LATE_ROOT (R180, R184). -/
def State.lateRoot (s : State) (i l g : Nat) : State :=
  ((s.curvEvent i l g 1 2).incReg (R.lateCount i)).raise 3 St.internal .curv 1 pcieUid i

/-- A block judged at its commit; `forced` treats a root that is not valid as suspect (R184). -/
def State.judgeRoot (s : State) (i l g : Nat) (forced : Bool) : State :=
  let y := s.layer i l
  let r := s.rootRec y g
  let x := s.inst i
  if r.valid then
    let s := s.setInst i { x with lateRoots := x.lateRoots.erase (l, g) }
    if finite32 r.resid && !gt32 r.resid (BitVec.ofNat 32 (s.reg (R.residMax i)).toNat) then
      let z := s.inst i
      let seen := if z.rooted.contains (l, g) then z.rooted else z.rooted ++ [(l, g)]
      let check : W64 := BitVec.ofNat 64 (s.rd (y.recAt g + 0x10) 8)
      let s := s.setInst i { z with rooted := seen, checks := sput (fun _ => none) z.checks (512 * l + g) (some check) }
      (s.wr (y.recAt g + 0xD) 1 (1 - r.active)).wr (y.recAt g + 0xE) 1 0
    else s.suspectRoot i l g
  else if forced then
    ((s.suspectRoot i l g).curvEvent i l g 4 4).raise 1 St.rootSuspect .curv 4 pcieUid i
  else (s.setInst i { x with lateRoots := x.lateRoots ++ [(l, g)] }).lateRoot i l g

/-- A class A record of an uncorrectable word that the curvature unit met (R303). -/
def State.curvMemory (s : State) (i w : Nat) : State :=
  s.raise 1 St.memoryUncorrectable .curv (openDetail .curv St.memoryUncorrectable) (memUid w) i 0xFFFF (memUid w)
    (s.ctxRegs (R.curvStat i) (R.curvLast i))

/-- Activations at the commit that makes `c` (R181 action 1, R184). -/
def State.activateRoots (s : State) (i : Nat) (c : W64) (forced : Bool) : State :=
  let met := if s.bad.isEmpty then [] else
    (s.recordedBlocks i).filterMap fun e => s.badWord ((s.layer i e.1).recAt e.2) 32
  let s := forEach met s fun s w => s.curvMemory i w
  forEach (s.rootsDue i c true) s fun s e => s.judgeRoot i e.1 e.2 forced

/-! ### The fold (R171, R172) -/

/-- The new value of a factor element from its old one and its stage element (R171). -/
def foldElem (cold : Bool) (beta omb scale f st : W32) : W32 :=
  let g := mul32 st scale
  if cold then g else add32 (mul32 beta f) (mul32 omb g)

/-- Whether the fold of a layer overwrites its factors (R171). -/
def Layer.cold (y : Layer) : Bool := decide (y.state = 0 ∨ y.state = 3)

/-- The new value of an element on or above the diagonal of block g (R171). -/
def State.foldAt (s : State) (y : Layer) (g : Nat) (p : Nat × Nat) : W32 :=
  let at_ := y.off g + 4 * (p.1 * y.size g + p.2)
  foldElem y.cold y.beta (sub32 one32 y.beta) (if g < y.leftBlocks then y.scaleL else y.scaleR)
    (s.rf (y.factor + at_)) (s.rf (y.stage + at_))

/-- The new values of block g, its lower triangle the mirror of its upper one (R171). -/
def State.foldBlock (s : State) (y : Layer) (g : Nat) : List W32 :=
  (grid (y.size g) (y.size g)).map fun p => s.foldAt y g (min p.1 p.2, max p.1 p.2)

/-- What the fold of block g reads: rows from the diagonal on, of the stage, and of the factor unless it is overwritten
(R169, R171). -/
def Layer.foldReads (y : Layer) (g : Nat) : List (Nat × Nat) :=
  let n := y.size g
  let rows (a : Nat) : List (Nat × Nat) := (List.range n).map fun r => (a + y.off g + 4 * (r * n + r), 4 * (n - r))
  rows y.stage ++ if y.cold then [] else rows y.factor

/-- A block folded: written whole with its mirror, or left unchanged where a new value is not finite. One that
meets an uncorrectable word is left unchanged with a class A record (R303). -/
def State.foldOne (s : State) (i l g : Nat) : State :=
  let y := s.layer i l
  let a := y.factor + y.off g
  let met : Option Nat := if s.bad.isEmpty then none
    else s.badAmong (y.foldReads g) false <|> s.badAmong [(a, 4 * y.size g ^ 2)] true
  match met with
  | some w => s.curvMemory i w
  | none =>
    let v := s.foldBlock y g
    if v.all finite32 then s.write a (v.flatMap fun x => leBytes 4 x.toNat)
    else (s.curvEvent i l g 2 3).raise 2 St.internal .curv 2 pcieUid i

/-- A layer's STATE and FOLDS after its fold: COLD or STALE becomes WARMING (R172). -/
def State.countFold (s : State) (i l : Nat) : State :=
  let y := s.layer i l
  let s := s.wr (y.at_ + 0x12) 2 (min 65535 (y.folds + 1))
  if y.state = 0 ∨ y.state = 3 then s.wr (y.at_ + 3) 1 1 else s

/-- Whether a block has an active root: one that some commit has made active (R172, log 24). -/
def State.rooted (s : State) (i l g : Nat) : Bool := (s.inst i).rooted.contains (l, g)

/-- The blocks of a layer that have an active root: all of a READY one (R172, R304). -/
def State.hasRoot (s : State) (i l g : Nat) : Bool := s.rooted i l g || decide (s.layerState i l = 2)

/-- CHECK of a block's active root: as noted when it was made active, else what its record holds (R304). -/
def State.rootCheck (s : State) (i l g : Nat) : W64 :=
  (sget (fun _ => none) (s.inst i).checks (512 * l + g)).getD (BitVec.ofNat 64 (s.rd ((s.layer i l).recAt g + 0x10) 8))

/-- READY at the first commit at which every block of the layer has an active root (R172). -/
def State.readyLayer (s : State) (i l : Nat) : State :=
  let y := s.layer i l
  if y.state = 1 ∧ (List.range y.blocks).all fun g => s.rooted i l g then s.wr (y.at_ + 3) 1 2 else s

/-- The folds of a commit (R181 action 2). -/
def State.foldLayers (s : State) (i : Nat) : State :=
  let live := s.liveLayers i
  let s := forEach live s fun s l =>
    ((forEach (List.range (s.layer i l).blocks) s fun s g => s.foldOne i l g).countFold i l).readyLayer i l
  if live.isEmpty then s else s.incReg (R.foldCount i)

/-! ### The refresh wheel (R180, R183) -/

/-- Whether block g of a layer meets the first three conditions of R180 at the commit that makes `c`. -/
def State.blockDue (s : State) (i : Nat) (y : Layer) (g : Nat) (c : W64) : Bool :=
  decide (((c.toNat : Int) - y.offset - g) % y.w = 0) && decide (s.fld (R.rootLim i) 8 16 ≤ y.folds) &&
    decide (s.fld (R.curvDispatch i) 12 13 ≠ 0)

/-- A due block: snapshot, record and queue; one that is outstanding is counted late (R180). -/
def State.dueBlock (s : State) (i l g : Nat) (c : W64) : State :=
  let y := s.layer i l
  let x := s.inst i
  if (x.jobs ++ x.outstanding).any fun j => decide (j.layer = l ∧ j.block = g) then s.lateRoot i l g
  else
    let n := 4 * y.size g ^ 2
    match s.badAmong [(y.factor + y.off g, n)] false with
    | some w => s.curvMemory i w
    | none =>
      let s := s.write (y.snap + y.off g) (s.rbs (y.factor + y.off g) n)
      let s := (s.wr (y.recAt g) 4 ((c.toNat + y.lead) % 2 ^ 32)).wr (y.recAt g + 0xC) 1 0
      s.setInst i { x with jobs := x.jobs ++ [{ layer := l, block := g }], lateRoots := x.lateRoots.erase (l, g) }

/-- The dues of a commit (R181 action 3). -/
def State.dueBlocks (s : State) (i : Nat) (c : W64) : State :=
  forEach (s.liveLayers i) s fun s l =>
    let y := s.layer i l
    forEach ((List.range y.blocks).filter fun g => s.blockDue i y g c) s fun s g => s.dueBlock i l g c

/-- The curvature actions of a commit, in the order of R181, over entries whose STATE and FOLDS are the update unit's own
(R182). -/
def State.curvActions (s : State) (i : Nat) (c : W64) (forced : Bool) : State :=
  if s.bit (R.curvCfg i) 0 then
    (((((s.restateLayers i).checkLayers i).activateRoots i c forced).foldLayers i).dueBlocks i c).keepLayers i
  else s

/-- Whether the commit that makes `c` would write to a range of memory: folds, activations, STATE and
FOLDS, snapshots and records, ACTIVE and NEWEST, and the loss-scale word (R321). -/
def State.commitWrites (s : State) (i : Nat) (a n : Nat) : Bool :=
  let meets (b m : Nat) : Bool := decide (b < a + n ∧ a < b + m)
  (s.bit (R.curvCfg i) 0 &&
    (((List.range (s.layers i)).any fun l => meets (s.layerAt i l) 128) ||
      ((s.recordedLayers i).any fun l => meets (s.layer i l).record (32 * (s.layer i l).blocks)) ||
      (s.liveLayers i).any fun l =>
        let y := s.layer i l
        meets y.factor y.total || meets y.snap y.total)) ||
  ((s.gate i).updated.any fun k => meets (s.shard i k).at_ 128) ||
  (s.ownsHbm i (s.reg (R.lscaleAddr i)).toNat 4 && meets (s.reg (R.lscaleAddr i)).toNat 4)

/-! ### Dispatch (R183) -/

/-- The cluster for the next dispatch: the fixed one once it is free, or with stealing the lowest-numbered
free cluster of the group. -/
def State.rootCluster (s : State) (i : Nat) : Option Nat :=
  let first := s.fld (R.curvDispatch i) 0 12
  let count := s.fld (R.curvDispatch i) 12 13
  let x := s.inst i
  let free (cl : Nat) : Bool := s.owns i cl && !x.outstanding.any fun j => decide (j.cl = cl)
  if count = 0 then none
  else if s.bit (R.curvCfg i) 1 && !s.bit R.devMode 0 then ((List.range count).map (first + ·)).find? free
  else
    let cl := first + x.dispatched % count
    if free cl then some cl else none

/-- The 64 bytes of a dispatch word (Table 8.3). -/
def State.dispatchWord (s : State) (y : Layer) (l g : Nat) : List Byte :=
  let r := s.rootRec y g
  leBytes 2 l ++ leBytes 2 g ++ leBytes 4 r.target ++ leBytes 8 (y.snap + y.off g) ++ leBytes 8 (y.rootAt g (1 - r.active)) ++
  leBytes 8 (y.recAt g) ++ leBytes 2 (y.size g) ++ leBytes 1 y.p ++ leBytes 1 y.method ++ leBytes 1 y.iter ++ zeros 3 ++
  leBytes 4 y.lambda.toNat ++ zeros 20

/-- Whether one queued block comes before another: ascending (layer, block). -/
def RootJob.le (a b : RootJob) : Bool := decide (a.layer < b.layer ∨ (a.layer = b.layer ∧ a.block ≤ b.block))

/-- ROOT_DISPATCH: the first queued block goes to a free cluster of the root group: its dispatch word is
written and 256 added to counter 63 (R183). -/
def rootDispatch (i : Nat) (s : State) : State :=
  let x := s.inst i
  match (x.jobs.mergeSort RootJob.le), s.rootCluster i with
  | j :: r, some cl =>
    let y := s.layer i j.layer
    let s := s.setInst i { x with jobs := r, outstanding := x.outstanding ++ [{ j with cl := cl }], dispatched := x.dispatched + 1 }
    (s.write (cbBase cl + 0x3FFFC0) (s.dispatchWord y j.layer j.block)).addCnt cl 63 256 (gangUid cl 3) 4 false
  | _, _ => s
def execRootDispatch (i : Nat) (s : State) : Host.Outcome State Fault Refusal := .next (rootDispatch i s)

/-- Records whose TARGET has not been reached lose VALID when their instance is reset; queued and
outstanding roots are discarded (R185). -/
def State.resetRoots (s : State) (i : Nat) : State :=
  let c := (s.reg (R.updCommits i)).toNat
  let s := forEach (s.recordedBlocks i) s fun s e =>
    let y := s.layer i e.1
    let d := ((s.rootRec y e.2).target + 2 ^ 32 - c % 2 ^ 32) % 2 ^ 32
    if 0 < d ∧ d ≤ 65535 then s.wr (y.recAt e.2 + 0xC) 1 0 else s
  s.setInst i { s.inst i with jobs := [], outstanding := [], dispatched := 0, lateRoots := [] }

end Sys2Proof.Machine
end

