-- ==== Sys2Proof/Machine/HostCmds.lean ====
section
/-! DEFINITION. Host commands that move data, signal, wait, manage HBM buffers, take counter snapshots
and export shards (R155 to R157, R208, R236, R237, R268, R337). -/

namespace Sys2Proof.Machine

/-! ### Transfers and collectives -/

/-- The descriptor that a command names: 64 aligned bytes of an owned HBM buffer (Table 11.3), or the status
that refuses it, the lower of two (R12); an uncorrectable word is never delivered (R303). -/
def State.cmdDesc (s : State) (c : Cmd) : Except (Nat × Option Nat) (List Byte) :=
  let a := c.fld 0x10 8
  if a % 64 ≠ 0 then .error (St.badDescriptor, none)
  else if hbmTop < a + 64 ∨ !s.ownsHbm c.inst a 64 then .error (St.ownership, none)
  else
    match s.bad.find? fun w => decide (w < a + 64 ∧ a < w + 8) with
    | some w => .error (St.memoryUncorrectable, some w)
    | none => .ok (s.rbs a 64)

/-- A command refused with a status; an uncorrectable word is reported (R303). -/
def State.refuse (s : State) (c : Cmd) (e : Nat × Option Nat) : State :=
  match e.2 with
  | none => s.complete c e.1
  | some w =>
    (s.raise 1 e.1 .mem (openDetail .mem e.1) (memUid w) c.inst c.id (memUid w) (s.ctxRegs R.poolErr R.poolLast)).complete c e.1

/-- A command that starts work, turned away by its descriptor: an uncorrectable word fails the step's contribution (R302). -/
def State.refuseWork (s : State) (c : Cmd) (e : Nat × Option Nat) : State :=
  (match e.2 with
    | none => s
    | some w => s.failContribution c.inst c.step (memUid w)).refuse c e

/-- COPY: runs a transfer descriptor from HBM; the faults of R100 map to status codes (Table 11.3). -/
def copy (q : Nat) (s : State) : State :=
  match s.nextOf q Op.copy fun _ => true with
  | none => s
  | some c =>
    let s := s.startCmd c
    match s.cmdDesc c with
    | .error e => s.refuseWork c e
    | .ok b =>
      match s.checkX c.inst none b with
      | .error f => s.complete c (faultCode f)
      | .ok d => s.postX c.inst (.cmd c) d c.step (0, false)
def execCopy (q : Nat) (s : State) : Host.Outcome State Fault Refusal := .next (copy q s)

/-- COLLECTIVE: contributes from HBM to a collective on the module level alone (R267, R268). -/
def collective (q : Nat) (s : State) : State :=
  match s.nextOf q Op.collective fun _ => true with
  | none => s
  | some c =>
    let s := s.startCmd c
    match s.cmdDesc c with
    | .error e => s.refuseWork c e
    | .ok b =>
      match s.checkC c.inst none b with
      | .error f =>
        if f = 0x100 then (s.sticky .coll (R.collStat c.inst) 3 St.sequenceLimit c.inst pcieUid c.id).complete c St.sequenceLimit
        else s.complete c (faultCode f)
      | .ok (d, src) => s.postC c.inst (.cmd c) 0 d src c.step (0, false)
def execCollective (q : Nat) (s : State) : Host.Outcome State Fault Refusal := .next (collective q s)

/-! ### SIGNAL (R237, R242) -/

def Cmd.kind (c : Cmd) : Nat := c.fld 0x10 1
def Cmd.idx (c : Cmd) : Nat := c.fld 0x12 2
def Cmd.cl (c : Cmd) : Nat := c.fld 0x14 2
def Cmd.val (c : Cmd) : Nat := c.fld 0x16 2

/-- Whether an instance owns what a SIGNAL or WAIT of a kind names: a counter, a flag or a barrier. -/
def State.ownsObj (s : State) (c : Cmd) : Bool :=
  match c.kind with
  | 0 => decide (c.idx < 64) && s.owns c.inst c.cl
  | 1 => s.ownsFlag c.inst c.idx
  | 2 => if c.opcode = Op.signal then s.ownsFlag c.inst c.idx else s.ownsBar c.inst c.idx
  | 3 => if c.opcode = Op.signal then s.ownsBar c.inst c.idx else true
  | _ => false

/-- A SIGNAL that passes its checks is applied and completes (R237). -/
def signalCmd (q : Nat) (p : Nat → Bool) (go : State → Cmd → State) (s : State) : State :=
  match s.nextOf q Op.signal fun c => p c.kind with
  | none => s
  | some c =>
    let s := s.startCmd c
    if 3 < c.kind then s.complete c St.badDescriptor
    else if !s.ownsObj c then s.complete c St.ownership
    else (go s c).complete c St.ok

/-- SIGNAL of kind 0 adds VAL to a counter; a kind that Table 11.3 does not name is malformed. -/
def signalCounter (q : Nat) : State → State :=
  signalCmd q (fun k => decide (k = 0 ∨ 3 < k)) fun s c => s.addCnt c.cl c.idx c.val pcieUid 5 false
def execSignalCounter (q : Nat) (s : State) : Host.Outcome State Fault Refusal := .next (signalCounter q s)

/-- SIGNAL of kind 1 sets a flag. -/
def signalFlagSet (q : Nat) : State → State := signalCmd q (· = 1) fun s c => s.putFlag c.idx true 5 false
def execSignalFlagSet (q : Nat) (s : State) : Host.Outcome State Fault Refusal := .next (signalFlagSet q s)

/-- SIGNAL of kind 2 clears a flag. -/
def signalFlagClear (q : Nat) : State → State := signalCmd q (· = 2) fun s c => s.putFlag c.idx false 5 false
def execSignalFlagClear (q : Nat) (s : State) : Host.Outcome State Fault Refusal := .next (signalFlagClear q s)

/-- SIGNAL of kind 3 arrives at a barrier. -/
def signalBarrier (q : Nat) : State → State := signalCmd q (· = 3) fun s c => s.arrive c.idx pcieUid c.inst 5 false
def execSignalBarrier (q : Nat) (s : State) : Host.Outcome State Fault Refusal := .next (signalBarrier q s)

/-! ### WAIT (R233, R237) -/

/-- A WAIT that passes its checks completes if it is satisfied, and otherwise is left pending. -/
def waitCmd (q : Nat) (p : Nat → Bool) (s : State) : State :=
  match s.nextOf q Op.wait fun c => p c.kind with
  | none => s
  | some c =>
    let s := s.startCmd c
    if 3 < c.kind then s.complete c St.badDescriptor
    else if !s.ownsObj c then s.complete c St.ownership
    else if s.waitMet c then s.finishWait c else s

/-- WAIT of kind 0: a counter at least VAL, then VAL is subtracted. -/
def waitCounter (q : Nat) : State → State := waitCmd q fun k => decide (k = 0 ∨ 3 < k)
def execWaitCounter (q : Nat) (s : State) : Host.Outcome State Fault Refusal := .next (waitCounter q s)

/-- WAIT of kind 1: a flag set. -/
def waitFlag (q : Nat) : State → State := waitCmd q (· = 1)
def execWaitFlag (q : Nat) (s : State) : Host.Outcome State Fault Refusal := .next (waitFlag q s)

/-- WAIT of kind 2: a barrier's PHASE different from BEAT[31:0]. -/
def waitBarrier (q : Nat) : State → State := waitCmd q (· = 2)
def execWaitBarrier (q : Nat) (s : State) : Host.Outcome State Fault Refusal := .next (waitBarrier q s)

/-- WAIT of kind 3: the beat counter at least BEAT. -/
def waitBeat (q : Nat) : State → State := waitCmd q (· = 3)
def execWaitBeat (q : Nat) (s : State) : Host.Outcome State Fault Refusal := .next (waitBeat q s)

/-- WAIT_TIMEOUT: a pending WAIT whose TIMEOUT has passed completes with OK and RESULT_LO 1 (R237). -/
def waitTimeout (q : Nat) (s : State) : State :=
  match (s.acceptedOf q).find? fun c => decide (c.opcode = Op.wait) && c.started.isSome with
  | none => s
  | some c =>
    let t := c.fld 0x20 4
    if t ≠ 0 ∧ t ≤ (s.beat - c.started.getD 0).toNat then s.completeWith c St.ok 1 0 none else s
def execWaitTimeout (q : Nat) (s : State) : Host.Outcome State Fault Refusal := .next (waitTimeout q s)

/-! ### HBM buffers (R155 to R158) -/

/-- Granules outside the buddy region. -/
def State.poolGranules (s : State) : Nat := 196608 - 512 * s.fld R.buddyCfg 0 7
/-- Granules that an instance's buffers hold. -/
def State.heldGranules (s : State) (i : Nat) : Nat :=
  s.buffers.foldl (fun a b => if b.owner = i then a + b.granules else a) 0

/-- The lowest-addressed run of `n` free granules, as its first granule. -/
def State.freeRun (s : State) (n : Nat) : Option Nat :=
  let used := s.buffers.map fun b => (b.base / 2 ^ 21, b.granules)
  let cands := (0 :: used.map fun u => u.1 + u.2).mergeSort
  cands.find? fun a => decide (a + n ≤ s.poolGranules) && used.all fun u => decide (a + n ≤ u.1 ∨ u.1 + u.2 ≤ a)

/-- The lowest free buffer index. -/
def State.freeIndex (s : State) : Option Nat :=
  ((List.range (s.buffers.length + 1)).find? fun j => !s.buffers.any fun b => decide (b.idx = j)).filter (· < 65536)

/-- An ALLOC that cannot be met (R155). -/
def State.noSpace (s : State) (c : Cmd) : State :=
  (s.sticky .mem R.poolErr 2 St.badDescriptor c.inst pcieUid c.id).complete c St.badDescriptor

/-- ALLOC: takes the lowest free buffer index and the lowest run of free granules within the instance's
share, or completes with BAD_DESCRIPTOR and NO_SPACE (R155). -/
def alloc (q : Nat) (s : State) : State :=
  match s.nextOf q Op.alloc fun _ => true with
  | none => s
  | some c =>
    let s := s.startCmd c
    let n := c.fld 0x10 4
    let quota := s.fld (R.instQuota c.inst) 0 18
    if n = 0 then s.complete c St.badDescriptor
    else
      match s.freeIndex, s.freeRun n with
      | some j, some a =>
        if quota < s.heldGranules c.inst + n then s.noSpace c
        else
          let g := sget (fun _ => 0) s.bufGen j
          let b : Buffer := { idx := j, owner := c.inst, ownerGen := (s.reg (R.instGen c.inst)).truncate 32, base := a * 2 ^ 21, granules := n }
          { s with buffers := s.buffers ++ [b] }.completeWith c St.ok (j + g % 16 * 2 ^ 16) (BitVec.ofNat 64 (a * 2 ^ 21)) none
      | _, _ => s.noSpace c
def execAlloc (q : Nat) (s : State) : Host.Outcome State Fault Refusal := .next (alloc q s)

/-- A refused FREE: the sticky bit, MEM_POOL_LAST and a class B event that names the issuing instance (R157). -/
def State.refuseFree (s : State) (c : Cmd) (bit code owner idx : Nat) : State :=
  let s := (s.setBit R.poolErr bit true).setReg R.poolLast (BitVec.ofNat 64 (c.inst + owner % 64 * 2 ^ 8 + idx % 65536 * 2 ^ 16))
  (s.raise 2 code .mem bit pcieUid c.inst c.id).complete c code

/-- FREE: checks the handle and the owner; the buffer then stops being owned at once, and the command
completes when no transfer is in flight into or out of it (R157). -/
def free (q : Nat) (s : State) : State :=
  match s.nextOf q Op.free fun _ => true with
  | none => s
  | some c =>
    let s := s.startCmd c
    let h := c.fld 0x10 4
    let j := h % 65536
    match s.buffers.find? fun b => b.idx = j with
    | none => s.refuseFree c 0 St.doubleFree (sget (fun _ => 0) s.lastOwner j) j
    | some b =>
      if b.freeing ∨ h / 65536 % 16 ≠ sget (fun _ => 0) s.bufGen j % 16 then s.refuseFree c 0 St.doubleFree b.owner j
      else if b.owner ≠ c.inst ∨ b.ownerGen ≠ (s.reg (R.instGen c.inst)).truncate 32 then
        s.refuseFree c 1 St.ownership b.owner j
      else
        let mark (x : Buffer) : Buffer := if x.idx = j then { x with freeing := true, freer := some c } else x
        { s with buffers := s.buffers.map mark }
def execFree (q : Nat) (s : State) : Host.Outcome State Fault Refusal := .next (free q s)

/-- Whether a side of a transfer lies in a buffer. -/
def Side.inBuffer (x : Side) (b : Buffer) : Bool :=
  decide (x.space = 0 ∧ ¬x.remote ∧ x.span.1 < (b.base + b.granules * 2 ^ 21 : Nat) ∧ (b.base : Int) < x.span.2)

/-- Whether a transfer in flight goes into or out of a buffer. -/
def State.inFlight (s : State) (b : Buffer) : Bool :=
  s.xfers.any fun x => !x.dropped && (x.desc.src.inBuffer b || x.desc.dst.inBuffer b)

/-- A buffer's granules return to the pool, and its index generation increments (R157 step 3). -/
def State.dropBuffer (s : State) (b : Buffer) : State :=
  { s with buffers := s.buffers.filter fun x => decide (x.idx ≠ b.idx),
           bufGen := sput (fun _ => 0) s.bufGen b.idx ((sget (fun _ => 0) s.bufGen b.idx + 1) % 16),
           lastOwner := sput (fun _ => 0) s.lastOwner b.idx b.owner }

/-- FREE_COMPLETE: once every transfer into or out of a freed buffer has completed, its granules return to
the pool and the FREE completes (R157). -/
def freeComplete (idx : Nat) (s : State) : State :=
  match s.buffers.find? fun b => b.idx = idx with
  | none => s
  | some b =>
    if !b.freeing || s.inFlight b then s
    else
      match b.freer with
      | some c => (s.dropBuffer b).complete c St.ok
      | none => s.dropBuffer b
def execFreeComplete (idx : Nat) (s : State) : Host.Outcome State Fault Refusal := .next (freeComplete idx s)

/-! ### Data written for a command -/

/-- The memory address of a destination of a command: space 0 HBM, 2 host. -/
def destAt (space a : Nat) : Nat := if space = 2 then hostBase + a else a

/-- The code of a destination that may not be written: a space other than 0 and 2, a length below `n`, or HBM
that the instance does not own. -/
def State.destCode (s : State) (i space a len n : Nat) : Nat :=
  if space ≠ 0 ∧ space ≠ 2 then St.badDescriptor
  else if len < n then St.badDescriptor
  else if space = 0 ∧ !s.ownsHbm i a n then St.ownership
  else 0

/-- Bytes written for a command; a word covered in part that cannot be corrected stops it (R303). -/
def State.destWrite (s : State) (c : Cmd) (at_ : Nat) (b : List Byte) (result : W64) : State :=
  match s.bad.find? fun w => decide (w < at_ + b.length ∧ at_ < w + 8 ∧ ¬(at_ ≤ w ∧ w + 8 ≤ at_ + b.length)) with
  | some w => s.refuse c (St.memoryUncorrectable, some w)
  | none => (s.write at_ b).completeWith c St.ok 0 result none

/-! ### Counter snapshots (R337) -/

/-- A core record of a snapshot: header, then the records of engines 0 to 5 as they stood at the start of
the beat. -/
def State.coreRecord (s : State) (k : Nat) : List Byte :=
  let c := s.core k
  leBytes 4 (coreUid k 0 0).toNat ++ leBytes 4 c.cstat.toNat ++ leBytes 8 s.beat.toNat ++ zeros 48 ++
    (List.range 6).flatMap fun e => (sget (fun _ => ({} : EngRec)) c.engBeat e).bytes s.beatsCounted

/-- A cluster record of a snapshot. -/
def State.clusterRecord (s : State) (cl : Nat) : List Byte :=
  let u := s.cluster cl
  ((List.range 256).flatMap fun j => s.coreRecord (cl * 256 + j)) ++
    leBytes 4 (gangUid cl 0).toNat ++ leBytes 2 u.ttail ++ leBytes 2 u.thead ++ leBytes 4 u.tlost ++ leBytes 8 s.beat.toNat ++
    zeros 44 ++ u.engBeat.bytes s.beatsCounted ++ zeros 800

/-- COUNTER_SNAP: latches the counters of a cluster set as they stood at the start of the beat, and writes
one cluster record per cluster (R337). -/
def counterSnap (q : Nat) (s : State) : State :=
  match s.nextOf q Op.counterSnap fun _ => true with
  | none => s
  | some c =>
    let s := s.startCmd c
    let first := c.fld 0x10 2
    let count := c.fld 0x12 2
    let n := count * 263168
    let code := s.destCode c.inst (c.fld 0x14 1) (c.fld 0x18 8) (c.fld 0x20 8) n
    if count = 0 ∨ 4096 < count ∨ code = St.badDescriptor then s.complete c St.badDescriptor
    else if code ≠ 0 ∨ (List.range count).any fun j => !s.owns c.inst (first + j) then s.complete c St.ownership
    else s.destWrite c (destAt (c.fld 0x14 1) (c.fld 0x18 8))
      ((List.range count).flatMap fun j => s.clusterRecord (first + j)) 0
def execCounterSnap (q : Nat) (s : State) : Host.Outcome State Fault Refusal := .next (counterSnap q s)

/-! ### Shard export (R208) -/

/-- The tile checks of a row-major matrix of `size`-byte elements, per 64 × 64 tile in row-major order
(R101, R208). -/
def State.tileChecks (s : State) (a rows cols size : Nat) : List W64 :=
  (grid (cdiv rows 64) (cdiv cols 64)).map fun t =>
    let r := min 64 (rows - 64 * t.1)
    let w := min 64 (cols - 64 * t.2)
    crc64 0 ((List.range r).flatMap fun i => s.rbs (a + ((64 * t.1 + i) * cols + 64 * t.2) * size) (w * size))

/-- Bytes of an export: header, data, check list. -/
def Shard.exportLen (h : Shard) : Nat :=
  128 + h.rows * h.cols * h.wsize + 8 * (cdiv h.rows 64 * cdiv h.cols 64)

/-- C at which the committed version of a shard was committed (Table 9.6, log 23). -/
def State.shardCommit (s : State) (i n : Nat) : W64 :=
  let x := s.inst i
  sget (fun _ => if s.bit (R.updCfg i) 0 then x.baseC else s.reg (R.updCommits i)) x.shardC n

/-- The bytes that an export of a slot writes; `commits` is the C of the version exported (Table 9.6). -/
def State.exportBytes (s : State) (i n slot : Nat) (commits : W64) : List Byte :=
  let h := s.shard i n
  let a := h.wslot slot
  let len := h.rows * h.cols * h.wsize
  let data := s.rbs a len
  let checks := s.tileChecks a h.rows h.cols h.wsize
  [0x57, 0x46, 0x53, 0x48] ++ leBytes 2 1 ++ leBytes 1 h.format ++ zeros 1 ++ leBytes 4 h.tensor.toNat ++
  leBytes 4 checks.length ++ leBytes 4 h.grows ++ leBytes 4 h.gcols ++ leBytes 4 h.offRow ++ leBytes 4 h.offCol ++
  leBytes 4 h.rows ++ leBytes 4 h.cols ++ leBytes 8 commits.toNat ++ leBytes 8 128 ++ leBytes 8 (128 + len) ++
  sha256 data ++ leBytes 8 h.exportLen ++ zeros 24 ++ data ++ checks.flatMap fun x => leBytes 8 x.toNat

/-- EXPORT_SHARD: ACTIVE and the C of its version are read now, and the export reads that slot to the end (R208). -/
def exportShard (q : Nat) (s : State) : State :=
  match s.nextOf q Op.exportShard fun _ => true with
  | none => s
  | some c =>
    let s := s.startCmd c
    let n := c.fld 0x10 4
    let h := s.shard c.inst n
    if s.shards c.inst ≤ n then s.complete c St.badDescriptor
    else if let some w := s.badWord h.at_ 128 then s.refuse c (St.memoryUncorrectable, some w)
    else
      let code := s.destCode c.inst (c.fld 0x14 1) (c.fld 0x18 8) (c.fld 0x20 8) h.exportLen
      if code ≠ 0 then s.complete c code
      else
        let x := s.inst c.inst
        s.setInst c.inst { x with exports := x.exports ++ [{ cmd := c, shard := n, slot := h.active, c := s.shardCommit c.inst n }] }
def execExportShard (q : Nat) (s : State) : Host.Outcome State Fault Refusal := .next (exportShard q s)

/-- EXPORT_SHARD_COMPLETE: the oldest export of an instance has read its slot: header, data and check list
are written, and the command completes with the bytes written; posts held behind it may go on (R199, R208). -/
def exportShardComplete (i : Nat) (s : State) : State :=
  let x := s.inst i
  match x.exports with
  | [] => s
  | e :: r =>
    let s := s.setInst i { x with exports := r }
    let h := s.shard i e.shard
    match s.badAmong [(h.wslot e.slot, h.rows * h.cols * h.wsize)] false with
    | some w => s.refuse e.cmd (St.memoryUncorrectable, some w)
    | none =>
      s.destWrite e.cmd (destAt (e.cmd.fld 0x14 1) (e.cmd.fld 0x18 8)) (s.exportBytes i e.shard e.slot e.c)
        (BitVec.ofNat 64 h.exportLen)
def execExportShardComplete (i : Nat) (s : State) : Host.Outcome State Fault Refusal := .next (exportShardComplete i s)

end Sys2Proof.Machine
end

