-- ==== Sys2Proof/Machine/Ckpt.lean ====
section
/-! DEFINITION. The checkpoint engine (R318 to R332): the source's copy, the buddy's two slots, drains to host
storage, and restore. -/

namespace Sys2Proof.Machine

def State.setCkpt (s : State) (c : CkptSt) : State := { s with ckpt := c }

/-! ### Settings and slots (R318, R319) -/

/-- The instance that the CKPT block serves (R318). -/
def State.ckptInst (s : State) : Nat := s.fld R.ckptCfg 8 6
def State.ckptAxis (s : State) : Nat := s.fld R.buddyAxis 0 3
/-- The buddy region: its base and the bytes of one slot (R158, R319). -/
def State.slotLen (s : State) : Nat := s.fld R.buddyCfg 0 7 * 2 ^ 29
def State.slotAt (s : State) (n : Nat) : Nat := hbmTop - 2 * s.slotLen + n * s.slotLen

/-- Whether one of the settings of R318 forbids checkpoints. -/
def State.ckptIllegal (s : State) : Bool :=
  let i := s.ckptInst
  decide (3 < s.ckptAxis) || decide (s.jobExt i s.ckptAxis ≤ 1) || decide (s.slotLen = 0) || !s.bit R.ckptCfg 0 ||
  !s.bit (R.updCfg i) 0

/-- The coordinate of this module's buddy, one position further along the axis (R318). -/
def State.buddyCoord (s : State) : Nat :=
  let i := s.ckptInst
  s.atRel i s.coord s.ckptAxis ((s.myPos i s.ckptAxis + 1) % s.jobExt i s.ckptAxis)

/-- The coordinate of the module whose checkpoints this one holds. -/
def State.sourceCoord (s : State) : Nat :=
  let i := s.ckptInst
  let n := s.jobExt i s.ckptAxis
  s.atRel i s.coord s.ckptAxis ((s.myPos i s.ckptAxis + n - 1) % n)

/-- The checkpoint MAGIC of a marker (R324). -/
def markMagic : Nat := 0x4D434657
/-- The image's MAGIC (Table 15.1). -/
def imageMagic : Nat := 0x4B434657

/-- SEQ of a slot that is complete (R319). -/
def State.slotSeq (s : State) (n : Nat) : Option Nat :=
  if s.slotLen = 0 ∨ s.rd (s.slotAt n) 4 ≠ markMagic ∨ s.poisoned (s.slotAt n) 64 then none else some (s.rd (s.slotAt n + 4) 4)

/-- The newer complete slot, if any. -/
def State.newerSlot (s : State) : Option Nat :=
  match s.slotSeq 0, s.slotSeq 1 with
  | some a, some b => some (if a < b then 1 else 0)
  | some _, none => some 0
  | none, some _ => some 1
  | none, none => none

/-- C in a slot's marker. -/
def State.slotC (s : State) (n : Nat) : Nat := s.rd (s.slotAt n + 8) 8

/-- CKPT_SLOT0_C and CKPT_SLOT1_C read from the markers; 0 where incomplete. -/
def State.readSlots (s : State) : State :=
  forEach [0, 1] s fun s n =>
    s.setReg (R.ckptSlotC n) (match s.slotSeq n with | some _ => BitVec.ofNat 64 (s.slotC n) | none => 0)

/-! ### Images (Table 15.1) -/

/-- The header of an image. -/
structure CkptHead where
  full : Bool
  e : Nat
  clean : Nat
  c : W64
  s : W64
  blocks : Nat
  digest : W64
  regions : List (Nat × Nat × Option Nat)
  dataOff : Nat
deriving DecidableEq, Repr

/-- Bytes of header, region table and digest list before the data, which starts at the next 64 KiB. -/
def digestOff (regions : Nat) : Nat := 64 + 16 * regions
def dataOffset (regions blocks : Nat) : Nat := cdiv (digestOff regions + 8 * blocks) 65536 * 65536

/-- A region entry: address, length, and the shard of a shard slot. -/
def regionEntry (a l : Nat) : Nat × Nat × Option Nat :=
  if nbit a 63 then (a % 2 ^ 63, l % 2 ^ 32, some (nfield l 32 20)) else (a, l, none)
def entryBytes (r : Nat × Nat × Option Nat) : List Byte :=
  match r.2.2 with
  | none => leBytes 8 r.1 ++ leBytes 8 r.2.1
  | some n => leBytes 8 (r.1 + 2 ^ 63) ++ leBytes 8 (r.2.1 % 2 ^ 32 + n % 2 ^ 20 * 2 ^ 32)

/-- The header that image bytes hold, read by offset; none where they do not match Table 15.1. -/
def headOf (g : Nat → Nat → Nat) : Option CkptHead :=
  let n := g 0x38 4
  let l := (List.range n).map fun j => regionEntry (g (64 + 16 * j) 8) (g (72 + 16 * j) 8)
  let blocks := g 0x28 4
  if g 0 4 = imageMagic ∧ g 4 2 = 1 ∧ g 6 1 ≤ 1 ∧ (l.map fun r => cdiv r.2.1 65536).sum = blocks then
    some { full := decide (g 6 1 = 1), e := g 0xE 1, clean := g 0xF 1 + 256 * g 0x2C 1, c := BitVec.ofNat 64 (g 0x10 8),
           s := BitVec.ofNat 64 (g 0x18 8), blocks := blocks, digest := BitVec.ofNat 64 (g 0x30 8), regions := l,
           dataOff := dataOffset n blocks }
  else none

/-- The header of the image in a slot. -/
def State.slotHead (s : State) (n : Nat) : Option CkptHead := headOf fun o k => s.rd (s.slotAt n + 64 + o) k
/-- Bytes of the image in a slot. -/
def State.slotImageLen (s : State) (n : Nat) : Nat :=
  match s.slotHead n with
  | some h => h.dataOff + 65536 * h.blocks
  | none => 0

/-! ### What is saved (R320) -/

/-- The listed runtime regions of an instance (R320). -/
def State.ckptRegions (s : State) : List (Nat × Nat × Option Nat) :=
  let a := (s.reg R.ckptList).toNat
  (List.range (s.rd a 8)).map fun j => (s.rd (a + 8 + 16 * j) 8, s.rd (a + 16 + 16 * j) 8, none)

/-- The shard slots that ACTIVE names, weights before moments; slot 0 of the weights of a frozen shard (R320). -/
def State.ckptShards (s : State) (i : Nat) : List (Nat × Nat × Option Nat) :=
  (List.range (s.shards i)).flatMap fun n =>
    let h := s.shard i n
    let w := (h.wslot h.active, h.rows * h.cols * h.wsize, some n)
    if h.frozen then [w] else [w, (h.mslot h.active, h.mlen (s.selected i h), some n)]

/-- Block b of a run of areas: 64 KiB, the last block of an area filled up with zeros (log 26). -/
def State.areaBlock (s : State) (l : List (Nat × Nat × Option Nat)) (b : Nat) : List Byte :=
  match l with
  | [] => zeros 65536
  | r :: t =>
    let n := cdiv r.2.1 65536
    if b < n then
      let k := min 65536 (r.2.1 - 65536 * b)
      s.rbs (r.1 + 65536 * b) k ++ zeros (65536 - k)
    else s.areaBlock t (b - n)

/-- The first uncorrectable word of block b, if any. -/
def State.areaBad (s : State) (l : List (Nat × Nat × Option Nat)) (b : Nat) : Option Nat :=
  match l with
  | [] => none
  | r :: t =>
    let n := cdiv r.2.1 65536
    if b < n then s.badAmong [(r.1 + 65536 * b, min 65536 (r.2.1 - 65536 * b))] false else s.areaBad t (b - n)

/-! ### The zero-run code (R323) -/

def leadZeros : List Byte → Nat
  | [] => 0
  | b :: r => if b = 0 then leadZeros r + 1 else 0

/-- Run tokens for `n` groups of 16 zero bytes, the longest first. -/
def runTokens (n : Nat) : List Byte :=
  List.replicate (n / 128) 0xFF ++ if n % 128 = 0 then [] else [BitVec.ofNat 8 (0x7F + n % 128)]

/-- Literal bytes in tokens of at most 128. -/
def literals (b : List Byte) : List Byte :=
  (List.range (cdiv b.length 128)).flatMap fun j =>
    let g := (b.drop (128 * j)).take 128
    BitVec.ofNat 8 (g.length - 1) :: g

/-- The code of a run of bytes, `lit` holding the literal bytes seen so far in reverse. -/
def zeroRun : Nat → List Byte → List Byte → List Byte
  | 0, _, lit => literals lit.reverse
  | _, [], lit => literals lit.reverse
  | n + 1, b :: r, lit =>
    let z := leadZeros (b :: r)
    if 16 ≤ z then literals lit.reverse ++ runTokens (z / 16) ++ zeroRun n ((b :: r).drop (z / 16 * 16)) []
    else zeroRun n r (b :: lit)

def encodeRun (b : List Byte) : List Byte := zeroRun (b.length + 1) b []

def decodeRun : Nat → List Byte → List Byte
  | 0, _ => []
  | _, [] => []
  | n + 1, t :: r =>
    if t.toNat < 0x80 then r.take (t.toNat + 1) ++ decodeRun n (r.drop (t.toNat + 1))
    else zeros ((t.toNat - 0x7F) * 16) ++ decodeRun n r

/-- The exclusive or of two blocks. -/
def xorBytes (a b : List Byte) : List Byte := (a.zip b).map fun e => e.1 ^^^ e.2

/-! ### Messages (R324, Table 15.2) -/

/-- A CKPT message of this module's checkpoint. The copy itself (operations 1 to 4) leaves by port a of the buddy's axis
whatever way is shorter (R318, log 26). -/
def State.ckptSend (s : State) (dst op seq : Nat) (body : List Byte) : State :=
  let i := s.ckptInst
  s.sendBy (if op ≤ 4 then some s.ckptAxis else none) { s.header i Msg.ckpt 3 dst (s.reg (R.updStep i)) with
    seq := seq, payload := leBytes 1 op ++ zeros 3 ++ leBytes 4 seq ++ body }

/-- OP, SEQ and the rest of a CKPT payload. -/
def opOf (m : Message) : Nat := fieldAt m.payload 0 1
def seqOf (m : Message) : Nat := fieldAt m.payload 4 4
def bodyOf (m : Message) : List Byte := m.payload.drop 8

/-- The first delivered CKPT message among some operations, if it is of the wanted one: messages of one
direction are taken in order. RESTORE messages do not depend on the receiver's instance (R330, log 26). -/
def State.takeCkpt (s : State) (ops : List Nat) (op : Nat) (anyJob : Bool) (ok : Message → Bool) : Taken :=
  match s.inbox.find? fun m => decide (m.typ = Msg.ckpt) && ops.contains (opOf m) with
  | none => .none
  | some m =>
    if opOf m ≠ op then .none
    else if anyJob then (if ok m then .got m s.ckptInst (s.consume m) else .none)
    else
      match s.deliverTo m with
      | .got m i s' => if ok m then .got m i s' else .none
      | t => t

/-! ### The source (R320 to R322, R325, R326) -/

/-- Whether a trigger of R329 calls for a checkpoint at the commit that makes `c`. -/
def State.ckptCalled (s : State) (i : Nat) (c : W64) : Bool :=
  let every := s.fld R.ckptCfg 16 16
  let timer := (s.reg R.ckptTimer).toNat
  decide (i = s.ckptInst) && !s.ckptIllegal &&
    (decide (every ≠ 0 ∧ c.toNat % every = 0) || decide (timer ≠ 0 ∧ timer ≤ (s.beat - s.ckpt.lastCommitBeat).toNat) ||
      s.bit R.ckptStat 1 || !s.ckpt.requests.isEmpty)

/-- A checkpoint of the commit count `n` of this module that fails: its commands complete with RESULT n, FULL_NEXT and
FAILED are set, and a class B event is raised (R326, R328). -/
def State.ckptFail (s : State) (cmds : List Cmd) (n : W64) (code : Nat) : State :=
  let s := s.setCkpt { s.ckpt with src := none }
  let s := ((s.setBit R.ckptStat 0 true).setBit R.ckptStat 4 true).raise 2 code .ckpt 4 ckptUid s.ckptInst
  forEach cmds s fun s c => s.completeWith c code 0 n none

/-- The checkpoint that a commit begins: the areas are noted, the base copy checked, and BEGIN sent (R320, R322). The
commit beat saved is the one that the combined verdict carried (R276). -/
def State.ckptStart (s : State) (i : Nat) (commitBeat : W64) : State :=
  let l := s.ckptRegions ++ s.ckptShards i
  let blocks := (l.map fun r => cdiv r.2.1 65536).sum
  let cmds := s.ckpt.requests
  let s := s.setCkpt { s.ckpt with requests := [] }
  if !s.ownsHbm i (s.reg R.ckptBase).toNat (65536 * blocks) then s.ckptFail cmds (s.reg (R.updCommits i)) St.ownership
  else
    let full := s.bit R.ckptStat 0 || decide (blocks ≠ s.ckpt.prevBlocks) || decide (s.ckpt.seq = 0)
    let seq := s.ckpt.seq + 1
    let ds := (List.range blocks).map fun b => crc64 0 (s.areaBlock l b)
    let clean := s.fld (R.lscaleGrow i) 16 16
    let head := leBytes 4 imageMagic ++ leBytes 2 1 ++ leBytes 1 full.toNat ++ zeros 1 ++ leBytes 4 s.coord ++
      leBytes 2 (s.fld (R.collJob i) 0 16) ++ leBytes 1 (s.fld (R.lscale i) 0 8) ++ leBytes 1 clean ++
      leBytes 8 (s.reg (R.updCommits i)).toNat ++ leBytes 8 (s.reg (R.updStep i)).toNat ++ leBytes 8 commitBeat.toNat ++
      leBytes 4 blocks ++ leBytes 1 (clean / 256) ++ zeros 3 ++ leBytes 8 (crc64 0 (ds.flatMap fun d => leBytes 8 d.toNat)).toNat ++
      leBytes 4 l.length ++ zeros 4 ++ l.flatMap entryBytes
    let src : CkptSrc :=
      { seq := seq, full := full, regions := l, next := 0, blocks := blocks, c := s.reg (R.updCommits i), s := s.reg (R.updStep i),
        beat := commitBeat, e := s.fld (R.lscale i) 0 8, clean := clean, bytes := 8 + head.length, cmds := cmds }
    let s := (s.setBit R.ckptStat 0 false).setCkpt { s.ckpt with src := some src, seq := seq }
    s.ckptSend s.buddyCoord 1 seq head

/-- The digests and END, once every block has been read. -/
def State.ckptFinish (s : State) (c : CkptSrc) : State :=
  let n := 4096
  let parts := (List.range (cdiv c.digests.length n)).map fun j => (n * j, (c.digests.drop (n * j)).take n)
  let s := forEach parts s fun s p =>
    s.ckptSend s.buddyCoord 3 c.seq (leBytes 4 p.1 ++ p.2.flatMap fun d => leBytes 8 d.toNat)
  let bytes := c.bytes + (parts.map fun p => 12 + 8 * p.2.length).sum + 8
  (s.ckptSend s.buddyCoord 4 c.seq []).setCkpt { s.ckpt with src := some { c with ended := true, bytes := bytes } }

/-- The source engine reads one block: its digest is appended, the base copy updated, and the change sent if
there is one (R322). An uncorrectable word ends the copy (R303). -/
def State.ckptReadBlock (s : State) : State :=
  match s.ckpt.src with
  | none => s
  | some c =>
    if c.ended then s
    else if c.next = c.blocks then s.ckptFinish c
    else
      let at_ := (s.reg R.ckptBase).toNat + 65536 * c.next
      match (s.areaBad c.regions c.next).or (if c.full then none else s.badAmong [(at_, 65536)] false) with
      | some w =>
        (s.raise 1 St.memoryUncorrectable .ckpt (openDetail .ckpt St.memoryUncorrectable) (memUid w) s.ckptInst).ckptFail c.cmds c.c
          St.memoryUncorrectable
      | none =>
        let x := s.areaBlock c.regions c.next
        let p := if c.full then zeros 65536 else s.rbs at_ 65536
        let d := xorBytes x p
        let s := s.write at_ x
        let code := encodeRun d
        let changed := d.any (· ≠ 0)
        let rec_ := leBytes 4 c.next ++ leBytes 4 code.length ++ code
        let c : CkptSrc := { c with next := c.next + 1, digests := c.digests ++ [crc64 0 x], bytes := c.bytes + if changed then 8 + rec_.length else 0 }
        let s := s.setCkpt { s.ckpt with src := some c }
        let s := if changed then s.ckptSend s.buddyCoord 2 c.seq rec_ else s
        if c.next = c.blocks then s.ckptFinish c else s

/-- Whether a commit has to wait for the checkpoint engine: it would write a listed region not read yet, or it
calls for a checkpoint while one is under way (R321). -/
def State.ckptHolds (s : State) (i : Nat) (called : Bool) : Bool :=
  decide (i = s.ckptInst) &&
    match s.ckpt.src with
    | none => false
    | some c => called || c.unread.any fun r => r.2.2.isNone && s.commitWrites i r.1 r.2.1

/-- CKPT_ACK: the copy is complete at the buddy: CKPT_LAST_C is set, and the commands that caused it complete (R325). -/
def ckptAck (s : State) : State :=
  match s.takeCkpt [5] 5 false fun _ => true with
  | .none => s
  | .dropped s => s
  | .got m _ s =>
    match s.ckpt.src with
    | none => s
    | some c =>
      if seqOf m ≠ c.seq ∨ !c.ended then s
      else
        let s := s.setCkpt { s.ckpt with src := none, prevBlocks := c.blocks, lastCommitBeat := c.beat }
        let s := ((s.setReg R.ckptLastC c.c).incReg R.ckptCount).setReg R.ckptBytes (BitVec.ofNat 64 c.bytes)
        let s := s.setBit R.ckptStat 1 false
        forEach c.cmds s fun s q => s.completeWith q St.ok 0 c.c none
def execCkptAck (s : State) : Host.Outcome State Fault Refusal := .next (ckptAck s)

/-! ### The buddy (R325, R326) -/

/-- The incoming slot given up: its marker stays zero, DISCARDED is set with a class B event (R326). -/
def State.ckptDiscard (s : State) : State :=
  match s.ckpt.inc with
  | none => s
  | some _ => ((s.setCkpt { s.ckpt with inc := none }).setBit R.ckptStat 2 true).raise 2 St.linkFailed .ckpt 2 ckptUid s.ckptInst

/-- The incoming slot: the one that is not the newer complete one (R325). -/
def State.incomingSlot (s : State) : Nat :=
  match s.newerSlot with
  | some 0 => 1
  | _ => 0

/-- Whether a drain reads a slot (R327). -/
def State.drains (s : State) (n : Nat) : Bool :=
  match s.ckpt.drain with
  | some d => decide (d.2 = n)
  | none => false

/-- CKPT_BEGIN: the buddy zeroes the incoming slot's marker, before anything else, and writes the header; an image larger
than a slot is refused with ABORT. A BEGIN that would overwrite a slot being drained waits (R325 to R327). -/
def ckptBegin (s : State) : State :=
  match s.takeCkpt [1, 2, 3, 4] 1 false fun _ => !s.drains s.incomingSlot with
  | .none => s
  | .dropped s => s
  | .got m _ s =>
    let s := s.ckptDiscard
    let b := bodyOf m
    let n := s.incomingSlot
    let s := if s.slotLen = 0 then s else (s.write (s.slotAt n) (zeros 64)).setReg (R.ckptSlotC n) 0
    match headOf fun o k => fieldAt b o k with
    | none => s
    | some h =>
      if s.slotLen < 64 + h.dataOff + 65536 * h.blocks then
        ((s.setBit R.ckptStat 3 true).raise 3 St.badDescriptor .ckpt 3 ckptUid s.ckptInst).ckptSend m.src 6 (seqOf m) [2]
      else
        let s := s.write (s.slotAt n + 64) b
        let c : CkptIn :=
          { seq := seqOf m, slot := n, full := h.full, blocks := h.blocks, dataOff := h.dataOff,
            digestOff := digestOff h.regions.length, last := s.beat }
        s.setCkpt { s.ckpt with inc := some c }
def execCkptBegin (s : State) : Host.Outcome State Fault Refusal := .next (ckptBegin s)

/-- The block of the newer complete slot that a delta stands on; zero when FULL or where there is none (R325). -/
def State.baseBlock (s : State) (c : CkptIn) (b : Nat) : List Byte :=
  if c.full then zeros 65536
  else
    match s.newerSlot with
    | none => zeros 65536
    | some n =>
      match s.slotHead n with
      | some h => if b < h.blocks then s.rbs (s.slotAt n + 64 + h.dataOff + 65536 * b) 65536 else zeros 65536
      | none => zeros 65536

/-- The BLOCK records of a payload. -/
def blockRecs : Nat → List Byte → List (Nat × List Byte)
  | 0, _ => []
  | n + 1, b =>
    if b.length < 8 then []
    else
      let l := fieldAt b 4 4
      (fieldAt b 0 4, (b.drop 8).take l) :: blockRecs n (b.drop (8 + l))

/-- CKPT_BLOCK: each record's block is reconstructed in the incoming slot (R325). -/
def ckptBlock (s : State) : State :=
  match s.takeCkpt [1, 2, 3, 4] 2 false fun _ => true with
  | .none => s
  | .dropped s => s
  | .got m _ s =>
    match s.ckpt.inc with
    | none => s
    | some c =>
      if c.seq ≠ seqOf m then s
      else
        let l := (blockRecs (bodyOf m).length (bodyOf m)).filter fun r => decide (r.1 < c.blocks)
        let s := forEach l s fun s r =>
          s.write (s.slotAt c.slot + 64 + c.dataOff + 65536 * r.1) (xorBytes (decodeRun r.2.length r.2) (s.baseBlock c r.1))
        s.setCkpt { s.ckpt with inc := some { c with got := c.got ++ l.map (·.1), last := s.beat } }
def execCkptBlock (s : State) : Host.Outcome State Fault Refusal := .next (ckptBlock s)

/-- CKPT_DIGESTS: block digests are written to the image's digest list (Table 15.2). -/
def ckptDigests (s : State) : State :=
  match s.takeCkpt [1, 2, 3, 4] 3 false fun _ => true with
  | .none => s
  | .dropped s => s
  | .got m _ s =>
    match s.ckpt.inc with
    | none => s
    | some c =>
      let n := fieldAt (bodyOf m) 0 4
      let d := ((bodyOf m).drop 4).take (8 * (c.blocks - n))
      if c.seq ≠ seqOf m then s
      else (s.write (s.slotAt c.slot + 64 + c.digestOff + 8 * n) d).setCkpt { s.ckpt with inc := some { c with last := s.beat } }
def execCkptDigests (s : State) : Host.Outcome State Fault Refusal := .next (ckptDigests s)

/-- CKPT_END: blocks without a record are taken over unchanged, every block is checked against its digest and the
list against LIST_DIGEST; then the marker is written and ACK sent, or ABORT with reason 1 (R325, R326). -/
def ckptEnd (s : State) : State :=
  match s.takeCkpt [1, 2, 3, 4] 4 false fun _ => true with
  | .none => s
  | .dropped s => s
  | .got m _ s =>
    match s.ckpt.inc with
    | none => s
    | some c =>
      if c.seq ≠ seqOf m then s
      else
        let a := s.slotAt c.slot + 64
        let s := forEach ((List.range c.blocks).filter fun b => !c.got.contains b) s fun s b =>
          s.write (a + c.dataOff + 65536 * b) (s.baseBlock c b)
        let s := s.setCkpt { s.ckpt with inc := none }
        let good : Bool := ((List.range c.blocks).all fun b =>
            decide ((crc64 0 (s.rbs (a + c.dataOff + 65536 * b) 65536)).toNat = s.rd (a + c.digestOff + 8 * b) 8)) &&
          decide ((crc64 0 (s.rbs (a + c.digestOff) (8 * c.blocks))).toNat = s.rd (a + 0x30) 8) &&
          (s.badAmong [(a, c.dataOff + 65536 * c.blocks)] false).isNone
        if good then
          let s := s.write (s.slotAt c.slot) (leBytes 4 markMagic ++ leBytes 4 c.seq ++ s.rbs (a + 0x10) 8 ++ s.rbs (a + 0x30) 8 ++ zeros 40)
          (s.setReg (R.ckptSlotC c.slot) (BitVec.ofNat 64 (s.slotC c.slot))).ckptSend m.src 5 c.seq []
        else s.ckptSend m.src 6 c.seq [1]
def execCkptEnd (s : State) : Host.Outcome State Fault Refusal := .next (ckptEnd s)

/-- A restore that cannot finish: PARTIAL is set and nothing else changes (R316, R331). -/
def State.restoreLost (s : State) (code : Nat) : State :=
  match s.ckpt.restore with
  | none => s
  | some r =>
    ((s.setCkpt { s.ckpt with restore := none }).sticky .ckpt R.ckptStat 5 code r.cmd.inst ckptUid r.cmd.id).complete r.cmd code

/-- CKPT_ABORT: at the source the checkpoint fails with the code of its reason; at the buddy the incoming slot is
discarded; at a module that restores, the restore is lost (R326, R331). -/
def ckptAbort (s : State) : State :=
  match s.takeCkpt [6] 6 true fun _ => true with
  | .none => s
  | .dropped s => s
  | .got m _ s =>
    let code := match fieldAt (bodyOf m) 0 1 with
      | 1 => St.plausibility
      | 2 => St.badDescriptor
      | _ => St.linkFailed
    match s.ckpt.src, s.ckpt.inc with
    | some c, inc =>
      if c.seq = seqOf m ∧ m.src = s.buddyCoord then s.ckptFail c.cmds c.c code
      else match inc with
        | some n => if n.seq = seqOf m then s.ckptDiscard else s
        | none => s
    | none, some n => if n.seq = seqOf m then s.ckptDiscard else s.restoreLost St.linkFailed
    | none, none => s.restoreLost St.linkFailed
def execCkptAbort (s : State) : Host.Outcome State Fault Refusal := .next (ckptAbort s)

/-- CKPT_COPY_TIMEOUT: no CKPT message within CKPT_COPY_TIMEOUT beats: the buddy stops and discards the incoming
slot, and says so with ABORT reason 3 (R326, log 26). -/
def ckptCopyTimeout (s : State) : State :=
  match s.ckpt.inc with
  | none => s
  | some c =>
    if (s.beat - c.last).toNat < (s.reg R.copyTimeout).toNat then s else s.ckptDiscard.ckptSend s.sourceCoord 6 c.seq [3]
def execCkptCopyTimeout (s : State) : Host.Outcome State Fault Refusal := .next (ckptCopyTimeout s)

/-- A failed port breaks off the copies that need it: port a the copy to the buddy, port a + 4 that of the source (R326),
and the port towards the buddy a restore from it (R331). -/
def State.ckptPortFail (s : State) (p : Nat) : State :=
  let a := s.ckptAxis
  if 3 < a then s
  else
    let s := match s.ckpt.src with
      | some c => if p = a then s.ckptFail c.cmds c.c St.linkFailed else s
      | none => s
    let s := match s.ckpt.restore with
      | some r => if !r.host && decide (s.routePort s.buddyCoord = some p) then s.restoreLost St.linkFailed else s
      | none => s
    if p = a + 4 then s.ckptDiscard else s

/-! ### CHECKPOINT (R318, R327, R328) -/

/-- The code that refuses a CHECKPOINT of KIND 0 or 1, a drain of slot `n`: where several apply, the lowest (R12, R318, R327);
0 where none does. -/
def State.ckptCode (s : State) (c : Cmd) (n : Option Nat) : Nat :=
  let drain := decide (c.kind = 1)
  if s.ckptIllegal || (drain && n.isNone) then St.illegalInState
  else if decide (1 < c.kind) || (drain && decide (c.fld 0x20 8 < s.slotImageLen (n.getD 0))) then St.badDescriptor
  else if c.inst ≠ s.ckptInst then St.ownership
  else 0

/-- CHECKPOINT of KIND 0: the next commit checkpoints; the command completes with that checkpoint (R328). A KIND
that is not named is malformed. -/
def checkpointRequest (q : Nat) (s : State) : State :=
  match s.nextOf q Op.checkpoint fun c => decide (c.kind ≠ 1) with
  | none => s
  | some c =>
    let s := s.startCmd c
    let code := s.ckptCode c none
    if code ≠ 0 then s.complete c code
    else s.setCkpt { s.ckpt with requests := s.ckpt.requests ++ [c] }
def execCheckpointRequest (q : Nat) (s : State) : Host.Outcome State Fault Refusal := .next (checkpointRequest q s)

/-- CHECKPOINT of KIND 1: the newer complete slot is drained to host memory (R327). -/
def checkpointDrain (q : Nat) (s : State) : State :=
  match s.nextOf q Op.checkpoint fun c => decide (c.kind = 1) with
  | none => s
  | some c =>
    if s.ckpt.drain.isSome then s
    else
      let s := s.startCmd c
      let code := s.ckptCode c s.newerSlot
      if code ≠ 0 then s.complete c code
      else (s.setBit R.ckptStat 6 true).setCkpt { s.ckpt with drain := some (c, s.newerSlot.getD 0) }
def execCheckpointDrain (q : Nat) (s : State) : Host.Outcome State Fault Refusal := .next (checkpointDrain q s)

/-- CHECKPOINT_DRAIN_COMPLETE: marker and image have been written to host memory (R327). -/
def checkpointDrainComplete (s : State) : State :=
  match s.ckpt.drain with
  | none => s
  | some (c, n) =>
    let len := 64 + s.slotImageLen n
    let s := (s.setBit R.ckptStat 6 false).setCkpt { s.ckpt with drain := none }
    match s.badAmong [(s.slotAt n, len)] false with
    | some w => s.refuse c (St.memoryUncorrectable, some w)
    | none => (s.write (hostBase + c.fld 0x18 8) (s.rbs (s.slotAt n) len)).complete c St.ok
def execCheckpointDrainComplete (s : State) : Host.Outcome State Fault Refusal := .next (checkpointDrainComplete s)

/-! ### RESTORE (R330 to R332) -/

/-- Whether the gate or the curvature unit is enabled (R330). -/
def State.restoreIllegal (s : State) (i : Nat) : Bool := s.bit (R.updCfg i) 0 || s.bit (R.curvCfg i) 0

/-- RESTORE with SOURCE 0: the image is asked of the buddy (R330). A SOURCE that is not named is malformed. Where several
codes apply, the lowest goes out (R12). -/
def restoreBuddy (q : Nat) (s : State) : State :=
  match s.nextOf q Op.restore fun c => decide (c.kind ≠ 1) with
  | none => s
  | some c =>
    if s.ckpt.restore.isSome then s
    else
      let s := s.startCmd c
      if s.restoreIllegal c.inst then s.complete c St.illegalInState
      else if c.kind ≠ 0 ∨ nbit (c.fld 0x11 1) 0 then s.complete c St.badDescriptor
      else if c.inst ≠ s.ckptInst then s.complete c St.ownership
      else
        let s := s.setCkpt { s.ckpt with restore := some { cmd := c, host := false, reshape := false } }
        if 3 < s.ckptAxis ∨ s.routeFailed s.buddyCoord then s.restoreLost St.linkFailed
        else s.ckptSend s.buddyCoord 7 0 (leBytes 8 (c.fld 0x28 8))
def execRestoreBuddy (q : Nat) (s : State) : Host.Outcome State Fault Refusal := .next (restoreBuddy q s)

/-- Where the data of each area of an image goes: a region to its address, a shard's first slot to weight slot 0
and its second to moment slot 0 (R331). -/
def State.restorePlaces (s : State) (i : Nat) : List Nat → List (Nat × Nat × Option Nat) → List (Nat × Nat)
  | _, [] => []
  | seen, r :: t =>
    match r.2.2 with
    | none => (r.1, r.2.1) :: s.restorePlaces i seen t
    | some n =>
      let h := s.shard i n
      (if seen.contains n then h.m0 else h.w0, r.2.1) :: s.restorePlaces i (n :: seen) t

/-- Whether an image fits this module: its shards exist and its places lie in the instance's buffers (R330). -/
def State.imageFits (s : State) (i : Nat) (h : CkptHead) : Bool :=
  (h.regions.all fun r => match r.2.2 with | some n => decide (n < s.shards i) | none => true) &&
    (s.restorePlaces i [] h.regions).all fun p => s.ownsHbm i p.1 p.2

/-- The bytes of block b written to their place. -/
def State.putBlock (s : State) (l : List (Nat × Nat)) (b : Nat) (x : List Byte) : State :=
  match l with
  | [] => s
  | r :: t =>
    let n := cdiv r.2 65536
    if b < n then s.write (r.1 + 65536 * b) (x.take (r.2 - 65536 * b)) else s.putBlock t (b - n) x

/-- RESTORE with SOURCE 1: the image is read from host memory (R330); one that does not match Table 15.1, or does
not hold the C asked for, is refused. -/
def restoreHost (q : Nat) (s : State) : State :=
  match s.nextOf q Op.restore fun c => decide (c.kind = 1) with
  | none => s
  | some c =>
    if s.ckpt.restore.isSome then s
    else
      let s := s.startCmd c
      let a := hostBase + c.fld 0x18 8
      let len := c.fld 0x20 8
      if s.restoreIllegal c.inst then s.complete c St.illegalInState
      else
        match headOf fun o k => s.rd (a + o) k with
        | none => s.complete c St.badDescriptor
        | some h =>
          if len < h.dataOff + 65536 * h.blocks ∨ (c.fld 0x28 8 ≠ 0 ∧ c.fld 0x28 8 ≠ h.c.toNat) ∨ !s.imageFits c.inst h then
            s.complete c St.badDescriptor
          else if c.inst ≠ s.ckptInst then s.complete c St.ownership
          else
            let n := h.dataOff + 65536 * h.blocks
            let r : Restore :=
              { cmd := c, host := true, reshape := nbit (c.fld 0x11 1) 0, image := sputs (fun _ => 0) [] 0 (s.rbs a n), len := n, got := n }
            s.setCkpt { s.ckpt with restore := some r }
def execRestoreHost (q : Nat) (s : State) : Host.Outcome State Fault Refusal := .next (restoreHost q s)

/-- RESTORE_REQ: the buddy serves the complete slot whose C was asked for, or the newer one, as RESTORE_DATA;
where it has none, it answers with ABORT (R330, log 26). -/
def restoreReq (s : State) : State :=
  match s.takeCkpt [7] 7 true fun _ => true with
  | .none => s
  | .dropped s => s
  | .got m _ s =>
    let want := fieldAt (bodyOf m) 0 8
    let slot : Option Nat := if want = 0 then s.newerSlot
      else [0, 1].find? fun n => (s.slotSeq n).isSome && decide (s.slotC n = want)
    let reply (op : Nat) (body : List Byte) : Message :=
      { m with dst := m.src, came := none, dclass := 0, payload := leBytes 1 op ++ zeros 3 ++ leBytes 4 (seqOf m) ++ body }
    match slot with
    | none => s.send (reply 6 [1])
    | some n =>
      let len := s.slotImageLen n
      match s.badAmong [(s.slotAt n + 64, len)] false with
      | some w => (s.raise 1 St.memoryUncorrectable .ckpt (openDetail .ckpt St.memoryUncorrectable) (memUid w)).send (reply 6 [1])
      | none =>
        forEach (List.range (cdiv len 32768)) s fun s j =>
          s.send (reply 8 (leBytes 8 (32768 * j) ++ s.rbs (s.slotAt n + 64 + 32768 * j) (min 32768 (len - 32768 * j))))
def execRestoreReq (s : State) : Host.Outcome State Fault Refusal := .next (restoreReq s)

/-- A byte range of the image that a restore has collected. -/
def Restore.rd (r : Restore) (o n : Nat) : Nat := leNat ((List.range n).map fun j => sget (fun _ => 0) r.image (o + j))
def Restore.bytesAt (r : Restore) (o n : Nat) : List Byte := (List.range n).map fun j => sget (fun _ => 0) r.image (o + j)
/-- Whether block b of a collected image carries its digest. -/
def Restore.blockOk (r : Restore) (h : CkptHead) (b : Nat) : Bool :=
  decide ((crc64 0 (r.bytesAt (h.dataOff + 65536 * b) 65536)).toNat = r.rd (digestOff h.regions.length + 8 * b) 8)

/-- RESTORE_DATA: image bytes come in; a header that does not match Table 15.1 ends the restore (R330); each whole block whose digest is right is written to its region or shard
slot (R331). -/
def restoreData (s : State) : State :=
  match s.takeCkpt [8] 8 true fun _ => true with
  | .none => s
  | .dropped s => s
  | .got m _ s =>
    match s.ckpt.restore with
    | none => s
    | some r =>
      if r.host then s
      else
        let off := fieldAt (bodyOf m) 0 8
        let d := (bodyOf m).drop 8
        let r : Restore := { r with image := sputs (fun _ => 0) r.image off d, got := max r.got (off + d.length) }
        let head := headOf r.rd
        let r : Restore := match head with
          | some h => if h.dataOff ≤ r.got then { r with len := h.dataOff + 65536 * h.blocks } else r
          | none => r
        let s := s.setCkpt { s.ckpt with restore := some r }
        match head with
        | none =>
          if 64 ≤ r.got ∧ digestOff (r.rd 0x38 4) ≤ r.got then (s.setCkpt { s.ckpt with restore := none }).complete r.cmd St.badDescriptor
          else s
        | some h =>
          if r.got < h.dataOff ∨ !s.imageFits r.cmd.inst h then s
          else
            let done := (List.range h.blocks).filter fun b =>
              decide (off < h.dataOff + 65536 * (b + 1) ∧ h.dataOff + 65536 * b < off + d.length ∧ h.dataOff + 65536 * (b + 1) ≤ r.got)
            forEach (done.filter fun b => r.blockOk h b) s fun s b =>
              s.putBlock (s.restorePlaces r.cmd.inst [] h.regions) b (r.bytesAt (h.dataOff + 65536 * b) 65536)
def execRestoreData (s : State) : Host.Outcome State Fault Refusal := .next (restoreData s)

/-- A restore that has succeeded: update state and shard flags from the image, FULL_NEXT set, and with RESHAPE
every layer STALE (R331, R332, R172). -/
def State.restoreDone (s : State) (r : Restore) (h : CkptHead) : State :=
  let i := r.cmd.inst
  let s := forEach (List.range (s.shards i)) s fun s n =>
    let e := s.shard i n
    let s := if nbit e.flags 1 then s.setShardBit e 1 0 else s
    let e := s.shard i n
    if nbit e.flags 2 then s.setShardBit e 2 0 else s
  let s := ((s.setReg (R.updStep i) h.s).setReg (R.updCommits i) h.c).setFld (R.lscale i) 0 8 h.e
  let s := (s.setFld (R.lscaleGrow i) 16 16 h.clean).setBit R.ckptStat 0 true
  let x := s.inst i
  let s := s.setInst i { x with baseC := h.c, shardC := [], rooted := if r.reshape then [] else x.rooted,
                                layerSt := [], checks := [], lateRoots := [] }
  let s := if r.reshape then
      forEach (List.range (s.layers i)) s fun s l => (s.wr (s.layerAt i l + 3) 1 3).wr (s.layerAt i l + 0x12) 2 0
    else s
  (s.setCkpt { s.ckpt with restore := none }).completeWith r.cmd St.ok 0 h.c none

/-- RESTORE_COMPLETE: when the whole image has come, every block and the list are checked; a good image sets the
update state and completes with OK, a bad one leaves the restore partial (R316, R331). -/
def restoreComplete (s : State) : State :=
  match s.ckpt.restore with
  | none => s
  | some r =>
    if r.len = 0 ∨ r.got < r.len then s
    else
      match headOf r.rd with
      | none => s.restoreLost St.badDescriptor
      | some h =>
        let i := r.cmd.inst
        if !s.imageFits i h then (s.setCkpt { s.ckpt with restore := none }).complete r.cmd St.badDescriptor
        else
          let n := ((List.range h.blocks).takeWhile fun b => r.blockOk h b).length
          let places := s.restorePlaces i [] h.regions
          let s := if r.host then
              forEach (List.range n) s fun s b => s.putBlock places b (r.bytesAt (h.dataOff + 65536 * b) 65536)
            else s
          if n < h.blocks ∨ crc64 0 (r.bytesAt (digestOff h.regions.length) (8 * h.blocks)) ≠ h.digest then s.restoreLost St.linkFailed
          else
            match s.badAmong places false with
            | some _ => s.restoreLost St.memoryUncorrectable
            | none => s.restoreDone r h
def execRestoreComplete (s : State) : Host.Outcome State Fault Refusal := .next (restoreComplete s)

end Sys2Proof.Machine
end

