-- ==== Sys2Proof/Machine/Remote.lean ====
section
/-! DEFINITION. Remote transfers at their target and back at their source (R151, R275). -/

namespace Sys2Proof.Machine

/-- The step that a message's tag names: S, or the run-ahead step (R191). -/
def State.taggedStep (s : State) (i : Nat) (m : Message) : W64 :=
  let s0 := s.reg (R.updStep i)
  if m.step = s0.toNat % 4 then s0 else s0 + 1

/-- An uncorrectable word met by a remote access at its target (R303). -/
def State.remoteBad (s : State) (i : Nat) (m : Message) (w : Nat) : State :=
  (s.raise 1 St.memoryUncorrectable .mem (openDetail .mem St.memoryUncorrectable) (memUid w) i).failContribution i (s.taggedStep i m) (memUid w)

/-- XFER_WRITE: at the target, a write into a buffer of the job's instance is performed; any other is
answered with REFUSED (R275, R156). -/
def xferWrite (s : State) : State :=
  match s.take Msg.write fun _ _ => true with
  | .none => s
  | .dropped s => s
  | .got m i s =>
    let a := m.attr % 2 ^ 48
    let n := m.payload.length
    if ¬s.ownsHbm i a n ∨ hbmTop < a + n then s.answer i m Msg.refused []
    else
      match s.bad.find? fun w => decide (w < a + n ∧ a < w + 8 ∧ ¬(a ≤ w ∧ w + 8 ≤ a + n)) with
      | some w => s.remoteBad i m w
      | none => s.write a m.payload
def execXferWrite (s : State) : Host.Outcome State Fault Refusal := .next (xferWrite s)

/-- XFER_READ_REQ: at the target, answered with the bytes requested, or with REFUSED (R275); an
uncorrectable word is never delivered (R303). -/
def xferReadReq (s : State) : State :=
  match s.take Msg.readReq fun _ _ => true with
  | .none => s
  | .dropped s => s
  | .got m i s =>
    let a := m.attr % 2 ^ 48
    let n := leNat (m.payload.take 8)
    if 65536 < n ∨ ¬s.ownsHbm i a n ∨ hbmTop < a + n then s.answer i m Msg.refused []
    else
      match s.bad.find? fun w => decide (w < a + n ∧ a < w + 8) with
      | some w => (s.remoteBad i m w).answer i m Msg.refused []
      | none => s.answer i m Msg.readData (s.rbs a n)
def execXferReadReq (s : State) : Host.Outcome State Fault Refusal := .next (xferReadReq s)

/-- The transfer that a message answers: its tag, and the chunk it waits for. -/
def State.asked (s : State) (i : Nat) (m : Message) : Option Xfer :=
  s.xfers.find? fun x => decide (x.inst = i ∧ x.gen = s.gen i ∧ x.id % 2 ^ 32 = m.seq ∧ ¬x.done)

/-- Elements of `n` bytes. -/
def elemsOf (n : Nat) (b : List Byte) : List Nat := (groups n b).map leNat

/-- XFER_READ_DATA: data read at a remote source reach the destination; old values read at a remote
destination are added to and written back (R275). -/
def xferReadData (s : State) : State :=
  match s.take Msg.readData fun _ _ => true with
  | .none => s
  | .dropped s => s
  | .got m i s =>
    match s.asked i m with
    | none => s
    | some x =>
      let x := if m.retried then { x with cause := 1, prop := false } else x
      let d := x.desc
      let p := x.parts.getD 0 (0, 0, 0)
      match s.xRow x p.1 with
      | none => s
      | some (_, dr) =>
        if m.chunk ≠ x.pos % 2 ^ 32 then s
        else if x.awaiting = 1 then s.deliver x dr p.2.1 (elemsOf d.src.size m.payload)
        else if x.awaiting = 2 then
          let news := ((elemsOf d.src.size x.held).zip (elemsOf d.dst.size m.payload)).map fun e => d.value e.1 e.2
          (s.xMessage x Msg.write d.dstCoord (d.dst.remoteAt dr p.2.1) (news.flatMap (leBytes d.dst.size))).putX
            (x.past news.length)
        else s
def execXferReadData (s : State) : Host.Outcome State Fault Refusal := .next (xferReadData s)

/-- REFUSED: the access was not performed: COLL_STAT.REMOTE_REFUSED is set and the contribution fails; the
transfer goes on to its end, and its signal is still sent (R275). -/
def refusedMsg (s : State) : State :=
  match s.take Msg.refused fun _ _ => true with
  | .none => s
  | .dropped s => s
  | .got m i s =>
    let s := s.sticky .coll (R.collStat i) 4 St.plausibility i
    match s.xfers.find? fun x => decide (x.inst = i ∧ x.gen = s.gen i ∧ x.id % 2 ^ 32 = m.seq) with
    | none => s.failContribution i (s.taggedStep i m) pcieUid
    | some x =>
      let y := if x.awaiting ≠ 0 then x.flawed.past x.chunkLen else x.flawed
      (s.putX y).failPost i x.poster x.step pcieUid
def execRefused (s : State) : Host.Outcome State Fault Refusal := .next (refusedMsg s)

end Sys2Proof.Machine
end

