-- ==== Sys2Proof/Machine/Replay.lean ====
section
/-! DEFINITION. Replica weight digests (R304, R305) and replay on the partner (R307 to R309). -/

namespace Sys2Proof.Machine

/-! ### The replica group (R266, R304) -/

/-- The axis that the data cut is bound to; 4 is none. -/
def State.dAxis (s : State) (i : Nat) : Nat := s.cutAxis i 0

/-- The D position of the data-parallel partner (R266). -/
def State.partnerPos (s : State) (i : Nat) : Option Nat :=
  let ax := s.dAxis i
  if 3 < ax then none
  else
    let n := s.jobExt i ax
    let q := s.myPos i ax
    if n ≤ 1 then none else if n % 2 = 1 ∧ q = n - 1 then some (n - 2) else some (if q % 2 = 0 then q + 1 else q - 1)

/-- The partner's coordinate (R266). -/
def State.partner (s : State) (i : Nat) : Option Nat := (s.partnerPos i).map fun p => s.atRel i s.coord (s.dAxis i) p

def State.rcount (s : State) (i : Nat) : Nat := s.fld (R.cmpCfg i) 16 7

/-- The first D position of the module's replica group (R304). -/
def State.groupBase (s : State) (i : Nat) : Nat := s.rcount i * (s.myPos i (s.dAxis i) / s.rcount i)

/-- The coordinates of the other members of the replica group. -/
def State.groupOthers (s : State) (i : Nat) : List Nat :=
  let ax := s.dAxis i
  if 3 < ax ∨ s.rcount i < 2 then []
  else
    (((List.range (s.rcount i)).map (s.groupBase i + ·)).filter fun p =>
      decide (p < s.jobExt i ax ∧ p ≠ s.myPos i ax)).map fun p => s.atRel i s.coord ax p

/-- Whether a step can be replayed: the partner exists and lies in the replica group (R307). -/
def State.canReplay (s : State) (i : Nat) : Bool :=
  match s.partnerPos i with
  | none => false
  | some p => decide (2 ≤ s.rcount i ∧ s.groupBase i ≤ p ∧ p < s.groupBase i + s.rcount i)

/-! ### Weight digests (R304, R305) -/

/-- The weight digest: the tile checks of every shard's committed slot, which the update unit formed as it wrote the slot,
then CHECK of the active root of every block, in ascending (layer, block) (R304). -/
def State.weightDigest (s : State) (i : Nat) : W64 :=
  let a := (List.range (s.shards i)).flatMap fun n =>
    let h := s.shard i n
    s.tileChecks (h.wslot h.active) h.rows h.cols h.wsize
  let roots := (s.recordedBlocks i).filter fun e => s.hasRoot i e.1 e.2
  crc64 0 ((a ++ roots.map fun e => s.rootCheck i e.1 e.2).flatMap fun x => leBytes 8 x.toNat)

/-- A REPLAY message (Table 14.3). -/
def State.replaySendOne (s : State) (i dst op off : Nat) (step : W64) (data : List Byte) : State :=
  s.send { s.header i Msg.replay 4 dst step with
    payload := leBytes 1 op ++ zeros 3 ++ leBytes 4 data.length ++ leBytes 8 off ++ data }

/-- An outcome of R305 that is not all-equal: the sticky bit and the host flag. -/
def State.cmpBad (s : State) (i bit : Nat) : State :=
  let s := s.setBit (R.cmpStat i) bit true
  let f := s.fld (R.cmpFlag i) 0 12
  if f = 0 then s else s.putFlag f true 0 false

/-- The class A alarm of a comparison, naming this module. -/
def State.cmpAlarm (s : State) (i bit : Nat) : State := s.raise 1 St.internal .err bit pcieUid i

/-- The outcome of a comparison of R digests (coordinate, digest), the own one among them (R305). -/
def State.cmpOutcome (s : State) (i : Nat) (c : W64) (own : W64) (l : List (Nat × W64)) : State :=
  let votes (v : W64) : Nat := (l.filter fun e => decide (e.2 = v)).length
  if l.all fun e => decide (e.2 = own) then s.setReg (R.cmpGood i) c
  else
    match l.find? fun e => decide (s.rcount i < 2 * votes e.2) with
    | some e =>
      let low := (l.filter fun x => decide (x.2 ≠ e.2)).foldl (fun a x => min a x.1) (2 ^ 24 - 1)
      let s := (s.cmpBad i 0).setReg (R.cmpLast i) (BitVec.ofNat 64 low)
      if own = e.2 then s.raise 3 St.internal .err 0 pcieUid i else (s.cmpBad i 1).cmpAlarm i 1
    | none => ((s.cmpBad i 0).cmpBad i 2).cmpAlarm i 2

/-- The comparison under way ends once all R − 1 digests have arrived; the next one that is due starts with those
that came early (R305). -/
def State.cmpStep (s : State) (i : Nat) : Nat → State
  | 0 => s
  | n + 1 =>
    let x := s.inst i
    match x.cmp with
    | some p =>
      if p.got.length + 1 < s.rcount i then s
      else ((s.setInst i { x with cmp := none }).cmpOutcome i p.c p.own ((s.coord, p.own) :: p.got)).cmpStep i n
    | none =>
      match x.cmpNext with
      | [] => s
      | e :: r =>
        let mine := x.early.filter fun d => decide (d.2.1 = e.1)
        let p : Compare := { c := e.1, since := s.beat, own := e.2, got := mine.map fun d => (d.1, d.2.2) }
        (s.setInst i { x with cmp := some p, cmpNext := r, early := x.early.filter fun d => decide (d.2.1 ≠ e.1) }).cmpStep i n

/-- Rounds that `cmpStep` can take. -/
def State.cmpRun (s : State) (i : Nat) : State := s.cmpStep i (2 * ((s.inst i).cmpNext.length + 2))

/-- WEIGHT_DIGEST_SEND at the commit that makes `c` (R305). -/
def State.cmpCommit (s : State) (i : Nat) (c : W64) : State :=
  let every := s.fld (R.cmpCfg i) 0 16
  if every = 0 ∨ c.toNat % every ≠ 0 ∨ s.rcount i < 2 ∨ 3 < s.dAxis i then s
  else
    let d := s.weightDigest i
    let s := s.setReg (R.cmpDigest i) d
    let s := forEach (s.groupOthers i) s fun s t => s.replaySendOne i t 3 c.toNat (s.reg (R.updStep i)) (leBytes 8 d.toNat)
    let x := s.inst i
    (s.setInst i { x with cmpNext := x.cmpNext ++ [(c, d)] }).cmpRun i

/-- The first delivered REPLAY message of an operation (R309). -/
def State.takeReplay (s : State) (op : Nat) : Taken :=
  match s.inbox.find? fun m => decide (m.typ = Msg.replay ∧ fieldAt m.payload 0 1 = op) with
  | none => .none
  | some m => s.deliverTo m

/-- REPLAY_DIGEST: a received weight digest is counted; the comparison is resolved when all have arrived (R305). -/
def replayDigest (s : State) : State :=
  match s.takeReplay 3 with
  | .none => s
  | .dropped s => s
  | .got m i s =>
    let c : W64 := BitVec.ofNat 64 (fieldAt m.payload 8 8)
    let d : W64 := BitVec.ofNat 64 (fieldAt m.payload 16 8)
    let x := s.inst i
    match x.cmp with
    | some p =>
      if p.c = c then
        let got := if p.got.any fun e => e.1 = m.src then p.got else p.got ++ [(m.src, d)]
        (s.setInst i { x with cmp := some { p with got := got } }).cmpRun i
      else s.setInst i { x with early := x.early ++ [(m.src, c, d)] }
    | none => s.setInst i { x with early := x.early ++ [(m.src, c, d)] }
def execReplayDigest (s : State) : Host.Outcome State Fault Refusal := .next (replayDigest s)

/-- DIGEST_COMPARE_TIMEOUT: a comparison that is not complete within ERR_CMP_TIMEOUT beats (R305). -/
def digestCompareTimeout (i : Nat) (s : State) : State :=
  let x := s.inst i
  match x.cmp with
  | none => s
  | some p =>
    if (s.beat - p.since).toNat < (s.reg (R.cmpTimeout i)).toNat then s
    else (((s.setInst i { x with cmp := none }).cmpBad i 3).cmpAlarm i 3).cmpRun i
def execDigestCompareTimeout (i : Nat) (s : State) : Host.Outcome State Fault Refusal := .next (digestCompareTimeout i s)

/-! ### Replay (R307 to R309) -/

def State.replayLen (s : State) (i : Nat) : Nat := (s.reg (R.rpLen i)).toNat

/-- A replay area sent to a module as INPUT (1) or RESULT (2) messages; every area must lie in the instance's
buffers, and an uncorrectable word is never delivered (R303, R308, R317). -/
def State.sendArea (s : State) (i dst op base : Nat) (step : W64) : State :=
  let n := s.replayLen i
  if !s.ownsHbm i base n then s
  else
    match s.badAmong [(base, n)] false with
    | some w => s.raise 1 St.memoryUncorrectable .err (openDetail .err St.memoryUncorrectable) (memUid w) i
    | none =>
      forEach (List.range (cdiv n 65520)) s fun s j =>
        s.replaySendOne i dst op (65520 * j) step (s.rbs (base + 65520 * j) (min 65520 (n - 65520 * j)))

/-- On entry to REPLAYING a module whose own contribution failed sends its hold area to its partner (R308 step 1). -/
def State.sendHold (s : State) (i : Nat) : State :=
  match s.partner i with
  | none => s
  | some c => s.sendArea i c 1 (s.reg (R.rpHold i)).toNat (s.reg (R.updStep i))

/-- A REPLAY message's data written to ERR_REPLAY_RECV: dropped and counted beyond the area, refused outside the
instance's buffers (R309, R317). The flag says that they were written. -/
def State.replayStore (s : State) (i : Nat) (m : Message) : State × Bool :=
  let n := fieldAt m.payload 4 4
  let off := fieldAt m.payload 8 8
  let a := (s.reg (R.rpRecv i)).toNat + off
  if s.replayLen i < off + n then (s.incReg R.dropCount, false)
  else if !s.ownsHbm i (s.reg (R.rpRecv i)).toNat (s.replayLen i) then (s.answer i m Msg.refused [], false)
  else
    match s.badAmong [(a, n)] true with
    | some w => (s.raise 1 St.memoryUncorrectable .err (openDetail .err St.memoryUncorrectable) (memUid w) i, false)
    | none => (s.write a ((m.payload.drop 16).take n), true)

/-- Whether a message carries the last byte of its area. -/
def State.replayLast (s : State) (i : Nat) (m : Message) : Bool :=
  decide (fieldAt m.payload 8 8 + fieldAt m.payload 4 4 = s.replayLen i)

/-- REPLAY_INPUT: the suspect's inputs fill ERR_REPLAY_RECV; the last byte sets RECEIVED and the replay flag
(R308 step 1). -/
def replayInput (s : State) : State :=
  match s.takeReplay 1 with
  | .none => s
  | .dropped s => s
  | .got m i s =>
    let r := s.replayStore i m
    let s := r.1
    if r.2 && s.replayLast i m then
      let s := s.setInst i { s.inst i with replayFrom := some m.src }
      let s := s.sticky .err (R.rpStat i) 0 St.internal i
      let f := s.fld (R.updCfg i) 16 12
      if f = 0 then s else s.putFlag f true 6 false
    else s
def execReplayInput (s : State) : Host.Outcome State Fault Refusal := .next (replayInput s)

/-- The comparison of the partner's result with the local recomputation, whose inequality adds the unit named by the step's
failure to the field-fault list (R308 step 4); an uncorrectable word of either area is reported and ends it (R303). -/
def State.replayCompare (s : State) (i : Nat) : State :=
  let n := s.replayLen i
  let out := (s.reg (R.rpOut i)).toNat
  let recv := (s.reg (R.rpRecv i)).toNat
  if s.bit (R.cmpCfg i) 23 ∧ s.ownsHbm i out n then
    if let some w := s.badAmong [(out, n), (recv, n)] false then
      s.raise 1 St.memoryUncorrectable .err (openDetail .err St.memoryUncorrectable) (memUid w) i
    else if crc64 0 (s.rbs out n) = crc64 0 (s.rbs recv n) then s.setFld (R.rpStat i) 16 8 (satInc 8 (s.fld (R.rpStat i) 16 8) 1)
    else
      let s := s.setFld (R.rpStat i) 24 8 (satInc 8 (s.fld (R.rpStat i) 24 8) 1)
      let p := s.power
      let s := { s with power := { p with fieldFaults := p.fieldFaults ++ (s.gate i).failUnit.toList } }
      s.raise 1 St.internal .err (openDetail .err St.internal) pcieUid i
  else s

/-- REPLAY_RESULT: the partner's result fills ERR_REPLAY_RECV and is compared with the local recomputation
(R308). -/
def replayResult (s : State) : State :=
  match s.takeReplay 2 with
  | .none => s
  | .dropped s => s
  | .got m i s =>
    let r := s.replayStore i m
    if r.2 && r.1.replayLast i m then r.1.replayCompare i else r.1
def execReplayResult (s : State) : Host.Outcome State Fault Refusal := .next (replayResult s)

/-- REPLAY_SEND: ERR_REPLAY_CTRL.SEND sends the ERR_REPLAY_OUT area to the suspect as RESULT messages (R308 step 2). -/
def replaySend (fn i : Nat) (s : State) : State :=
  match (s.inst i).replayFrom with
  | none => s
  | some c => if fnMay fn i then s.sendArea i c 2 (s.reg (R.rpOut i)).toNat (s.reg (R.updStep i)) else s
def execReplaySend (fn i : Nat) (s : State) : Host.Outcome State Fault Refusal := .next (replaySend fn i s)

end Sys2Proof.Machine
end

