-- ==== Sys2Proof/Machine/Gate.lean ====
section
/-! DEFINITION. The step window and the Cardamom gate (R191, R192, R200 to R207, R276): verdicts, Clove
notices, the undo, and the resolution of a step. -/

namespace Sys2Proof.Machine

/-! ### The window -/

/-- The gate of a window that opens: step S is OPEN, and nothing is known of either step (Table 9.5). -/
def Gate.opened (g : Gate) : Gate := { posts := g.posts }

/-- ENABLE written to 1 opens the window; a STEP_COMMIT left over from a window that was closed before its step
resolved completes with ILLEGAL_IN_STATE (R200, log 28). -/
def State.openGate (s : State) (i : Nat) : State :=
  let g := s.gate i
  let s := match g.commitCmd with
    | some c => s.complete c St.illegalInState
    | none => s
  let s := s.setGate i g.opened
  s.setInst i { s.inst i with baseC := s.reg (R.updCommits i), shardC := [] }

/-- A write of UPD_CFG (R200, R209). -/
def State.updCfgWrite (s : State) (i : Nat) (v : W32) : State :=
  let was := s.gateOn i
  let s := s.rawWrite (R.updCfg i) (v.zeroExtend 64)
  if !was && s.gateOn i then s.openGate i else s

/-- UPD_ENABLE_WRITE: a function that may write the page writes UPD_CFG; ENABLE to 1 opens the step window
(R186, R200). -/
def updEnableWrite (fn i : Nat) (v : W32) (s : State) : State := if fnMay fn i then s.updCfgWrite i v else s
def execUpdEnableWrite (fn i : Nat) (v : W32) (s : State) : Host.Outcome State Fault Refusal := .next (updEnableWrite fn i v s)

/-- The resolution flag of an instance set or cleared, if it names an owned one (R203). -/
def State.resFlag (s : State) (i : Nat) (v : Bool) : State :=
  let n := s.fld (R.updCfg i) 4 12
  if n ≠ 0 ∧ s.ownsFlag i n then s.putFlag n v 0 false else s

/-- UPD_STEP_STAT: a resolution is reported for its beat (R200, Table 9.7). -/
def State.stepStat (s : State) (i : Nat) : Nat :=
  let g := s.gate i
  let code : Nat := match g.st with
    | .open_ => 0 | .computed => 1 | .checked => 2 | .committed => 3 | .skipped => 4 | .tainted => 5 | .replaying => 6
  let code := match g.resolvedAt with
    | some (b, c) => if b = s.beat then c else code
    | none => code
  code + g.runAhead.toNat * 8 + g.nf.toNat * 16 + g.undo.toNat * 32

/-! ### Resolution (R192, R203) -/

/-- The gate after a resolution: the run-ahead step becomes step S, and what was noted of it holds: a notice or a failure
has tainted it (R191, R200). -/
def Gate.after (g : Gate) (beat : W64) (code : Nat) : Gate :=
  { st := .open_, nf := g.nfNext, failed := g.failedNext, tainted := g.taintedNext || g.failedNext, posts := g.posts,
    seqFirst := g.seqFirstNext, seqLast := g.seqLastNext, chunkLeft := g.chunkLeftNext, cloveSent := g.cloveSentNext,
    failUnit := g.failUnitNext, resolvedAt := some (beat, code) }

/-- The loss-scale exponent and CLEAN written, and E to its HBM word (R192). -/
def State.setScale (s : State) (i : Nat) (e : Int) (clean : Nat) : State :=
  let s := (s.setFld (R.lscale i) 0 8 (wrapInt 8 e)).setFld (R.lscaleGrow i) 16 16 clean
  let a := (s.reg (R.lscaleAddr i)).toNat
  if s.ownsHbm i a 4 then s.wr a 4 (wrapInt 32 e) else s

def State.clean (s : State) (i : Nat) : Nat := s.fld (R.lscaleGrow i) 16 16
def State.expMin (s : State) (i : Nat) : Int := sext 8 (s.fld (R.lscale i) 8 8)
def State.expMax (s : State) (i : Nat) : Int := sext 8 (s.fld (R.lscale i) 16 8)

/-- The loss scale after a commit. -/
def State.scaleCommit (s : State) (i : Nat) : State :=
  let n := min 65535 (s.clean i + 1)
  let g := s.fld (R.lscaleGrow i) 0 16
  if g ≠ 0 ∧ n = g then s.setScale i (min (s.lossExp i + 1) (s.expMax i)) 0 else s.setScale i (s.lossExp i) n

/-- The loss scale after a skip. -/
def State.scaleSkip (s : State) (i code : Nat) : State :=
  if code = St.nonfiniteSkip then s.setScale i (max (s.lossExp i - 1) (s.expMin i)) 0
  else s.setScale i (s.lossExp i) (s.clean i)

/-- The slip summary of a commit that was applied `n` beats late (R239, R276). -/
def lateCommit (c : Cmd) (cause n : Nat) : Option LaunchRec :=
  if n = 0 then none else some { id := 0, inst := c.inst, cmd := c, ctr := ({} : EngRec).slip cause n false }

/-- The STEP_COMMIT of step S completes. -/
def State.completeCommit (s : State) (cmd : Option Cmd) (code cause late : Nat) : State :=
  match cmd with
  | some c => s.completeWith c code 0 0 (lateCommit c cause late)
  | none => s

/-- The provisional bit of an instance's work cleared: its predecessor has resolved (R191, R202). -/
def State.clearProv (s : State) (i : Nat) : State :=
  let xfer (x : Xfer) : Xfer := if x.inst = i then { x with prov := false } else x
  let coll (c : Coll) : Coll :=
    if c.inst = i then { c with kept := c.kept.map fun e => ({ e.1 with prov := false }, e.2) } else c
  { s with xfers := s.xfers.map xfer, colls := s.colls.map coll }

/-- Step S resolved by a code of Table 9.5: the gate of the next one, whose taint is acted on once it is step S (R200). -/
def State.nextStep (s : State) (i code : Nat) : State := s.setGate i ((s.gate i).after s.beat code)
def State.actOnTaint (s : State) (i : Nat) : State := if (s.gate i).tainted then s.beginTaint i else s

/-- A skip resolves step S: S goes up, C does not; the loss scale, the flag and the STEP_COMMIT follow (R191, R192,
R201, R205). -/
def State.resolveSkip (s : State) (i : Nat) : State :=
  let g := s.gate i
  let s := if g.skipCode = St.nonfiniteSkip then (s.gateEvent i s.coord 0).raise 3 St.nonfiniteSkip .upd 0 pcieUid i else s
  let s := (s.incReg (R.skipCount i)).scaleSkip i g.skipCode
  let s := ((s.setReg (R.updStep i) (s.s0 i + 1)).clearProv i).nextStep i 4
  ((s.resFlag i true).completeCommit g.commitCmd g.skipCode 6 0).actOnTaint i

/-- A tainted step enters REPLAYING (R205, R206, R308). -/
def State.enterReplay (s : State) (i : Nat) : State :=
  let g := s.gate i
  let h : Gate :=
    { g with st := .replaying, replayed := true, failed := false, tainted := false, sent := false, heard := [], upNf := false,
             upFail := false, upCkpt := false, forwarded := false, combined := false, seqFirst := none, seqLast := 0,
             chunkLeft := false, cloveSent := false, updated := [], moments := [] }
  let s := (s.setGate i h).incReg (R.replayCount i)
  let n := s.fld (R.updCfg i) 16 12
  let s := if n ≠ 0 ∧ s.ownsFlag i n then s.putFlag n true 0 false else s
  if g.failed then s.sendHold i else s

/-- What follows once an undo is over: a skip resolves; a tainted step is replayed once, where that is enabled and
possible, and is otherwise skipped with TAINTED (R205, R307). It waits for the combined verdict (log 28). -/
def State.afterUndo (s : State) (i : Nat) : State :=
  let g := s.gate i
  match g.st with
  | .skipped => s.resolveSkip i
  | .tainted =>
    if !g.combined then s
    else if s.bit (R.updCfg i) 1 && !g.replayed && s.canReplay i then s.enterReplay i
    else (s.setGate i { g with st := .skipped, skipCode := St.tainted }).resolveSkip i
  | _ => s

/-- UNDO_COMPLETE: once every abandoned transfer has stopped, UNDO is cleared, NEWEST equals ACTIVE (R189), and the step
resolves or enters REPLAYING (R205). -/
def undoComplete (i : Nat) (s : State) : State :=
  let g := s.gate i
  let s := if g.undo && !s.undoBusy i then (s.setGate i { g with undo := false }).newestIsActive i else s
  if s.gateOn i ∧ !(s.gate i).undo then s.afterUndo i else s
def execUndoComplete (i : Nat) (s : State) : Host.Outcome State Fault Refusal := .next (undoComplete i s)

/-! ### STEP_COMMIT (R200, R203, R206, R207) -/

def Cmd.replayDone (c : Cmd) : Bool := nbit (c.fld 0x18 1) 0

/-- STEP_COMMIT: step S from OPEN to COMPUTED; the resolution flag is cleared, the run-ahead step opens, and a step of
which a check has failed becomes TAINTED (R200, R203, R207). -/
def stepCommit (q : Nat) (s : State) : State :=
  match s.nextOf q Op.stepCommit fun c => !c.replayDone with
  | none => s
  | some c =>
    let s := s.startCmd c
    let i := c.inst
    let g := s.gate i
    if !s.gateOn i ∨ c.fld 0x10 8 ≠ (s.s0 i).toNat ∨ g.st ≠ .open_ then s.complete c St.illegalInState
    else
      let s := s.setGate i { g with st := .computed, computedAt := s.beat, commitCmd := some c, runAhead := true }
      let s := s.resFlag i false
      if g.tainted || g.failed then s.beginTaint i else s
def execStepCommit (q : Nat) (s : State) : Host.Outcome State Fault Refusal := .next (stepCommit q s)

/-- STEP_COMMIT_REPLAY_DONE: a REPLAYING step returns to COMPUTED, and the command completes at once (R206, R207). -/
def stepCommitReplayDone (q : Nat) (s : State) : State :=
  match s.nextOf q Op.stepCommit Cmd.replayDone with
  | none => s
  | some c =>
    let s := s.startCmd c
    let i := c.inst
    let g := s.gate i
    if !s.gateOn i ∨ c.fld 0x10 8 ≠ (s.s0 i).toNat ∨ g.st ≠ .replaying then s.complete c St.illegalInState
    else (s.setGate i { g with st := .computed, computedAt := s.beat }).complete c St.ok
def execStepCommitReplayDone (q : Nat) (s : State) : Host.Outcome State Fault Refusal := .next (stepCommitReplayDone q s)

/-! ### Verdicts (R201, R276) -/

/-- This module's relative position in the job on an axis. -/
def State.relAt (s : State) (i ax : Nat) : Nat := s.myPos i ax

/-- The modules whose verdicts this one waits for: the next one on an axis, if this module is at 0 on every axis
before it (R276). -/
def State.children (s : State) (i : Nat) : List Nat :=
  ([0, 1, 2, 3].filter fun ax =>
    ((List.range ax).all fun a => decide (s.relAt i a = 0)) && decide (s.relAt i ax + 1 < s.jobExt i ax)).map fun ax =>
      s.atRel i s.coord ax (s.relAt i ax + 1)

/-- The module to which this one sends upward: one position toward 0 on the first axis on which it is not there; none
at the job's origin (R276). -/
def State.parent (s : State) (i : Nat) : Option Nat :=
  ([0, 1, 2, 3].find? fun ax => decide (s.relAt i ax ≠ 0)).map fun ax => s.atRel i s.coord ax (s.relAt i ax - 1)

/-- A VERDICT message: the flags NF, FAIL and CKPT, and COMMIT_BEAT, which is 0 upward (R276). -/
def State.verdictTo (s : State) (i dst : Nat) (nf fail ckpt : Bool) (at_ : W64) : State :=
  s.send { s.header i Msg.verdict 0 dst (s.s0 i) with
    payload := leBytes 8 (nf.toNat + 2 * fail.toNat + 4 * ckpt.toNat) ++ leBytes 8 at_.toNat }

/-- The combined verdict decides (R201): a non-finite flag skips; else a failure taints, a second one skips; else the
step is CHECKED and commits at the commit beat. A TAINTED step stays TAINTED: its result is never committed (R204). -/
def State.decideStep (s : State) (i : Nat) (nf fail ckpt : Bool) (at_ : W64) : State :=
  let g := s.gate i
  let s := s.setGate i { g with combined := true, combinedCkpt := ckpt }
  if nf then s.beginSkip i St.nonfiniteSkip
  else if fail then
    if g.replayed then s.beginSkip i St.tainted else if g.st = .tainted then s else s.beginTaint i
  else if g.st = .tainted then s
  else s.setGate i { s.gate i with st := .checked, commitAt := some at_ }

/-- The combined verdict sent down, and acted on here. -/
def State.downVerdict (s : State) (i : Nat) (nf fail ckpt : Bool) (at_ : W64) : State :=
  (forEach (s.children i) s fun s c => s.verdictTo i c nf fail ckpt at_).decideStep i nf fail ckpt at_

/-- Once the own verdict and those of the subtree are there, their OR goes up, or, at the job's origin, down with
COMMIT_BEAT (R276). -/
def State.forwardVerdict (s : State) (i : Nat) : State :=
  let g := s.gate i
  if g.sent && !g.forwarded && (s.children i).all g.heard.contains then
    let s := s.setGate i { g with forwarded := true }
    match s.parent i with
    | some p => s.verdictTo i p g.upNf g.upFail g.upCkpt 0
    | none => s.downVerdict i g.upNf g.upFail g.upCkpt (s.beat + BitVec.ofNat 64 (s.reg (R.verdictLead i)).toNat)
  else s

/-- Whether a LAUNCH serves the refresh wheel: its cluster set lies in the root group (R183). -/
def State.rootLaunch (s : State) (i : Nat) (l : LaunchRec) : Bool :=
  let first := s.fld (R.curvDispatch i) 0 12
  decide (first ≤ l.first ∧ l.first + l.count ≤ first + s.fld (R.curvDispatch i) 12 13)

/-- Whether work of step S that its checks cover is still under way on this module: its posts, transfers and collectives,
and the programs of its LAUNCHes but for those of the root group (R200, R201, R302, log 28). -/
def State.stepBusy (s : State) (i : Nat) : Bool :=
  let s0 := s.s0 i
  (s.launches.any fun l => decide (l.inst = i ∧ l.step = s0 ∧ l.solve = none) && l.starts && !l.left.isEmpty && !s.rootLaunch i l) ||
  ((s.gate i).posts.any fun p => decide (p.step = s0 ∧ p.gen = s.gen i) && !p.discard) ||
  (s.xfers.any fun x => decide (x.inst = i ∧ x.gen = s.gen i ∧ x.step = s0)) ||
  s.colls.any fun c => decide (c.inst = i ∧ c.gen = s.gen i ∧ c.step = s0 ∧ ¬c.done)

/-- Whether the module may send its verdict for step S now: a failure needs no further check (R201). -/
def State.verdictReady (s : State) (i : Nat) : Bool :=
  let g := s.gate i
  let bad := g.failed || g.tainted || g.cloveSent || decide (g.st = .tainted)
  s.gateOn i && !g.sent &&
    match g.st with
    | .computed => bad || !s.stepBusy i
    | .tainted => true
    | .replaying => bad
    | _ => false

/-- VERDICT_SEND: the module's own verdict is complete. During or after a replay, a failure that every module has
been told of by a notice skips the step at once (R201, R206). -/
def verdictSend (i : Nat) (s : State) : State :=
  let g := s.gate i
  if !s.verdictReady i then s
  else if g.replayed && g.cloveSent then s.beginSkip i St.tainted
  else
    let fail := g.failed || g.tainted || g.cloveSent || decide (g.st = .tainted)
    let g : Gate := { g with sent := true, upNf := g.upNf || g.nf, upFail := g.upFail || fail, upCkpt := g.upCkpt || s.ckptCalled i (s.reg (R.updCommits i) + 1) }
    (s.setGate i g).forwardVerdict i
def execVerdictSend (i : Nat) (s : State) : Host.Outcome State Fault Refusal := .next (verdictSend i s)

/-- Whether a delivered verdict can be handled now: it stands behind no Clove notice of its job (VC0 is in order), and
one of the next step waits until step S has resolved, an upward one also until a combined verdict has been acted on. -/
def State.verdictOk (s : State) (i : Nat) (m : Message) : Bool :=
  let g := s.gate i
  let before := s.inbox.takeWhile fun n => decide (n ≠ m)
  let now := decide (m.step = (s.s0 i).toNat % 4)
  let next := decide (m.step = (s.s0 i + 1).toNat % 4)
  s.gateOn i && !(before.any fun n => decide (n.typ = Msg.clove ∧ n.job = m.job)) && !next &&
    (!now || decide (some m.src = s.parent i) ||
      match g.st with
      | .open_ | .computed | .replaying => true
      | .tainted => !g.combined
      | _ => false)

/-- VERDICT: one from the subtree is combined; the combined one is passed on downward and acted on. A verdict of a
step that has resolved has no effect (R276). -/
def verdict (s : State) : State :=
  match s.take Msg.verdict s.verdictOk with
  | .none => s
  | .dropped s => s
  | .got m i s =>
    let f := fieldAt m.payload 0 8
    let nf := nbit f 0
    let fail := nbit f 1
    let ckpt := nbit f 2
    let g := s.gate i
    if m.step ≠ (s.s0 i).toNat % 4 then s
    else if some m.src = s.parent i then
      if g.combined ∨ !g.sent then s else s.downVerdict i nf fail ckpt (BitVec.ofNat 64 (fieldAt m.payload 8 8))
    else
      (s.setGate i { g with heard := g.heard ++ [m.src], upNf := g.upNf || nf, upFail := g.upFail || fail,
                            upCkpt := g.upCkpt || ckpt }).forwardVerdict i
def execVerdict (s : State) : Host.Outcome State Fault Refusal := .next (verdict s)

/-- CLOVE: a received notice is counted; step S becomes TAINTED on receipt, or the run-ahead step is marked; during or
after a replay it skips the step; one for a step already resolved is ignored (R200, R204 to R206). -/
def clove (s : State) : State :=
  match s.take Msg.clove fun _ _ => true with
  | .none => s
  | .dropped s => s
  | .got m i s =>
    let s := ((s.incReg (R.cloveCount i)).gateEvent i m.src 1).raise 3 St.tainted .upd 1 pcieUid i
    let g := s.gate i
    if !s.gateOn i then s
    else if m.step = (s.s0 i).toNat % 4 then
      match g.st with
      | .open_ | .computed | .checked => if g.replayed then s.beginSkip i St.tainted else s.beginTaint i
      | .replaying => s.beginSkip i St.tainted
      | _ => s
    else if m.step = (s.s0 i + 1).toNat % 4 then s.setGate i { g with taintedNext := true }
    else s
def execClove (s : State) : Host.Outcome State Fault Refusal := .next (clove s)

/-- GATE_TIMEOUT: no combined verdict within UPD_GATE_TIMEOUT beats of COMPUTED: the step is skipped with LINK_FAILED,
and a class A alarm is raised (R201). A step tainted while OPEN has not been COMPUTED. -/
def gateTimeout (i : Nat) (s : State) : State :=
  let g := s.gate i
  let waits := decide (g.st = .computed ∨ g.st = .replaying ∨ g.st = .tainted) && (g.commitCmd.isSome || g.replayed)
  if s.gateOn i ∧ waits ∧ !g.combined ∧ (s.reg (R.gateTimeout i)).toNat ≤ (s.beat - g.computedAt).toNat then
    ((s.gateEvent i s.coord 6).raise 1 St.linkFailed .upd 6 pcieUid i).beginSkip i St.linkFailed
  else s
def execGateTimeout (i : Nat) (s : State) : Host.Outcome State Fault Refusal := .next (gateTimeout i s)

/-! ### Commit (R202) -/

/-- What holds a commit of an instance: a full audit ring, a shard whose STATE digest is under way, or the checkpoint
engine; with the slip cause of the hold (R292, R321, R327). Missing roots are judged apart (R184). -/
def State.commitHeld (s : State) (i : Nat) : Option Nat :=
  let g := s.gate i
  let c := s.reg (R.updCommits i) + 1
  if s.auditDue i c && s.auditFull i then some 5
  else if g.updated.any fun n => s.digesting i n then some 4
  else if s.ckptHolds i g.combinedCkpt then some s.ckptHoldCause
  else none

/-- ACTIVE of every updated shard toggles, NEWEST equals it, and the version's C is noted (R202, Table 9.6). -/
def State.toggleShards (s : State) (i : Nat) : State :=
  let c := s.reg (R.updCommits i) + 1
  let s := forEach (s.gate i).updated s fun s n =>
    let h := s.shard i n
    let a := 1 - (nbit h.flags 1).toNat
    let s := (s.setShardBit h 1 a).setShardBit h 2 a
    let x := s.inst i
    s.setInst i { x with shardC := sput (fun _ => 0) x.shardC n c }
  s.newestIsActive i

/-- C and S go up, and the run-ahead work is no longer provisional (R191, R202). -/
def State.countCommit (s : State) (i : Nat) : State :=
  ((s.setReg (R.updCommits i) (s.reg (R.updCommits i) + 1)).setReg (R.updStep i) (s.s0 i + 1)).clearProv i

/-- The code of a commit (R12, R47, R184, R202): `late` is how many beats after the commit beat it is applied. -/
def State.commitCode (s : State) (g : Gate) (late : Nat) : Nat :=
  let n := s.fld R.slipCfg 0 8
  codeMax (codeMax (if g.replayed then St.replayed else 0) (if g.suspectRoot then St.rootSuspect else 0))
    (if n ≠ 0 ∧ n ≤ late then St.okSlipped else 0)

/-- The commit of step S (R202, R305, R322). `forced` treats roots that are not valid as suspect (R184). -/
def State.applyCommit (s : State) (i : Nat) (at_ : W64) (forced : Bool) : State :=
  let g0 := s.gate i
  let step := s.s0 i
  let late := (s.beat - at_).toNat
  let s := (s.toggleShards i).countCommit i
  let c := s.reg (R.updCommits i)
  let s := (s.curvActions i c forced).scaleCommit i
  let g := s.gate i
  let code := s.commitCode g late
  let s := if g.replayed then (s.gateEvent i s.coord 3).raise 3 St.replayed .upd 3 pcieUid i else s
  let s := s.nextStep i 3
  let s := if s.auditDue i c then s.auditStep i code c step else s
  let s := if g.combinedCkpt && decide (i = s.ckptInst) && !s.ckptIllegal then s.ckptStart i at_ else s
  let s := (s.resFlag i true).completeCommit g.commitCmd code g0.holdCause late
  (s.cmpCommit i c).actOnTaint i

/-- Roots that the commit waits for, and holds, are looked at; otherwise the commit is applied at or after its beat
(R184, R202, R276). -/
def State.tryCommit (s : State) (i : Nat) (forced : Bool) : State :=
  let g := s.gate i
  match g.st, g.commitAt with
  | .checked, some b =>
    if !s.gateOn i ∨ s.beat < b then s
    else if !forced && !(s.rootsMissing i (s.reg (R.updCommits i) + 1)).isEmpty then
      s.setGate i { g with holdRoots := some (g.holdRoots.getD s.beat) }
    else
      match s.commitHeld i with
      | some cause =>
        let full := s.auditDue i (s.reg (R.updCommits i) + 1) && s.auditFull i
        let s := ({ s with freeCtr := s.freeCtr + 1 } : State).setGate i { g with holdCause := cause, ringHeld := g.ringHeld || full }
        if full && !g.ringHeld then s.ringFull i else s
      | none => s.applyCommit i b forced
  | _, _ => s

/-- COMMIT_APPLY: at the commit beat the step commits, unless something holds it (R202). -/
def commitApply (i : Nat) (s : State) : State := s.tryCommit i false
def execCommitApply (i : Nat) (s : State) : Host.Outcome State Fault Refusal := .next (commitApply i s)

/-- COMMIT_HOLD_RELEASE: a commit held for a root goes on once VALID is 1 (R184). -/
def commitHoldRelease (i : Nat) (s : State) : State :=
  match (s.gate i).holdRoots with
  | some _ => s.tryCommit i false
  | none => s
def execCommitHoldRelease (i : Nat) (s : State) : Host.Outcome State Fault Refusal := .next (commitHoldRelease i s)

/-- ROOT_LATE_TIMEOUT: CURV_LATE_MAX beats of a hold have passed: the blocks are treated as suspect, with a class A
alarm, and the commit goes on (R184). -/
def rootLateTimeout (i : Nat) (s : State) : State :=
  match (s.gate i).holdRoots with
  | some b => if (s.reg (R.lateMax i)).toNat ≤ (s.beat - b).toNat then s.tryCommit i true else s
  | none => s
def execRootLateTimeout (i : Nat) (s : State) : Host.Outcome State Fault Refusal := .next (rootLateTimeout i s)

/-- CKPT_SOURCE_BLOCK_READ: the engine reads one block; a commit held on its region goes on (R321, R322). -/
def ckptSourceBlockRead (s : State) : State :=
  let s := s.ckptReadBlock
  if (s.gate s.ckptInst).holdRoots.isNone then s.tryCommit s.ckptInst false else s
def execCkptSourceBlockRead (s : State) : Host.Outcome State Fault Refusal := .next (ckptSourceBlockRead s)

/-- STATE_DIGEST_SHARD_DONE: the STATE digest of one shard is done; a commit held on it goes on (R292). -/
def stateDigestShardDone (i : Nat) (s : State) : State :=
  let s := s.shardDone i
  if (s.gate i).holdRoots.isNone then s.tryCommit i false else s
def execStateDigestShardDone (i : Nat) (s : State) : Host.Outcome State Fault Refusal := .next (stateDigestShardDone i s)

end Sys2Proof.Machine
end

