-- ==== Sys2Proof/Machine/Solve.lean ====
section
/-! DEFINITION. Deadline solves (R210, R211, R219 to R226): the checks of SOLVE, its start, announcements, the
freeze and the result. -/

namespace Sys2Proof.Machine

/-! ### The fields of SOLVE (Table 10.3, R235) -/

def Cmd.setFirst (c : Cmd) : Nat := c.fld 0x10 2
def Cmd.setCount (c : Cmd) : Nat := c.fld 0x12 2
def Cmd.sflags (c : Cmd) : Nat := c.fld 0x14 1
def Cmd.sload (c : Cmd) : Bool := nbit c.sflags 0
def Cmd.swarm (c : Cmd) : Bool := nbit c.sflags 1
def Cmd.solAddr (c : Cmd) : Nat := c.fld 0x38 8
def Cmd.solLen (c : Cmd) : Nat := c.fld 0x44 4
def Cmd.resultAddr (c : Cmd) : Nat := c.fld 0x50 8
def Cmd.batchAddr (c : Cmd) : Nat := c.fld 0x58 8
def Cmd.batchCount (c : Cmd) : Nat := c.fld 0x60 2

/-- Whether a field lies outside Table 10.3. -/
def solveFieldsBad (c : Cmd) : Bool :=
  decide (c.setCount = 0) || decide (4096 < c.setCount) || decide (8 ≤ c.sflags) || !decide (1 ≤ c.fld 0x15 1 ∧ c.fld 0x15 1 ≤ 64) ||
  decide (8 < c.fld 0x16 1) || decide (c.resultAddr % 64 ≠ 0)

/-! ### The certificate (R210, R211, Table 10.1) -/

/-- Whether entry `o` of a certificate is well formed. -/
def certEntryOk (b : List Byte) (o j : Nat) : Bool :=
  let g := fieldAt b
  let e := sext 8 (g (o + 4) 1)
  let p := sext 8 (g (o + 5) 1)
  let tau : W32 := BitVec.ofNat 32 (g (o + 8) 4)
  decide (g o 4 = j ∧ -64 ≤ e ∧ e ≤ 63 ∧ -64 ≤ p ∧ p ≤ 63 ∧ 1 ≤ g (o + 6) 2 ∧ g (o + 6) 2 ≤ 4096) && finite32 tau && gt32 tau 0

/-- Whether an image carries a certificate as Table 10.1 lays it out, within the limits of R210. -/
def Image.certOk (x : Image) : Bool :=
  let g := fieldAt x.bytes
  let a := x.certOff
  let n := g (a + 8) 4
  decide (a ≠ 0 ∧ a + x.certLen ≤ x.bytes.length ∧ 32 + 16 * n ≤ x.certLen) &&
  decide (g a 4 = 0x43524657 ∧ g (a + 4) 2 = 1 ∧ g (a + 6) 2 = 0 ∧ 1 ≤ n ∧ n ≤ 65536) &&
  decide (1 ≤ g (a + 0xC) 4 ∧ g (a + 0xC) 4 ≤ 4194304 ∧ g (a + 0x10) 8 ≤ 2 ^ 28) &&
  (List.range n).all fun j => certEntryOk x.bytes (a + 32 + 16 * j) j

/-- PATTERN_DIGEST and IMAGE_DIGEST of a solve's image. -/
def SolveRec.pattern (r : SolveRec) : W64 := BitVec.ofNat 64 (fieldAt r.image (fieldAt r.image 0x68 8 + 0x18) 8)
def SolveRec.program (r : SolveRec) : List Byte := (r.image.drop 0x10).take 32

/-! ### The set of a solve -/

/-- Whether two cluster sets have a cluster in common. -/
def setsMeet (a n b m : Nat) : Bool := decide (n ≠ 0 ∧ m ≠ 0 ∧ a < b + m ∧ b < a + n)

/-- Solves in flight: started, and their completion not yet posted (SOLV_ACTIVE). -/
def State.solvesActive (s : State) (i : Nat) : Nat := ((s.inst i).solves.filter fun r => r.started && !r.posted).length

/-- The launch record of a solve. -/
def State.solveLaunch (s : State) (i tag : Nat) : Option LaunchRec :=
  s.launches.find? fun l => decide (l.inst = i ∧ l.solve = some tag)

/-- Whether cores of a solve have not ended yet (R220, R222). -/
def State.solveRuns (s : State) (i tag : Nat) : Bool :=
  match s.solveLaunch i tag with
  | some l => !l.left.isEmpty
  | none => false

/-- Whether a cluster of a set still serves an earlier solve. -/
def State.setBusy (s : State) (i : Nat) (r : SolveRec) : Bool :=
  (s.inst i).solves.any fun e =>
    e.started && decide (e.tag ≠ r.tag) && setsMeet e.first e.count r.first r.count && (!e.posted || s.solveRuns i e.tag)

/-- The slot that the set's previous solve returned, 0xFF for none (Table 10.4). -/
def State.prevSlot (s : State) (i first count : Nat) : Nat :=
  match (s.inst i).warmSlots.find? fun w => decide (w.1 = first ∧ w.2.1 = count) with
  | some w => w.2.2
  | none => 0xFF

/-- Ended solves whose cores and transfers have all gone are forgotten. -/
def State.purgeSolves (s : State) (i : Nat) : State :=
  let x := s.inst i
  let keep (r : SolveRec) : Bool :=
    !r.posted || s.solveRuns i r.tag || s.xfers.any fun t => decide (t.inst = i ∧ t.solve = some r.tag)
  s.setInst i { x with solves := x.solves.filter keep }

/-! ### Start (R219 to R221, R226) -/

/-- The solve word's bytes 0x00 to 0x27 (Table 10.4). -/
def SolveRec.word (r : SolveRec) : List Byte :=
  let c := r.cmd
  leBytes 4 r.tag ++ leBytes 1 c.sflags ++ leBytes 1 (c.fld 0x15 1) ++ leBytes 1 (c.fld 0x16 1) ++ leBytes 1 r.warmSlot ++
  leBytes 4 (c.fld 0x48 4) ++ leBytes 4 c.batchCount ++ leBytes 8 (c.fld 0x30 8) ++ leBytes 8 c.solAddr ++ zeros 8

/-- A waiting solve starts: with LOAD its image goes into the shadow banks and is swapped in; the solve word and the
batch table are made ready before the first instruction issues (R219, R221, R226). -/
def State.startSolve (s : State) (i : Nat) (r : SolveRec) : State :=
  let c := r.cmd
  let r : SolveRec := { r with started := true, warmSlot := s.prevSlot i r.first r.count }
  let s := s.putSolve i r
  let img := s.parseImage r.first r.count r.image
  let cores := match img with | some x => x.placed.map (·.core) | none => []
  let id := s.freshLaunch
  let rec_ : LaunchRec :=
    { id := id, inst := i, cmd := c, launchBeat := BitVec.ofNat 64 (c.fld 0x20 8), step := c.step, solve := some r.tag,
      first := r.first, count := r.count, digest4 := BitVec.ofNat 32 (fieldAt r.program 0 4),
      loads := if c.sload then cores else [], swaps := if c.sload then cores else [], starts := true, unstarted := cores, left := cores,
      undone := c.undone }
  let s := { s with launches := s.launches ++ [rec_], nextLaunch := id + 1 }
  let f : LFlags := { load := true, active := false, swap := true, start := true, clear := false }
  let s := match img with
    | some x => if c.sload then forEach x.placed (s.noteImage c x) fun s p => s.beginLoad id f p else s
    | none => s
  let s := s.write (solveWord r) r.word
  forEach (List.range c.batchCount) s fun s j => s.wr (c.batchAddr + 32 * j + 0x10) 1 0

/-- Whether a waiting solve may start: one of 16 controllers and its set are free (R220). -/
def State.solveCan (s : State) (i : Nat) (r : SolveRec) : Bool :=
  !r.started && !r.frozen && decide (s.solvesActive i < 16) && !s.setBusy i r

/-- SOLVE_START: a waiting SOLVE starts once a controller and its set are free (R220). -/
def solveStart (i : Nat) (s : State) : State :=
  let s := s.purgeSolves i
  match (s.inst i).solves.find? (s.solveCan i) with
  | some r => s.startSolve i r
  | none => s
def execSolveStart (i : Nat) (s : State) : Host.Outcome State Fault Refusal := .next (solveStart i s)

/-! ### The result (R223, R224, Tables 10.5 and 10.5a) -/

/-- The slot that a solve returns (R223). -/
def SolveRec.slot (r : SolveRec) : Nat := if r.published then r.pubSlot else if r.cmd.swarm then r.warmSlot else 0xFF

/-- Its outcome (Table 10.5a); a FINAL after a violation without FACTOR_FP32 has no row (log 29). -/
def SolveRec.outcome (r : SolveRec) : Nat :=
  if r.slot = 0xFF then 4
  else if r.final then
    if r.viol = 0 then 0 else if r.lastFactor = 3 then 3 else (Config.openOutcome r.tag).toNat
  else if r.published ∧ r.lastPhase ≠ 1 ∧ r.lastPhase ≠ 3 then 1 else 2

/-- The 576 bytes of the result area (Table 10.5). -/
def SolveRec.area (r : SolveRec) (status : Nat) : List Byte :=
  let outer := if r.published then r.pubOuter else 0
  let log := r.pivots.flatMap fun p => leBytes 4 p.1 ++ leBytes 4 p.2.toNat
  leBytes 1 status ++ leBytes 1 r.outcome ++ leBytes 1 r.slot ++ leBytes 1 outer ++
  leBytes 1 (if r.published then r.pubSweep else 0) ++ zeros 3 ++ leBytes 4 r.tag ++
  leBytes 4 (if outer = 0 then nan32 else r.pubResid).toNat ++ leBytes 8 (r.firstStart.getD 0).toNat ++ leBytes 8 r.endBeat.toNat ++
  leBytes 4 r.reg ++ leBytes 4 r.viol ++ leBytes 4 (r.firstViol.getD 0xFFFFFFFF) ++ leBytes 4 r.lateWrites ++ zeros 16 ++
  log ++ List.replicate (512 - log.length) 0xFF

/-- The status of a solve that has ended (R12, R224, R225). -/
def State.solveStatus (s : State) (i : Nat) (r : SolveRec) : Nat :=
  let base := if r.final then (if r.viol ≠ 0 then St.rangeViolation else if r.reg ≠ 0 then St.okRegularised else 0)
    else r.forced.getD St.deadlineMiss
  match s.solveLaunch i r.tag with
  | some l => codeMax base (s.launchCode l)
  | none => base

/-- Batch entries that report RANGE count as violations (R226). -/
def State.batchRanges (s : State) (c : Cmd) : Nat :=
  ((List.range c.batchCount).filter fun j => decide (s.rd (c.batchAddr + 32 * j + 0x10) 1 = 3)).length

/-- The result of a solve that has ended is fixed: its violations, status and result area, and the slot for the set's
next solve (R224, R226). -/
def State.closeSolve (s : State) (i : Nat) (r : SolveRec) : State :=
  let n := s.batchRanges r.cmd
  let r : SolveRec := { r with viol := satInc 32 r.viol n }
  let s := if n = 0 then s else (s.solvEvent i r.tag 1 St.rangeViolation).incReg (R.solvViol i) n
  let st := s.solveStatus i r
  let r : SolveRec := { r with status := some st }
  let s := s.putSolve i r
  let x := s.inst i
  let w := x.warmSlots.filter fun e => !decide (e.1 = r.first ∧ e.2.1 = r.count)
  (s.setInst i { x with warmSlots := w ++ [(r.first, r.count, r.slot)] }).write r.cmd.resultAddr (r.area st)

/-- The audit record of a solve (R289 to R291). -/
def State.auditSolve (s : State) (i : Nat) (r : SolveRec) (st : Nat) : State :=
  let outer := if r.published then r.pubOuter else 0
  let sweep := if r.published then r.pubSweep else 0
  let at_ := r.cmd.solAddr + r.slot * r.cmd.solLen
  let d := if r.slot = 0xFF then (s, zeros 32) else s.hashRanges i [(at_, r.cmd.solLen)] fun _ => sha256 (s.rbs at_ r.cmd.solLen)
  let h := match r.inputs with
    | some h => (d.1, h)
    | none => d.1.hashInputs i
  h.1.newAudit i
    { kind := 2, status := st, id := BitVec.ofNat 64 r.tag,
      detail := BitVec.ofNat 64 (r.outcome + r.slot * 2 ^ 8 + outer * 2 ^ 16 + sweep * 2 ^ 24), beat := r.endBeat, state := d.2,
      out := r.pattern, program := r.program, badInputs := h.2.outside, inputs := h.2.digest, tuned := nbit (fieldAt r.image 6 2) 0,
      noWeights := false, cert := [], tag := some r.tag }

/-- Cores of a frozen solve that have not started leave it (R222). -/
def State.dropUnstarted (s : State) (i tag : Nat) : State :=
  let f (l : LaunchRec) : LaunchRec :=
    if l.inst = i ∧ l.solve = some tag then
      { l with left := l.left.filter fun k => !l.unstarted.contains k, unstarted := [], loads := [], swaps := [] } else l
  { s with launches := s.launches.map f }

/-- SOLVE_RESULT_POST: the controller of a solve that has ended writes the result area and posts the completion. Where
an audit record is due it comes first: the completion waits until the record has been written, and a wait for a free entry
of the ring counts as a slip with cause HOST (R224, R289, R292). -/
def solveResultPost (i tag : Nat) (s : State) : State :=
  match (s.inst i).solves.find? fun r => decide (r.tag = tag) with
  | none => s
  | some r =>
    if r.posted ∨ !(r.final || r.frozen) then s
    else
      let s := if r.frozen then s.dropUnstarted i tag else s
      let s := if r.status.isSome then s else
        let s := s.closeSolve i r
        match (s.inst i).solves.find? fun e => decide (e.tag = tag) with
        | some e => if s.auditSolves i then s.auditSolve i e (e.status.getD 0) else s
        | none => s
      if (s.inst i).audits.any fun j => decide (j.tag = some tag) then
        (if s.fld (R.audSize i) 0 16 ≤ (s.inst i).auditUsed then s.holdSolve i tag else s)
      else
        match (s.inst i).solves.find? fun e => decide (e.tag = tag) with
        | none => s
        | some e =>
          let st := e.status.getD 0
          let s := (s.putSolve i { e with posted := true }).incReg (R.solvCount i)
          let s := if st = St.deadlineMiss then s.incReg (R.solvMiss i) else s
          let held (l : LaunchRec) : LaunchRec := match e.ringHeld with
            | some b => l.slip 5 (s.beat - b).toNat false
            | none => l
          (s.completeWith e.cmd st 0 0 ((s.solveLaunch i tag).map held)).purgeSolves i
def execSolveResultPost (i tag : Nat) (s : State) : Host.Outcome State Fault Refusal := .next (solveResultPost i tag s)

/-! ### SOLVE (R219, R220) -/

/-- The result area of a SOLVE whose deadline has passed at its acceptance: OUTCOME 4, no start (R220, log 29). -/
def missedArea (c : Cmd) (beat : W64) : List Byte :=
  ({ tag := 0, cmd := c, first := 0, count := 0, deadline := 0, frozen := true, endBeat := beat } : SolveRec).area St.deadlineMiss

/-- A SOLVE that has passed its first four checks, with its image. -/
def State.doSolve (s : State) (c : Cmd) (x : Image) : State :=
  let i := c.inst
  let first := c.setFirst
  let count := c.setCount
  let root := s.fld (R.curvDispatch i) 0 12
  let rootN := s.fld (R.curvDispatch i) 12 13
  let cores := x.placed.map (·.core)
  if !s.ownsHbm i c.solAddr (2 * c.solLen) || !s.ownsHbm i c.resultAddr 576 || (decide (c.batchCount ≠ 0) && !s.ownsHbm i c.batchAddr (32 * c.batchCount)) then
    s.complete c St.ownership
  else if setsMeet first count root rootN then s.complete c St.illegalInState
  else if !c.sload && cores.any fun k => decide ((s.core k).st ≠ .loaded) then s.complete c St.illegalInState
  else if c.sload && (setCores s first count).any fun k => decide ((s.core k).st = .faulted) then s.complete c St.illegalInState
  else if c.sload && cores.any fun k => (s.core k).loadRefused false then s.complete c St.programBusy
  else if c.fld 0x28 8 ≤ c.accepted.toNat then
    ((s.write c.resultAddr (missedArea c s.beat)).incReg (R.solvMiss i)).complete c St.deadlineMiss
  else
    let s := s.purgeSolves i
    let y := s.inst i
    let r : SolveRec := { tag := y.solveTag + 1, cmd := c, first := first, count := count, deadline := BitVec.ofNat 64 (c.fld 0x28 8), image := x.bytes }
    let s := s.setInst i { y with solveTag := y.solveTag + 1, solves := y.solves ++ [r] }
    if s.solveCan i r then s.startSolve i r else s

/-- SOLVE: the checks of R220 in order; one that passes starts, or waits for a controller and its set. -/
def solve (q : Nat) (s : State) : State :=
  match s.nextOf q Op.solve fun _ => true with
  | none => s
  | some c =>
    let s := s.startCmd c
    if !s.bit (R.solvCfg c.inst) 0 then s.complete c St.illegalInState
    else if !s.ownsSet c.inst c.setFirst c.setCount then s.complete c St.ownership
    else
      match s.readImage (c.fld 0x18 8) c.setFirst c.setCount with
      | .bad => s.complete c St.badDescriptor
      | .memory w => s.imageMemory c w
      | .ok x => if !x.certOk || solveFieldsBad c then s.complete c St.badDescriptor else s.doSolve c x
def execSolve (q : Nat) (s : State) : Host.Outcome State Fault Refusal := .next (solve q s)

/-! ### Announcements (R221, R222) -/

/-- A counted announcement: PHASE, PFLAGS, OUTER, SWEEP, SLOT and RESID of the solve word. -/
def SolveRec.announce (r : SolveRec) (b : Nat → Nat → Nat) (beat : W64) : SolveRec × Bool :=
  let phase := b 0x28 1
  let flags := b 0x29 1
  let slot := b 0x2C 1
  let pub := nbit flags 0 || nbit flags 1
  let bad := pub && (decide (1 < slot) || (r.published && decide (slot = r.pubSlot)))
  let r : SolveRec :=
    { r with lastPhase := phase, lastFactor := if phase = 1 ∨ phase = 3 then phase else r.lastFactor, outerNow := b 0x2A 1 }
  let r : SolveRec :=
    if pub && !bad then
      { r with published := true, pubSlot := slot, pubOuter := b 0x2A 1, pubSweep := b 0x2B 1, pubResid := BitVec.ofNat 32 (b 0x30 4) }
    else r
  (if nbit flags 1 then { r with final := true, endBeat := beat } else r, bad)

/-- SOLVE_ANNOUNCE: an increment of counter 61 before the deadline: the controller reads the announcement, subtracts 1
from counter 61 and adds 1 to counter 60; FINAL ends the solve (R221, R222). -/
def solveAnnounce (i tag : Nat) (s : State) : State :=
  match (s.inst i).solves.find? fun r => decide (r.tag = tag) with
  | none => s
  | some r =>
    if !r.started ∨ r.final ∨ r.frozen ∨ r.deadline ≤ s.beat ∨ s.cnt r.first 61 = 0 then s
    else
      let z := r.announce (fun o n => s.rd (solveWord r + o) n) s.beat
      let h := if z.1.final then s.solveInputs i else (s, none)
      let s := h.1.putSolve i { z.1 with inputs := h.2 }
      let s := if z.2 then s.solvEvent i tag 4 St.internal else s
      (s.takeCnt r.first 61 1).addCnt r.first 60 1 (gangUid r.first 3) 0 false
def execSolveAnnounce (i tag : Nat) (s : State) : Host.Outcome State Fault Refusal := .next (solveAnnounce i tag s)

/-! ### Freeze (R222) -/

/-- A solve frozen now: placed cores that have not started never start; `forced` is a code other than DEADLINE_MISS. -/
def State.freezeSolve (s : State) (i tag : Nat) (forced : Option Nat) : State :=
  let h := s.solveInputs i
  let s := h.1
  let x := s.inst i
  let stop (q : SolveRec) : SolveRec :=
    if q.tag = tag then { q with frozen := true, endBeat := s.beat, forced := forced, inputs := h.2,
                                 warmSlot := if q.started then q.warmSlot else s.prevSlot i q.first q.count } else q
  s.setInst i { x with solves := x.solves.map stop }

/-- SOLVE_FREEZE: no FINAL has counted when the controller's counter reaches DEADLINE_BEAT (R222). -/
def solveFreeze (i tag : Nat) (s : State) : State :=
  match (s.inst i).solves.find? fun r => decide (r.tag = tag) with
  | none => s
  | some r =>
    if r.final ∨ r.frozen ∨ s.beat < r.deadline then s
    else ((s.freezeSolve i tag none).dropUnstarted i tag).solvEvent i tag 0 St.deadlineMiss
def execSolveFreeze (i tag : Nat) (s : State) : Host.Outcome State Fault Refusal := .next (solveFreeze i tag s)

/-- Whether a core of a frozen solve is at a supernode boundary: WAITING, HALTED, behind a completed Factor-class
instruction, or about to issue a Sync-class wait, BEAT.WAIT or another supernode (R222, R344, log 29). -/
def Core.atSupernode (c : Core) : Bool :=
  match c.st with
  | .waiting | .halted => true
  | .running =>
    c.boundary || match c.held with
      | some (.waitCnt ..) | some (.barWait ..) | some (.flagWait ..) | some (.beatWait ..) | some (.cholSn ..) | some (.ldltSn ..) => true
      | _ => false
  | _ => false

/-- SUPERNODE_BOUNDARY_END: a core of a frozen solve at a supernode boundary issues nothing further and ends as if by
END of kind 0; the passes of a HALTED one that were suspended go on (R222, R344). -/
def supernodeBoundaryEnd (k : Nat) (s : State) : State :=
  let c := s.core k
  if s.solveFrozen k && c.atSupernode then
    match s.drainTap k with
    | .error f => s.fault k f 4
    | .ok s =>
      (s.setCore k { s.core k with after := .toFrozen, held := none, wait := none, waitTarget := none, gangWait := false,
                                   suspended := false, resumeDue := false }).setSt k .draining
  else s
def execSupernodeBoundaryEnd (k : Nat) (s : State) : Host.Outcome State Fault Refusal := .next (supernodeBoundaryEnd k s)

/-- SOLVE_ABANDON_TIMEOUT: cores of a frozen solve that have not all ended within SOLV_ABANDON_MAX beats: ABANDON_SLOW
is set, with a class A alarm (R222). -/
def solveAbandonTimeout (i tag : Nat) (s : State) : State :=
  match (s.inst i).solves.find? fun r => decide (r.tag = tag) with
  | none => s
  | some r =>
    let s := if r.frozen then s.dropUnstarted i tag else s
    if !r.frozen ∨ r.slow ∨ !s.solveRuns i tag ∨ (s.beat - r.endBeat).toNat < (s.reg (R.abandonMax i)).toNat then s
    else
      let s := (s.putSolve i { r with slow := true }).setBit (R.solvStat i) 5 true
      (s.setReg (R.solvLast i) (BitVec.ofNat 64 (tag % 65536 + 6 * 2 ^ 16))).raise 1 St.internal .solv 5 pcieUid i
def execSolveAbandonTimeout (i tag : Nat) (s : State) : Host.Outcome State Fault Refusal := .next (solveAbandonTimeout i tag s)

end Sys2Proof.Machine
end

