-- ==== Sys2Proof/Machine/Deadlock.lean ====
section
/-! DEFINITION. The deadlock detector (R245, R246). -/

namespace Sys2Proof.Machine

/-- Whether a transfer, collective chunk, update post, SIGNAL or solve-controller action of an instance is in flight. A SIGNAL
that its queue still holds back (R233) is not. -/
def State.dlBusy (s : State) (i : Nat) : Bool :=
  let x := s.inst i
  (s.xfers.any fun t => decide (t.inst = i)) ||
  (s.colls.any fun c => decide (c.inst = i) && ((c.formed && !c.done) || (c.done && !c.posters.isEmpty) || !c.kept.isEmpty)) ||
  (s.inbox.any fun m => decide (m.typ = Msg.chunk ∧ s.jobInst m.job = some i)) || !x.gate.posts.isEmpty ||
  ((s.coresOf i).any fun k => !(s.core k).signals.isEmpty) || (x.accepted.any fun c => decide (c.opcode = Op.signal ∧ s.nextCmd c.q = some c)) ||
  x.solves.any fun r => (r.started && !r.posted && (r.final || r.frozen)) ||
    (r.started && !r.final && !r.frozen && decide (s.cnt r.first 61 ≠ 0))

/-- The conditions of R245. -/
def State.dlCond (s : State) (i : Nat) : Bool :=
  let l := s.coresOf i
  let in_ (st : CoreSt) : Bool := l.any fun k => decide ((s.core k).st = st)
  let onFlag := l.any fun k => decide ((s.core k).st = .waiting) && match (s.core k).wait with | some (.flag _) => true | _ => false
  decide ((s.inst i).st = .active) && in_ .waiting && !in_ .running && !in_ .draining && !in_ .halted && !s.dlBusy i &&
    (!onFlag || s.bit R.dlCfg 2)

/-- The detector's timer of every ACTIVE instance at a beat. -/
def State.dlTick (s : State) : State :=
  forEach (s.insts.map (·.1)) s fun s i =>
    let x := s.inst i
    let since := if s.dlCond i then some (x.dlSince.getD s.beat) else none
    if x.dlSince = since then s else s.setInst i { x with dlSince := since }

/-- A graph edge: a WAITING core and the object it waits on (R246). -/
def State.dlEdge (s : State) (k : Nat) : W64 :=
  let u := (coreUid k 0 0).toNat
  match (s.core k).wait with
  | some (.cnt n _) => BitVec.ofNat 64 (u + n * 2 ^ 32 + clOf k * 2 ^ 44 + 2 ^ 60)
  | some (.bar n _) => BitVec.ofNat 64 (u + n * 2 ^ 32 + 2 * 2 ^ 60)
  | some (.flag n) => BitVec.ofNat 64 (u + n * 2 ^ 32 + 3 * 2 ^ 60)
  | none => BitVec.ofNat 64 u

/-- The wait graph written and frozen, or, while it is frozen, the detection counted (R246). -/
def State.dlGraph (s : State) (i : Nat) : State :=
  if s.bit R.dlStat 0 then s.setFld R.dlStat 25 7 (min 127 (s.fld R.dlStat 25 7 + 1))
  else
    let l := ((s.coresOf i).filter fun k => decide ((s.core k).st = .waiting)).take 256
    let e := l.map s.dlEdge
    let s := forEach ((List.range e.length).zip e) s fun s p => s.setReg (R.dlGraph p.1) p.2
    s.setReg R.dlStat (BitVec.ofNat 64 (1 + i * 2 ^ 8 + e.length * 2 ^ 16))

/-- Every pending WAIT of an instance completes with DEADLOCK. -/
def State.dlWaits (s : State) (i : Nat) : State :=
  forEach ((s.inst i).accepted.filter fun c => decide (c.opcode = Op.wait) && c.started.isSome) s fun s c => s.complete c St.deadlock

/-- Every solve in flight is frozen as at its deadline, to complete with DEADLOCK. -/
def State.dlSolves (s : State) (i : Nat) : State :=
  forEach ((s.inst i).solves.filter fun r => r.started && !r.final && !r.frozen) s fun s r =>
    (s.freezeSolve i r.tag (some St.deadlock)).dropUnstarted i r.tag

/-- DEADLOCK: the conditions have held for SYNC_DL_TIMEOUT beats: the alarm, the graph, the WAITs, the solves and,
with HALT, the cores (R246). -/
def deadlock (i : Nat) (s : State) : State :=
  let x := s.inst i
  match x.dlSince with
  | none => s
  | some b =>
    if !s.bit R.dlCfg 0 ∨ !x.dlArmed ∨ !s.dlCond i ∨ (s.beat - b).toNat < (s.reg R.dlTimeout).toNat then s
    else
      let s := s.raise 1 St.deadlock .sync 0 pcieUid i
      let s := ((s.dlGraph i).dlWaits i).dlSolves i
      let s := s.setInst i { s.inst i with dlArmed := false }
      if s.bit R.dlCfg 1 then forEach (s.coresOf i) s State.haltCore else s
def execDeadlock (i : Nat) (s : State) : Host.Outcome State Fault Refusal := .next (deadlock i s)

end Sys2Proof.Machine
end

