-- ==== Sys2Proof/Machine/Beat.lean ====
section
/-! DEFINITION. The beat and its counters (R33, R335), rates (R31, R32), REFCLK (R35), beat samples (R36)
and alignment (R48 to R54). -/

namespace Sys2Proof.Machine

/-! ### Engine counters at a beat (R335) -/

/-- The least stall reason of a core that holds for every engine: 0 while HALTED, or DRAINING for a halt, or
held by trace back-pressure (`full`); 2 while WAITING (Table 16.2). -/
def Core.coreReason (c : Core) (full : Bool) : Option Nat :=
  if c.st = .halted ∨ (c.st = .draining ∧ c.after = .toHalted) ∨ full then some 0
  else if c.st = .waiting then some 2 else none

/-- The stall reason of a held instruction: 1 before its target beat, 7 when the slots of its engine, the
posts in flight or the tap queue are full, else 5 (Table 16.2). -/
def Core.heldReason (c : Core) (beat : W64) (i : Instr) : Nat :=
  let early := match c.target i with
    | some t => decide (beat < t)
    | none => false
  let wait := match i with
    | .beatWait .. => true
    | _ => false
  let full := match i with
    | .xferPost .. | .collPost .. | .updApply .. => decide (16 ≤ c.posts)
    | .mmaF16 .. | .mmaF32 .. => c.tap.isSome && decide (8 ≤ c.tapQ.length)
    | _ => false
  if early || wait then 1 else if c.slotsFull i || full then 7 else 5

/-- What an engine of a core did in a beat: none is idle, `some none` busy, `some (some r)` stalled for r. A
running pass is taken as productive unless it is suspended or the observation says otherwise; `full` says that a full
trace ring holds issue of the core. -/
def Core.beatClass (c : Core) (beat : W64) (k : Nat) (full : Bool) (obs : List StallObs) (e : Nat) : Option (Option Nat) :=
  let x := c.slots' e
  let works := x.running.isSome || !x.tail.isEmpty || (decide (e = 4) && decide (c.folding ≠ 0))
  let seen := (obs.find? fun o => decide (o.core = k ∧ o.engine = e)).map (·.reason)
  let owed : Option Nat := match c.held with
    | some i => if engOf i = e then some (c.heldReason beat i) else none
    | none => none
  let waits : Option Nat := if e = 0 ∧ c.st = .waiting then some 2 else none
  if (works && seen.isNone && !(decide (c.st = .halted) && c.suspended)) || (decide (e = 0) && decide (c.issuedAt = some beat)) then some none
  else if c.st = .halted then some (some 0)
  else if works || owed.isSome || waits.isSome then
    let l := [c.coreReason full, seen, owed, waits].filterMap id
    some (some (l.foldl min 7))
  else none

/-- A record with a beat counted in it. -/
def EngRec.tick (r : EngRec) : Option (Option Nat) → EngRec
  | none => r
  | some none => { r with busy := r.busy + 1 }
  | some (some n) => { r with stall := sput (fun _ => 0) r.stall n (sget (fun _ => 0) r.stall n + 1) }

/-- The engines of one core at the end of a beat; the records as they then stand, at the start of the next one, are kept
for snapshots (R337). -/
def Core.tick (c : Core) (beat : W64) (k : Nat) (full : Bool) (obs : List StallObs) : Core :=
  let d := [0, 1, 2, 3, 4, 5].foldl (fun d e => d.setEng e ((d.eng' e).tick (c.beatClass beat k full obs e))) c
  { d with engBeat := d.eng }

/-- The gang controller of a cluster at a beat: busy while ganged passes enter or are in flight, stalled
while issued ones wait for their peers; its record is kept for snapshots likewise. -/
def Cluster.tick (c : Cluster) : Cluster :=
  let r : Option (Option Nat) :=
    if c.gangRun.isSome || !c.gangTail.isEmpty then some none else if c.gangIssued.isEmpty then none else some (some 5)
  { c with engBeat := c.eng.tick r, eng := c.eng.tick r }

/-- The alignment's run of beats with a phase error below 100 ps (R51). -/
def State.phaseOk (s : State) : Bool :=
  let e := sext 32 (s.reg R.phaseErr).toNat
  decide (-100 < e ∧ e < 100)

/-- BEAT: while the beat PLL is locked, every engine classifies the beat and the counter advances by one (R33,
R335); WAITs for the beat and deadlock timers look at the new count (R237, R245). -/
def beatTick (obs : List StallObs) (s : State) : State :=
  if !s.bit R.beatStat 0 then s
  else
    let cores := s.cores.map fun e => (e.1, e.2.tick s.beat e.1 (s.traceHolds e.1) obs)
    let clusters := s.clusters.map fun e => (e.1, e.2.tick)
    let run := if s.fld R.alignStat 0 2 = 1 ∧ s.phaseOk ∧ ¬s.stepDue then s.alignRun + 1 else 0
    let s := { s with cores := cores, clusters := clusters, beat := s.beat + 1, beatsCounted := s.beatsCounted + 1, alignRun := run }
    (s.wakeHost 3).dlTick
def execBeat (obs : List StallObs) (s : State) : Host.Outcome State Fault Refusal := .next (beatTick obs s)

/-! ### REFCLK and rates -/

/-- REFCLK_LOSS: the PLL runs on its internal oscillator; the counter keeps advancing (R35). -/
def refclkLoss (s : State) : State :=
  if s.bit R.beatStat 0 && !s.bit R.beatStat 2 then
    ((s.setBit R.beatStat 2 true).setBit R.beatStat 1 true).raise 1 St.internal .beat 1 pcieUid
  else s
def execRefclkLoss (s : State) : Host.Outcome State Fault Refusal := .next (refclkLoss s)

/-- REFCLK_RETURN: the PLL re-locks by slewing; REFCLK_HOLD returns to 0 (R35). -/
def refclkReturn (s : State) : State := s.setBit R.beatStat 2 false
def execRefclkReturn (s : State) : Host.Outcome State Fault Refusal := .next (refclkReturn s)

/-- The rate factor of a die, in 1/1,024 of nominal. -/
def State.rateOf (s : State) (d : Nat) : Nat := sget (fun _ => 0x400) s.actualRate d

/-- RATE_CHANGE: only the rate of the die changes (R31); it lies between 0.78 and 1.18 (R30, R32). -/
def rateChange (die rate : Nat) (s : State) : State :=
  if die < 16 ∧ 0x31F ≤ rate ∧ rate ≤ 0x4B8 then { s with actualRate := sput (fun _ => 0x400) s.actualRate die rate } else s
def execRateChange (die rate : Nat) (s : State) : Host.Outcome State Fault Refusal := .next (rateChange die rate s)

/-- RATE_MONITOR_REFRESH: BEAT_RATE takes the die's present rate; it is 0 before fuse load (R32, Table 2.4). -/
def rateMonitorRefresh (die : Nat) (s : State) : State :=
  if die < 16 ∧ s.power.fusesLoaded then s.setReg (R.beatRate die) (BitVec.ofNat 64 (s.rateOf die)) else s
def execRateMonitorRefresh (die : Nat) (s : State) : Host.Outcome State Fault Refusal := .next (rateMonitorRefresh die s)

/-- BEAT_SAMPLE: the management controller keeps the pair of beat count and calendar time (R36). -/
def beatSample (time : Nat) (sync : Bool) (s : State) : State :=
  { s with power := { s.power with samples := s.power.samples ++ [(s.beat, time, sync)] } }
def execBeatSample (time : Nat) (sync : Bool) (s : State) : Host.Outcome State Fault Refusal := .next (beatSample time sync s)

/-! ### Alignment (Table 2.3) -/

def State.alignSt (s : State) : Nat := s.fld R.alignStat 0 2
def State.setAlign (s : State) (n : Nat) : State := s.setFld R.alignStat 0 2 n
def State.isRoot (s : State) : Bool := s.bit R.alignCfg 1

/-- The port that a module steers to: the alternate while the parent is down, none at the root (R52). -/
def State.parentPort (s : State) : Nat :=
  if s.parentDown && s.bit R.alignCfg 5 then s.fld R.alignCfg 6 3 else s.fld R.alignCfg 2 3

/-- ACTIVE_PORT follows the port steered to: 0 at the root and in FREE (Table 2.4). -/
def State.showPort (s : State) : State :=
  s.setFld R.alignStat 8 3 (if s.isRoot ∨ s.alignSt = 0 then 0 else s.parentPort)

/-- ROOT, PARENT_PORT, ALT_EN and ALT_PORT change at once; HOPS and the phase error are 0 at the root (R54). -/
def State.alignFields (s : State) (v : W64) : State :=
  let old := s.fld R.alignCfg 2 3
  let s := s.setReg R.alignCfg (BitVec.ofNat 64 ((s.reg R.alignCfg).toNat % 2 + v.toNat % 512 / 2 * 2))
  let s := if s.fld R.alignCfg 2 3 ≠ old ∧ s.alignSt ≠ 3 then { s with parentDown := false } else s
  let s := if s.isRoot then (s.setFld R.alignStat 16 8 0).setReg R.phaseErr 0 else s
  s.showPort

/-- ENABLE written from 0 to 1 with no instance ACTIVE: ACQUIRE, where the counter is stepped once to the parent's
count, now where it is known, else at the parent's first marker; the root's counter follows its own REFCLK (R48,
R51). DESIGN CHOICE (log 54): where an instance is ACTIVE, a write of ENABLE from 0 to 1 leaves the bit 0. -/
def State.alignOn (s : State) (parent : Option W64) : State :=
  if s.bit R.alignCfg 0 ∨ s.anyActive then s
  else
    let s := { (s.setBit R.alignCfg 0 true).setAlign 1 with alignRun := 0, parentDown := false, stepDue := false }
    let step : State := match parent with
      | some n => { s with beat := n }
      | none => { s with stepDue := true }
    (if s.isRoot ∨ !s.bit R.beatStat 0 then s else step).showPort

/-- ENABLE written from 1 to 0 with no instance ACTIVE: FREE, with no step (R51). -/
def State.alignOff (s : State) : State :=
  if !s.bit R.alignCfg 0 ∨ s.anyActive then s
  else ({ (s.setBit R.alignCfg 0 false).setAlign 0 with alignRun := 0, parentDown := false, stepDue := false } : State).showPort

/-- ALIGN_ENABLE: a write with ENABLE 1; `parent` is the parent's count. -/
def alignEnable (fn : Nat) (v : W32) (parent : W64) (s : State) : State :=
  if fnPhysical fn then
    let s := s.alignFields (v.zeroExtend 64)
    if v.getLsbD 0 then s.alignOn (some parent) else s
  else s
def execAlignEnable (fn : Nat) (v : W32) (parent : W64) (s : State) : Host.Outcome State Fault Refusal :=
  .next (alignEnable fn v parent s)

/-- ALIGN_DISABLE: a write with ENABLE 0. -/
def alignDisable (fn : Nat) (v : W32) (s : State) : State :=
  if fnPhysical fn then
    let s := s.alignFields (v.zeroExtend 64)
    if v.getLsbD 0 then s else s.alignOff
  else s
def execAlignDisable (fn : Nat) (v : W32) (s : State) : Host.Outcome State Fault Refusal := .next (alignDisable fn v s)

/-- ALIGN_CFG_WRITE: a write that keeps ENABLE: the other fields change at once (R54). -/
def alignCfgWrite (fn : Nat) (v : W32) (s : State) : State :=
  if fnPhysical fn then s.alignFields (v.zeroExtend 64) else s
def execAlignCfgWrite (fn : Nat) (v : W32) (s : State) : Host.Outcome State Fault Refusal := .next (alignCfgWrite fn v s)

/-- ALIGN_LOCK: 4,096 consecutive beats with a phase error below 100 ps (R51). -/
def alignLock (s : State) : State := if s.alignSt = 1 ∧ 4096 ≤ s.alignRun ∧ ¬s.stepDue then s.setAlign 2 else s
def execAlignLock (s : State) : Host.Outcome State Fault Refusal := .next (alignLock s)

/-- PARENT_PORT_FAIL: the port steered to is not UP: the alternate takes over in LOCKED, else HOLDOVER (R52). -/
def parentPortFail (s : State) : State :=
  if s.alignSt ≠ 2 ∨ s.isRoot ∨ s.fld (R.linkStat s.parentPort) 0 2 = 2 then s
  else if s.bit R.alignCfg 5 && !s.parentDown then ({ s with parentDown := true } : State).showPort
  else { s.setAlign 3 with parentDown := true, holdoverAt := s.beat }
def execParentPortFail (s : State) : Host.Outcome State Fault Refusal := .next (parentPortFail s)

/-- HOLDOVER_TIMEOUT: 1 ms (500,000 beats) in HOLDOVER: LOST, and a class A alarm (R52). -/
def holdoverTimeout (s : State) : State :=
  if s.alignSt ≠ 3 ∨ (s.beat - s.holdoverAt).toNat < 500000 ∨ s.bit R.alignStat 2 then s
  else (s.setBit R.alignStat 2 true).raise 1 St.internal .beat 2 pcieUid
def execHoldoverTimeout (s : State) : Host.Outcome State Fault Refusal := .next (holdoverTimeout s)

/-- PARENT_PORT_RECOVER: the parent or the alternate port is UP again: HOLDOVER returns to LOCKED by slewing (Table 2.3). -/
def parentPortRecover (port : Nat) (s : State) : State :=
  if s.alignSt ≠ 3 ∨ s.fld (R.linkStat port) 0 2 ≠ 2 then s
  else if port = s.fld R.alignCfg 2 3 then ({ s.setAlign 2 with parentDown := false } : State).showPort
  else if s.bit R.alignCfg 5 && decide (port = s.fld R.alignCfg 6 3) then (s.setAlign 2).showPort
  else s
def execParentPortRecover (port : Nat) (s : State) : Host.Outcome State Fault Refusal := .next (parentPortRecover port s)

end Sys2Proof.Machine
end

