-- ==== Sys2Proof/Machine/Windows.lean ====
section
/-! DEFINITION. Fault domains and recovery windows (R311, R315). -/

namespace Sys2Proof.Machine

/-- The error queue of an instance (0 to 63), of the module (64) or of the management path (65). -/
def State.errQ (s : State) (k : Nat) : ErrQ := sget (fun _ => {}) s.err.queues k
def State.setErrQ (s : State) (k : Nat) (q : ErrQ) : State :=
  s.setErr { s.err with queues := sput (fun _ => {}) s.err.queues k q }

/-- The fault domain of a class A record (Table 14.5): a port, the instance that it names or that owns the
unit's cluster, the die of the unit or of the HBM channel, an I/O die, or the module. -/
def State.domainOf (s : State) (r : ErrRec) : Nat :=
  let die := uidDie r.uid
  let sub := uidSub r.uid
  let onIo := decide (die = 16 ∨ die = 17)
  if onIo ∧ 0x10 ≤ sub ∧ sub < 0x18 then 88 + (sub - 0x10)
  else if die < 16 ∧ uidEng r.uid ≠ 7 then
    match s.owner (uidCl r.uid) with
    | some i => i
    | none => 64 + die
  else if 20 ≤ die ∧ die < 28 then 64 + 2 * (die - 20) + sub / 16 % 2
  else if r.inst < 64 then r.inst
  else if die < 16 then 64 + die
  else if onIo ∧ sub ≠ 0 ∧ sub ≠ 1 then 80 + (die - 16)
  else 127

/-- The first rung above 1 of a domain (Table 14.5). -/
def firstRung (d : Nat) : Nat := if d < 64 ∨ (88 ≤ d ∧ d < 96) then 2 else 3

/-- The window that holds a slot. -/
def State.windowAt (s : State) (slot : Nat) : Option Window := sget (fun _ => none) s.err.windows slot

/-- A slot given a window, or emptied. -/
def State.setWindow (s : State) (slot : Nat) (w : Option Window) : State :=
  s.setErr { s.err with windows := sput (fun _ => none) s.err.windows slot w }

/-- The slot of a domain's open window, if any. -/
def State.slotOf (s : State) (d : Nat) : Option Nat :=
  [0, 1, 2, 3].find? fun n => match s.windowAt n with
    | some w => decide (w.domain = d)
    | none => false

/-- Whether a rung-2 action is under way in a domain: its instance is being reset, or its port trained again (R315). -/
def State.recovering (s : State) (d : Nat) : Bool :=
  if d < 64 then decide ((s.inst d).st = .resetting) else decide (88 ≤ d ∧ d < 96 ∧ s.fld (R.linkStat (d - 88)) 0 2 = 1)

/-- A slot freed: the first window that waits takes it, from this beat (R315). -/
def State.freeSlot (s : State) (slot : Nat) : State :=
  match s.err.waiting with
  | [] => s.setWindow slot none
  | w :: r => (s.setWindow slot (some { w with since := s.beat })).setErr
      { (s.setWindow slot (some { w with since := s.beat })).err with waiting := r }

/-- The recovery of a domain has completed: its window closes (R315). -/
def State.closeWindow (s : State) (d : Nat) : State :=
  match s.slotOf d with
  | some n => s.freeSlot n
  | none => s.setErr { s.err with waiting := s.err.waiting.filter fun w => decide (w.domain ≠ d) }

/-- A rung-2 or rung-3 action has begun in a domain, whose window holds a slot or waits for one (R315). -/
def State.beginWindow (s : State) (d : Nat) : State :=
  match s.slotOf d with
  | some n => s.setWindow n ((s.windowAt n).map fun w => { w with begun := true })
  | none =>
    let mark (w : Window) : Window := if w.domain = d then { w with begun := true } else w
    s.setErr { s.err with waiting := s.err.waiting.map mark }

end Sys2Proof.Machine
end

