-- ==== Sys2Proof/Machine/Links.lean ====
section
/-! DEFINITION. Eloava ports (R253 to R263, R278): training, frames with go-back-N retry, credits and virtual
channels, and forwarding. -/

namespace Sys2Proof.Machine

/-! ### Port states (Table 12.7): 0 DOWN, 1 TRAINING, 2 UP, 3 FAILED -/

def State.portSt (s : State) (p : Nat) : Nat := s.fld (R.linkStat p) 0 2
/-- A port's state changed; outside UP its delay measurement is not current (R49, Table 2.4). -/
def State.setPortSt (s : State) (p n : Nat) : State :=
  let s := s.setFld (R.linkStat p) 0 2 n
  if n = 2 then s else s.setBit (R.portDelay p) 31 false

/-- A port enters FAILED, with its class A alarm; collectives and checkpoint copies that need it end (R260,
R274, R326). -/
def State.portFail (s : State) (p : Nat) : State :=
  let s := (s.setPortSt p 3).setBit (R.linkStat p) 3 true
  ((s.raise 1 St.internal .link 3 (portUid p)).failColls p).ckptPortFail p

/-- The flits per class of a VC, and its weight, as the registers hold them. -/
def State.vcBuf (s : State) (p vc : Nat) : Nat := s.fld (R.vcBuf p (vc / 2)) (16 * (vc % 2)) 16
def State.vcWeight (s : State) (p vc : Nat) : Nat := s.fld (R.vcWeight p (vc / 4)) (8 * (vc % 4)) 8

/-- A port that leaves UP or starts training: what it had on the wire is gone; what waits to be sent stays. -/
def LinkSt.cleared (l : LinkSt) (beat : W64) : LinkSt :=
  { outq := l.outq, sentFrames := l.sentFrames, since := beat }

def LinkSt.weight (l : LinkSt) (vc : Nat) : Nat := sget (fun _ => 0) l.weights vc

/-- What a training takes from LINK_VC_BUF and LINK_VC_WEIGHT as it starts (R278). -/
def LinkSt.configured (l : LinkSt) (buf weight : Nat → Nat) : LinkSt :=
  let all (f : Nat → Nat) : Sparse Nat := (List.range 8).foldl (fun m vc => sput (fun _ => 0) m vc (f vc)) []
  { l with bufs := all buf, weights := all weight }

/-- A write of LINK_CFG: setting ENABLE trains the port, clearing it returns the port to DOWN from any state (R254,
R278). After a start-up that stopped no port trains (R370). -/
def State.linkCfgWrite (s : State) (p : Nat) (v : W32) : State :=
  let was := s.bit (R.linkCfg p) 0
  let s := s.rawWrite (R.linkCfg p) (v.zeroExtend 64)
  if v.getLsbD 0 && !was then
    if s.power.stopped then s
    else if 2048 < ((List.range 8).map (s.vcBuf p)).sum then s.sticky .link (R.linkStat p) 4 St.internal (uid := portUid p)
    else ((s.setPortSt p 1).setLink p (((s.link p).cleared s.beat).configured (s.vcBuf p) (s.vcWeight p))).beginWindow (88 + p)
  else if !v.getLsbD 0 then
    ((s.setPortSt p 0).setFld (R.linkPeer p) 31 1 0).setLink p ((s.link p).cleared s.beat)
  else s

/-- LINK_ENABLE: a write that sets ENABLE. -/
def linkEnable (fn p : Nat) (v : W32) (s : State) : State :=
  if fnPhysical fn ∧ p < 8 ∧ v.getLsbD 0 then s.linkCfgWrite p v else s
def execLinkEnable (fn p : Nat) (v : W32) (s : State) : Host.Outcome State Fault Refusal := .next (linkEnable fn p v s)

/-- LINK_DISABLE: a write that clears ENABLE. -/
def linkDisable (fn p : Nat) (v : W32) (s : State) : State :=
  if fnPhysical fn ∧ p < 8 ∧ ¬v.getLsbD 0 then s.linkCfgWrite p v else s
def execLinkDisable (fn p : Nat) (v : W32) (s : State) : Host.Outcome State Fault Refusal := .next (linkDisable fn p v s)

/-- LINK_TRAINING_COMPLETE: coordinates and ports have been exchanged. A peer that CHECK_PEER does not accept leaves
the port DOWN with MISWIRED; else it is UP with the weights and credits that its training took up (R254, R278). -/
def linkTrainingComplete (p coord peer : Nat) (s : State) : State :=
  if s.portSt p ≠ 1 then s
  else
    let up := !s.bit (R.linkCfg p) 1 || decide (coord = s.fld (R.linkExpect p) 0 24 ∧ peer = (p + 4) % 8)
    let s := s.setReg (R.linkPeer p) (BitVec.ofNat 64 (coord % 2 ^ 24 + peer % 8 * 2 ^ 24 + up.toNat * 2 ^ 31))
    if up then
      let was := s.link p
      let buf (vc : Nat) : Nat := sget (fun _ => 0) was.bufs vc
      let credit (m : Sparse Nat) (key : Nat) : Sparse Nat := sput (fun _ => 0) m key (buf (key / 2))
      let l := { (was.cleared s.beat).configured buf was.weight with credits := (List.range 16).foldl credit [] }
      ((s.setPortSt p 2).setLink p l).closeWindow (88 + p)
    else (s.setPortSt p 0).sticky .link (R.linkStat p) 2 St.internal (uid := portUid p)
def execLinkTrainingComplete (p coord peer : Nat) (s : State) : Host.Outcome State Fault Refusal :=
  .next (linkTrainingComplete p coord peer s)

/-- LINK_TRAINING_TIMEOUT: 50 ms (25,000,000 beats) in TRAINING (R254). -/
def linkTrainingTimeout (p : Nat) (s : State) : State :=
  if s.portSt p ≠ 1 ∨ (s.beat - (s.link p).since).toNat < 25000000 then s else s.portFail p
def execLinkTrainingTimeout (p : Nat) (s : State) : Host.Outcome State Fault Refusal := .next (linkTrainingTimeout p s)

/-! ### Sending -/

/-- How a port tells instances apart: the instance of a message, 64 where none holds its job, and the weight of an
instance (INST_WEIGHT.LINK, 0 acts as 1). -/
structure PortShare where
  inst : Message → Nat
  weight : Nat → Nat

/-- The shares of this module's instances; traffic of no instance has the weight of reset (log 33). -/
def State.linkShare (s : State) : PortShare :=
  { inst := fun m => (s.jobInst m.job).getD 64, weight := fun i => if i = 64 then 16 else max 1 (s.fld (R.instWeight i) 16 8) }

def LinkSt.hasCredit (l : LinkSt) (m : Message) : Bool := decide (0 < sget (fun _ => 0) l.credits (2 * m.vc + m.dclass))

/-- Whether an earlier message of the same source, destination and VC still waits in front of message `m` (R263). -/
def LinkSt.behind (l : LinkSt) (m : Message) : Bool :=
  (l.outq.takeWhile fun n => decide (n ≠ m)).any fun n => decide (n.vc = m.vc ∧ n.src = m.src ∧ n.dst = m.dst)

/-- The first waiting message of an instance on a VC that credit lets go and that none of its own source, destination and
VC waits in front of: such messages leave in order (R261, R263). -/
def LinkSt.first (l : LinkSt) (x : PortShare) (vc i : Nat) : Option Message :=
  l.outq.find? fun m => decide (m.vc = vc ∧ x.inst m = i) && l.hasCredit m && !l.behind m

/-- The turns on a VC after one instance's: each instance with something to send takes as many slots in its turn as its
weight, less what it has sent beyond earlier turns; one that owes a whole turn or more passes. The answer is the
instance whose turn comes, its slots, and what the others owe then (R230, R261). -/
def LinkSt.nextTurn (l : LinkSt) (x : PortShare) (vc t : Nat) : Option (Nat × Nat × Sparse Nat) :=
  let debt (i : Nat) : Nat := sget (fun _ => 0) l.instDebt (65 * vc + i)
  let ready := (((List.range 65).map fun n => (t + 1 + n) % 65).filter fun i => (l.first x vc i).isSome)
  let passes (i : Nat) : Nat := debt i / x.weight i
  match ready with
  | [] => none
  | i0 :: _ =>
    let least := ready.foldl (fun n i => min n (passes i)) (passes i0)
    match ready.find? fun i => decide (passes i = least) with
    | none => none
    | some i =>
      let before := ready.takeWhile fun j => decide (j ≠ i)
      let pay (m : Sparse Nat) (j : Nat) : Sparse Nat :=
        sput (fun _ => 0) m (65 * vc + j) (if j = i then 0 else debt j - x.weight j * (least + (before.contains j).toNat))
      some (i, x.weight i - (debt i - x.weight i * least), ready.foldl pay l.instDebt)

/-- The message of a VC that takes the next slot, its instance, the slots left of that instance's turn, and what the
instances owe: the message whose flits are on their way, else one of the instance whose turn it is (R230, R258, R261). -/
def LinkSt.pick (l : LinkSt) (x : PortShare) (vc : Nat) : Option (Message × Nat × Nat × Sparse Nat) :=
  let t := sget (fun _ => 0) l.instTurn vc
  let left := sget (fun _ => 0) l.instLeft vc
  match sget (fun _ => none) l.headMsg vc with
  | some m => if l.hasCredit m then some (m, t, left, l.instDebt) else none
  | none =>
    match if left = 0 then none else l.first x vc t with
    | some m => some (m, t, left, l.instDebt)
    | none => (l.nextTurn x vc t).bind fun r => (l.first x vc r.1).map fun m => (m, r)

/-- Whether a VC holds a flit that its credit lets it send (R261). -/
def LinkSt.sendable (l : LinkSt) (x : PortShare) (vc : Nat) : Bool := (l.pick x vc).isSome

/-- The VC that takes the next slot by weighted round robin, with the slots left of its turn; a VC of weight 0 takes a
slot that no other can use (R261). -/
def LinkSt.choose (l : LinkSt) (x : PortShare) : Option (Nat × Nat) :=
  if l.turnLeft ≠ 0 ∧ l.sendable x l.turn then some (l.turn, l.turnLeft)
  else
    let order := (List.range 8).map fun n => (l.turn + 1 + n) % 8
    match order.find? fun vc => decide (l.weight vc ≠ 0) && l.sendable x vc with
    | some vc => some (vc, l.weight vc)
    | none => (order.find? fun vc => decide (l.weight vc = 0) && l.sendable x vc).map fun vc => (vc, 1)

/-- A frame being filled: the link, the slots and flits so far, and the messages whose last flit has gone. -/
structure Filling where
  l : LinkSt
  slots : List (Nat × Bool) := []
  flits : List Byte := []
  gone : List Message := []

/-- A flit put in the next slot. -/
def Filling.put (x : Filling) (vc : Nat) (head : Bool) (flit : List Byte) : Filling :=
  { x with slots := x.slots ++ [(vc, head)], flits := x.flits ++ flit }

/-- An idle slot: a one-flit IDLE message on VC0, whose bytes are all zero (R258). -/
def Filling.idle (x : Filling) : Filling := x.put 0 true (zeros 256)

/-- One flit slot filled (R258, R261). A slot beyond an instance's turn, which a message that has begun may need, is owed
by the instance. -/
def Filling.slot (sh : PortShare) (x : Filling) (_ : Nat) : Filling :=
  let l := x.l
  match l.choose sh with
  | none => x.idle
  | some (vc, left) =>
    match l.pick sh vc with
    | none => x.idle
    | some (m, i, mine, owed) =>
      let key := 2 * vc + m.dclass
      let n := sget (fun _ => 0) l.headFlits vc
      let last := decide (msgFlits m ≤ n + 1)
      let owed := if mine = 0 then sput (fun _ => 0) owed (65 * vc + i) (sget (fun _ => 0) owed (65 * vc + i) + 1) else owed
      let l := { l with turn := vc, turnLeft := left - 1,
                        credits := sput (fun _ => 0) l.credits key (sget (fun _ => 0) l.credits key - 1),
                        instTurn := sput (fun _ => 0) l.instTurn vc i,
                        instLeft := sput (fun _ => 0) l.instLeft vc (mine - 1), instDebt := owed,
                        headFlits := sput (fun _ => 0) l.headFlits vc (if last then 0 else n + 1),
                        headMsg := sput (fun _ => none) l.headMsg vc (if last then none else some m) }
      let x := ({ x with l := l } : Filling).put vc (n = 0) (m.flit n)
      if last then { x with l := { l with outq := l.outq.erase m }, gone := x.gone ++ [m] } else x

/-- The marker of a frame sent now: the beat and the phase within it, which the manual does not fix (R257). -/
def State.marker (s : State) : Nat := s.beat.toNat % 2 ^ 53 * 2048 + (Config.freeValue s.freeCtr).toNat % 2000

/-- A frame leaves: it carries the present ACK and NACK, and a marker when its FSEQ is a multiple of 64 (R257). The sender
keeps its last 128 frames (R260). -/
def State.emit (s : State) (p : Nat) (l : LinkSt) (b : FrameBody) (again : Bool) : State :=
  let f := b.frame ((l.rxNext + 65535) % 65536) l.sendNack (if b.fseq % 64 = 0 then some s.marker else none)
  let kept := if again then l.kept else (l.kept ++ [b]).drop (l.kept.length + 1 - 128)
  { s with freeCtr := s.freeCtr + 1 }.setLink p { l with kept := kept, sentFrames := l.sentFrames ++ [f] }

/-- A frame sent again is counted, and writes a class C record (R260, R294, Table 14.1). -/
def State.frameAgain (s : State) (p : Nat) : State :=
  (s.incReg (R.retryCount p)).raise 3 St.internal .link (openDetail .link St.internal) (portUid p)

/-- FRAME_SEND: the next frame of a port that is UP: one to be resent, else a new one with the flits that fill
its 40 slots and the credit of the pair FSEQ mod 16 (R256 to R261). -/
def frameSend (p : Nat) (s : State) : State :=
  let l := s.link p
  if s.portSt p ≠ 2 then s
  else
    match l.resend with
    | b :: r => (s.frameAgain p).emit p { l with resend := r } b true
    | [] =>
      let x := (List.range 40).foldl (Filling.slot s.linkShare) { l := l }
      let l := x.l
      let key := l.fseq % 16
      let due := sget (fun _ => 0) l.freed key
      let b : FrameBody := { fseq := l.fseq, credit := min 65535 due, slots := x.slots, area := x.flits }
      let s := s.emit p { l with fseq := (l.fseq + 1) % 65536, freed := sput (fun _ => 0) l.freed key (due - b.credit) } b false
      forEach x.gone s State.freeFlits
def execFrameSend (p : Nat) (s : State) : Host.Outcome State Fault Refusal := .next (frameSend p s)

/-! ### Receiving -/

/-- A received message: of an unassigned type it is dropped, counted and a class B event (R259); for this module it waits
for delivery; else it is forwarded (R262). -/
def State.landed (s : State) (p : Nat) (m : Message) : State :=
  let m := { m with came := some (p, m.dclass) }
  if m.typ = Msg.idle then s
  else if Msg.telemetry < m.typ then
    ((s.incReg R.dropCount).raise 2 St.internal .coll (openDetail .coll St.internal) (portUid p)).freeFlits m
  else s.relay m (some ((p + 4) % 8))

/-- ACK and NACK of an intact frame: on NACK the sender resends from ACK + 1, unless it is already doing so for the same
frame; 16 consecutive NACKs that name one frame put the port in FAILED (R260, log 33). -/
def State.answered (s : State) (p : Nat) (f : Frame) : State :=
  let l := s.link p
  if f.nack then
    let same := decide (l.nackRun ≠ 0 ∧ l.nackOf = f.ack)
    let n := if same then l.nackRun + 1 else 1
    let r := if same && !l.resend.isEmpty then l.resend
      else l.kept.dropWhile fun g => decide (g.fseq ≠ (f.ack + 1) % 65536)
    let s := s.setLink p { l with nackRun := n, nackOf := f.ack, resend := r }
    if 16 ≤ n then s.portFail p else s
  else s.setLink p { l with nackRun := 0 }

/-- A frame discarded: NACK is set until the frame after the last good one comes; `lost` more frames have to be sent again
(R260). -/
def LinkSt.discard (l : LinkSt) (lost : Nat) : LinkSt := { l with sendNack := true, rxLost := min 65535 (max l.rxLost lost) }

/-- The phase of the port steered to, from a marker: own time minus the parent's, in ps (R49, Table 2.4); a step of
ACQUIRE that is due sets the counter to the parent's count, while no instance is ACTIVE (R33, R51). -/
def State.steer (s : State) (p : Nat) (f : Frame) : State :=
  match f.mark with
  | none => s
  | some m =>
    let s := match f.delay with
      | some d => s.setReg (R.portDelay p) (BitVec.ofNat 64 (d % 2 ^ 24 + 2 ^ 31))
      | none => s
    let st := s.fld R.alignStat 0 2
    if s.fld R.alignStat 8 3 = p ∧ (st = 1 ∨ st = 2) ∧ ¬s.bit R.alignCfg 1 then
      let due := s.stepDue && decide (st = 1) && s.bit R.beatStat 0 && !s.anyActive
      let now : W64 := BitVec.ofNat 64 (m / 2048 + (m % 2048 + s.fld (R.portDelay p) 0 24) / 2000)
      let s : State := if due then { s with beat := now, stepDue := false } else s
      let own : Int := (s.beat.toNat % 2 ^ 53 * 2000 + f.phase : Nat)
      let theirs : Int := (m / 2048 * 2000 + m % 2048 + s.fld (R.portDelay p) 0 24 : Nat)
      (s.setReg R.phaseErr (BitVec.ofNat 64 (wrapInt 32 (own - theirs)))).setFld R.alignStat 16 8 f.hops
    else s

/-- FRAME_RECEIVE: a frame that fails its check, or is not the next one, is discarded whole and NACKed; the next one gives
its credit, its marker, and the messages whose last flit it carries (R257 to R263). Its messages take cause LINK_RETRY
where the peer had to send it again (R260). -/
def frameReceive (p : Nat) (f : Frame) (s : State) : State :=
  if s.portSt p ≠ 2 then s
  else
    let s := (s.incReg (R.fecCorr p) f.corr).incReg (R.fecUncorr p) f.uncorr
    if !f.good then s.setLink p ((s.link p).discard ((s.link p).rxLost + 1))
    else
      let s := s.setLink p { s.link p with since := s.beat }
      let s := s.answered p f
      let l := s.link p
      if s.portSt p ≠ 2 then s
      else if f.fseq ≠ l.rxNext then
        let ahead := (f.fseq + 65536 - l.rxNext) % 65536
        s.setLink p (l.discard (if ahead < 32768 then ahead + 1 else 0))
      else
        let key := f.fseq % 16
        let x := ({ parts := l.rxParts, hit := l.rxHit } : Inflow).frame f (decide (l.rxLost ≠ 0))
        let s := s.setLink p { l with rxNext := (l.rxNext + 1) % 65536, sendNack := false, rxLost := l.rxLost - 1,
                                      rxParts := x.parts, rxHit := x.hit,
                                      credits := sput (fun _ => 0) l.credits key (sget (fun _ => 0) l.credits key + f.credit) }
        forEach x.whole (s.steer p f) fun s m => s.landed p m
def execFrameReceive (p : Nat) (f : Frame) (s : State) : Host.Outcome State Fault Refusal := .next (frameReceive p f s)

/-- LANE_LOCK_LOSS: lane lock has been lost for 1 µs (R260). -/
def laneLockLoss (p : Nat) (s : State) : State := if s.portSt p = 2 then s.portFail p else s
def execLaneLockLoss (p : Nat) (s : State) : Host.Outcome State Fault Refusal := .next (laneLockLoss p s)

/-- FRAME_CHECK_TIMEOUT: no frame has passed its check for 1 µs (500 beats) (R260). -/
def frameCheckTimeout (p : Nat) (s : State) : State :=
  if s.portSt p ≠ 2 ∨ (s.beat - (s.link p).since).toNat < 500 then s else s.portFail p
def execFrameCheckTimeout (p : Nat) (s : State) : Host.Outcome State Fault Refusal := .next (frameCheckTimeout p s)

end Sys2Proof.Machine
end

