-- ==== Sys2Proof/Machine/Errors.lean ====
section
/-! DEFINITION. Error records and their two paths (R294 to R300), the patrol scrub (R303) and recovery windows (R315). -/

namespace Sys2Proof.Machine

/-! ### Records (Table 14.2) -/

/-- The 32 bytes of a record. -/
def ErrRec.bytes (r : ErrRec) : List Byte :=
  leBytes 4 r.seq ++ leBytes 1 r.cls ++ leBytes 1 r.code ++ leBytes 1 r.block ++ leBytes 1 r.detail ++ leBytes 4 r.uid.toNat ++
  leBytes 1 r.inst ++ leBytes 1 r.flags ++ leBytes 2 r.cmd ++ leBytes 8 r.beat.toNat ++ leBytes 4 r.count ++ leBytes 4 r.lastUid.toNat

/-- The coalescing key: the UID with its cluster, core and sub-unit fields zero, and CODE (R297). -/
def ErrRec.key (r : ErrRec) : Nat × Nat × Nat := (uidDie r.uid, uidEng r.uid, r.code)

/-- A record that stands for one more occurrence, of `r` (R297). -/
def ErrRec.merge (e r : ErrRec) : ErrRec :=
  { e with count := satInc 32 e.count 1, lastUid := r.lastUid, flags := e.flags ||| 1 }

/-! ### Queues: instances 0 to 63, the module queue and the management path -/

def moduleQ : Nat := 64
def mgmtQ : Nat := 65


/-- Entries of a ring: 2^6 to 2^16, values outside clamped (Table 14.7). -/
def State.eqSize (s : State) (k : Nat) : Nat := 2 ^ max 6 (min 16 (s.fld (R.eqCfg k) 2 5))
def State.eqFree (s : State) (k : Nat) : Nat := s.eqSize k - (s.errQ k).used
def State.eqOn (s : State) (k : Nat) : Bool := s.bit (R.eqCfg k) 0

/-- A record written at the tail of a ring in host memory or HBM, with the interrupt of classes A and B. -/
def State.eqWrite (s : State) (k : Nat) (r : ErrRec) : State :=
  let q := s.errQ k
  let t := s.fld (R.eqPtr k) 16 16
  let a := (s.reg (R.eqBase k)).toNat / 32 * 32 + 32 * t
  let b := ({ r with seq := q.seq + 1 } : ErrRec).bytes
  let s := if s.bit (R.eqCfg k) 1 then s.hbmWrite a b else s.write (hostBase + a) b
  let s := s.setErrQ k { q with seq := q.seq + 1, used := q.used + 1 }
  let s := s.setFld (R.eqPtr k) 16 16 ((t + 1) % s.eqSize k)
  if s.bit (R.eqIrq k) 11 ∧ r.cls ≤ 2 then s.irq (if k = moduleQ then 0 else k) (s.fld (R.eqIrq k) 0 11) else s

/-- The oldest waiting class A record is written while the queue is on and has a free entry; the overflow records follow
(R297). -/
def State.eqNext (s : State) (k : Nat) : State :=
  if !s.eqOn k ∨ s.eqFree k = 0 then s
  else
    let q := s.errQ k
    match q.pendA, q.overflow with
    | r :: l, _ => (s.setErrQ k { q with pendA := l }).eqWrite k r
    | [], r :: l => (s.setErrQ k { q with overflow := l }).eqWrite k r
    | [], [] => s

/-- Waiting class A records written as entries become free. -/
def State.eqFlush (s : State) (k : Nat) : State :=
  let q := s.errQ k
  forEach (List.range (q.pendA.length + q.overflow.length)) s fun s _ => s.eqNext k

/-- A dropped record counted in ERR_Q_DROP.B or .C. -/
def State.eqDrop (s : State) (k : Nat) (c : Bool) : State :=
  let lo := if c then 16 else 0
  s.setFld (R.eqDrop k) lo 16 (satInc 16 (s.fld (R.eqDrop k) lo 16) 1)

/-- A class A record takes a key of a queue, or is merged: into the record of its key, or, with all 512 keys in use, into the
overflow record of its die (R297). -/
def ErrQ.takeA (q : ErrQ) (r : ErrRec) : ErrQ × Bool :=
  let same (e : ErrRec) : Bool := decide (e.key = r.key)
  let die (e : ErrRec) : Bool := decide (uidDie e.uid = uidDie r.uid)
  if q.pendA.any same then ({ q with pendA := q.pendA.map fun e => if same e then e.merge r else e }, true)
  else if q.pendA.length < 512 then ({ q with pendA := q.pendA ++ [r] }, false)
  else if q.overflow.any die then ({ q with overflow := q.overflow.map fun e => if die e then e.merge r else e }, true)
  else ({ q with overflow := q.overflow ++ [{ r with flags := r.flags ||| 4 }] }, false)

/-- Whether class B of a code is within ERR_CFG.B_RATE, and the window of 2^20 beats with it (R298). -/
def State.rateB (s : State) (q : ErrQ) (r : ErrRec) : Bool × ErrQ :=
  let l := q.bSeen.filter fun e => decide ((s.beat - e.2).toNat < 2 ^ 20)
  if (l.filter fun e => decide (e.1 = r.code)).length < s.fld R.errCfg 8 8 then
    (true, { q with bSeen := l ++ [(r.code, s.beat)] })
  else (false, { q with bSeen := l })

/-- A record delivered to one host queue (R297 to R299). -/
def State.toQueue (s : State) (k : Nat) (r : ErrRec) : State :=
  match r.cls with
  | 1 =>
    let x := (s.errQ k).takeA r
    let s := s.setErrQ k x.1
    (if x.2 then s.incReg (R.eqCoal k) else s).eqFlush k
  | 2 =>
    if !s.eqOn k ∨ s.eqFree k = 0 then s.eqDrop k false
    else
      let x := s.rateB (s.errQ k) r
      let s := s.setErrQ k x.2
      if x.1 then s.eqWrite k r else s.eqDrop k false
  | _ => if !s.eqOn k ∨ s.eqFree k = 0 ∨ s.eqFree k < s.fld (R.eqCfg k) 8 16 then s.eqDrop k true else s.eqWrite k r

/-- A record delivered to the management controller: its log keeps the latest 4,096, and it is reported over PLDM: class A
always, class B under the rate limit, class C with MGMT_C (R296). -/
def State.toMgmt (s : State) (r : ErrRec) : State :=
  let q := s.errQ mgmtQ
  let r := { r with seq := q.seq + 1 }
  let x := s.rateB q r
  let report := match r.cls with
    | 1 => true
    | 2 => x.1
    | _ => s.bit R.errCfg 0
  let s := s.setErrQ mgmtQ { (if r.cls = 2 then x.2 else q) with seq := q.seq + 1 }
  let all := s.err.log ++ [r]
  s.setErr { s.err with log := all.drop (all.length - 4096),
                        reported := if report then s.err.reported ++ [r] else s.err.reported }

/-! ### The first-fault snapshot (R300) -/

/-- The sticky register and the last-event register of a reporting block. -/
def ctxOf (r : ErrRec) : Option Nat × Option Nat :=
  let i := r.inst
  match r.block with
  | 0 => (some R.devPwrStat, none)
  | 1 => (some (if r.detail = 2 then R.alignStat else R.beatStat), none)
  | 3 => (some R.dlStat, none)
  | 4 => if i < 64 then (some (R.cmpStat i), some (R.cmpLast i)) else (some R.errStat, none)
  | 5 => (some (R.cntStat i), none)
  | 6 => (some (R.dbgStat i), none)
  | 7 => (some (R.gateErr i), some (R.gateLast i))
  | 8 => (some (R.curvStat i), some (R.curvLast i))
  | 9 => (some (R.solvStat i), some (R.solvLast i))
  | 10 => (some (R.linkStat (uidSub r.uid % 8)), none)
  | 11 => (some (if i < 64 then R.collStat i else R.collMstat), none)
  | 12 => (some R.ckptStat, none)
  | 13 => (some R.poolErr, some R.poolLast)
  | _ => (none, none)

/-- The 64 bytes of context of a record. -/
def State.ffCtx (s : State) (r : ErrRec) : List Byte :=
  let word (o : Option Nat) : List Byte := match o with
    | some off => leBytes 4 (s.reg off).toNat
    | none => zeros 4
  let b := if r.ctx.isEmpty then word (ctxOf r).1 ++ word (ctxOf r).2 else r.ctx
  (b ++ zeros 64).take 64

/-- The first class A record after VALID was cleared is frozen, with its context and FIRST_FAULT. -/
def State.firstFault (s : State) (r : ErrRec) : State × ErrRec :=
  if decide (r.cls = 1) && !s.bit R.errFfStat 0 then
    let r := { r with flags := r.flags ||| 8 }
    let b := ({ r with seq := (s.errQ mgmtQ).seq + 1 } : ErrRec).bytes
    let c := s.ffCtx r
    let s := forEach (List.range 4) s fun s n => s.setReg (R.errFfRec n) (BitVec.ofNat 64 (leNat ((b.drop (8 * n)).take 8)))
    let s := forEach (List.range 8) s fun s n => s.setReg (R.errFfCtx n) (BitVec.ofNat 64 (leNat ((c.drop (8 * n)).take 8)))
    (s.setBit R.errFfStat 0 true, r)
  else (s, r)

/-! ### Recovery windows (R315) -/

/-- The alarm of an escalation itself moves no window (log 32). -/
def ErrRec.isEscalate (r : ErrRec) : Bool := decide (r.block = 4 ∧ r.code = St.internal ∧ r.detail = 1 ∧ r.inst = 0xFF)

/-- A domain with an open window goes up one rung: the alarm, and a reset or retraining under way fails. -/
def State.escalate (s : State) (n d : Nat) (r : ErrRec) : State :=
  match s.windowAt n with
  | none => s
  | some w =>
    let rung := if w.rung = 1 then firstRung d else min 4 (w.rung + 1)
    let s := (s.setWindow n (some { w with rung := rung })).setBit R.errStat 1 true
    let s := s.raise 1 St.internal .err 1 r.uid
    let s := if d < 64 ∧ (s.inst d).st = .resetting then s.setInst d { s.inst d with st := .failed } else s
    if 88 ≤ d ∧ d < 96 ∧ s.portSt (d - 88) = 1 then s.portFail (d - 88) else s

/-- A class A record opens its domain's window in a free slot, waits for one, or escalates. -/
def State.windows (s : State) (r : ErrRec) : State :=
  if r.cls ≠ 1 ∨ r.isEscalate then s
  else
    let d := s.domainOf r
    match s.slotOf d with
    | some n => s.escalate n d r
    | none =>
      if s.err.waiting.any fun w => decide (w.domain = d) then s
      else
        let w : Window := { domain := d, rung := 1, since := s.beat, begun := s.recovering d }
        match [0, 1, 2, 3].find? fun n => (s.windowAt n).isNone with
        | some n => s.setWindow n (some w)
        | none => (s.setErr { s.err with waiting := s.err.waiting ++ [w] }).setBit R.errStat 0 true

/-- ERROR_RECORD_WRITE: the oldest raised record goes to the management path, the module queue and, where it names an
instance, that instance's queue, each on its own; waiting class A records are written where entries are free (R296). -/
def errorRecordWrite (s : State) : State :=
  match s.err.raised with
  | [] => forEach (List.range 65) s State.eqFlush
  | r :: l =>
    let s := s.setErr { s.err with raised := l }
    let x := s.firstFault r
    let r := x.2
    let s := (x.1.toMgmt r).toQueue moduleQ r
    let s := if r.inst < 64 then s.toQueue r.inst r else s
    s.windows r
def execErrorRecordWrite (s : State) : Host.Outcome State Fault Refusal := .next (errorRecordWrite s)

/-- RECOVERY_WINDOW_TIMEOUT: a window closes after ERR_WINDOW beats if no rung-2 or rung-3 action has begun (R315). -/
def recoveryWindowTimeout (slot : Nat) (s : State) : State :=
  match s.windowAt slot with
  | none => s
  | some w => if w.begun ∨ (s.beat - w.since).toNat < (s.reg R.errWindow).toNat then s else s.freeSlot slot
def execRecoveryWindowTimeout (slot : Nat) (s : State) : Host.Outcome State Fault Refusal := .next (recoveryWindowTimeout slot s)

/-! ### The patrol scrub (R303) -/

/-- Whether an address lies in memory of the module: HBM, or, in a cluster that exists, one of the 48 KiB of a scratchpad,
of the 4 MiB of a cluster buffer or of the 6 KiB (768 instructions) of a bank (Table 1.2). -/
def State.inModule (s : State) (a : Nat) : Bool :=
  if a < 2 ^ 40 then decide (a < hbmTop)
  else if a < 2 ^ 41 then s.exists' ((a - 2 ^ 40) / 2 ^ 24) && decide (a % 2 ^ 16 < 0xC000)
  else if a < 2 ^ 42 then s.exists' ((a - 2 ^ 41) / 2 ^ 22)
  else s.exists' ((a - 2 ^ 42) / 2 ^ 22) && decide (a % 2 ^ 13 < 0x1800)

/-- The failure warning: a fault domain has reported CKPT_WARN_THRESHOLD corrected errors within 2^24 beats (R329). -/
def State.noteCorrected (s : State) (d : Nat) : State :=
  let l := (s.err.corrected ++ [(d, s.beat)]).filter fun e => decide ((s.beat - e.2).toNat < 2 ^ 24)
  let s := s.setErr { s.err with corrected := l }
  let n := s.fld R.warnThreshold 0 16
  if n ≠ 0 ∧ n ≤ (l.filter fun e => decide (e.1 = d)).length then s.setBit R.ckptStat 1 true else s

/-- PATROL_SCRUB: a word is read: a corrected error writes a class C record; an uncorrectable word, found now or before,
stays uncorrectable and is named by a class A record (R303). -/
def patrolScrub (addr : Nat) (corrected : Bool) (s : State) : State :=
  let w := addr / 8 * 8
  let b : Block := if w < 2 ^ 40 then .mem else .unit
  if !s.inModule w then s
  else if corrected then
    if s.bad.contains w then s
    else
      let r : ErrRec := { cls := 3, code := St.ok, block := b.num, detail := openDetail b St.ok, uid := memUid w, beat := s.beat, lastUid := memUid w }
      (s.raiseRec r).noteCorrected (s.domainOf r)
  else
    let s := if s.bad.contains w then s else { s with bad := s.bad ++ [w] }
    s.raise 1 St.memoryUncorrectable b (openDetail b St.memoryUncorrectable) (memUid w)
def execPatrolScrub (addr : Nat) (corrected : Bool) (s : State) : Host.Outcome State Fault Refusal :=
  .next (patrolScrub addr corrected s)

end Sys2Proof.Machine
end

