-- ==== Sys2Proof/Machine/Instances.lean ====
section
/-! DEFINITION. The life cycle of an instance (R247, R248) and its reset (R249). -/

namespace Sys2Proof.Machine

/-! ### Resources -/

/-- Whether two ranges (base, count) have a member in common; a range of count 0 has none. -/
def rangesMeet (a b : Nat × Nat) : Bool := decide (a.2 ≠ 0 ∧ b.2 ≠ 0 ∧ a.1 < b.1 + b.2 ∧ b.1 < a.1 + a.2)

def State.flagRange (s : State) (i : Nat) : Nat × Nat := (s.fld (R.instFlags i) 0 12, s.fld (R.instFlags i) 12 13)
def State.vecRange (s : State) (i : Nat) : Nat × Nat := (s.fld (R.instVec i) 0 11, s.fld (R.instVec i) 12 12)
def State.barRange (s : State) (i : Nat) : Nat × Nat := (s.fld (R.instBars i) 0 8, s.fld (R.instBars i) 8 9)
def State.quota (s : State) (i : Nat) : Nat := s.fld (R.instQuota i) 0 18

/-- The instances that are not ABSENT, other than `i`. -/
def State.otherInsts (s : State) (i : Nat) : List Nat :=
  (s.insts.filter fun e => decide (e.1 ≠ i ∧ e.2.st ≠ .absent)).map (·.1)

/-- Whether a group, flag, vector or barrier range of an instance overlaps that of another (R247). -/
def State.instOverlap (s : State) (i : Nat) : Bool :=
  (s.otherInsts i).any fun j =>
    ((List.range 8).any fun n => decide ((s.reg (R.instGroups i n)) &&& (s.reg (R.instGroups j n)) ≠ 0)) ||
    rangesMeet (s.flagRange i) (s.flagRange j) || rangesMeet (s.vecRange i) (s.vecRange j) || rangesMeet (s.barRange i) (s.barRange j)

/-- Barriers of an instance in ascending index. -/
def State.barsOf (s : State) (i : Nat) : List Nat := (List.range 256).filter fun n => s.ownsBar i n

/-- An operation refused: INST_CTRL.ERROR holds the code (R247). -/
def State.instRefuse (s : State) (i code : Nat) : State := s.setInst i { s.inst i with err := code }
def State.setInstSt (s : State) (i : Nat) (st : InstSt) : State := s.setInst i { s.inst i with st := st }

/-! ### The context record (R248) -/

/-- Bytes of the record of an instance. -/
def State.ctxLen (s : State) (i : Nat) : Nat := 64 + 128 * (s.clustersOf i).length + 8 * (s.barRange i).2 + 512
def State.ctxAddr (s : State) (i : Nat) : Nat := (s.reg (R.instCtx i)).toNat
/-- Whether the record would leave backed HBM or meet the buddy region. -/
def State.ctxBad (s : State) (i : Nat) : Bool := decide (hbmTop - 2 * s.slotLen < s.ctxAddr i + s.ctxLen i)

/-- The header of the record of an instance. -/
def State.ctxHead (s : State) (i : Nat) : List Byte :=
  [0x57, 0x46, 0x43, 0x58] ++ leBytes 2 1 ++ zeros 2 ++ leBytes 4 (s.ctxLen i) ++ zeros 20 ++
  (List.range 8).flatMap fun n => leBytes 4 (s.reg (R.instGroups i n)).toNat

/-- The record of an instance's synchronisation state. -/
def State.ctxBytes (s : State) (i : Nat) : List Byte :=
  let flag (n : Nat) : Nat := (s.ownsFlag i n && s.flag n).toNat
  s.ctxHead i ++ ((s.clustersOf i).flatMap fun cl => (List.range 64).flatMap fun k => leBytes 2 (s.cnt cl k)) ++
  ((s.barsOf i).flatMap fun n => leBytes 4 (s.barArrived n) ++ leBytes 4 (s.barPhase n)) ++
  zeros (8 * ((s.barRange i).2 - (s.barsOf i).length)) ++
  (List.range 512).map fun b => BitVec.ofNat 8 (((List.range 8).map fun j => flag (8 * b + j) * 2 ^ j).sum)

/-- Whether the record in memory has the header that a RESTORE needs. -/
def State.ctxMatches (s : State) (i : Nat) : Bool :=
  let a := s.ctxAddr i
  let h := s.ctxHead i
  decide (s.rbs a 6 = h.take 6 ∧ s.rbs (a + 8) 4 = (h.drop 8).take 4 ∧ s.rbs (a + 32) 32 = h.drop 32)

/-- A barrier's ARRIVED and PHASE. -/
def State.setBar (s : State) (n arr ph : Nat) : State := (s.setFld (R.barArr n) 0 21 arr).setFld (R.barPhase n) 0 32 ph

/-- Counters, barriers and flags of an instance cleared. -/
def State.clearSync (s : State) (i : Nat) : State :=
  let s := forEach ((s.clusters.map (·.1)).filter fun cl => s.owns i cl) s fun s cl => s.setCluster cl { s.cluster cl with cnts := [], cntTags := [] }
  let s := forEach (s.barsOf i) s fun s n => s.setBar n 0 0
  forEach ((s.flags.map (·.1)).filter fun n => s.ownsFlag i n) s fun s n => s.setFlag n false

/-- Counters, barriers and flags of an instance loaded from its record. -/
def State.loadSync (s : State) (i : Nat) : State :=
  let a := s.ctxAddr i + 64
  let cls := s.clustersOf i
  let bars := s.barsOf i
  let b := a + 128 * cls.length
  let f := b + 8 * (s.barRange i).2
  let s := forEach ((List.range cls.length).zip cls) s fun s p =>
    forEach (List.range 64) s fun s k => s.setCnt p.2 k (s.rd (a + 128 * p.1 + 2 * k) 2)
  let s := forEach ((List.range bars.length).zip bars) s fun s p => s.setBar p.2 (s.rd (b + 8 * p.1) 4) (s.rd (b + 8 * p.1 + 4) 4)
  forEach ((List.range 4096).filter fun n => s.ownsFlag i n) s fun s n => s.setFlag n (nbit (s.rd (f + n / 8) 1) (n % 8))

/-! ### Operations (R247, Table 11.6) -/

/-- INST_CTRL.OP CONFIGURE: LINK is read at it; instance 0 always uses link 0 (R229). -/
def State.opConfigure (s : State) (i : Nat) : State :=
  if (s.inst i).st ≠ .absent then s.instRefuse i St.illegalInState
  else if s.instOverlap i ∨ s.poolGranules < s.quota i + ((s.otherInsts i).map s.quota).sum then s.instRefuse i St.ownership
  else s.setInst i { s.inst i with st := .configured, link := decide (i ≠ 0) && s.bit (R.instCfg i) 1 }
/-- CONFIGURE: the physical function configures an ABSENT instance (R247). -/
def configure (fn i : Nat) (s : State) : State := if fnPhysical fn ∧ i < 64 then s.opConfigure i else s
def execConfigure (fn i : Nat) (s : State) : Host.Outcome State Fault Refusal := .next (configure fn i s)

/-- INST_CTRL.OP ACTIVATE. -/
def State.opActivate (s : State) (i : Nat) (restore : Bool) : State :=
  if (s.inst i).st ≠ .configured then s.instRefuse i St.illegalInState
  else
    let up (s : State) : State := s.setInst i { s.inst i with st := .active, dlArmed := true, dlSince := none }
    if !restore then up (s.clearSync i)
    else if s.ctxBad i then s.instRefuse i St.badDescriptor
    else
      match s.badAmong [(s.ctxAddr i, s.ctxLen i)] false with
      | some w => (s.raise 1 St.memoryUncorrectable .inst (openDetail .inst St.memoryUncorrectable) (memUid w) i).instRefuse i St.memoryUncorrectable
      | none => if s.ctxMatches i then up (s.loadSync i) else s.instRefuse i St.badDescriptor
/-- ACTIVATE: a CONFIGURED instance becomes ACTIVE, with RESTORE from its context record (R247, R248). -/
def activate (fn i : Nat) (restore : Bool) (s : State) : State := if fnPhysical fn ∧ i < 64 then s.opActivate i restore else s
def execActivate (fn i : Nat) (restore : Bool) (s : State) : Host.Outcome State Fault Refusal := .next (activate fn i restore s)

/-- INST_CTRL.OP QUIESCE. -/
def State.opQuiesce (s : State) (i : Nat) (save : Bool) : State :=
  if (s.inst i).st ≠ .active then s.instRefuse i St.illegalInState
  else if save && s.ctxBad i then s.instRefuse i St.badDescriptor
  else s.setInst i { s.inst i with st := .quiescing, saveCtx := save }
/-- QUIESCE: an ACTIVE instance stops fetching (R247). -/
def quiesce (fn i : Nat) (save : Bool) (s : State) : State := if fnPhysical fn ∧ i < 64 then s.opQuiesce i save else s
def execQuiesce (fn i : Nat) (save : Bool) (s : State) : Host.Outcome State Fault Refusal := .next (quiesce fn i save s)

/-- Whether nothing of a QUIESCING instance is left (Table 11.6). -/
def State.instQuiet (s : State) (i : Nat) : Bool :=
  let x := s.inst i
  x.accepted.isEmpty && x.gate.posts.isEmpty && x.exports.isEmpty && !(s.xfers.any fun t => decide (t.inst = i)) &&
  !(s.colls.any fun c => decide (c.inst = i)) &&
  (s.coresOf i).all fun k =>
    (s.core k).signals.isEmpty && decide ((s.core k).st ≠ .running ∧ (s.core k).st ≠ .waiting ∧ (s.core k).st ≠ .draining)

/-- QUIESCE_COMPLETE: nothing of the instance is left: it becomes CONFIGURED, and with SAVE its context is saved (R247, R248). -/
def quiesceComplete (i : Nat) (s : State) : State :=
  let x := s.inst i
  if x.st ≠ .quiescing ∨ !s.instQuiet i then s
  else
    let s := if x.saveCtx then s.hbmWrite (s.ctxAddr i) (s.ctxBytes i) else s
    s.setInst i { s.inst i with st := .configured, saveCtx := false }
def execQuiesceComplete (i : Nat) (s : State) : Host.Outcome State Fault Refusal := .next (quiesceComplete i s)

/-! ### Reset (R249) -/

/-- Queues of an instance that are listed in the register file or hold something. -/
def State.queuesOf (s : State) (i : Nat) : List Nat :=
  let l := (s.regs.filterMap fun e => if 0x200000 ≤ e.1 ∧ e.1 < 0x400000 then some ((e.1 - 0x200000) / 0x80) else none) ++ s.queues.map (·.1)
  (List.range 16384).filter fun q => l.contains q && decide (s.qOwner q = i)

/-- The ABORTED_BY_RESET entry of an accepted command, with the slips of its programs so far: it is written at once and
may halt its queue, or is counted as lost where the ring is full (R238, R239, R249 step 2). -/
def State.abortCmd (s : State) (c : Cmd) : State :=
  if s.cqFull c.q then (if s.bit (R.qStat c.q) 3 then s else s.sticky .qctl (R.qStat c.q) 3 St.abortedByReset c.inst pcieUid c.id)
  else
    let s := s.postEntry c.q (s.entryFor c c.started St.abortedByReset 0 0 (s.launchOf c))
    s.setQueue c.q { s.queue c.q with halted := (s.queue c.q).halted || s.haltsOn c.q St.abortedByReset }

/-- Step 2 of R249, with the completions that have not reached their rings dropped (R241). -/
def State.abortCmds (s : State) (i : Nat) : State :=
  let s := forEach (s.queuesOf i) s fun s q =>
    let n := (s.queue q).waiting.length
    let s := s.setQueue q { s.queue q with waiting := [] }
    forEach (List.range n) s fun s _ => s.stale i
  let s := forEach (s.inst i).accepted s State.abortCmd
  s.setInst i { s.inst i with accepted := [] }

/-- Step 3 of R249 for one core: it drains to IDLE with both banks invalid; its comparators are disabled and its
signals dropped (R241, R344). -/
def State.resetCore (s : State) (i k : Nat) : State :=
  let c := s.core k
  let s := s.setCore k { c with cmps := [], signals := [], posts := 0, held := none, wait := none, waitTarget := none, gangWait := false,
                                tapQ := c.tapQ.take c.folding, after := .toReset }
  let s := forEach c.signals s fun s _ => s.stale i
  match c.st with
  | .running | .waiting => s.setSt k .draining
  | .draining => s
  | _ => s.drained k

/-- Register pages that return to their reset values with their instance (R186, R209, R227, R293, R317, R347). -/
def State.resetPages (s : State) (i : Nat) : State :=
  let count := s.reg (R.audCount i)
  let s := forEach [0x610000 + 0x1000 * i, 0x800000 + 0x1000 * i, 0xA00000 + 0x1000 * i, 0xC00000 + 0x1000 * i, 0xD00000 + 0x1000 * i,
      0xE00000 + 0x1000 * i] s fun s o => s.resetRange o (o + 0x1000)
  (s.resetRange (R.audCfg i) (R.audCfg i + 0x40)).setReg (R.audCount i) count

/-- What the instance keeps through its reset: what HBM holds of its roots, and the counts that never restart. -/
def Inst.reset (x : Inst) (beat : W64) (keep : Bool) : Inst :=
  { st := .resetting, err := x.err, link := x.link, gate := { posts := x.gate.posts }, rooted := x.rooted, checks := x.checks, auditSeq := x.auditSeq,
    resetAt := beat, keepHbm := keep }

/-- Items of the old generation that the shared engines hold (R249 step 4). -/
def State.orphans (s : State) (i : Nat) : Nat :=
  (s.xfers.filter fun t => decide (t.inst = i)).length + (s.colls.filter fun c => decide (c.inst = i)).length + (s.gate i).posts.length

/-- The checkpoint engine's work for an instance that is reset. -/
def State.resetCkpt (s : State) (i : Nat) : State :=
  let s := match s.ckpt.restore with
    | some r => if r.cmd.inst = i then (s.setCkpt { s.ckpt with restore := none }).sticky .ckpt R.ckptStat 5 St.abortedByReset i ckptUid r.cmd.id else s
    | none => s
  let s := match s.ckpt.drain with
    | some d => if d.1.inst = i then (s.setCkpt { s.ckpt with drain := none }).setBit R.ckptStat 6 false else s
    | none => s
  s.setCkpt { s.ckpt with requests := s.ckpt.requests.filter fun c => decide (c.inst ≠ i) }

/-- Steps 1 to 4 of R249. The error queue starts anew, but class A records that wait for an entry are never lost (R297). -/
def State.beginReset (s : State) (i : Nat) (keep : Bool) : State :=
  let qs := s.queuesOf i
  let s := s.abortCmds i
  let s := (s.resetRoots i).resetCkpt i
  let s := s.setReg (R.instGen i) ((s.reg (R.instGen i) + 1) &&& 0xFFFFFFFF)
  let s := forEach qs s fun s q => s.setBit (R.qCfg q) 0 false
  let s := forEach (s.coresOf i) s fun s k => s.resetCore i k
  let s := (s.resetPages i).setInst i ((s.inst i).reset s.beat keep)
  let q := s.errQ i
  let s := s.setErrQ i { pendA := q.pendA, overflow := q.overflow }
  (s.setReg (R.instOrphans i) (BitVec.ofNat 64 (s.orphans i))).beginWindow i

/-- INST_CTRL.OP RESET. -/
def State.opReset (s : State) (i : Nat) (keep : Bool) : State :=
  match (s.inst i).st with
  | .configured | .active | .quiescing => s.beginReset i keep
  | _ => s.instRefuse i St.illegalInState
/-- INSTANCE_RESET: the instance enters RESETTING (R249). -/
def instanceReset (fn i : Nat) (keep : Bool) (s : State) : State := if fnPhysical fn ∧ i < 64 then s.opReset i keep else s
def execInstanceReset (fn i : Nat) (keep : Bool) (s : State) : Host.Outcome State Fault Refusal := .next (instanceReset fn i keep s)

/-- FUNCTION_LEVEL_RESET: an FLR of a virtual function resets its instance, one of the physical function every
instance (R247). -/
def functionLevelReset (fn : Nat) (s : State) : State :=
  let l := if fn = 0 then s.insts.map (·.1) else if fn < 64 then [fn] else []
  forEach l s fun s i =>
    match (s.inst i).st with
    | .configured | .active | .quiescing => s.beginReset i false
    | _ => s
def execFunctionLevelReset (fn : Nat) (s : State) : Host.Outcome State Fault Refusal := .next (functionLevelReset fn s)

/-- Gang shapes of an instance's clusters return to 0 (R133). -/
def State.resetGangs (s : State) (i : Nat) : State :=
  forEach ((s.clusters.map (·.1)).filter fun cl => s.owns i cl) s fun s cl =>
    s.setCluster cl { s.cluster cl with shape := 0, shadow := 0, pending := false, gangIssued := [], gangRun := none, gangQueued := none, gangTail := [],
                                         gangCmps := [] }

/-- Every buffer of an instance is freed: one that a transfer still uses goes when that has ended (R157). -/
def State.freeAll (s : State) (i : Nat) : State :=
  forEach (s.buffers.filter fun b => decide (b.owner = i)) s fun s b =>
    if s.inFlight b then
      let mark (x : Buffer) : Buffer := if x.idx = b.idx then { x with freeing := true } else x
      { s with buffers := s.buffers.map mark }
    else s.dropBuffer b

/-- RESET_COMPLETE: no orphans are left and 2^19 beats have passed: buffers are freed or re-stamped, synchronisation
state and queue pointers cleared, and the state becomes CONFIGURED (R249 step 6). -/
def resetComplete (i : Nat) (s : State) : State :=
  let x := s.inst i
  let idle := (s.coresOf i).all fun k => decide ((s.core k).st = .idle)
  if x.st ≠ .resetting ∨ s.reg (R.instOrphans i) ≠ 0 ∨ (s.beat - x.resetAt).toNat < 2 ^ 19 ∨ !idle then s
  else
    let g : W32 := (s.reg (R.instGen i)).truncate 32
    let stamp (b : Buffer) : Buffer := if b.owner = i then { b with ownerGen := g } else b
    let s : State := if x.keepHbm then { s with buffers := s.buffers.map stamp } else s.freeAll i
    let s := (s.clearSync i).resetGangs i
    let s := forEach (s.queuesOf i) s fun s q => s.setQueue q { halted := (s.queue q).halted }
    let s := { s with launches := s.launches.filter fun l => decide (l.inst ≠ i) }
    (s.setInst i { s.inst i with st := .configured, keepHbm := false }).closeWindow i
def execResetComplete (i : Nat) (s : State) : Host.Outcome State Fault Refusal := .next (resetComplete i s)

/-- A unit that still holds work of an instance, or IOA:0: the poster of a transfer, of a collective's contribution or of an
update post in flight, or a core that is not yet IDLE (Table 14.2a). -/
def State.holder (s : State) (i : Nat) : W32 :=
  let posters := (s.xfers.filter fun t => decide (t.inst = i)).map (·.poster) ++
    (s.colls.filter fun c => decide (c.inst = i)).flatMap (fun c => c.posters.map (·.1)) ++ (s.gate i).posts.map UpdPost.poster
  match posters with
  | p :: _ => p.uid
  | [] =>
    match (s.coresOf i).find? fun k => decide ((s.core k).st ≠ .idle) with
    | some k => coreUid k 0 0
    | none => pcieUid

/-- INSTANCE_RESET_TIMEOUT: INST_RESET_TIMEOUT beats have passed: the state becomes FAILED, with a class A alarm (R249 step 7). -/
def instanceResetTimeout (i : Nat) (s : State) : State :=
  let x := s.inst i
  if x.st ≠ .resetting ∨ (s.beat - x.resetAt).toNat < (s.reg (R.resetTimeout i)).toNat then s
  else (s.setInstSt i .failed).raise 1 St.abortedByReset .inst (openDetail .inst St.abortedByReset) (s.holder i) i
def execInstanceResetTimeout (i : Nat) (s : State) : Host.Outcome State Fault Refusal := .next (instanceResetTimeout i s)

/-! ### RELEASE -/

/-- A range of memory zeroed, its uncorrectable words with it. -/
def State.zeroRange (s : State) (a n : Nat) : State :=
  { s with mem := s.mem.filter fun e => decide (e.1 < a ∨ a + n ≤ e.1), bad := s.bad.filter fun w => decide (w < a ∨ a + n ≤ w) }

/-- INST_CTRL.OP RELEASE: scratchpads and cluster buffers of the groups are zeroed, every buffer is freed (R247, R157). -/
def State.opRelease (s : State) (i : Nat) : State :=
  if (s.inst i).st ≠ .configured then s.instRefuse i St.illegalInState
  else
    let s := forEach (s.clustersOf i) s fun s cl => (s.zeroRange (spBase (256 * cl)) (256 * 2 ^ 16)).zeroRange (cbBase cl) (2 ^ 22)
    (s.freeAll i).setInstSt i .absent
/-- RELEASE. -/
def release (fn i : Nat) (s : State) : State := if fnPhysical fn ∧ i < 64 then s.opRelease i else s
def execRelease (fn i : Nat) (s : State) : Host.Outcome State Fault Refusal := .next (release fn i s)

/-- A write of INST_CTRL by the physical function (R247): OP 0 has no effect, OP 6 and 7 are refused. -/
def State.instCtrlWrite (s : State) (i : Nat) (v : W32) : State :=
  match v.toNat % 8 with
  | 0 => s
  | 1 => s.opConfigure i
  | 2 => s.opActivate i (v.getLsbD 4)
  | 3 => s.opQuiesce i (v.getLsbD 3)
  | 4 => s.opReset i (v.getLsbD 5)
  | 5 => s.opRelease i
  | _ => s.instRefuse i St.badDescriptor

end Sys2Proof.Machine
end

