-- ==== Sys2Proof/Machine/Power.lean ====
section
/-! DEFINITION. Supplies, start-up, device and warm resets, and the power controller (R313, R364 to R372, R381). -/

namespace Sys2Proof.Machine

def State.setPower (s : State) (p : Power) : State := { s with power := p }

/-! ### Resets of the device (R313) -/

/-- An INST register kept by a warm reset with KEEP_HBM, by its place in the entry (R313). -/
def instKept (o : Nat) : Bool :=
  decide (o = 0x04 ∨ o = 0x08 ∨ (0x10 ≤ o ∧ o < 0x40) ∨ o = 0x40 ∨ o = 0x48 ∨ o = 0x50 ∨ o = 0x58 ∨ o = 0x60 ∨ o = 0x64)

/-- Whether a reset that keeps HBM keeps a register: MEM's, and those of INST for an instance that was not ABSENT (R159,
R313). -/
def State.regKept (s : State) (off : Nat) : Bool :=
  decide (0x1300000 ≤ off ∧ off < 0x1301000) ||
  (decide (0x1400000 ≤ off ∧ off < 0x1404000) && instKept (off % 0x100) &&
    decide ((s.inst ((off - 0x1400000) / 0x100)).st ≠ .absent))

/-- What a device reset leaves of error reporting: the management path with its log, records not yet delivered going there;
every window closes (R296, R314, R315). -/
def State.errReset (s : State) : ErrSt :=
  let e := (forEach s.err.raised s State.toMgmt).err
  { log := e.log, reported := e.reported, queues := e.queues.filter fun q => decide (q.1 = mgmtQ) }

/-- Memory after a reset of the device: host memory stays, and HBM where it is kept (R313, log 3). -/
def keptMem (keep : Bool) (m : List Host.Cell) : List Host.Cell :=
  m.filter fun c => decide (hostBase ≤ c.1) || (keep && decide (c.1 < 2 ^ 40))

/-- What an instance keeps through a warm reset with KEEP_HBM: it returns to CONFIGURED, with what HBM holds (R313). -/
def Inst.warm (x : Inst) : Inst := { st := .configured, link := x.link, rooted := x.rooted, checks := x.checks }

/-- Every register, core, instance and engine at its device-reset value; with `keep`, the exceptions of R313. -/
def State.deviceClear (s : State) (keep : Bool) : State :=
  let live := s.insts.filter fun e => decide (e.2.st ≠ .absent)
  let s := if keep then
      let s := forEach (s.buffers.filter (·.freeing)) s State.dropBuffer
      forEach live s fun s e => s.setReg (R.instGen e.1) ((s.reg (R.instGen e.1) + 1) &&& 0xFFFFFFFF)
    else s
  let stamp (b : Buffer) : Buffer := { b with ownerGen := (s.reg (R.instGen b.owner)).truncate 32 }
  { s with
    beat := 0, beatsCounted := 0, readLatch := [], writeHold := [], alignRun := 0, parentDown := false, stepDue := false,
    holdoverAt := 0, cores := [], clusters := [], queues := [], qTurn := {}, dmaTurn := [], bar4 := [], flags := [],
    flagTags := [], barTags := [], factorE := if keep then s.factorE else [], launches := [], xfers := [], colls := [],
    links := [], inbox := [], ckpt := {}, moduleSession := none,
    regs := s.regs.filter fun e => keep && s.regKept e.1,
    mem := keptMem keep s.mem,
    insts := if keep then live.map fun e => (e.1, e.2.warm) else [],
    buffers := if keep then s.buffers.map stamp else [],
    bufGen := if keep then s.bufGen else [],
    lastOwner := if keep then s.lastOwner else [],
    err := s.errReset,
    power := { s.power with fusesLoaded := false, hbmReady := keep && s.power.hbmReady, done := false, failed := false,
                            stopped := false, code := 0, overTicks := 0, underTicks := 0, tripTicks := 0,
                            thermalHold := false } }

/-- Start-up repeated from fuse load, where the regulators run (R313, R372). -/
def State.restartFrom4 (s : State) (warm keep : Bool) : State :=
  let s := s.deviceClear keep
  s.setPower { s.power with step := if s.power.regulators then 4 else s.power.step, warm := warm, keptHbm := keep }

/-- A rung-3 action (R312, R313): it needs the device to be up to fuse load. -/
def State.warmReset (s : State) (keep : Bool) : State :=
  if s.power.regulators then (s.restartFrom4 true keep).setPower
    { (s.restartFrom4 true keep).power with needsPldm := false } else s

/-- WARM_RESET: ERR_RECOV.WARM_RESET written by the physical function (R317). -/
def execWarmReset (fn : Nat) (keepHbm : Bool) (s : State) : Host.Outcome State Fault Refusal :=
  .next (if fnPhysical fn then s.warmReset keepHbm else s)

/-- MC_WARM_RESET_REQUEST: a PLDM request of rung 3 (R312); one that a tripped module has been waiting for restarts it
from step 3 (R366). -/
def mcWarmResetRequest (keepHbm : Bool) (s : State) : State :=
  let p := s.power
  if p.standby ∧ p.needsPldm then
    s.setPower { p with needsPldm := false, tripped := false, failed := false, stopped := false, code := 0, step := 3 }
  else s.warmReset keepHbm
def execMcWarmResetRequest (keepHbm : Bool) (s : State) : Host.Outcome State Fault Refusal := .next (mcWarmResetRequest keepHbm s)

/-- DEVICE_RESET: every register at its reset value and every instance ABSENT; start-up repeats from fuse load (R33, R54). -/
def execDeviceReset (s : State) : Host.Outcome State Fault Refusal := .next (s.restartFrom4 false false)

/-! ### Regulators and trips (R365, R366) -/

/-- The regulators stop: the device loses its state, and start-up waits at step 3. -/
def State.regulatorsStop (s : State) : State :=
  if s.power.regulators then
    let s := s.deviceClear false
    s.setPower { s.power with regulators := false, step := 3, hbmReady := false, warm := false, keptHbm := false }
  else s

/-- A record that goes to the management path alone. -/
def State.mgmtAlarm (s : State) (code : Nat) (b : Block) (detail : Nat) (uid : W32) : State :=
  s.toMgmt { cls := 1, code := code, block := b.num, detail := detail, uid := uid, beat := s.beat, lastUid := uid }

/-- Trip n: the regulators stop, the alarm and the code go to the management controller's log, and a restart is due
(R366). -/
def State.trip (s : State) (n : Nat) : State :=
  let s := s.regulatorsStop.mgmtAlarm St.internal .dev (openDetail .dev St.internal) mcUid
  s.setPower { s.power with tripped := decide (3 ≤ s.power.step), tripLog := s.power.tripLog ++ [Config.tripCode n] }

/-- MAIN_INPUT_TRIP: the 48 V input (trip 1) or the standby rail (trip 2) out of its limits (R364, R366; log 31). -/
def mainInputTrip (standby : Bool) (s : State) : State :=
  if s.power.standby then s.trip (if standby then 2 else 1) else s
def execMainInputTrip (standby : Bool) (s : State) : Host.Outcome State Fault Refusal := .next (mainInputTrip standby s)

/-- TRIP_RESTART: the input has been within range for 1 s: restart from step 3, at most three times in any hour; then a
PLDM request is awaited (R366). `now` is the management controller's time in seconds. -/
def tripRestart (now : Nat) (s : State) : State :=
  let p := s.power
  if !p.standby ∨ !p.tripped ∨ p.needsPldm then s
  else
    let l := p.restarts.filter fun t => decide (now < t + 3600)
    if 3 ≤ l.length then s.setPower { p with needsPldm := true }
    else s.setPower { p with tripped := false, failed := false, stopped := false, code := 0, step := 3, restarts := l ++ [now] }
def execTripRestart (now : Nat) (s : State) : Host.Outcome State Fault Refusal := .next (tripRestart now s)

/-- METERING_READY_LOSS: the island withdraws metering-ready, and the regulators stop (R350, R365). -/
def meteringReadyLoss (s : State) : State := (s.setIsland { s.island with ready := false }).regulatorsStop
def execMeteringReadyLoss (s : State) : Host.Outcome State Fault Refusal := .next (meteringReadyLoss s)

/-- REGULATOR_RAMP: step 2 is done, the input has been in range for 10 ms and metering-ready holds (R365). -/
def regulatorRamp (s : State) : State :=
  let p := s.power
  if p.standby ∧ p.step = 3 ∧ s.island.ready ∧ ¬p.tripped ∧ ¬p.fwOnly ∧ ¬p.stopped then s.setPower { p with regulators := true } else s
def execRegulatorRamp (s : State) : Host.Outcome State Fault Refusal := .next (regulatorRamp s)

/-- POWER_CYCLE: 48 V is removed and restored at the regulators: rung 4 repeats from step 3 (R312, R372). -/
def powerCycle (s : State) : State :=
  let s := s.regulatorsStop
  let p := s.power
  if p.standby ∧ 3 ≤ p.step then
    s.setPower { p with step := 3, tripped := false, needsPldm := false, failed := false, stopped := false, code := 0, warm := false,
                        keptHbm := false }
  else s
def execPowerCycle (s : State) : Host.Outcome State Fault Refusal := .next (powerCycle s)

/-- HOST_WATCHDOG_EXPIRE: the management controller's host watchdog starts rung 4 (R312). -/
def execHostWatchdogExpire (s : State) : Host.Outcome State Fault Refusal := .next (powerCycle s)

/-! ### Start-up (Table 18.2) -/

/-- STANDBY_POWER_ON: step 1 begins, and the island starts (R369). -/
def standbyPowerOn (m : Meter) (s : State) : State :=
  if s.power.standby then s
  else
    let s := s.islandStart m
    s.setPower { s.power with standby := true, step := 1, done := false, failed := false, stopped := false, code := 0, mcAlt := false,
                              fwOnly := false, tripped := false, needsPldm := false, warm := false, keptHbm := false, tap := {} }
def execStandbyPowerOn (m : Meter) (s : State) : Host.Outcome State Fault Refusal := .next (standbyPowerOn m s)

/-- STANDBY_POWER_FALL: the island withdraws metering-ready first, the regulators stop, and the energy count is saved on
hold-up energy (R362, R365). -/
def standbyPowerFall (s : State) : State :=
  if !s.power.standby then s
  else
    let s := meteringReadyLoss s
    let s := s.setIsland { s.island with savedEnergy := s.island.energy }
    s.setPower { s.power with standby := false, step := 1 }
def execStandbyPowerFall (s : State) : Host.Outcome State Fault Refusal := .next (standbyPowerFall s)

/-- The bifurcation strap is sampled as step 7 starts: once step 6 has completed and PERST# is deasserted (R369, R376). -/
def State.sampleStrap (s : State) : State :=
  if s.power.step = 7 ∧ ¬s.power.perst ∧ ¬s.power.done then s.setPower { s.power with bifurcated := Config.bifurcationStrap } else s

/-- PERST_DEASSERT: step 7 may start (R369), and the strap is sampled (R376). -/
def perstDeassert (s : State) : State := (s.setPower { s.power with perst := false }).sampleStrap
def execPerstDeassert (s : State) : Host.Outcome State Fault Refusal := .next (perstDeassert s)

/-- The disabled-unit map's entry n, and whether the map agrees with the bin (R23, R26). -/
def Fuses.entry (f : Fuses) (n : Nat) : Byte := sget (fun _ => 0x10) f.map n
def Fuses.agree (f : Fuses) : Bool :=
  (List.range 256).all fun row =>
    decide (((List.range 16).filter fun c => (f.entry (16 * row + c)).getLsbD 7).length = f.binV.toNat)

/-- The firmware version of an image: 0 device, 1 and 2 the management slots (R293). -/
def State.fwVersion (s : State) (n : Nat) : W32 := (sget (fun _ => none) s.power.fw n).getD (Config.firmwareVersion n)

/-- Fuse load: the map, its digest and VALID, DEV_IDENT's bin, and the rates (R3, R27, R32). -/
def State.loadFuses (s : State) : State :=
  let map := (List.range 4096).map s.fuses.entry
  let dig := sha256 map
  let s := forEach (List.range 8) s fun s n => s.setReg (R.dumapDigest n) (BitVec.ofNat 64 (leNat ((dig.drop (4 * n)).take 4)))
  let s := forEach (List.range 16) (s.setReg R.dumapStat 1) fun s d => s.setReg (R.beatRate d) (BitVec.ofNat 64 (s.rateOf d))
  let s := s.setReg R.devMcFwVer ((s.fwVersion (if s.power.mcAlt then 2 else 1)).zeroExtend 64)
  s.setPower { s.power with fusesLoaded := true }

/-- The board record's registers written as the physical function would (R371). -/
def State.applyBoard (s : State) : State :=
  match s.power.board with
  | none => s
  | some (cfg, expect, coord, ext, align) =>
    let s := (s.rawWrite R.collCoord (coord.zeroExtend 64)).rawWrite R.collExt (ext.zeroExtend 64)
    let s := s.alignFields (align.zeroExtend 64)
    let s := if align.getLsbD 0 then s.alignOn none else s
    forEach (List.range 8) s fun s p =>
      (s.rawWrite (R.linkExpect p) ((expect.getD p 0).zeroExtend 64)).linkCfgWrite p (cfg.getD p 0)

/-- The next step starts; step 8 begins with the board record (R371). -/
def State.toStep (s : State) (n : Nat) : State :=
  let s := (s.setPower { s.power with step := n }).sampleStrap
  if n = 8 then s.applyBoard else s

/-- A start-up step fails with its code; `stop` says that start-up stops (Table 18.2). -/
def State.stepFails (s : State) (code : Nat) (stop : Bool) : State :=
  s.setPower { s.power with failed := true, code := code, stopped := s.power.stopped || stop }

/-- The management image in a slot is verified: a bad one leaves the second slot to be tried; when both fail only a firmware
update is accepted (Table 18.2, step 2). -/
def State.bootFails (s : State) : State :=
  let p := s.power
  if p.mcAlt then (s.stepFails 2 true).setPower { (s.stepFails 2 true).power with fwOnly := true }
  else s.setPower { p with mcAlt := true }

/-- STARTUP_STEP_COMPLETE: the step in progress completes and the next one starts (R369). -/
def startupStepComplete (s : State) : State :=
  let p := s.power
  if !p.standby ∨ p.done ∨ p.stopped ∨ p.tripped then s
  else
    match p.step with
    | 1 => (s.setIsland { s.island with ready := true }).toStep 2
    | 2 => if (if p.mcAlt then p.fwGood1 else p.fwGood0) then s.toStep 3 else s.bootFails
    | 3 => if p.regulators then s.toStep 4 else s
    | 4 => if s.fuses.agree then s.loadFuses.toStep 5 else s.stepFails 0x0A true
    | 5 =>
      let s := s.setPower { p with hbmReady := true }
      (if p.keptHbm then s.readSlots else s).toStep 6
    | 6 => ({ s.setBit R.beatStat 0 true with beat := 0 } : State).toStep 7
    | 7 => if p.perst then s else s.toStep 8
    | 8 =>
      if (List.range 8).any fun n => decide (s.portSt n = 1) then s
      else
        let s := if (List.range 8).any fun n => decide (s.portSt n = 3) then s.stepFails 8 false else s
        s.toStep 9
    | _ =>
      let s := s.setReg R.devFwVer ((s.fwVersion 0).zeroExtend 64)
      s.setPower { s.power with done := true }
def execStartupStepComplete (s : State) : Host.Outcome State Fault Refusal := .next (startupStepComplete s)

/-- STARTUP_STEP_TIMEOUT: the step in progress exceeds its bound, with the effect of Table 18.2. -/
def startupStepTimeout (s : State) : State :=
  let p := s.power
  if !p.standby ∨ p.done ∨ p.stopped ∨ p.tripped then s
  else
    match p.step with
    | 1 => s.stepFails 1 true
    | 2 => s.bootFails
    | 3 => if p.regulators then (s.trip 3).stepFails 3 false else s
    | 4 => s.stepFails 4 true
    | 5 => s.stepFails 5 true
    | 6 => s.stepFails 6 true
    | 7 => if p.perst then s else (s.stepFails 7 false).toStep 8
    | 8 =>
      let s := forEach (List.range 8) s fun s n => if s.portSt n = 1 then s.portFail n else s
      (s.stepFails 8 false).toStep 9
    | _ => s.stepFails 9 true
def execStartupStepTimeout (s : State) : Host.Outcome State Fault Refusal := .next (startupStepTimeout s)

/-- FIRMWARE_UPDATE: an image that verifies is stored, with its version: 0 and 1 are the management slots, 2 the device
firmware; a module that accepted nothing else boots the new management image (R369, R377). -/
def firmwareUpdate (good : Bool) (slot : Nat) (ver : W32) (s : State) : State :=
  let p := s.power
  if !p.standby ∨ 2 < slot ∨ !good ∨ (p.step < 3 ∧ !p.fwOnly) then s
  else
    let p := { p with fw := sput (fun _ => none) p.fw (if slot = 2 then 0 else slot + 1) (some ver),
                      fwGood0 := p.fwGood0 || decide (slot = 0), fwGood1 := p.fwGood1 || decide (slot = 1) }
    if p.fwOnly ∧ slot < 2 then
      s.setPower { p with fwOnly := false, failed := false, stopped := false, code := 0, mcAlt := decide (slot = 1) }
    else s.setPower p
def execFirmwareUpdate (good : Bool) (slot : Nat) (ver : W32) (s : State) : Host.Outcome State Fault Refusal :=
  .next (firmwareUpdate good slot ver s)

/-- BOARD_RECORD_WRITE: a PLDM write stores the record (R371). -/
def boardRecordWrite (cfg expect : List W32) (coord ext align : W32) (s : State) : State :=
  if s.power.standby ∧ ¬s.power.fwOnly then s.setPower { s.power with board := some (cfg, expect, coord, ext, align) } else s
def execBoardRecordWrite (cfg expect : List W32) (coord ext align : W32) (s : State) : Host.Outcome State Fault Refusal :=
  .next (boardRecordWrite cfg expect coord ext align s)

/-! ### The power controller (R367, R368, R381) -/

def State.vset (s : State) : Nat := s.fld R.devPwrStat 0 2

/-- POWER_SAMPLE: every 100 µs; 10 ms are 100 samples in a row (R367). -/
def powerSample (watts volts : Nat) (s : State) : State :=
  if !s.power.regulators then s
  else
    let s := s.setReg R.devPwrIn (BitVec.ofNat 64 (watts % 65536 + volts % 65536 * 65536))
    let p := s.power
    let lim := s.fld R.devPwrCfg 0 16
    let trip := if 14000 < watts then p.tripTicks + 1 else 0
    if 100 ≤ trip then s.trip 4
    else if lim < watts then
      let hot := if s.vset = 0 then p.overTicks + 1 else 0
      let s := s.setPower { p with tripTicks := trip, overTicks := hot, underTicks := 0 }
      if s.vset ≠ 0 then (s.setFld R.devPwrStat 0 2 (s.vset - 1)).sticky .dev R.devPwrStat 2 St.internal (uid := mcUid)
      else if hot = 100 then (s.setBit R.devPwrStat 3 true).raise 1 St.internal .dev 3 mcUid
      else s
    else
      let under := if 10 * watts < 9 * lim then p.underTicks + 1 else 0
      let raise := decide (100 ≤ under) && decide (s.vset < s.fld R.devPwrCfg 16 2) && !p.thermalHold
      let s := s.setPower { p with tripTicks := trip, overTicks := 0, underTicks := if 100 ≤ under then 0 else under }
      if raise then s.setFld R.devPwrStat 0 2 (s.vset + 1) else s
def execPowerSample (watts volts : Nat) (s : State) : Host.Outcome State Fault Refusal := .next (powerSample watts volts s)

/-- JUNCTION_OVER_TEMP: the highest junction temperature: above 95 °C THERMAL is set, a class A alarm raised and the set
point held at 0.65 V (R368). -/
def junctionOverTemp (tj : Nat) (s : State) : State :=
  if !s.power.regulators then s
  else
    let s := s.setFld R.devPwrStat 16 8 tj
    if 95 < tj then
      let s := (s.setBit R.devPwrStat 4 true).setFld R.devPwrStat 0 2 0
      if s.power.thermalHold then s
      else (s.setPower { s.power with thermalHold := true }).raise 1 St.internal .dev 4 mcUid
    else s.setPower { s.power with thermalHold := false }
def execJunctionOverTemp (tj : Nat) (s : State) : Host.Outcome State Fault Refusal := .next (junctionOverTemp tj s)

/-- THERMAL_SHUTDOWN: at 105 °C the regulators stop as for a trip (R368). -/
def thermalShutdown (tj : Nat) (s : State) : State :=
  if s.power.regulators ∧ 105 ≤ tj then s.trip 5 else s
def execThermalShutdown (tj : Nat) (s : State) : Host.Outcome State Fault Refusal := .next (thermalShutdown tj s)

/-- DEV_PWR_CFG stored in its ranges; a set point above the new VMAX is lowered to it (R367, R381). -/
def State.pwrCfgWrite (s : State) (v : W64) : State :=
  let lim := max 4000 (min 13000 (v.toNat % 65536))
  let vmax := min 2 (v.toNat / 65536 % 4)
  let s := s.setReg R.devPwrCfg (BitVec.ofNat 64 (lim + vmax * 65536))
  if vmax < s.vset then s.setFld R.devPwrStat 0 2 vmax else s
/-- POWER_CONFIG_WRITE. -/
def powerConfigWrite (fn : Nat) (v : W32) (s : State) : State := if fnPhysical fn then s.pwrCfgWrite (v.zeroExtend 64) else s
def execPowerConfigWrite (fn : Nat) (v : W32) (s : State) : Host.Outcome State Fault Refusal := .next (powerConfigWrite fn v s)

end Sys2Proof.Machine
end

