-- ==== Sys2Proof/Machine/RegRead.lean ====
section
/-! DEFINITION. What a function reads through BAR0: where its offsets lie in the physical function's map (R382,
R385), and what each register reads as (R3, R7, R74, R250, R251, R301, R363). -/

namespace Sys2Proof.Machine

/-! ### The BAR0 of a function (Tables 19.1 and 19.2) -/

/-- A virtual function's offset as an offset of the physical function; none where nothing is mapped (R385). -/
def mapVirtual (n off : Nat) : Option Nat :=
  let page (vf pf size : Nat) : Option Nat := if vf ≤ off ∧ off < vf + size then some (pf + size * n + (off - vf)) else none
  if off < 0x2000 then some off
  else if off < 0x2040 then some (off + 0x40 * n)
  else if 0x100000 ≤ off ∧ off < 0x600000 then some off
  else if 0x1000000 ≤ off ∧ off < 0x2000000 then some (off + 0x7000000)
  else if 0xF80000 ≤ off ∧ off < 0xF81000 then some (off + 0x200000)
  else if 0xFD0000 ≤ off ∧ off < 0xFD1000 then some (off + 0x530000)
  else
    (page 0x610000 0x610000 0x1000).or <| (page 0x800000 0x800000 0x1000).or <| (page 0xA00000 0xA00000 0x1000).or <|
    (page 0xC00000 0xC00000 0x1000).or <| (page 0xD00000 0xD00000 0x1000).or <| (page 0xE00000 0xE00000 0x1000).or <|
    (page 0xF00000 0x1100000 0x1000).or <| page 0xFC0000 0x1400000 0x100

/-- A function's BAR0 offset as an offset of the physical function, whose BAR0 is 256 MiB (R382). Function 0 of link 1
has no memory BAR (R229, R385). -/
def mapOff (fn off : Nat) : Option Nat :=
  if fnPhysical fn then if off < 2 ^ 28 then some off else none else if fn < 64 then mapVirtual fn off else none

/-! ### What registers read as -/

def w64 (n : Nat) : W64 := BitVec.ofNat 64 n

/-- DEV_IDENT, DEV_BOOT_STAT and the map window; the rest is stored (R3, R27, R381). -/
def State.readDev (s : State) (off : Nat) : W64 :=
  let p := s.power
  if off = R.devIdent then w64 (0x161000 + s.fuses.stepping % 16 * 0x100 + s.fuses.binV.toNat * 0x10)
  else if off = R.devBootStat then
    w64 (p.step % 16 + p.done.toNat * 2 ^ 4 + p.failed.toNat * 2 ^ 5 + p.warm.toNat * 2 ^ 6 + p.keptHbm.toNat * 2 ^ 7 +
      p.code % 256 * 2 ^ 8 + p.mcAlt.toNat * 2 ^ 16)
  else if 0x1000 ≤ off ∧ off < 0x2000 then
    if p.fusesLoaded then w64 (leNat ((List.range 4).map fun j => s.fuses.entry (off - 0x1000 + j))) else 0
  else s.reg off

/-- QCTL_STAT.HALTED and QCTL_PTR (Table 11.8). -/
def State.readQctl (s : State) (off q : Nat) : W64 :=
  let x := s.queue q
  if off = R.qStat q then s.reg off ||| w64 x.halted.toNat
  else if off = R.qPtr q then w64 (x.sqHead % 65536 + x.cqTail % 65536 * 65536)
  else s.reg off

/-- The instance that owns a barrier, 0 where none does (Table 11.9). -/
def State.barOwner (s : State) (n : Nat) : Nat :=
  ((s.insts.find? fun e => decide (e.2.st ≠ .absent) && s.ownsBar e.1 n).map (·.1)).getD 0

/-- SYNC_BAR_CFG.OWNER, the flag map and the counters (Table 11.9). -/
def State.readSync (s : State) (off o : Nat) : W64 :=
  if o < 0x1000 then (if o % 16 = 0 then s.reg off ||| w64 (s.barOwner (o / 16) * 2 ^ 24) else s.reg off)
  else if 0x1000 ≤ o ∧ o < 0x1200 then w64 (s.flagWord ((o - 0x1000) / 4))
  else if 0x100000 ≤ o then
    let cl := (o - 0x100000) / 0x100
    if s.exists' cl then w64 (s.cnt cl ((o - 0x100000) % 0x100 / 4)) else 0
  else s.reg off

/-- ERR_SUMMARY: the blocks that have a W1C bit set (R301). -/
def State.summary (s : State) : Nat :=
  let set (n : Nat) : Bool := s.regs.any fun e =>
    match blockAt e.1, regInfo e.1 with
    | some (b, _), some r => decide (b.num = n) && decide (e.2 &&& w64 r.w1c ≠ 0)
    | _, _ => false
  (List.range 17).foldl (fun a n => a + (set n).toNat * 2 ^ n) 0

/-- ERR_DOMAINn (Table 14.7). -/
def State.domainReg (s : State) (n : Nat) : W64 :=
  match s.windowAt n with
  | some w => w64 (w.domain % 128 + w.rung % 8 * 2 ^ 8 + 2 ^ 31)
  | none => 0

/-- ERR_SUMMARY and ERR_DOMAIN0–3. -/
def State.readErr (s : State) (off o : Nat) : W64 :=
  if o = 0 then w64 s.summary
  else if 0x20 ≤ o ∧ o < 0x30 then s.domainReg ((o - 0x20) / 4)
  else s.reg off

/-- The session, the challenge, the halts and the selected comparator (Table 16.7). DBG_ACC_DATA has its own command. -/
def State.readDbg (s : State) (off i p : Nat) : W64 :=
  let t := s.bpAt i
  let x := (s.core t.1).cmp t.2
  match p with
  | 0x00 => w64 ((s.session i).toNat + s.modSession.toNat * 2)
  | 0x08 => if s.bit (R.authStat i) 0 then s.reg off else if s.modSession then s.moduleSession.getD 0 else 0
  | 0x10 | 0x14 | 0x18 | 0x1C => w64 ((s.nonce i).toNat / 2 ^ (8 * (p - 0x10)) % 2 ^ 32)
  | 0x24 => w64 (((s.coresOf i).any fun k => decide ((s.core k).st = .halted)).toNat +
      ((s.coresOf i).any fun k => (s.core k).suspended).toNat * 2)
  | 0x44 => if s.dbgReach i (clOf t.1) then x.cfg.zeroExtend 64 else 0
  | 0x48 => if s.dbgReach i (clOf t.1) then x.lo else 0
  | 0x50 => if s.dbgReach i (clOf t.1) then x.hi else 0
  | _ => s.reg off

/-- COLL_PARTNER (R266). -/
def State.readColl (s : State) (off o : Nat) : W64 :=
  if o < 0x80000 ∧ o % 0x1000 = 0x14 then
    match s.partner (o / 0x1000) with
    | some c => w64 (c % 2 ^ 24 + 2 ^ 31)
    | none => 0
  else s.reg off

/-- MEM_POOL_FREE, set when HBM initialisation completes, and MEM_POOL_BUFS (Table 7.5). -/
def State.readMem (s : State) (off : Nat) : W64 :=
  if off = R.poolFree then
    if s.power.hbmReady then w64 (s.poolGranules - (s.buffers.map (·.granules)).sum) else 0
  else if off = R.poolBufs then w64 s.buffers.length
  else s.reg off

/-- The code of an instance state (Table 11.6). -/
def InstSt.code : InstSt → Nat
  | .absent => 0 | .configured => 1 | .active => 2 | .quiescing => 3 | .resetting => 4 | .failed => 5

/-- INST_CTRL.STATE and ERROR, and INST_QUEUES (Table 11.10). -/
def State.readInst (s : State) (off i p : Nat) : W64 :=
  match p with
  | 0x00 => w64 ((s.inst i).st.code * 2 ^ 8 + (s.inst i).err % 256 * 2 ^ 16)
  | 0x68 => w64 (min 1024 (s.queuesOf i).length)
  | _ => s.reg off

/-- The mirror reads zero until it has been refreshed within 2 s, 10^9 beats (R363). -/
def State.readMtr (s : State) (off : Nat) : W64 :=
  if s.bit R.mtrStat 0 && decide ((s.beat - s.island.mirrorAt).toNat ≤ 1000000000) then s.reg off else 0

/-- A cluster's window: UNIT_GANG_STAT, CSTAT and CFAULT; column 15 of bin V reads zero (R74). -/
def State.readUnit (s : State) (cl p : Nat) : W64 :=
  if !s.exists' cl then 0
  else if p = 0 then (s.gangStat cl).zeroExtend 64
  else
    let c := s.core (256 * cl + (p - 0x800) / 8)
    if p % 8 = 0 then c.cstat.zeroExtend 64 else c.cfault.zeroExtend 64

/-- What a register reads as, by its offset in the physical function (R7, R8, R382): an unassigned offset reads zero. -/
def State.regView (s : State) (off : Nat) : W64 :=
  match blockAt off, regInfo off with
  | some (b, base), some _ =>
    let o := off - base
    match b with
    | .dev => s.readDev off
    | .beat => if off = R.beatCount then s.beat else s.reg off
    | .qctl => s.readQctl off (o / 0x80)
    | .sync => s.readSync off o
    | .err => s.readErr off o
    | .dbg => s.readDbg off (o / 0x1000) (o % 0x1000)
    | .upd => if o % 0x1000 = 0x40 then w64 (s.stepStat (o / 0x1000)) else s.reg off
    | .solv => if o % 0x1000 = 0x10 then w64 (s.solvesActive (o / 0x1000)) else s.reg off
    | .coll => s.readColl off o
    | .mem => s.readMem off
    | .inst => s.readInst off (o / 0x100) (o % 0x100)
    | .mtr => s.readMtr off
    | .unit => s.readUnit (o / 0x1000) (o % 0x1000)
    | .cnt | .curv | .link | .ckpt => s.reg off
  | _, _ => 0

/-! ### What a virtual function is shown (R74, R250, R251) -/

/-- The bits of a register that a function is shown. -/
def State.shown (s : State) (fn off : Nat) : W64 :=
  let all : W64 := BitVec.allOnes 64
  let only (b : Bool) : W64 := if b then all else 0
  if fnPhysical fn then all
  else
    match blockAt off with
    | some (.qctl, base) => only (s.fnQueue fn ((off - base) / 0x80))
    | some (.sync, base) =>
      let o := off - base
      if o < 0x1000 then only (s.ownsBar fn (o / 16))
      else if o < 0x1200 then w64 (s.flagMask fn ((o - 0x1000) / 4))
      else if 0x100000 ≤ o then only (s.owns fn ((o - 0x100000) / 0x100))
      else 0
    | some (.unit, base) => only (s.owns fn ((off - base) / 0x1000))
    | _ => all

/-- A read of a whole register at an offset of the physical function's map: DBG_ACC_DATA performs its access (R346),
every other read changes nothing. -/
def State.readReg (s : State) (fn off : Nat) : State × W64 :=
  let i := (off - 0xA00000) / 0x1000
  if 0xA00000 ≤ off ∧ off < 0xA40000 ∧ off = R.accData i then
    let s := debugAccessRead fn i s
    (s, s.readData)
  else (s, s.regView off &&& s.shown fn off)

end Sys2Proof.Machine
end

