-- ==== Sys2Proof/Machine/Manage.lean ====
section
/-! DEFINITION. What has no BAR address: the objects that only the management controller holds (R389) and the IEEE
1149.1 TAP (R378); and the maps from logical to physical positions that the fuse map tells (R22, R23). -/

namespace Sys2Proof.Machine

/-! ### Where accesses outside BAR0 are addressed (logs 36 and 39) -/

/-- Offset from which a function's accesses address its BAR2 (R386, log 36). -/
def bar2Base : Nat := 2 ^ 28
/-- The control register of a function's Resizable BAR capability: bits [13:8] are log2 of the size less 20 (R387, log 36). -/
def rebarCtl : Nat := 2 ^ 29
/-- The number under which the TAP is accessed, and that of the PLDM objects (log 39). -/
def tapFn : Nat := 66
def pldmFn : Nat := 67

/-! ### Logical and physical positions (R22 to R24) -/

/-- The physical column of logical column j past a column s that is left out (R22, R23). -/
def skipCol (s j : Nat) : Nat := if j < s then j else j + 1

/-- The disabled column of a physical cluster row of a die, 16 where the row has none (R23). -/
def Fuses.offCol (f : Fuses) (die row : Nat) : Nat :=
  ((List.range 16).find? fun c => (f.entry (256 * die + 16 * row + c)).getLsbD 7).getD 16

/-- The physical cluster, as an index of the disabled-unit map, of a logical cluster index (R23, R26). -/
def Fuses.physCluster (f : Fuses) (cl : Nat) : Nat :=
  let die := dieOf cl
  let row := cl / 16 % 16
  256 * die + 16 * row + skipCol (f.offCol die row) (cl % 16)

/-- The unused physical core column of a logical cluster (R22, Table 1.4). -/
def Fuses.spareCol (f : Fuses) (cl : Nat) : Nat := (f.entry (f.physCluster cl)).toNat % 32

/-- The physical position of a logical core: its physical cluster, core row and core column (R22, R23). -/
def Fuses.physCore (f : Fuses) (k : Nat) : Nat × Nat × Nat :=
  (f.physCluster (clOf k), k / 16 % 16, skipCol (f.spareCol (clOf k)) (k % 16))

/-- The fuse map as the management controller and the TAP return it: the disabled-unit map, then for each logical
cluster its physical cluster and its unused column, then the repairs that R15 hides (R25, log 7). -/
def State.fuseByte (s : State) (n : Nat) : Byte :=
  if n < 4096 then s.fuses.entry n
  else if n < 3 * 4096 then BitVec.ofNat 8 (s.fuses.physCluster ((n - 4096) / 2) / (if n % 2 = 0 then 1 else 256))
  else if n < 4 * 4096 then BitVec.ofNat 8 (s.fuses.spareCol (n - 3 * 4096))
  else Config.repairFuse n

/-- Four bytes of the fuse map. -/
def State.fuseWord (s : State) (n : Nat) : W32 :=
  BitVec.ofNat 32 (leNat ((List.range 4).map fun j => s.fuseByte (4 * n + j)))

/-! ### Objects of the management controller (Table 19.3) -/

/-- The words of the board record (R371). -/
def Power.boardWords (p : Power) : List W32 :=
  match p.board with
  | some (cfg, expect, coord, ext, align) => cfg ++ expect ++ [coord, ext, align]
  | none => []

/-- The 48 bytes of an entry of the island's event log (R354). -/
def LogEntry.bytes (e : LogEntry) : List Byte :=
  leBytes 4 e.seq ++ leBytes 1 e.kind ++ zeros 1 ++ leBytes 2 e.param ++ leBytes 8 (wrapInt 64 e.old) ++ leBytes 8 (wrapInt 64 e.new) ++
  e.stamp ++ leBytes 4 e.sealCount ++ zeros 4

/-- A word of an object that the management controller returns over PLDM: 0 the error record log, 32 bytes a record; 1
the fuse map; 2 the field-fault list; 3 the board record; 4 DEV_BOOT_STAT's code; 5 the trip codes; 6 the island's
signed records, 160 bytes each; 7 its event log, 48 bytes an entry (R25, R296, R313, R354, R355, R366, R369, R371; log
39). It answers once step 2 has booted it (Table 18.2). -/
def State.pldmRead (s : State) (off : Nat) : W32 :=
  let n := off % 2 ^ 24 / 4
  let word (b : List Byte) (n : Nat) : W32 := BitVec.ofNat 32 (leNat ((b.drop (4 * n)).take 4))
  if !s.power.standby ∨ s.power.step < 3 then 0
  else match off / 2 ^ 24 with
    | 0 => word (((s.err.log[n / 8]?).map ErrRec.bytes).getD []) (n % 8)
    | 1 => s.fuseWord n
    | 2 => s.power.fieldFaults.getD n 0
    | 3 => s.power.boardWords.getD n 0
    | 4 => BitVec.ofNat 32 s.power.code
    | 5 => word s.power.tripLog n
    | 6 => word (((s.island.records[n / 40]?).map SignedRec.bytes).getD []) (n % 40)
    | 7 => word (((s.island.log[n / 12]?).map LogEntry.bytes).getD []) (n % 12)
    | _ => 0

/-! ### The TAP (R378) -/

/-- The instruction that a code of the TAP selects; every code without one selects BYPASS (log 39). -/
def tapInstr (c : Nat) : TapInstr :=
  match c with
  | 1 => .idcode
  | 2 => .samplePreload
  | 3 => .extest
  | 4 => .fuseMap
  | _ => .bypass

/-- Lands with a boundary-scan cell, numbered in the order of Table 18.6: PCIE, ELO0 to ELO7 and CLK are powered from
the 48 V input, MGMT and SVC from the standby rail (log 39). -/
def landOn48 (n : Nat) : Bool := decide (2226 ≤ n ∧ n < 2808)
def landCell (n : Nat) : Bool := landOn48 n || decide ((2808 ≤ n ∧ n < 2820) ∨ (2825 ≤ n ∧ n < 2831))

/-- Whether a land's cell responds: one on a land powered from the 48 V input only after step 3 (R378). -/
def State.cellResponds (s : State) (n : Nat) : Bool :=
  landCell n && (!landOn48 n || (s.power.regulators && decide (3 < s.power.step)))

/-- What EXTEST drives on a land. -/
def State.landDriven (s : State) (n : Nat) : Option Bool :=
  if s.power.tap.ir = .extest ∧ s.cellResponds n then some (sget (fun _ => false) s.power.tap.cells n) else none

/-- A word of the data register that the TAP's instruction selects: BYPASS is one bit that captures 0; the levels that
SAMPLE/PRELOAD and EXTEST capture are the board's (log 4). -/
def State.tapWord (s : State) (n : Nat) : W32 :=
  match s.power.tap.ir with
  | .bypass => 0
  | .idcode => if n = 0 then Config.idcode else 0
  | .samplePreload | .extest =>
    BitVec.ofNat 32 ((List.range 32).foldl (fun a b =>
      a + (s.cellResponds (32 * n + b) && Config.landLevel s.freeCtr (32 * n + b)).toNat * 2 ^ b) 0)
  | .fuseMap => s.fuseWord n

/-- A read of the TAP: offset 0 tells nothing, 8 + 4n word n of the selected data register. -/
def State.tapRead (s : State) (off : Nat) : State :=
  if !s.power.standby ∨ off < 8 then { s with readData := 0 }
  else { s with readData := (s.tapWord ((off - 8) / 4)).zeroExtend 64, freeCtr := s.freeCtr + 1 }

/-- A write of the TAP: offset 0 selects an instruction, 8 + 4n preloads the boundary-scan cells of 32 lands under
SAMPLE/PRELOAD and EXTEST. No instruction writes fuses, banks or memory. -/
def State.tapWrite (s : State) (off : Nat) (v : W32) : State :=
  let t := s.power.tap
  let put (t : TapPort) : State := { s with power := { s.power with tap := t } }
  if !s.power.standby then s
  else if off = 0 then put { t with ir := tapInstr v.toNat }
  else if 8 ≤ off ∧ (t.ir = .samplePreload ∨ t.ir = .extest) then
    let n := (off - 8) / 4
    let cell (c : Sparse Bool) (b : Nat) : Sparse Bool :=
      if s.cellResponds (32 * n + b) then sput (fun _ => false) c (32 * n + b) (v.getLsbD b) else c
    put { t with cells := (List.range 32).foldl cell t.cells }
  else s

end Sys2Proof.Machine
end

