-- ==== Sys2Proof/Machine/Access.lean ====
section
/-! DEFINITION. Host register access: halves of 64-bit registers (R6), what a write does by the register's access code
and the rules of its chapter (R7, R8), accesses of a wrong width (R383), the doorbell pages of BAR2 (R386), and BAR4
(R387, R388). -/

namespace Sys2Proof.Machine

/-! ### Writes, block by block. `off` is an offset of the physical function's map that a table assigns -/

/-- A write of DEV_MODE by the physical function: ignored while any instance is ACTIVE; both bits store STRICT alone
(R282). -/
def State.modeWrite (s : State) (v : W64) : State :=
  if s.anyActive then s else s.setReg R.devMode (w64 (if v.toNat % 4 = 3 then 1 else v.toNat % 4))

/-- A ring's used entries after a write of its HEAD. -/
def usedOf (tail head n : Nat) : Nat := if n = 0 then 0 else (tail + n - head % n) % n

/-- A write of an instance's audit page (R293): RING and SIZE are ignored while records are on, HEAD frees entries, and
records that start again start a new chain. -/
def State.auditWrite (s : State) (off : Nat) (v : W64) : State :=
  let i := (off - 0x2000) / 0x40
  let on := s.bit (R.audCfg i) 0 || decide (s.fld (R.audCfg i) 16 16 ≠ 0)
  if (off = R.audRing i ∨ off = R.audSize i) ∧ on then s
  else
    let sol := s.bit (R.audCfg i) 0
    let ev := s.fld (R.audCfg i) 16 16
    let s := s.rawWrite off v
    if off = R.audCfg i then
      if (ev = 0 ∧ s.fld off 16 16 ≠ 0) ∨ (!sol ∧ s.bit off 0) then s.setInst i { s.inst i with auditPrev := [] } else s
    else if off = R.audPtr i then
      s.setInst i { s.inst i with auditUsed := usedOf (s.fld off 16 16) (s.fld off 0 16) (s.fld (R.audSize i) 0 16) }
    else s

/-- DEV (R27, R282, R293, R381). -/
def State.writeDev (s : State) (fn off : Nat) (v : W64) : State :=
  if 0x2000 ≤ off then if fnMay fn ((off - 0x2000) / 0x40) then s.auditWrite off v else s
  else if !fnPhysical fn then s
  else if off = R.devMode then s.modeWrite v
  else if off = R.devPwrCfg then s.pwrCfgWrite v
  else s.rawWrite off v

/-- BEAT, written by the physical function (R51, R54). A write that sets ENABLE steps the counter at the parent's first
marker. -/
def State.writeBeat (s : State) (fn off : Nat) (v : W64) : State :=
  if !fnPhysical fn then s
  else if off = R.alignCfg then
    let s := s.alignFields v
    if v.getLsbD 0 then s.alignOn none else s.alignOff
  else s.rawWrite off v

/-- QCTL_CFG as a function writes it (R231, R250): LOG2 fields stay while ENABLE is 1 and are stored as 1 to 16; OWNER
is the physical function's, and no instance gets a 1,025th queue. -/
def State.queueCfg (s : State) (fn q : Nat) (v : Nat) : Nat :=
  let old := (s.reg (R.qCfg q)).toNat
  let log2 (lo : Nat) : Nat := if nbit old 0 then nfield old lo 5 else max 1 (min 16 (nfield v lo 5))
  let own := nfield v 16 6
  let owner := if !fnPhysical fn ∨ (own ≠ nfield old 16 6 ∧ 1024 ≤ (s.queuesOf own).length) then nfield old 16 6 else own
  v % 16 + log2 4 * 2 ^ 4 + log2 9 * 2 ^ 9 + owner * 2 ^ 16 + nfield v 22 8 * 2 ^ 22

/-- QCTL (R250). -/
def State.writeQctl (s : State) (fn off : Nat) (v : W64) : State :=
  let q := (off - 0x200000) / 0x80
  if !s.fnQueue fn q then s
  else if off = R.qCfg q then s.setReg off (w64 (s.queueCfg fn q v.toNat))
  else if (off = R.qSqBase q ∨ off = R.qCqBase q) ∧ s.qEnabled q then s
  else if off = R.qPtr q + 4 then queueResume fn q (v.truncate 32) s
  else s.rawWrite off v

/-- SYNC: barrier members, and the detector by the physical function (R243, R251). -/
def State.writeSync (s : State) (fn off : Nat) (v : W64) : State :=
  let o := off - 0x400000
  if o < 0x1000 ∧ o % 16 = 0 then barrierMembersWrite fn (o / 16) (v.truncate 32) s
  else if fnPhysical fn ∧ 0x2000 ≤ o ∧ o < 0x2010 then s.rawWrite off v
  else s

/-- The queue whose page holds an offset of ERR: an instance's, or the module's. -/
def errKey (off : Nat) : Nat := if off < 0x610000 then 64 else (off - 0x610000) / 0x1000

/-- ERR_Q_CFG.LOG2 is clamped to 6 to 16 (Table 14.7). -/
def eqCfgClamp (v : W64) : W64 := bfSet v 2 5 (max 6 (min 16 (bfGet v 2 5)))

/-- A write of a page's registers. A HEAD that moves on, or a queue that is switched on, lets waiting class A records in
(R297, R299). -/
def State.writeErrPage (s : State) (fn off : Nat) (v : W64) : State :=
  let k := errKey off
  if off = R.eqCfg k then (s.rawWrite off (eqCfgClamp v)).eqFlush k
  else if off = R.eqPtr k then
    let s := s.rawWrite off v
    (s.setErrQ k { s.errQ k with used := usedOf (s.fld off 16 16) (s.fld off 0 16) (s.eqSize k) }).eqFlush k
  else if k < 64 ∧ off = R.rpLen k + 4 then if v.getLsbD 0 then replaySend fn k s else s
  else s.rawWrite off v

/-- ERR: the module page is the physical function's (R317). -/
def State.writeErr (s : State) (fn off : Nat) (v : W64) : State :=
  if off < 0x610000 then
    if !fnPhysical fn then s
    else if off = R.errStat + 4 then if v.getLsbD 0 then s.warmReset (v.getLsbD 1) else s
    else s.writeErrPage fn off v
  else if fnMay fn (errKey off) then s.writeErrPage fn off v
  else s

/-- CNT: a write of HEAD frees records (R338). -/
def State.writeCnt (s : State) (i off : Nat) (v : W64) : State :=
  let s := s.rawWrite off v
  if off = R.cmdPtr i then
    s.setInst i { s.inst i with cmdUsed := usedOf (s.fld off 16 16) (s.fld off 0 16) (s.fld (R.cmdSize i) 0 16) }
  else s

/-- DBG (R341, R345, R347). -/
def State.writeDbg (s : State) (fn i off : Nat) (v : W64) : State :=
  match off % 0x1000 with
  | 0x04 => if v.getLsbD 0 then debugLock fn i s else s
  | 0x20 => s.dbgCtrl fn i (bfGet v 0 2) (bfGet v 2 2) (bfGet v 4 12) (bfGet v 16 8)
  | 0x40 | 0x44 | 0x48 | 0x50 => s.bpWrite fn i off v
  | 0x60 => debugAccessWrite fn i v s
  | 0x68 => if s.session i then s.rawWrite off v else s.denied i
  | _ => s.rawWrite off v

/-- UPD (R209): while ENABLE is 1, writes to S, C, E and the base registers UPD_SHARD_BASE and UPD_HSET_BASE are
ignored. -/
def State.writeUpd (s : State) (i off : Nat) (v : W64) : State :=
  let on := s.gateOn i
  if off = R.updCfg i then s.updCfgWrite i (v.truncate 32)
  else if on ∧ (off = R.updStep i ∨ off = R.updCommits i ∨ off = R.shardBase i ∨ off = R.hsetBase i) then s
  else if on ∧ off = R.lscale i then s.rawWrite off (bfSet v 0 8 (s.fld off 0 8))
  else s.rawWrite off v

/-- CURV (R186): while ENABLE is 1, the layer table and the dispatch group stay; COUNT is at most 65,536. When ENABLE
goes to 1, STATE and FOLDS are taken from the table at the next commit (R182). -/
def State.writeCurv (s : State) (i off : Nat) (v : W64) : State :=
  if off = R.curvCfg i ∧ !s.bit off 0 then (s.setInst i { s.inst i with layerSt := [] }).rawWrite off v
  else if s.bit (R.curvCfg i) 0 ∧ (off = R.layerBase i ∨ off = R.layerCount i ∨ off = R.curvDispatch i) then s
  else if off = R.layerCount i then s.setReg off (w64 (min 65536 (v.toNat % 2 ^ 17)))
  else s.rawWrite off v

/-- Whether COLL_CUT may hold a value: no axis bound twice, and SLOW an axis that a cut uses, or 4 (R265). -/
def cutsOk (v : Nat) : Bool :=
  let cuts := (List.range 4).map fun b => nfield v (3 * b) 3
  let axes := cuts.filter (· < 4)
  let slow := nfield v 12 3
  decide axes.Nodup && (decide (slow = 4) || axes.contains slow)

/-- COLL (R265, R279). -/
def State.writeColl (s : State) (fn off : Nat) (v : W64) : State :=
  if 0x1180000 ≤ off then if fnPhysical fn ∧ !s.anyActive then s.rawWrite off v else s
  else
    let i := (off - 0x1100000) / 0x1000
    let active := decide ((s.inst i).st = .active)
    if !fnMay fn i then s
    else if active ∧ (off = R.collJob i ∨ off = R.collOrigin i ∨ off = R.collJext i ∨ off = R.collCut i) then s
    else if off = R.collCut i ∧ !cutsOk v.toNat then s.sticky .coll (R.collStat i) 5 St.internal i
    else s.rawWrite off v

/-- CKPT, written by the physical function: while ENABLE is 1, INSTANCE, the axis, the list and the base stay (R333). -/
def State.writeCkpt (s : State) (fn off : Nat) (v : W64) : State :=
  let on := s.bit R.ckptCfg 0
  if !fnPhysical fn then s
  else if on ∧ (off = R.buddyAxis ∨ off = R.ckptList ∨ off = R.ckptBase) then s
  else if on ∧ off = R.ckptCfg then s.rawWrite off (bfSet v 8 6 (s.fld off 8 6))
  else s.rawWrite off v

/-- MEM, written by the physical function: SIZE is at most 96, and stays while any instance is not ABSENT (R158). -/
def State.writeMem (s : State) (fn off : Nat) (v : W64) : State :=
  if !fnPhysical fn then s
  else if off = R.buddyCfg then
    if s.insts.any fun e => decide (e.2.st ≠ .absent) then s else s.setReg off (w64 (min 96 (v.toNat % 2 ^ 7)))
  else s.rawWrite off v

/-- INST, written by the physical function: operations, and configuration in ABSENT and CONFIGURED, groups and quota in
ABSENT alone (R228, R247). -/
def State.writeInst (s : State) (fn off : Nat) (v : W64) : State :=
  let i := (off - 0x1400000) / 0x100
  let p := off % 0x100
  let st := (s.inst i).st
  if !fnPhysical fn then s
  else if p = 0 then s.instCtrlWrite i (v.truncate 32)
  else if 0x10 ≤ p ∧ p ≤ 0x30 then if st = .absent then s.rawWrite off v else s
  else if st ≠ .absent ∧ st ≠ .configured then s
  else if p = 0x64 then s.setReg off (w64 (min 0x2000000 (v.toNat % 2 ^ 32)))
  else s.rawWrite off v

/-- LINK, written by the physical function (R278). -/
def State.writeLink (s : State) (fn off : Nat) (v : W64) : State :=
  let p := (off - 0x1000000) / 0x10000
  if !fnPhysical fn then s else if off = R.linkCfg p then s.linkCfgWrite p (v.truncate 32) else s.rawWrite off v

/-- A write of a whole register at an offset of the physical function's map: an offset that no table assigns ignores it
(R382). -/
def State.writeReg (s : State) (fn off : Nat) (v : W64) : State :=
  match blockAt off, regInfo off with
  | some (b, base), some _ =>
    let i := (off - base) / 0x1000
    match b with
    | .dev => s.writeDev fn off v
    | .beat => s.writeBeat fn off v
    | .qctl => s.writeQctl fn off v
    | .sync => s.writeSync fn off v
    | .err => s.writeErr fn off v
    | .cnt => if fnMay fn i then s.writeCnt i off v else s
    | .dbg => if fnMay fn i then s.writeDbg fn i off v else s
    | .upd => if fnMay fn i then s.writeUpd i off v else s
    | .curv => if fnMay fn i then s.writeCurv i off v else s
    | .solv => if fnMay fn i then s.rawWrite off v else s
    | .link => s.writeLink fn off v
    | .coll => s.writeColl fn off v
    | .ckpt => s.writeCkpt fn off v
    | .mem => s.writeMem fn off v
    | .inst => s.writeInst fn off v
    | .mtr | .unit => s
  | _, _ => s

/-! ### Halves of 64-bit registers (R6) -/

def isWide (off : Nat) : Bool := match regInfo off with
  | some r => r.wide
  | none => false

/-- The key of a function's latch, or held half, for a register. -/
def halfKey (fn off : Nat) : Nat := fn * 2 ^ 28 + off

def State.latch (s : State) (fn off : Nat) : Option W32 := sget (fun _ => none) s.readLatch (halfKey fn off)
def State.setLatch (s : State) (fn off : Nat) (v : Option W32) : State :=
  { s with readLatch := sput (fun _ => none) s.readLatch (halfKey fn off) v }
def State.heldHalf (s : State) (fn off : Nat) : Option W32 := sget (fun _ => none) s.writeHold (halfKey fn off)
def State.setHeld (s : State) (fn off : Nat) (v : Option W32) : State :=
  { s with writeHold := sput (fun _ => none) s.writeHold (halfKey fn off) v }

/-- A 32-bit read at a register's offset: the lower half of a 64-bit register, which latches the upper half. -/
def State.readLow (s : State) (fn off : Nat) : State :=
  let r := s.readReg fn off
  let s := if isWide off then r.1.setLatch fn off (some ((r.2 >>> 32).truncate 32)) else r.1
  { s with readData := w64 (r.2.toNat % 2 ^ 32) }

/-- A 32-bit read four bytes above a register's offset: the upper half, latched or as it stands. -/
def State.readHigh (s : State) (fn off : Nat) : State :=
  if isWide off then
    match s.latch fn off with
    | some u => { s.setLatch fn off none with readData := u.zeroExtend 64 }
    | none =>
      let r := s.readReg fn off
      { r.1 with readData := r.2 >>> 32 }
  else s.readLow fn (off + 4)

/-- A 32-bit read at an offset of the physical function's map: the upper half of a 64-bit register, or a register's offset. -/
def State.read32 (s : State) (fn p : Nat) : State :=
  if p % 8 = 4 && isWide (p - 4) then s.readHigh fn (p - 4) else s.readLow fn p

/-- A 64-bit read: of a 64-bit register in one access, which discards every held lower half of it (R6), or of two
32-bit registers. -/
def State.readWide (s : State) (fn p : Nat) : State :=
  if isWide p then
    let r := s.readReg fn p
    { r.1.dropHeld p with readData := r.2 }
  else
    let lo := s.readReg fn p
    let hi := lo.1.readReg fn (p + 4)
    { hi.1 with readData := w64 (lo.2.toNat % 2 ^ 32 + hi.2.toNat % 2 ^ 32 * 2 ^ 32) }

/-- An 8-bit read, which DEV_DUMAP accepts (R27). -/
def State.readByte (s : State) (fn p : Nat) : State :=
  let r := s.readReg fn (p - p % 4)
  { r.1 with readData := w64 (bfGet r.2 (8 * (p % 4)) 8) }

/-! ### Accesses outside BAR0: doorbell pages, the Resizable BAR control, the TAP and the PLDM objects (log 36, log 39) -/

/-- A 32-bit read of a doorbell page at an offset of BAR2: the FLAG_MAP words of the queue's owner, and the SQ_TAIL,
CQ_HEAD, FLAG_SET and FLAG_CLR fields, which are write-only, as zero (R231, R386). -/
def State.readPage (s : State) (fn o : Nat) : W64 :=
  let q := o / 0x1000
  let p := o % 0x1000
  if s.fnQueue fn q && decide (0x800 ≤ p ∧ p < 0xA00) then w64 (s.flagMap (s.qOwner q) ((p - 0x800) / 4)) else 0

/-- A write of a doorbell page at an offset of BAR2 (R231, R386). -/
def State.writePage (s : State) (fn o : Nat) (v : W32) : State :=
  let q := o / 0x1000
  match o % 0x1000 with
  | 0x000 => sqTailDoorbell fn q v.toNat s
  | 0x008 => cqHeadDoorbell fn q v.toNat s
  | 0x400 => doorbellFlagSet fn q v.toNat s
  | 0x408 => doorbellFlagClr fn q v.toNat s
  | _ => s

/-- The size of a function's BAR4 as a power of two, 512 GiB at reset (R387). -/
def State.bar4Log2 (s : State) (fn : Nat) : Nat := sget (fun _ => 39) s.bar4 fn

/-- Whether a configuration request is completed with Request Retry Status: between step 7 and the end of step 9 (R370). -/
def State.cfgRetry (s : State) : Bool := s.power.standby && decide (8 ≤ s.power.step) && !s.power.done

/-- What a 32-bit read outside BAR0 returns; a configuration request that is to be retried delivers nothing (R370). -/
def State.readOther (s : State) (fn off : Nat) : State :=
  if fn = tapFn then s.tapRead off
  else if fn = pldmFn then { s with readData := (s.pldmRead off).zeroExtend 64 }
  else if fn < 64 ∧ bar2Base ≤ off ∧ off < bar2Base + 2 ^ 26 then { s with readData := s.readPage fn (off - bar2Base) }
  else if fn < 64 ∧ off = rebarCtl then
    if s.cfgRetry then s else { s with readData := w64 ((s.bar4Log2 fn - 20) * 2 ^ 8) }
  else { s with readData := 0 }

/-- A 32-bit write outside BAR0. A size from 1 GiB to 512 GiB resizes the function's BAR4; no other is offered (R370, R387). -/
def State.writeOther (s : State) (fn off : Nat) (v : W32) : State :=
  if fn = tapFn then s.tapWrite off v
  else if fn < 64 ∧ bar2Base ≤ off ∧ off < bar2Base + 2 ^ 26 then s.writePage fn (off - bar2Base) v
  else if fn < 64 ∧ off = rebarCtl then
    let n := nfield v.toNat 8 6 + 20
    if 30 ≤ n ∧ n ≤ 39 ∧ ¬s.cfgRetry then { s with bar4 := sput (fun _ => 39) s.bar4 fn n } else s
  else s

/-- The class C record of an access of a wrong width or alignment (R383). -/
def State.badAccess (s : State) (off : Nat) : State :=
  let b := match blockAt off with
    | some (b, _) => b
    | none => .dev
  s.raise 3 St.badDescriptor b (openDetail b St.badDescriptor) pcieUid

/-- A read of a wrong width or alignment: zero, with the record (R383). -/
def State.badRead (s : State) (fn off : Nat) : State := { s.badAccess ((mapOff fn off).getD off) with readData := 0 }

/-- LOWER_HALF_READ: `off` is the register's offset in the function's BAR0. An offset that is not mapped reads zero. -/
def lowerHalfRead (fn off : Nat) (s : State) : State :=
  if off % 4 ≠ 0 then s.badRead fn off
  else match mapOff fn off with
    | some p => s.read32 fn p
    | none => s.readOther fn off
def execLowerHalfRead (fn off : Nat) (s : State) : Host.Outcome State Fault Refusal := .next (lowerHalfRead fn off s)

/-- UPPER_HALF_READ: the access lies four bytes above the register's offset `off`. -/
def upperHalfRead (fn off : Nat) (s : State) : State :=
  if off % 4 ≠ 0 then s.badRead fn off
  else match mapOff fn off with
    | some p => s.readHigh fn p
    | none => s.readOther fn (off + 4)
def execUpperHalfRead (fn off : Nat) (s : State) : Host.Outcome State Fault Refusal := .next (upperHalfRead fn off s)

/-- A 32-bit write at a register's offset: the lower half of a 64-bit register is held without effect. -/
def State.writeLow (s : State) (fn off : Nat) (v : W32) : State :=
  if isWide off then s.setHeld fn off (some v) else s.writeReg fn off (v.zeroExtend 64)

/-- A 32-bit write four bytes above a register's offset: the upper half takes effect with the held lower half, or with
the lower half as it stands. -/
def State.writeHigh (s : State) (fn off : Nat) (v : W32) : State :=
  if isWide off then
    let low := ((s.heldHalf fn off).getD ((s.regView off).truncate 32)).toNat
    (s.setHeld fn off none).writeReg fn off (w64 (low + v.toNat * 2 ^ 32))
  else s.writeReg fn (off + 4) (v.zeroExtend 64)

/-- A 32-bit write at an offset of the physical function's map. -/
def State.write32 (s : State) (fn p : Nat) (v : W32) : State :=
  if p % 8 = 4 && isWide (p - 4) then s.writeHigh fn (p - 4) v else s.writeLow fn p v

/-- LOWER_HALF_WRITE. -/
def lowerHalfWrite (fn off : Nat) (v : W32) (s : State) : State :=
  if off % 4 ≠ 0 then s.badAccess ((mapOff fn off).getD off)
  else match mapOff fn off with
    | some p => s.write32 fn p v
    | none => s.writeOther fn off v
def execLowerHalfWrite (fn off : Nat) (v : W32) (s : State) : Host.Outcome State Fault Refusal := .next (lowerHalfWrite fn off v s)

/-- UPPER_HALF_WRITE. -/
def upperHalfWrite (fn off : Nat) (v : W32) (s : State) : State :=
  if off % 4 ≠ 0 then s.badAccess ((mapOff fn off).getD off)
  else match mapOff fn off with
    | some p => s.writeHigh fn p v
    | none => s.writeOther fn (off + 4) v
def execUpperHalfWrite (fn off : Nat) (v : W32) (s : State) : Host.Outcome State Fault Refusal := .next (upperHalfWrite fn off v s)

/-! ### Writes of a whole access -/

/-- A 64-bit write: of a 64-bit register, which discards every held lower half of it, or of two 32-bit registers. -/
def State.writeWide (s : State) (fn off : Nat) (v : W64) : State :=
  if isWide off then (s.dropHeld off).writeReg fn off v
  else (s.writeReg fn off (w64 (v.toNat % 2 ^ 32))).writeReg fn (off + 4) (v >>> 32)

/-- REGISTER_WRITE: a write at a naturally aligned offset takes effect by its register's access code (R7, R383). -/
def registerWrite (fn off : Nat) (wide : Bool) (v : W64) (s : State) : State :=
  match mapOff fn off with
  | none => s.writeOther fn off (v.truncate 32)
  | some p =>
    if off % (if wide then 8 else 4) ≠ 0 then s.badAccess p
    else if wide then s.writeWide fn p v
    else s.write32 fn p (v.truncate 32)
def execRegisterWrite (fn off : Nat) (wide : Bool) (v : W64) (s : State) : Host.Outcome State Fault Refusal :=
  .next (registerWrite fn off wide v s)

/-- Whether BAR0 accepts an access of `width` bits: 32 or 64, aligned, and 8 for a read of DEV_DUMAP (R27, R383). -/
def accessOk (off width : Nat) (write : Bool) : Bool :=
  (decide (width = 32) && decide (off % 4 = 0)) || (decide (width = 64) && decide (off % 8 = 0)) ||
  (decide (width = 8) && !write && decide (0x1000 ≤ off ∧ off < 0x2000))

/-- A read that BAR0 accepts, of 8, 32 or 64 bits (R6, R27, R383). -/
def State.readAny (s : State) (fn off width : Nat) : State :=
  match mapOff fn off with
  | none => s.readOther fn off
  | some p => if width = 8 then s.readByte fn p else if width = 64 then s.readWide fn p else s.read32 fn p

/-- BAD_ACCESS_WIDTH: an access of any other width or alignment reads zero or is ignored, with a class C record (R383). A
read whose width turns out to be accepted delivers its data; the data of an accepted write comes with REGISTER_WRITE. -/
def badAccessWidth (fn off width : Nat) (write : Bool) (s : State) : State :=
  if accessOk off width write then if write then s else s.readAny fn off width
  else if write then s.badAccess ((mapOff fn off).getD off)
  else s.badRead fn off
def execBadAccessWidth (fn off width : Nat) (write : Bool) (s : State) : Host.Outcome State Fault Refusal :=
  .next (badAccessWidth fn off width write s)

/-! ### Rows of their own -/

/-- DEV_MODE_WRITE (R282). -/
def devModeWrite (fn : Nat) (v : W32) (s : State) : State := if fnPhysical fn then s.modeWrite (v.zeroExtend 64) else s
def execDevModeWrite (fn : Nat) (v : W32) (s : State) : Host.Outcome State Fault Refusal := .next (devModeWrite fn v s)

/-- BUDDY_SIZE_WRITE (R158). -/
def execBuddySizeWrite (fn : Nat) (v : W32) (s : State) : Host.Outcome State Fault Refusal :=
  .next (s.writeMem fn R.buddyCfg (v.zeroExtend 64))

/-- COLL_CUT_WRITE (R265). -/
def execCollCutWrite (fn i : Nat) (v : W32) (s : State) : Host.Outcome State Fault Refusal :=
  .next (s.writeColl fn (R.collCut i) (v.zeroExtend 64))

/-! ### BAR4 (R387, R388) -/

/-- Whether a function reaches every granule of an HBM range: the physical function all of it, a virtual function its
buffers. -/
def State.bar4Ok (s : State) (fn a n : Nat) : Bool :=
  fnPhysical fn || (decide (fn < 64) &&
    (List.range ((a + n - 1) / 2 ^ 21 + 1 - a / 2 ^ 21)).all fun g => s.ownsHbm fn ((a / 2 ^ 21 + g) * 2 ^ 21) 1)

/-- A refused BAR4 access: a class B event. -/
def State.bar4Refuse (s : State) (fn : Nat) : State := s.raise 2 St.ownership .mem (openDetail .mem St.ownership) pcieUid fn

/-- The bytes of a range of a function's BAR4 that HBM backs: offsets from 384 GiB on read zero and ignore writes, and a
BAR4 resized to less reaches only the lowest addresses (R387). -/
def State.bar4Len (s : State) (fn a n : Nat) : Nat := min n (min hbmTop (2 ^ s.bar4Log2 fn) - a)

/-- An access that meets an uncorrectable word: a class A record names the word (R303). -/
def State.bar4Bad (s : State) (w : Nat) : State :=
  s.raise 1 St.memoryUncorrectable .mem (openDetail .mem St.memoryUncorrectable) (memUid w) 0xFF 0xFFFF (memUid w) (s.ctxRegs R.poolErr R.poolLast)

/-- BAR4_READ: at most eight bytes, little-endian; an uncorrectable word is not delivered and reads as zero (R303). -/
def bar4Read (fn addr len : Nat) (s : State) : State :=
  let n := s.bar4Len fn addr (min len 8)
  if n = 0 then { s with readData := 0 }
  else if !s.bar4Ok fn addr n then { s.bar4Refuse fn with readData := 0 }
  else
    match s.bad.find? fun w => decide (w < addr + n ∧ addr < w + 8) with
    | some w => { s.bar4Bad w with readData := 0 }
    | none => { s with readData := w64 (s.rd addr n) }
def execBar4Read (fn addr len : Nat) (s : State) : Host.Outcome State Fault Refusal := .next (bar4Read fn addr len s)

/-- BAR4_WRITE: the bytes are in HBM before any later doorbell; a write of part of an uncorrectable word leaves that word
(R303). -/
def bar4Write (fn addr : Nat) (data : List Byte) (s : State) : State :=
  let n := s.bar4Len fn addr data.length
  if n = 0 then s
  else if !s.bar4Ok fn addr n then s.bar4Refuse fn
  else
    let s := match s.bad.find? fun w => decide (w < addr + n ∧ addr < w + 8 ∧ ¬(addr ≤ w ∧ w + 8 ≤ addr + n)) with
      | some w => s.bar4Bad w
      | none => s
    s.write addr (data.take n)
def execBar4Write (fn addr : Nat) (data : List Byte) (s : State) : Host.Outcome State Fault Refusal :=
  .next (bar4Write fn addr data s)

end Sys2Proof.Machine
end

