-- ==== Sys2Proof/Machine/Dispatch.lean ====
section
/-! DEFINITION. One arm per command: a direct call of the command's meaning. -/

namespace Sys2Proof.Machine

/-- The effect of a command on everything but the queue. -/
def exec (i : Instr) (s : State) : Host.Outcome State Fault Refusal :=
  match i with
  | .lowerHalfRead fn off => Sys2Proof.Machine.execLowerHalfRead fn off s
  | .upperHalfRead fn off => Sys2Proof.Machine.execUpperHalfRead fn off s
  | .lowerHalfWrite fn off v => Sys2Proof.Machine.execLowerHalfWrite fn off v s
  | .upperHalfWrite fn off v => Sys2Proof.Machine.execUpperHalfWrite fn off v s
  | .registerWrite fn off wide v => Sys2Proof.Machine.execRegisterWrite fn off wide v s
  | .badAccessWidth fn off width write => Sys2Proof.Machine.execBadAccessWidth fn off width write s
  | .bar4Read fn addr len => Sys2Proof.Machine.execBar4Read fn addr len s
  | .bar4Write fn addr data => Sys2Proof.Machine.execBar4Write fn addr data s
  | .beat obs => Sys2Proof.Machine.execBeat obs s
  | .refclkLoss => Sys2Proof.Machine.execRefclkLoss s
  | .refclkReturn => Sys2Proof.Machine.execRefclkReturn s
  | .rateChange die rate => Sys2Proof.Machine.execRateChange die rate s
  | .rateMonitorRefresh die => Sys2Proof.Machine.execRateMonitorRefresh die s
  | .beatSample time sync => Sys2Proof.Machine.execBeatSample time sync s
  | .alignEnable fn v parent => Sys2Proof.Machine.execAlignEnable fn v parent s
  | .alignDisable fn v => Sys2Proof.Machine.execAlignDisable fn v s
  | .alignCfgWrite fn v => Sys2Proof.Machine.execAlignCfgWrite fn v s
  | .alignLock => Sys2Proof.Machine.execAlignLock s
  | .parentPortFail => Sys2Proof.Machine.execParentPortFail s
  | .holdoverTimeout => Sys2Proof.Machine.execHoldoverTimeout s
  | .parentPortRecover port => Sys2Proof.Machine.execParentPortRecover port s
  | .add k l gd gs1 gs2 => Sys2Proof.Machine.execAdd k l gd gs1 gs2 s
  | .sub k l gd gs1 gs2 => Sys2Proof.Machine.execSub k l gd gs1 gs2 s
  | .and k l gd gs1 gs2 => Sys2Proof.Machine.execAnd k l gd gs1 gs2 s
  | .or k l gd gs1 gs2 => Sys2Proof.Machine.execOr k l gd gs1 gs2 s
  | .xor k l gd gs1 gs2 => Sys2Proof.Machine.execXor k l gd gs1 gs2 s
  | .shl k l gd gs1 gs2 => Sys2Proof.Machine.execShl k l gd gs1 gs2 s
  | .shr k l gd gs1 gs2 => Sys2Proof.Machine.execShr k l gd gs1 gs2 s
  | .sra k l gd gs1 gs2 => Sys2Proof.Machine.execSra k l gd gs1 gs2 s
  | .mul k l gd gs1 gs2 => Sys2Proof.Machine.execMul k l gd gs1 gs2 s
  | .slt k l gd gs1 gs2 => Sys2Proof.Machine.execSlt k l gd gs1 gs2 s
  | .sltu k l gd gs1 gs2 => Sys2Proof.Machine.execSltu k l gd gs1 gs2 s
  | .min k l gd gs1 gs2 => Sys2Proof.Machine.execMin k l gd gs1 gs2 s
  | .max k l gd gs1 gs2 => Sys2Proof.Machine.execMax k l gd gs1 gs2 s
  | .addi k l gd gs1 imm => Sys2Proof.Machine.execAddi k l gd gs1 imm s
  | .andi k l gd gs1 imm => Sys2Proof.Machine.execAndi k l gd gs1 imm s
  | .ori k l gd gs1 imm => Sys2Proof.Machine.execOri k l gd gs1 imm s
  | .xori k l gd gs1 imm => Sys2Proof.Machine.execXori k l gd gs1 imm s
  | .movi k l gd imm => Sys2Proof.Machine.execMovi k l gd imm s
  | .ldw k l g an off => Sys2Proof.Machine.execLdw k l g an off s
  | .stw k l g an off => Sys2Proof.Machine.execStw k l g an off s
  | .mova k l g an off => Sys2Proof.Machine.execMova k l g an off s
  | .movg k l g an off => Sys2Proof.Machine.execMovg k l g an off s
  | .br k l off => Sys2Proof.Machine.execBr k l off s
  | .beq k l gs1 gs2 off => Sys2Proof.Machine.execBeq k l gs1 gs2 off s
  | .bne k l gs1 gs2 off => Sys2Proof.Machine.execBne k l gs1 gs2 off s
  | .blt k l gs1 gs2 off => Sys2Proof.Machine.execBlt k l gs1 gs2 off s
  | .bge k l gs1 gs2 off => Sys2Proof.Machine.execBge k l gs1 gs2 off s
  | .bltu k l gs1 gs2 off => Sys2Proof.Machine.execBltu k l gs1 gs2 off s
  | .bgeu k l gs1 gs2 off => Sys2Proof.Machine.execBgeu k l gs1 gs2 off s
  | .loop k l lc gs len cnt => Sys2Proof.Machine.execLoop k l lc gs len cnt s
  | .tdSet k l td fld reg gs imm => Sys2Proof.Machine.execTdSet k l td fld reg gs imm s
  | .tdCopy k l tdst tsrc => Sys2Proof.Machine.execTdCopy k l tdst tsrc s
  | .tmov k l tdst tsrc wm gsc => Sys2Proof.Machine.execTmov k l tdst tsrc wm gsc s
  | .tfill k l tdst gsc => Sys2Proof.Machine.execTfill k l tdst gsc s
  | .mmaF16 k l ac ta tb tc n gang => Sys2Proof.Machine.execMmaF16 k l ac ta tb tc n gang s
  | .mmaF32 k l ac ta tb tc n gang => Sys2Proof.Machine.execMmaF32 k l ac ta tb tc n gang s
  | .mmaI16 k l ac ta tb tc n gang => Sys2Proof.Machine.execMmaI16 k l ac ta tb tc n gang s
  | .mmaOut k l ac ta tb rnd ep gid gang => Sys2Proof.Machine.execMmaOut k l ac ta tb rnd ep gid gang s
  | .mmaOuts k l ac ta tb tc rnd ep gid gang => Sys2Proof.Machine.execMmaOuts k l ac ta tb tc rnd ep gid gang s
  | .mmaClr k l ac => Sys2Proof.Machine.execMmaClr k l ac s
  | .gang k l shape => Sys2Proof.Machine.execGang k l shape s
  | .gangedPassStart cl => Sys2Proof.Machine.execGangedPassStart cl s
  | .gangShapeChange cl => Sys2Proof.Machine.execGangShapeChange cl s
  | .matrixEntryEnd u gang => Sys2Proof.Machine.execMatrixEntryEnd u gang s
  | .matrixPassComplete u gang => Sys2Proof.Machine.execMatrixPassComplete u gang s
  | .gangFeedUncorrectable cl entered => Sys2Proof.Machine.execGangFeedUncorrectable cl entered s
  | .vadd k l tile vd va vb m bc fp => Sys2Proof.Machine.execVadd k l tile vd va vb m bc fp s
  | .vmul k l tile vd va vb m bc fp => Sys2Proof.Machine.execVmul k l tile vd va vb m bc fp s
  | .vfma k l tile vd va vb vc m bc fp => Sys2Proof.Machine.execVfma k l tile vd va vb vc m bc fp s
  | .vcmp k l md va vb cmp fp => Sys2Proof.Machine.execVcmp k l md va vb cmp fp s
  | .vsel k l tile vd va vb m bc fp => Sys2Proof.Machine.execVsel k l tile vd va vb m bc fp s
  | .vmin k l tile vd va vb m bc fp => Sys2Proof.Machine.execVmin k l tile vd va vb m bc fp s
  | .vmax k l tile vd va vb m bc fp => Sys2Proof.Machine.execVmax k l tile vd va vb m bc fp s
  | .vld k l vd an m off => Sys2Proof.Machine.execVld k l vd an m off s
  | .vst k l vd an m off => Sys2Proof.Machine.execVst k l vd an m off s
  | .vectorPassComplete k => Sys2Proof.Machine.execVectorPassComplete k s
  | .movePassComplete k => Sys2Proof.Machine.execMovePassComplete k s
  | .tapArm k l tf side n gid => Sys2Proof.Machine.execTapArm k l tf side n gid s
  | .tapOff k l => Sys2Proof.Machine.execTapOff k l s
  | .tapAuto k l tf => Sys2Proof.Machine.execTapAuto k l tf s
  | .syrkTap k l tf => Sys2Proof.Machine.execSyrkTap k l tf s
  | .tapDrain k l tf => Sys2Proof.Machine.execTapDrain k l tf s
  | .tapAutoFold k => Sys2Proof.Machine.execTapAutoFold k s
  | .tapFoldComplete k => Sys2Proof.Machine.execTapFoldComplete k s
  | .nsiScale k l t1 t2 p gs => Sys2Proof.Machine.execNsiScale k l t1 t2 p gs s
  | .nsiStep k l t1 t2 t3 p => Sys2Proof.Machine.execNsiStep k l t1 t2 t3 p s
  | .nsiResid k l t1 t2 p gs => Sys2Proof.Machine.execNsiResid k l t1 t2 p gs s
  | .cholSn k l t1 t2 t3 => Sys2Proof.Machine.execCholSn k l t1 t2 t3 s
  | .ldltSn k l t1 t2 t3 => Sys2Proof.Machine.execLdltSn k l t1 t2 t3 s
  | .trsvSn k l t1 t2 t3 p => Sys2Proof.Machine.execTrsvSn k l t1 t2 t3 p s
  | .refine k l t1 t2 t3 t4 => Sys2Proof.Machine.execRefine k l t1 t2 t3 t4 s
  | .factorOpComplete u gang => Sys2Proof.Machine.execFactorOpComplete u gang s
  | .sigCnt k l idx gt val => Sys2Proof.Machine.execSigCnt k l idx gt val s
  | .waitCnt k l idx val => Sys2Proof.Machine.execWaitCnt k l idx val s
  | .setCnt k l idx val => Sys2Proof.Machine.execSetCnt k l idx val s
  | .barArrive k l idx => Sys2Proof.Machine.execBarArrive k l idx s
  | .barWait k l idx => Sys2Proof.Machine.execBarWait k l idx s
  | .flagSet k l idx => Sys2Proof.Machine.execFlagSet k l idx s
  | .flagWait k l idx => Sys2Proof.Machine.execFlagWait k l idx s
  | .flagClr k l idx => Sys2Proof.Machine.execFlagClr k l idx s
  | .hostIrq k l idx => Sys2Proof.Machine.execHostIrq k l idx s
  | .signalTakesEffect k => Sys2Proof.Machine.execSignalTakesEffect k s
  | .baSet k l g => Sys2Proof.Machine.execBaSet k l g s
  | .baAdv k l imm => Sys2Proof.Machine.execBaAdv k l imm s
  | .baNow k l imm => Sys2Proof.Machine.execBaNow k l imm s
  | .beatWait k l imm => Sys2Proof.Machine.execBeatWait k l imm s
  | .beatRd k l g => Sys2Proof.Machine.execBeatRd k l g s
  | .instructionStart k inp => Sys2Proof.Machine.execInstructionStart k inp s
  | .xferPost k l an cnt gt val => Sys2Proof.Machine.execXferPost k l an cnt gt val s
  | .collPost k l an cnt gt val => Sys2Proof.Machine.execCollPost k l an cnt gt val s
  | .updApply k l an cnt gt val => Sys2Proof.Machine.execUpdApply k l an cnt gt val s
  | .updNs k l t1 t2 t3 => Sys2Proof.Machine.execUpdNs k l t1 t2 t3 s
  | .updNf k l t1 => Sys2Proof.Machine.execUpdNf k l t1 s
  | .dmaChunkDone x => Sys2Proof.Machine.execDmaChunkDone x s
  | .transferComplete x => Sys2Proof.Machine.execTransferComplete x s
  | .tchk k l t1 g => Sys2Proof.Machine.execTchk k l t1 g s
  | .chkRange k l t1 g gs => Sys2Proof.Machine.execChkRange k l t1 g gs s
  | .chkNf k l t1 g => Sys2Proof.Machine.execChkNf k l t1 g s
  | .digFold k l gs acc => Sys2Proof.Machine.execDigFold k l gs acc s
  | .digRd k l g acc => Sys2Proof.Machine.execDigRd k l g acc s
  | .digClr k l acc => Sys2Proof.Machine.execDigClr k l acc s
  | .cntRd k l g imm => Sys2Proof.Machine.execCntRd k l g imm s
  | .attrSet k l gs1 gs2 => Sys2Proof.Machine.execAttrSet k l gs1 gs2 s
  | .traceMark k l imm => Sys2Proof.Machine.execTraceMark k l imm s
  | .halt k l => Sys2Proof.Machine.execHalt k l s
  | .nop k l => Sys2Proof.Machine.execNop k l s
  | .endProg k l kind gt idx val => Sys2Proof.Machine.execEndProg k l kind gt idx val s
  | .bankSwap k l => Sys2Proof.Machine.execBankSwap k l s
  | .fence k l imm => Sys2Proof.Machine.execFence k l imm s
  | .statRd k l g imm => Sys2Proof.Machine.execStatRd k l g imm s
  | .coreFault k cause engine => Sys2Proof.Machine.execCoreFault k cause engine s
  | .drainComplete k => Sys2Proof.Machine.execDrainComplete k s
  | .programLoadComplete k => Sys2Proof.Machine.execProgramLoadComplete k s
  | .swapTakesEffect k => Sys2Proof.Machine.execSwapTakesEffect k s
  | .coreStart k => Sys2Proof.Machine.execCoreStart k s
  | .launch q => Sys2Proof.Machine.execLaunch q s
  | .copy q => Sys2Proof.Machine.execCopy q s
  | .collective q => Sys2Proof.Machine.execCollective q s
  | .stepCommit q => Sys2Proof.Machine.execStepCommit q s
  | .stepCommitReplayDone q => Sys2Proof.Machine.execStepCommitReplayDone q s
  | .solve q => Sys2Proof.Machine.execSolve q s
  | .checkpointRequest q => Sys2Proof.Machine.execCheckpointRequest q s
  | .checkpointDrain q => Sys2Proof.Machine.execCheckpointDrain q s
  | .restoreBuddy q => Sys2Proof.Machine.execRestoreBuddy q s
  | .restoreHost q => Sys2Proof.Machine.execRestoreHost q s
  | .signalCounter q => Sys2Proof.Machine.execSignalCounter q s
  | .signalFlagSet q => Sys2Proof.Machine.execSignalFlagSet q s
  | .signalFlagClear q => Sys2Proof.Machine.execSignalFlagClear q s
  | .signalBarrier q => Sys2Proof.Machine.execSignalBarrier q s
  | .waitCounter q => Sys2Proof.Machine.execWaitCounter q s
  | .waitFlag q => Sys2Proof.Machine.execWaitFlag q s
  | .waitBarrier q => Sys2Proof.Machine.execWaitBarrier q s
  | .waitBeat q => Sys2Proof.Machine.execWaitBeat q s
  | .waitTimeout q => Sys2Proof.Machine.execWaitTimeout q s
  | .alloc q => Sys2Proof.Machine.execAlloc q s
  | .free q => Sys2Proof.Machine.execFree q s
  | .freeComplete idx => Sys2Proof.Machine.execFreeComplete idx s
  | .counterSnap q => Sys2Proof.Machine.execCounterSnap q s
  | .exportShard q => Sys2Proof.Machine.execExportShard q s
  | .sqTailDoorbell fn q v => Sys2Proof.Machine.execSqTailDoorbell fn q v s
  | .cqHeadDoorbell fn q v => Sys2Proof.Machine.execCqHeadDoorbell fn q v s
  | .doorbellFlagSet fn q idx => Sys2Proof.Machine.execDoorbellFlagSet fn q idx s
  | .doorbellFlagClr fn q idx => Sys2Proof.Machine.execDoorbellFlagClr fn q idx s
  | .commandFetch q => Sys2Proof.Machine.execCommandFetch q s
  | .completionPost q => Sys2Proof.Machine.execCompletionPost q s
  | .queueResume fn q v => Sys2Proof.Machine.execQueueResume fn q v s
  | .barrierMembersWrite fn n v => Sys2Proof.Machine.execBarrierMembersWrite fn n v s
  | .deadlock ix => Sys2Proof.Machine.execDeadlock ix s
  | .configure fn ix => Sys2Proof.Machine.execConfigure fn ix s
  | .activate fn ix restore => Sys2Proof.Machine.execActivate fn ix restore s
  | .quiesce fn ix save => Sys2Proof.Machine.execQuiesce fn ix save s
  | .quiesceComplete ix => Sys2Proof.Machine.execQuiesceComplete ix s
  | .instanceReset fn ix keepHbm => Sys2Proof.Machine.execInstanceReset fn ix keepHbm s
  | .release fn ix => Sys2Proof.Machine.execRelease fn ix s
  | .functionLevelReset fn => Sys2Proof.Machine.execFunctionLevelReset fn s
  | .resetComplete ix => Sys2Proof.Machine.execResetComplete ix s
  | .instanceResetTimeout ix => Sys2Proof.Machine.execInstanceResetTimeout ix s
  | .linkEnable fn p v => Sys2Proof.Machine.execLinkEnable fn p v s
  | .linkDisable fn p v => Sys2Proof.Machine.execLinkDisable fn p v s
  | .linkTrainingComplete p coord peerPort => Sys2Proof.Machine.execLinkTrainingComplete p coord peerPort s
  | .linkTrainingTimeout p => Sys2Proof.Machine.execLinkTrainingTimeout p s
  | .frameSend p => Sys2Proof.Machine.execFrameSend p s
  | .frameReceive p f => Sys2Proof.Machine.execFrameReceive p f s
  | .laneLockLoss p => Sys2Proof.Machine.execLaneLockLoss p s
  | .frameCheckTimeout p => Sys2Proof.Machine.execFrameCheckTimeout p s
  | .collChunk => Sys2Proof.Machine.execCollChunk s
  | .chunkAck => Sys2Proof.Machine.execChunkAck s
  | .chunkNack => Sys2Proof.Machine.execChunkNack s
  | .collChunkTimeout ix seq => Sys2Proof.Machine.execCollChunkTimeout ix seq s
  | .collectiveComplete ix seq => Sys2Proof.Machine.execCollectiveComplete ix seq s
  | .xferWrite => Sys2Proof.Machine.execXferWrite s
  | .xferReadReq => Sys2Proof.Machine.execXferReadReq s
  | .xferReadData => Sys2Proof.Machine.execXferReadData s
  | .refused => Sys2Proof.Machine.execRefused s
  | .verdict => Sys2Proof.Machine.execVerdict s
  | .verdictSend ix => Sys2Proof.Machine.execVerdictSend ix s
  | .clove => Sys2Proof.Machine.execClove s
  | .gateTimeout ix => Sys2Proof.Machine.execGateTimeout ix s
  | .commitApply ix => Sys2Proof.Machine.execCommitApply ix s
  | .rootDispatch ix => Sys2Proof.Machine.execRootDispatch ix s
  | .commitHoldRelease ix => Sys2Proof.Machine.execCommitHoldRelease ix s
  | .rootLateTimeout ix => Sys2Proof.Machine.execRootLateTimeout ix s
  | .updEnableWrite fn ix v => Sys2Proof.Machine.execUpdEnableWrite fn ix v s
  | .updatePostPerform ix => Sys2Proof.Machine.execUpdatePostPerform ix s
  | .undoComplete ix => Sys2Proof.Machine.execUndoComplete ix s
  | .solveStart ix => Sys2Proof.Machine.execSolveStart ix s
  | .solveAnnounce ix tag => Sys2Proof.Machine.execSolveAnnounce ix tag s
  | .solveFreeze ix tag => Sys2Proof.Machine.execSolveFreeze ix tag s
  | .supernodeBoundaryEnd k => Sys2Proof.Machine.execSupernodeBoundaryEnd k s
  | .solveAbandonTimeout ix tag => Sys2Proof.Machine.execSolveAbandonTimeout ix tag s
  | .solveResultPost ix tag => Sys2Proof.Machine.execSolveResultPost ix tag s
  | .devModeWrite fn v => Sys2Proof.Machine.execDevModeWrite fn v s
  | .auditRecordWrite ix => Sys2Proof.Machine.execAuditRecordWrite ix s
  | .errorRecordWrite => Sys2Proof.Machine.execErrorRecordWrite s
  | .recoveryWindowTimeout slot => Sys2Proof.Machine.execRecoveryWindowTimeout slot s
  | .patrolScrub addr corrected => Sys2Proof.Machine.execPatrolScrub addr corrected s
  | .warmReset fn keepHbm => Sys2Proof.Machine.execWarmReset fn keepHbm s
  | .digestCompareTimeout ix => Sys2Proof.Machine.execDigestCompareTimeout ix s
  | .replayInput => Sys2Proof.Machine.execReplayInput s
  | .replayResult => Sys2Proof.Machine.execReplayResult s
  | .replayDigest => Sys2Proof.Machine.execReplayDigest s
  | .replaySend fn ix => Sys2Proof.Machine.execReplaySend fn ix s
  | .ckptBegin => Sys2Proof.Machine.execCkptBegin s
  | .ckptBlock => Sys2Proof.Machine.execCkptBlock s
  | .ckptDigests => Sys2Proof.Machine.execCkptDigests s
  | .ckptEnd => Sys2Proof.Machine.execCkptEnd s
  | .ckptAck => Sys2Proof.Machine.execCkptAck s
  | .ckptAbort => Sys2Proof.Machine.execCkptAbort s
  | .ckptCopyTimeout => Sys2Proof.Machine.execCkptCopyTimeout s
  | .restoreReq => Sys2Proof.Machine.execRestoreReq s
  | .restoreData => Sys2Proof.Machine.execRestoreData s
  | .checkpointDrainComplete => Sys2Proof.Machine.execCheckpointDrainComplete s
  | .restoreComplete => Sys2Proof.Machine.execRestoreComplete s
  | .telemetry => Sys2Proof.Machine.execTelemetry s
  | .commandRecordWrite ix => Sys2Proof.Machine.execCommandRecordWrite ix s
  | .breakpointHit k comp clsop lo hi => Sys2Proof.Machine.execBreakpointHit k comp clsop lo hi s
  | .drainTimeout k => Sys2Proof.Machine.execDrainTimeout k s
  | .debugHalt fn ix scope cl core => Sys2Proof.Machine.execDebugHalt fn ix scope cl core s
  | .debugResume fn ix scope cl core => Sys2Proof.Machine.execDebugResume fn ix scope cl core s
  | .debugStep fn ix cl core => Sys2Proof.Machine.execDebugStep fn ix cl core s
  | .breakpointConfigWrite fn ix v => Sys2Proof.Machine.execBreakpointConfigWrite fn ix v s
  | .debugAccessRead fn ix => Sys2Proof.Machine.execDebugAccessRead fn ix s
  | .debugAccessWrite fn ix v => Sys2Proof.Machine.execDebugAccessWrite fn ix v s
  | .debugUnlock ix module expiry challenge sig => Sys2Proof.Machine.execDebugUnlock ix module expiry challenge sig s
  | .debugLock fn ix => Sys2Proof.Machine.execDebugLock fn ix s
  | .debugSessionExpire ix => Sys2Proof.Machine.execDebugSessionExpire ix s
  | .intervalRecord m meanMv peakW => Sys2Proof.Machine.execIntervalRecord m meanMv peakW s
  | .timeDisciplineMessage m wellFormed ptp sync utc bt => Sys2Proof.Machine.execTimeDisciplineMessage m wellFormed ptp sync utc bt s
  | .readRequest wellFormed kind first => Sys2Proof.Machine.execReadRequest wellFormed kind first s
  | .sealBreak m => Sys2Proof.Machine.execSealBreak m s
  | .serviceChange m calibration param value => Sys2Proof.Machine.execServiceChange m calibration param value s
  | .sealBreakEnd => Sys2Proof.Machine.execSealBreakEnd s
  | .mirrorRefresh m mv ma mw => Sys2Proof.Machine.execMirrorRefresh m mv ma mw s
  | .standbyPowerOn m => Sys2Proof.Machine.execStandbyPowerOn m s
  | .standbyPowerFall => Sys2Proof.Machine.execStandbyPowerFall s
  | .startupStepComplete => Sys2Proof.Machine.execStartupStepComplete s
  | .startupStepTimeout => Sys2Proof.Machine.execStartupStepTimeout s
  | .perstDeassert => Sys2Proof.Machine.execPerstDeassert s
  | .regulatorRamp => Sys2Proof.Machine.execRegulatorRamp s
  | .mainInputTrip standby => Sys2Proof.Machine.execMainInputTrip standby s
  | .tripRestart now => Sys2Proof.Machine.execTripRestart now s
  | .meteringReadyLoss => Sys2Proof.Machine.execMeteringReadyLoss s
  | .powerSample watts volts => Sys2Proof.Machine.execPowerSample watts volts s
  | .junctionOverTemp tj => Sys2Proof.Machine.execJunctionOverTemp tj s
  | .thermalShutdown tj => Sys2Proof.Machine.execThermalShutdown tj s
  | .powerConfigWrite fn v => Sys2Proof.Machine.execPowerConfigWrite fn v s
  | .buddySizeWrite fn v => Sys2Proof.Machine.execBuddySizeWrite fn v s
  | .collCutWrite fn ix v => Sys2Proof.Machine.execCollCutWrite fn ix v s
  | .boardRecordWrite cfg expect coord ext align => Sys2Proof.Machine.execBoardRecordWrite cfg expect coord ext align s
  | .mcWarmResetRequest keepHbm => Sys2Proof.Machine.execMcWarmResetRequest keepHbm s
  | .powerCycle => Sys2Proof.Machine.execPowerCycle s
  | .hostWatchdogExpire => Sys2Proof.Machine.execHostWatchdogExpire s
  | .deviceReset => Sys2Proof.Machine.execDeviceReset s
  | .exportShardComplete ix => Sys2Proof.Machine.execExportShardComplete ix s
  | .ckptSourceBlockRead => Sys2Proof.Machine.execCkptSourceBlockRead s
  | .stateDigestShardDone ix => Sys2Proof.Machine.execStateDigestShardDone ix s
  | .vbatLow => Sys2Proof.Machine.execVbatLow s
  | .calendarLost => Sys2Proof.Machine.execCalendarLost s
  | .reverseCurrent => Sys2Proof.Machine.execReverseCurrent s
  | .firmwareUpdate good slot ver => Sys2Proof.Machine.execFirmwareUpdate good slot ver s

end Sys2Proof.Machine
end

