-- ==== Sys2Proof/Safety.lean ====
section
/-! DEFINITION. The terms in which statements speak of a run: when a core takes an instruction, what software sees of
a core, and canonical memory. -/

namespace Sys2Proof

open Machine

/-- A core without the bookkeeping of issue: its registers and everything else that an instruction does not change by
issuing alone. Left out are the state of the core with what follows a drain, the held instruction and the wait, the
slots and engine records, the number and the bytes of the last instruction, what it waits for, the last slip and the
beat of the last issue. -/
def Machine.Core.arch (c : Core) : Core :=
  { c with st := .idle, after := .none, haltAt := 0, stepOne := false, held := none, wait := none, waitTarget := none,
           slots := [], eng := [], lastSlip := none, issuedAt := none, dbgHeld := false, seq := 0, foot := {}, heldFoot := {},
           heldInput := none, resumeSwap := false }

/-- A core also without what it notes of completions: the tags of the engines' last completions and the MMA.CLRs under
way. The end of a pass changes no register that software sees. -/
def Machine.Core.soft (c : Core) : Core := { c.arch with doneAt := [], clears := [] }

/-- The core of a core instruction; none for any other command. -/
def coreOf : Instr → Option Nat
  | .add k _ _ _ _ | .sub k _ _ _ _ | .and k _ _ _ _ | .or k _ _ _ _ | .xor k _ _ _ _ | .shl k _ _ _ _
  | .shr k _ _ _ _ | .sra k _ _ _ _ | .mul k _ _ _ _ | .slt k _ _ _ _ | .sltu k _ _ _ _ | .min k _ _ _ _
  | .max k _ _ _ _ | .addi k _ _ _ _ | .andi k _ _ _ _ | .ori k _ _ _ _ | .xori k _ _ _ _ | .movi k _ _ _
  | .ldw k _ _ _ _ | .stw k _ _ _ _ | .mova k _ _ _ _ | .movg k _ _ _ _ | .br k _ _ | .beq k _ _ _ _ | .bne k _ _ _ _
  | .blt k _ _ _ _ | .bge k _ _ _ _ | .bltu k _ _ _ _ | .bgeu k _ _ _ _ | .loop k _ _ _ _ _ | .tdSet k _ _ _ _ _ _
  | .tdCopy k _ _ _ | .tmov k _ _ _ _ _ | .tfill k _ _ _ | .mmaF16 k _ _ _ _ _ _ _ | .mmaF32 k _ _ _ _ _ _ _
  | .mmaI16 k _ _ _ _ _ _ _ | .mmaOut k _ _ _ _ _ _ _ _ | .mmaOuts k _ _ _ _ _ _ _ _ _ | .mmaClr k _ _ | .gang k _ _
  | .vadd k _ _ _ _ _ _ _ _ | .vmul k _ _ _ _ _ _ _ _ | .vfma k _ _ _ _ _ _ _ _ _ | .vcmp k _ _ _ _ _ _
  | .vsel k _ _ _ _ _ _ _ _ | .vmin k _ _ _ _ _ _ _ _ | .vmax k _ _ _ _ _ _ _ _ | .vld k _ _ _ _ _ | .vst k _ _ _ _ _
  | .tapArm k _ _ _ _ _ | .tapOff k _ | .tapAuto k _ _ | .syrkTap k _ _ | .tapDrain k _ _ | .nsiScale k _ _ _ _ _
  | .nsiStep k _ _ _ _ _ | .nsiResid k _ _ _ _ _ | .cholSn k _ _ _ _ | .ldltSn k _ _ _ _ | .trsvSn k _ _ _ _ _
  | .refine k _ _ _ _ _ | .sigCnt k _ _ _ _ | .waitCnt k _ _ _ | .setCnt k _ _ _ | .barArrive k _ _ | .barWait k _ _
  | .flagSet k _ _ | .flagWait k _ _ | .flagClr k _ _ | .hostIrq k _ _ | .baSet k _ _ | .baAdv k _ _ | .baNow k _ _
  | .beatWait k _ _ | .beatRd k _ _ | .xferPost k _ _ _ _ _ | .collPost k _ _ _ _ _ | .updApply k _ _ _ _ _
  | .updNs k _ _ _ _ | .updNf k _ _ | .tchk k _ _ _ | .chkRange k _ _ _ _ | .chkNf k _ _ _ | .digFold k _ _ _
  | .digRd k _ _ _ | .digClr k _ _ | .cntRd k _ _ _ | .attrSet k _ _ _ | .traceMark k _ _ | .halt k _ | .nop k _
  | .endProg k _ _ _ _ _ | .bankSwap k _ | .fence k _ _ | .statRd k _ _ _ => some k
  | _ => none

/-- Core k attends to its instruction stream: it is RUNNING, no earlier instruction is held, and no frozen solve and no
pending swap holds it (R39, R59, R222). -/
def Attends (s : State) (k : Nat) : Prop :=
  (s.core k).st = .running ∧ (s.core k).held = none ∧ (s.core k).boundary = false ∧ s.resumeHolds k = false

/-- Core k takes instruction i now: it attends to its stream, the operands are assigned ones, trace does not hold it, and
the target beat, if there is one, is not in the future (R38, R39, R75, R340). No bytes are noted before an instruction
notes its own. -/
def Takes (s : State) (k : Nat) (i : Instr) : Prop :=
  Attends s k ∧ i.wf = true ∧ s.traceHolds k = false ∧ (s.core k).foot = {} ∧
  ∀ d, launchOf i = some d → (s.core k).ba + BitVec.ofNat 64 d ≤ s.beat

/-- Core k takes instruction i now, and its engine has a slot for it (R81). -/
def Issues (s : State) (k : Nat) (i : Instr) : Prop := Takes s k i ∧ (s.core k).slotsFull i = false

/-- Nothing under way holds instruction i of core k for its bytes: no ganged pass of the cluster meets them, and, where
i takes no pass slot, no earlier pass and no fold of the core (R38, R82). -/
def Unblocked (s : State) (k : Nat) (i : Instr) (reads writes : List (Nat × Nat)) : Prop :=
  s.blocked k i { reads := reads, writes := writes } = false

/-- The command runs to a next state. -/
def Runs (i : Instr) (s t : State) : Prop := exec i s = .next t

/-- Every core but k keeps its registers. -/
def OthersKept (s t : State) (k : Nat) : Prop := ∀ j, j ≠ k → (t.core j).arch = (s.core j).arch

/-- Every byte of memory reads as before. -/
def MemKept (s t : State) : Prop := ∀ a, t.rb a = s.rb a

/-- The rest of the module is as before: the queue of commands, the beat, host flags, vectors, sync counters, buffers,
transfers, collectives, queues, links, messages, errors, checkpoint engine, island, supplies and fuses. -/
def DeviceKept (s t : State) : Prop :=
  t.pending = s.pending ∧ t.beat = s.beat ∧ t.flags = s.flags ∧ t.irqs = s.irqs ∧ t.bad = s.bad ∧
  (∀ cl, (t.cluster cl).cnts = (s.cluster cl).cnts) ∧ t.buffers = s.buffers ∧ t.xfers = s.xfers ∧ t.colls = s.colls ∧
  t.queues = s.queues ∧ t.links = s.links ∧ t.inbox = s.inbox ∧ t.err = s.err ∧ t.ckpt = s.ckpt ∧ t.island = s.island ∧
  t.power = s.power ∧ t.fuses = s.fuses

/-- Every byte of memory outside n bytes at a reads as before. -/
def MemKeptBut (s t : State) (a n : Nat) : Prop := ∀ b, b < a ∨ a + n ≤ b → t.rb b = s.rb b

/-- The instruction completes issue on core k with the state u as its effect: it runs to a state which, but for the
bookkeeping of issue (and the trace ring, launch record and TRACE_LOST), is u with the core's pc advanced (R88). -/
def Does (i : Instr) (k : Nat) (s u : State) : Prop :=
  ∃ t, Runs i s t ∧ (t.core k).arch = (u.core k).advance.arch ∧ OthersKept u t k ∧ t.mem = u.mem ∧ DeviceKept u t

/-- The instruction completes issue on core k: it runs to a state in which the core's registers are those of `f` with pc
advanced (R88), and every other core, all of memory and the rest of the module are as before. -/
def Writes (i : Instr) (k : Nat) (s : State) (f : Core → Core) : Prop :=
  ∃ t, Runs i s t ∧ (t.core k).arch = (f (s.core k)).advance.arch ∧ OthersKept s t k ∧ MemKept s t ∧ DeviceKept s t

/-- As `Writes`, where the instruction sets pc itself. -/
def Jumps (i : Instr) (k : Nat) (s : State) (f : Core → Core) : Prop :=
  ∃ t, Runs i s t ∧ (t.core k).arch = (f (s.core k)).arch ∧ OthersKept s t k ∧ MemKept s t ∧ DeviceKept s t

/-- The command runs to a state of which `p` holds. -/
def Gives (i : Instr) (s : State) (p : State → Prop) : Prop := ∃ t, Runs i s t ∧ p t

/-- What follows in the slots of engine e once the core has become c: the queued pass takes the running slot where that
is free and nothing holds the pass, else both slots stay as they are (R81). -/
def Follows (c : Core) (e : Nat) (t : Slots) : Prop :=
  let x := c.slots' e
  let who (p : Option Pass) : Option (Instr × Nat) := p.map fun q => (q.op, q.seq)
  t.tail = x.tail ∧
    if x.running.isNone && x.queued.any (c.clearDone.ready e) then who t.running = who x.queued ∧ t.queued = none
    else t.running = x.running ∧ who t.queued = who x.queued

/-- The command changes engine e of core k to the slots `x`, and no register, no other core and no memory; what is queued
follows. -/
def Frees (i : Instr) (k e : Nat) (s : State) (x : Slots) : Prop :=
  Gives i s fun t => Follows ((s.core k).setSlots e x) e ((t.core k).slots' e) ∧ (t.core k).soft = (s.core k).soft ∧
    OthersKept s t k ∧ MemKept s t

/-- The gang controller lets instruction i of core k go on with state v: in an unganged cluster that is s; in a ganged one
v also holds that the instruction has been compared with that of core (0,0) (R93). -/
def Compares (s : State) (k : Nat) (i : Instr) (v : State) : Prop :=
  if (s.core k).ganged = false then v = s else ∀ go, s.gangCompare k ((s.core k).gangKey i) go = go v

/-- The memory of a state is in canonical form. -/
def Machine.Memory.wf (m : List Host.Cell) : Bool := swf unwritten m

end Sys2Proof
end

