-- ==== Sys2Proof/Certificates/Slice0/Obligations.lean ====
section
/-! DEFINITION. The statements about this model. -/

open Sys2Proof Sys2Proof.Machine

/-- A step takes the command at the front of the queue and runs it on the state with the rest of the queue. Rests on log
9, R7. -/
def Obligations.StepRunsFront : Prop :=
  (∀ (c : Instr) (rest : List Instr) (s : State),
    step { s with pending := c :: rest } = exec c { s with pending := rest }) ∧
  (∀ s : State, s.pending = [] → step s = .next s)

/-- A core performs the instruction it takes; a held instruction holds every later one until it starts. Formalises R39. -/
def Obligations.CoreIssueInOrder : Prop :=
  ∀ (i : Instr) (k : Nat) (s : State), coreOf i = some k →
    (Issues s k i → ∃ tag target late, exec i s = .next (s.settle k i (perform i tag s) target late)) ∧
    ((s.core k).held ≠ none → exec i s = .next s) ∧
    (Attends s k → i.wf = true → s.traceHolds k = false →
      ((∃ d, launchOf i = some d ∧ s.beat < (s.core k).ba + BitVec.ofNat 64 d) ∨ (s.core k).slotsFull i = true) →
      exec i s = .next (s.setCore k { s.core k with held := some i })) ∧
    (∀ inp, (s.core k).held = some i → (s.core k).st = .running → (s.core k).gangWait = false →
      (s.core k).boundary = false → s.resumeHolds k = false → s.traceHolds k = false → (s.core k).slotsFull i = false →
      (∀ d, launchOf i = some d → (s.core k).ba + BitVec.ofNat 64 d ≤ s.beat) →
      ∃ tag target late, exec (.instructionStart k inp) s = .next (s.settle k i (perform i tag s) target late)) ∧
    (∀ target late jumped, ((s.finish k i target late jumped).core k).held = none)

/-- An instruction whose operands are no assigned encoding raises ILLEGAL_OP on its core. Rests on R75, R76, R71, R72. -/
def Obligations.UnassignedEncodingFaults : Prop :=
  ∀ (i : Instr) (k : Nat) (s : State), coreOf i = some k → i.wf = false → Attends s k → (s.core k).after ≠ .toReset →
    ((s.core k).fault.valid = false → (s.core k).ganged = false → (s.core k).prog = none →
      Gives i s fun t => (t.core k).st = .draining ∧ (t.core k).after = .toFaulted ∧
        (t.core k).fault = { cause := 0x01, engine := 0, more := (s.core k).fault.more, pc := (s.core k).pc, valid := true } ∧
        (∀ j, (t.core j).g = (s.core j).g ∧ (t.core j).a = (s.core j).a ∧ (t.core j).t = (s.core j).t) ∧ MemKept s t) ∧
    ((s.core k).fault.valid = true →
      Gives i s fun t => (t.core k).fault = { (s.core k).fault with more := true } ∧
        (∀ j, (t.core j).g = (s.core j).g ∧ (t.core j).a = (s.core j).a ∧ (t.core j).t = (s.core j).t) ∧ MemKept s t)

/-- Register arithmetic of the scalar class, moves between a and g with it: the destination receives the result of Table
4.4, and nothing else changes. Rests on R86 (Table 4.4), R56 (Table 3.1). -/
def Obligations.ScalarArithmetic : Prop :=
  ∀ (s : State) (k : Nat) (l : Launch) (gd gs1 gs2 : GReg) (an : AReg) (imm : W32),
    (Issues s k (.add k l gd gs1 gs2) → Writes (.add k l gd gs1 gs2) k s fun c => c.setG gd (c.gr gs1 + c.gr gs2)) ∧
    (Issues s k (.sub k l gd gs1 gs2) → Writes (.sub k l gd gs1 gs2) k s fun c => c.setG gd (c.gr gs1 - c.gr gs2)) ∧
    (Issues s k (.mul k l gd gs1 gs2) → Writes (.mul k l gd gs1 gs2) k s fun c => c.setG gd (c.gr gs1 * c.gr gs2)) ∧
    (Issues s k (.addi k l gd gs1 imm) → Writes (.addi k l gd gs1 imm) k s fun c => c.setG gd (c.gr gs1 + imm)) ∧
    (Issues s k (.movi k l gd imm) → Writes (.movi k l gd imm) k s fun c => c.setG gd imm) ∧
    (Issues s k (.mova k l gs1 an imm) → Writes (.mova k l gs1 an imm) k s fun c => c.setA an (c.gr gs1 + imm)) ∧
    (Issues s k (.movg k l gd an imm) → Writes (.movg k l gd an imm) k s fun c => c.setG gd (c.ar an + imm)) ∧
    (∀ (c : Core) (v : W32), c.gr 0 = 0 ∧ c.setG 0 v = c)

/-- Bitwise operations and shifts of the scalar class, with shift amounts gs2[4:0]. Rests on R86 (Table 4.4). -/
def Obligations.ScalarLogicAndShifts : Prop :=
  ∀ (s : State) (k : Nat) (l : Launch) (gd gs1 gs2 : GReg) (imm : W32),
    (Issues s k (.and k l gd gs1 gs2) → Writes (.and k l gd gs1 gs2) k s fun c => c.setG gd (c.gr gs1 &&& c.gr gs2)) ∧
    (Issues s k (.or k l gd gs1 gs2) → Writes (.or k l gd gs1 gs2) k s fun c => c.setG gd (c.gr gs1 ||| c.gr gs2)) ∧
    (Issues s k (.xor k l gd gs1 gs2) → Writes (.xor k l gd gs1 gs2) k s fun c => c.setG gd (c.gr gs1 ^^^ c.gr gs2)) ∧
    (Issues s k (.andi k l gd gs1 imm) → Writes (.andi k l gd gs1 imm) k s fun c => c.setG gd (c.gr gs1 &&& imm)) ∧
    (Issues s k (.ori k l gd gs1 imm) → Writes (.ori k l gd gs1 imm) k s fun c => c.setG gd (c.gr gs1 ||| imm)) ∧
    (Issues s k (.xori k l gd gs1 imm) → Writes (.xori k l gd gs1 imm) k s fun c => c.setG gd (c.gr gs1 ^^^ imm)) ∧
    (Issues s k (.shl k l gd gs1 gs2) → Writes (.shl k l gd gs1 gs2) k s fun c =>
      c.setG gd (BitVec.ofNat 32 ((c.gr gs1).toNat * 2 ^ ((c.gr gs2).toNat % 32)))) ∧
    (Issues s k (.shr k l gd gs1 gs2) → Writes (.shr k l gd gs1 gs2) k s fun c =>
      c.setG gd (BitVec.ofNat 32 ((c.gr gs1).toNat / 2 ^ ((c.gr gs2).toNat % 32)))) ∧
    (Issues s k (.sra k l gd gs1 gs2) → Writes (.sra k l gd gs1 gs2) k s fun c =>
      c.setG gd (BitVec.ofInt 32 ((c.gr gs1).toInt / 2 ^ ((c.gr gs2).toNat % 32))))

/-- SLT, SLTU, MIN and MAX compare as signed or unsigned numbers. Rests on R86 (Table 4.4). -/
def Obligations.ScalarComparisons : Prop :=
  ∀ (s : State) (k : Nat) (l : Launch) (gd gs1 gs2 : GReg),
    (Issues s k (.slt k l gd gs1 gs2) → Writes (.slt k l gd gs1 gs2) k s fun c =>
      c.setG gd (if (c.gr gs1).toInt < (c.gr gs2).toInt then 1 else 0)) ∧
    (Issues s k (.sltu k l gd gs1 gs2) → Writes (.sltu k l gd gs1 gs2) k s fun c =>
      c.setG gd (if (c.gr gs1).toNat < (c.gr gs2).toNat then 1 else 0)) ∧
    (Issues s k (.min k l gd gs1 gs2) → Writes (.min k l gd gs1 gs2) k s fun c =>
      c.setG gd (BitVec.ofInt 32 (min (c.gr gs1).toInt (c.gr gs2).toInt))) ∧
    (Issues s k (.max k l gd gs1 gs2) → Writes (.max k l gd gs1 gs2) k s fun c =>
      c.setG gd (BitVec.ofInt 32 (max (c.gr gs1).toInt (c.gr gs2).toInt)))

/-- LDW, STW, MOVA and MOVG: word access at an + off with its low two bits ignored, and moves between a and g. A load or
a store of bytes that no fold has to write first completes at once; the folds that it meets come before it. Rests on
R86 (Table 4.4), R82, R162, R303. -/
def Obligations.ScalarMemoryAndAddress : Prop :=
  ∀ (s : State) (k : Nat) (l : Launch) (g : GReg) (an : AReg) (off : W32),
    let at_ := s.local' k (((s.core k).ar an + off).toNat / 4 * 4) 4
    (Issues s k (.mova k l g an off) → Writes (.mova k l g an off) k s fun c => c.setA an (c.gr g + off)) ∧
    (Issues s k (.movg k l g an off) → Writes (.movg k l g an off) k s fun c => c.setG g (c.ar an + off)) ∧
    (Issues s k (.ldw k l g an off) →
      (∀ c, at_ = .error c → exec (.ldw k l g an off) s = .next (s.fault k c (causeEngine c 0))) ∧
      (∀ p r, at_ = .ok (p, r) →
        (∀ w, s.badWord p 4 = some w → exec (.ldw k l g an off) s =
          .next (s.fault k (r.uncorr w) (causeEngine (r.uncorr w) 0))) ∧
        (s.poisoned p 4 = false → Unblocked s k (.ldw k l g an off) [(p, 4)] [] →
          ((s.core k).tapQ = [] → Writes (.ldw k l g an off) k s fun c => c.setG g (BitVec.ofNat 32 (s.rd p 4))) ∧
          (∀ u, s.settleTap k [(p, 4)] [] = .ok u →
            Does (.ldw k l g an off) k s (u.setCore k ((u.core k).setG g (BitVec.ofNat 32 (u.rd p 4)))))))) ∧
    (Issues s k (.stw k l g an off) →
      (∀ c, at_ = .error c → exec (.stw k l g an off) s = .next (s.fault k c (causeEngine c 0))) ∧
      (∀ p r, at_ = .ok (p, r) →
        (∀ w, s.badWord p 4 = some w → exec (.stw k l g an off) s =
          .next (s.fault k (r.uncorr w) (causeEngine (r.uncorr w) 0))) ∧
        (s.poisoned p 4 = false → Unblocked s k (.stw k l g an off) [] [(p, 4)] →
          ((s.core k).tapQ = [] → ∃ t, Runs (.stw k l g an off) s t ∧ (t.core k).arch = (s.core k).advance.arch ∧
            OthersKept s t k ∧ MemKeptBut s t p 4 ∧ t.rd p 4 = ((s.core k).gr g).toNat ∧ DeviceKept s t) ∧
          (∀ u, s.settleTap k [] [(p, 4)] = .ok u → ∃ t, Runs (.stw k l g an off) s t ∧
            (t.core k).arch = (u.core k).advance.arch ∧ OthersKept u t k ∧ MemKeptBut u t p 4 ∧
            t.rd p 4 = ((s.core k).gr g).toNat ∧ DeviceKept u t))))

/-- A taken branch jumps; LOOP opens a loop or skips its body, whose last instruction counts down; a branch out closes
it. Rests on R87, R88. -/
def Obligations.BranchesAndLoops : Prop :=
  (∀ (s : State) (k : Nat) (l : Launch) (gs1 gs2 : GReg) (off : BitVec 11),
    let a := (s.core k).gr gs1
    let b := (s.core k).gr gs2
    let go (i : Instr) (p : Prop) : Prop := Issues s k i →
      (p → Jumps i k s fun c =>
        let t := (((c.pc : Int) + off.toInt) % 1024).toNat
        { c with pc := t, loops := closeLoops t c.loops }) ∧
      (¬p → Writes i k s id)
    go (.br k l off) True ∧ go (.beq k l gs1 gs2 off) (a = b) ∧ go (.bne k l gs1 gs2 off) (a ≠ b) ∧
    go (.blt k l gs1 gs2 off) (a.toInt < b.toInt) ∧ go (.bge k l gs1 gs2 off) (b.toInt ≤ a.toInt) ∧
    go (.bltu k l gs1 gs2 off) (a.toNat < b.toNat) ∧ go (.bgeu k l gs1 gs2 off) (b.toNat ≤ a.toNat)) ∧
  (∀ (s : State) (k : Nat) (l : Launch) (lc : Fin 4) (gs : GReg) (len : Nat) (cnt : W16),
    let n : W16 := if gs = 0 then cnt else ((s.core k).gr gs).truncate 16
    let deep := 4 ≤ (s.core k).loops.length ∨ ∃ r ∈ (s.core k).loops, r.lc = lc.val
    Issues s k (.loop k l lc gs len cnt) →
      (1 ≤ len ∧ len ≤ 767) ∧
      (n = 0 → Jumps (.loop k l lc gs len cnt) k s fun c => c.advanceIn ((c.pc + 1 + len) % 1024) [] c.loops) ∧
      (n ≠ 0 → ¬deep → Jumps (.loop k l lc gs len cnt) k s fun c =>
        (c.setLc lc n).advanceIn ((c.pc + 1) % 1024) [⟨lc, c.pc + 1, c.pc + len⟩] c.loops) ∧
      (n ≠ 0 → deep → exec (.loop k l lc gs len cnt) s = .next (s.fault k 0x05 0))) ∧
  (∀ (c : Core) (n : Nat) (kept : List LoopRec) (r : LoopRec) (rest : List LoopRec),
    c.advance = c.advanceIn ((c.pc + 1) % 1024) [] c.loops ∧
    (c.pc = r.last → c.lcr r.lc ≠ 1 → c.advanceIn n kept (r :: rest) =
      { c.setLc r.lc (c.lcr r.lc - 1) with pc := r.first, loops := kept ++ r :: rest }) ∧
    (c.pc = r.last → c.lcr r.lc = 1 → c.advanceIn n kept (r :: rest) = (c.setLc r.lc 0).advanceIn n kept rest) ∧
    (c.pc ≠ r.last → c.advanceIn n kept (r :: rest) = c.advanceIn n (kept ++ [r]) rest) ∧
    ((∀ q ∈ rest, q.last ≠ c.pc) → c.advanceIn n kept rest = { c with pc := n, loops := kept ++ rest })) ∧
  (∀ (t : Nat) (r : LoopRec) (rest : List LoopRec), closeLoops t rest = rest →
    (r.first ≤ t ∧ t ≤ r.last → closeLoops t (r :: rest) = r :: rest) ∧
    (¬(r.first ≤ t ∧ t ≤ r.last) → closeLoops t (r :: rest) = rest)) ∧
  (∀ (t : Nat) (r : LoopRec) (rest : List LoopRec), closeLoops t rest ≠ rest →
    closeLoops t (r :: rest) = closeLoops t rest)

/-- TD.SET writes one field of a descriptor, truncated to its width, and TD.COPY every field. Rests on R89 (Table 4.6),
R90. -/
def Obligations.TileDescriptorsWritten : Prop :=
  ∀ (s : State) (k : Nat) (l : Launch) (td tsrc : TReg) (fld : Nat) (reg : Bool) (gs : GReg) (imm : BitVec 24),
    (Issues s k (.tdSet k l td fld reg gs imm) → Writes (.tdSet k l td fld reg gs imm) k s fun c =>
      let v : W32 := if reg = false then imm.signExtend 32 else if fld = 0 then c.ar (gs.val % 16) else c.gr gs
      let d := c.tr td
      c.setT td
        (if fld = 0 then { d with base := v } else if fld = 1 then { d with rows := v.truncate 16 }
         else if fld = 2 then { d with cols := v.truncate 16 } else if fld = 3 then { d with rs := v.truncate 24 }
         else if fld = 4 then { d with cs := v.truncate 24 } else if fld = 5 then { d with format := v.truncate 8 &&& 0xF7 }
         else if fld = 6 then { d with swizzle := v.truncate 10 } else if fld = 7 then { d with clampR := v.truncate 16 }
         else { d with clampC := v.truncate 16 })) ∧
    (Issues s k (.tdCopy k l td tsrc) → Writes (.tdCopy k l td tsrc) k s fun c => c.setT td (c.tr tsrc))

/-- TMOV and TFILL store every element of the destination tile and no other byte; a move pass holds its slot until it
completes. Rests on R89 (Table 4.6), R142, R144, R145, R146, R162, R81, R82. -/
def Obligations.TileMovesStoreElements : Prop :=
  (∀ (s u : State) (k : Nat) (l : Launch) (td ts : TReg) (wm : Nat) (gsc : GReg) (v w : View),
    let acc := decide (wm = 1)
    let scale := if gsc = 0 then none else some ((s.core k).gr gsc)
    let i := Instr.tmov k l td ts wm gsc
    Issues s k i →
    s.view k ((s.core k).tr ts) true = .ok v → s.view k ((s.core k).tr td) true = .ok w →
    (if acc then accumulate v.t.fmt w.t.fmt scale 0 0 else convert v.t.fmt w.t.fmt scale 0).isSome →
    s.strides ((s.core k).tr td) acc = none →
    (∀ f, s.viewBad v = some f → exec i s = .next (s.fault k f (causeEngine f 3))) ∧
    (s.viewBad v = none → s.viewPart w = none → (wm = 1 → s.viewBad w = none) → Unblocked s k i v.bytes w.bytes →
    let store (u : State) : State := forEach ((grid w.t.cr w.t.cc).map fun p => (p, u.elem v p.1 p.2)) u fun x e =>
      x.putElem w e.1.1 e.1.2 ((if acc then accumulate v.t.fmt w.t.fmt scale e.2 (x.elem w e.1.1 e.1.2)
        else convert v.t.fmt w.t.fmt scale e.2).getD 0)
    ((s.core k).tapQ = [] → Does i k s (store s)) ∧
    (s.settleTap k v.bytes w.bytes = .ok u → Does i k s (store u)) ∧
    (store u).cores = u.cores ∧
    ∀ a, (∀ p ∈ grid w.t.cr w.t.cc, a < w.at p.1 p.2 ∨ w.at p.1 p.2 + w.t.size ≤ a) → (store u).rb a = u.rb a)) ∧
  (∀ (s u : State) (k : Nat) (l : Launch) (td : TReg) (gsc : GReg) (w : View),
    let i := Instr.tfill k l td gsc
    Issues s k i → s.view k ((s.core k).tr td) true = .ok w → s.strides ((s.core k).tr td) false = none →
    (∀ f, s.viewPart w = some f → exec i s = .next (s.fault k f (causeEngine f 3))) ∧
    (s.viewPart w = none → Unblocked s k i [] w.bytes →
    let raw := (convert (if fmtInt w.t.fmt then 5 else 1) w.t.fmt none ((s.core k).gr gsc).toNat).getD 0
    let store (u : State) : State := forEach (grid w.t.cr w.t.cc) u fun x p => x.putElem w p.1 p.2 raw
    ((s.core k).tapQ = [] → Does i k s (store s)) ∧
    (s.settleTap k [] w.bytes = .ok u → Does i k s (store u)) ∧
    (store u).cores = u.cores ∧
    ∀ a, (∀ p ∈ grid w.t.cr w.t.cc, a < w.at p.1 p.2 ∨ w.at p.1 p.2 + w.t.size ≤ a) → (store u).rb a = u.rb a)) ∧
  (∀ (s : State) (k : Nat) (l : Launch) (td ts : TReg) (wm : Nat) (gsc : GReg), ((s.core k).slots' 3).full = true →
    (Takes s k (.tmov k l td ts wm gsc) → exec (.tmov k l td ts wm gsc) s = .next (s.hold k (.tmov k l td ts wm gsc))) ∧
    (Takes s k (.tfill k l td gsc) → exec (.tfill k l td gsc) s = .next (s.hold k (.tfill k l td gsc)))) ∧
  (∀ (s : State) (k : Nat) (p : Pass), ((s.core k).slots' 3).running = some p → (s.core k).suspended = false →
    Frees (.movePassComplete k) k 3 s { (s.core k).slots' 3 with running := none })

/-- MMA.F16, MMA.F32 and MMA.I16 add their products in order of k to each accumulator, and MMA.CLR clears a set. Rests
on R91, R116, R117, R126, R132, R160, R162. -/
def Obligations.MatrixAccumulates : Prop :=
  (∀ (s : State) (k : Nat) (l : Launch) (ac : AcReg) (ta tb tc : TReg) (n : Nat) (a b : View),
    let kk := ((s.core k).tr ta).cols.toNat
    let go (i : Instr) (kind : PassKind) : Prop :=
      Issues s k i → (s.core k).gangWait = false → (s.cluster (clOf k)).shape = 0 →
      s.mmaCheck k ((s.core k).acc' ac) kind ((s.core k).tr ta) ((s.core k).tr tb) ((s.core k).tr tc) n {} = .ok (a, b, none) →
      kk ≤ n + 1 → s.bad = [] → (s.core k).tapQ = [] → (s.core k).tap = none → Unblocked s k i (a.bytes ++ b.bytes) [] →
      ∃ r : AccSet, Writes i k s (fun c => c.setAcc ac r) ∧ r.kind = (if kind.intg then .integer else .floating) ∧
        ∀ x, x < 16 → r.get x = (List.range kk).foldl (fun v q =>
          if kind.intg then
            BitVec.ofInt 32 (satInt 32 (v.toInt + sext 16 (s.elem a (x / 4) q) * sext 16 (s.elem b q (x % 4)))).1
          else fma32 (s.elem32 a (x / 4) q) (s.elem32 b q (x % 4)) v) (((s.core k).acc' ac).get x)
    go (.mmaF16 k l ac ta tb tc n false) ⟨false, [0, 3, 4]⟩ ∧ go (.mmaF32 k l ac ta tb tc n false) ⟨false, [1]⟩ ∧
    go (.mmaI16 k l ac ta tb tc n false) ⟨true, [2]⟩ ∧
    (Issues s k (.mmaClr k l ac) → (s.core k).gangWait = false →
      (∀ p ∈ (s.cluster (clOf k)).passes, setOf p.op ≠ some ac.val) →
      let m := (s.core k).seq + 1
      Writes (.mmaClr k l ac) k s fun c => { c.setAcc ac {} with
        clears := if (c.slots' 1).sums ac m then c.clears ++ [(ac.val, m)] else c.clears })) ∧
  (∀ (s u : State) (k : Nat) (l : Launch) (ac : AcReg) (ta tb tc : TReg) (n : Nat) (v : View × View × Option View),
    let go (i : Instr) (kind : PassKind) : Prop :=
      Issues s k i → (s.core k).gangWait = false → (s.cluster (clOf k)).shape = 0 →
      s.mmaCheck k ((s.core k).acc' ac) kind ((s.core k).tr ta) ((s.core k).tr tb) ((s.core k).tr tc) n {} = .ok v →
      s.bad = [] → (kind.intg = true ∨ (s.core k).tapFull = false) → Unblocked s k i (mmaReads v) (mmaWrites v) →
      s.applyMma k ac kind v n ((s.core k).tr ta).cols.toNat {} = .ok u →
      Does i k s (if kind.intg then u else u.capture k ((s.core k).tr ta) ((s.core k).tr tb) (decide (kind = kindF32)) {})
    go (.mmaF16 k l ac ta tb tc n false) kindF16 ∧ go (.mmaF32 k l ac ta tb tc n false) kindF32 ∧
    go (.mmaI16 k l ac ta tb tc n false) kindI16)

/-- MMA.OUT and MMA.OUTS store the converted accumulators into ta, and MMA.OUTS its spill buffer, and no other byte.
Rests on R114, R119, R120, R144. -/
def Obligations.MatrixOutputStores : Prop :=
  ∀ (s u : State) (k : Nat) (l : Launch) (ac : AcReg) (ta tb : TReg) (tc : Option TReg) (rnd ep : Nat) (gid : GReg)
    (o : View) (b c : Option View),
    let go (i : Instr) : Prop :=
      Issues s k i → (s.core k).gangWait = false → (s.cluster (clOf k)).shape = 0 →
      s.outCheck k ((s.core k).acc' ac) ((s.core k).tr ta) ((s.core k).tr tb) (tc.map fun t => (s.core k).tr t) ep {} = .ok (o, b, c) →
      s.bad = [] → Unblocked s k i (outReads (o, b, c)) (outWrites (o, b, c)) →
      let ctl := outCtl rnd ep ((s.core k).tapKeys gid.val) (s.seedOf k) (s.stepOf k)
      let r (u : State) := u.outAll ctl o b c {} ((s.core k).acc' ac)
      let stored (u : State) := u.outStore k ac o c {} (r u)
      ((s.core k).tapQ = [] → Does i k s (stored s)) ∧
      (s.settleTap k (outReads (o, b, c)) (outWrites (o, b, c)) = .ok u → Does i k s (stored u)) ∧
      (r u).acc.vals = ((s.core k).acc' ac).vals ∧ (r u).vals.length = 16 ∧
      ∀ a, (∀ n, n < 16 → (a < o.at (n / 4) (n % 4) ∨ o.at (n / 4) (n % 4) + o.t.size ≤ a) ∧
          ∀ v, c = some v → (a < v.at (n / 4) (n % 4) ∨ v.at (n / 4) (n % 4) + v.t.size ≤ a)) → (stored u).rb a = u.rb a
    (tc = none → go (.mmaOut k l ac ta tb rnd ep gid false)) ∧
    (∀ t, tc = some t → go (.mmaOuts k l ac ta tb t rnd ep gid false))

/-- The end of entry frees the running slot while the pass stays in flight, and the end of the pass removes it. Rests on
R81, R125, R126, R131. -/
def Obligations.MatrixPassesLeaveSlots : Prop :=
  (∀ (s : State) (k : Nat) (p : Pass), let x := (s.core k).slots' 1
    (s.core k).suspended = false →
    (x.running = some p → Frees (.matrixEntryEnd k false) k 1 s
      { x with running := none, tail := if staysInFlight p.op then x.tail ++ [p] else x.tail }) ∧
    (∀ r, x.tail = p :: r → Frees (.matrixPassComplete k false) k 1 s { x with tail := r })) ∧
  (∀ (s : State) (cl : Nat) (p : GangPass), s.gangSuspended cl = false →
    ((s.cluster cl).gangRun = some p → (s.cluster cl).gangQueued = none → p.badAt = none → factorPlanOf p.op = none →
      (staysInFlight p.op = true → exec (.matrixEntryEnd cl true) s = .next ((s.setCluster cl { s.cluster cl with
        gangRun := none, gangTail := (s.cluster cl).gangTail ++ [p] }).gangAccum cl p (p.tile 0 0).cols.toNat)) ∧
      (staysInFlight p.op = false → Gives (.matrixEntryEnd cl true) s fun t => (t.cluster cl).gangRun = none ∧
        (t.cluster cl).gangTail = (s.cluster cl).gangTail ∧ (∀ k, (t.core k).soft = (s.core k).soft) ∧ MemKept s t)) ∧
    (∀ r, (s.cluster cl).gangTail = p :: r →
      ((s.cluster cl).gangQueued = none → Gives (.matrixPassComplete cl true) s fun t => (t.cluster cl).gangTail = r ∧
        (t.cluster cl).gangRun = (s.cluster cl).gangRun ∧ (∀ k, (t.core k).soft = (s.core k).soft) ∧ MemKept s t) ∧
      (∀ q, (s.cluster cl).gangRun = none → (s.cluster cl).gangQueued = some q → outOf q.op = none →
        (∀ k, (s.core k).folding = 0) → Gives (.matrixPassComplete cl true) s fun t => (t.cluster cl).gangTail = r ∧
          (t.cluster cl).gangQueued = none ∧ (∃ z, (t.cluster cl).gangRun = some z ∧ z.op = q.op ∧ z.tiles = q.tiles) ∧
          (∀ k, (t.core k).soft = (s.core k).soft) ∧ MemKept s t)))

/-- GANG asks for a shape, the change makes it active, ganged passes start on all 256 cores at once, and a bad feed
faults the gang. Rests on R70, R84, R93, R132, R133. -/
def Obligations.GangShapeAndPass : Prop :=
  (∀ (s v : State) (k : Nat) (l : Launch) (shape : Nat), Issues s k (.gang k l shape) →
    let u := s.cluster (clOf k)
    ((s.core k).ganged = false → exec (.gang k l shape) s = .next (s.fault k 0x0A 6)) ∧
    ((s.core k).ganged = true → (s.core k).gangWait = true → exec (.gang k l shape) s = .next (s.hold k (.gang k l shape))) ∧
    ((s.core k).ganged = true → (s.core k).gangWait = false → Compares s k (.gang k l shape) v →
      (shape = u.shape → u.pending = false → Does (.gang k l shape) k s v) ∧
      (shape ≠ u.shape → u.pending = false → Gives (.gang k l shape) s fun t =>
        (t.cluster (clOf k)).shadow = shape ∧ (t.cluster (clOf k)).pending = true ∧
        (t.cluster (clOf k)).shape = u.shape ∧ (t.core k).gangWait = true))) ∧
  (∀ (s : State) (cl : Nat) (i : Instr), (s.cluster cl).pending = true → (s.cluster cl).gangIssued.length = 256 →
    (∀ e ∈ (s.cluster cl).gangIssued, e.2 = i) → (∃ e ∈ (s.cluster cl).gangIssued, e.1 = 0) → (s.cluster cl).inFlight = false →
    Gives (.gangShapeChange cl) s fun t => (t.cluster cl).shape = (s.cluster cl).shadow ∧ (t.cluster cl).pending = false ∧
      (∀ x, x < 256 → (t.core (cl * 256 + x)).gangWait = false) ∧ MemKept s t) ∧
  (∀ (s : State) (cl : Nat) (i : Instr), (s.cluster cl).shape ≠ 0 → (s.cluster cl).passes = [] →
    s.readyGang (cl * 256) = some i → (∀ t, (s.core (cl * 256)).target i = some t → t ≤ s.beat) →
    (∀ x, x < 256 → (s.readyGang (cl * 256 + x)).isSome) →
    ((∀ x, x < 256 → (s.core (cl * 256 + x)).passes = [] ∧ (s.core (cl * 256 + x)).tapQ = [] ∧
        (s.core (cl * 256 + x)).folding = 0 ∧ ∀ j, s.readyGang (cl * 256 + x) = some j →
        (s.core (cl * 256 + x)).gangKey j = (s.core (cl * 256)).gangKey i ∧
        s.gangPartFault (cl * 256 + x) (s.cluster cl).shape j = none) →
      Gives (.gangedPassStart cl) s fun t => (∃ p, (t.cluster cl).gangRun = some p ∧ p.op = i) ∧
        ∀ x, x < 256 → (t.core (cl * 256 + x)).held = none) ∧
    (∀ x j, x < 256 → s.readyGang (cl * 256 + x) = some j → (s.core (cl * 256 + x)).gangKey j ≠ (s.core (cl * 256)).gangKey i →
      (s.core (cl * 256 + x)).fault.valid = false →
      Gives (.gangedPassStart cl) s fun t => (t.core (cl * 256 + x)).fault.valid = true ∧
        (t.core (cl * 256 + x)).fault.cause = 0x0A ∧ (t.core (cl * 256 + x)).fault.engine = 6)) ∧
  (∀ (s : State) (cl entered w : Nat) (p : GangPass) (v : View × View × Option View),
    (s.cluster cl).gangRun = some p → p.badAt = some entered → s.mmaViews (cl * 256) p.shape p.op (p.tiles.getD 0 []) = some v →
    s.firstBad v entered = some (entered, w) → (∀ k, (s.core k).tapQ = []) → (s.core (cl * 256)).fault.valid = false →
    Gives (.gangFeedUncorrectable cl entered) s fun t => (t.core (cl * 256)).fault.valid = true ∧
      (t.core (cl * 256)).fault.cause = 0x08 ∧ (t.core (cl * 256)).fault.engine = 6 ∧ (t.cluster cl).gangRun = none)

/-- Vector operations write the enabled lanes of a register or the elements of a tile, with one rounding. Rests on R94,
R95, R142, R148, R149. -/
def Obligations.VectorOperations : Prop :=
  (∀ (s : State) (k : Nat) (l : Launch) (vd va vb vc : VReg) (md m : MReg) (bc cmp : Nat) (fp : Bool),
    let g : FFmt := if fp then .fp32 else .fp16
    let go (i : Instr) (f : Fl → Fl → Fl → Fl) : Prop := Issues s k i →
      Writes i k s fun c => c.setV vd (ofLanes fp ((List.range (if fp then 8 else 16)).map fun n =>
        if (c.mr m).getLsbD n then
          flBits g .rne (f (flOf g (lane fp (c.vr va) n)) (flOf g (lane fp (c.vr vb) n)) (flOf g (lane fp (c.vr vc) n)))
        else lane fp (c.vr vd) n))
    go (.vadd k l false vd va vb m bc fp) (fun a b _ => flAdd a b) ∧
    go (.vmul k l false vd va vb m bc fp) (fun a b _ => flMul a b) ∧
    go (.vfma k l false vd va vb vc m bc fp) (fun a b c => flAdd (flMul a b) c) ∧
    go (.vmin k l false vd va vb m bc fp) (fun a b _ => flMin a b) ∧
    go (.vmax k l false vd va vb m bc fp) (fun a b _ => flMax a b) ∧
    (Issues s k (.vsel k l false vd va vb m bc fp) →
      Writes (.vsel k l false vd va vb m bc fp) k s fun c =>
        c.setV vd (ofLanes fp ((List.range (if fp then 8 else 16)).map fun n =>
          if (c.mr m).getLsbD n then lane fp (c.vr va) n else lane fp (c.vr vb) n))) ∧
    (Issues s k (.vcmp k l md va vb cmp fp) →
      Writes (.vcmp k l md va vb cmp fp) k s fun c =>
        c.setM md (BitVec.ofNat 16 ((List.range (if fp then 8 else 16)).foldl (fun acc n =>
          let x := flOf g (lane fp (c.vr va) n)
          let y := flOf g (lane fp (c.vr vb) n)
          let hit := match flCmp x y with
            | none => decide (cmp = 1)
            | some o => (decide (cmp = 0) && decide (o = Ordering.eq)) || (decide (cmp = 1) && decide (o ≠ Ordering.eq)) ||
              (decide (cmp = 2) && decide (o = Ordering.lt)) || (decide (cmp = 3) && decide (o ≠ Ordering.gt)) ||
              (decide (cmp = 4) && decide (o = Ordering.gt)) || (decide (cmp = 5) && decide (o ≠ Ordering.lt))
          acc + hit.toNat * 2 ^ n) 0)))) ∧
  (∀ (s u : State) (k : Nat) (l : Launch) (vd va vb vc : VReg) (m : MReg) (bc : Nat) (fp : Bool) (w a b x : View),
    let g : FFmt := if fp then .fp32 else .fp16
    let go (i : Instr) (vx : VReg) (op : Nat → Nat → Nat → Bool → Option Nat) : Prop :=
      Issues s k i → s.bad = [] →
      s.view k ((s.core k).tr vd) false = .ok w → s.view k ((s.core k).tr va) false = .ok a →
      s.view k ((s.core k).tr vb) false = .ok b → s.view k ((s.core k).tr vx) false = .ok x →
      s.vtileFault fp (.ok w) ((s.core k).tr vd) [.ok a, .ok b, .ok x] = none →
      Unblocked s k i (a.bytes ++ b.bytes ++ x.bytes) w.bytes →
      let store (u : State) : State := forEach ((grid w.t.cr w.t.cc).map fun p => (p, op (u.elem a p.1 p.2)
        (u.elem b (if bc = 1 then 0 else p.1) (if bc = 2 then 0 else p.2)) (u.elem x p.1 p.2)
        (((s.core k).mr m).getLsbD (p.2 % (if fp then 8 else 16))))) u fun t e => match e.2 with
          | some v => t.putElem w e.1.1 e.1.2 v
          | none => t
      ((s.core k).tapQ = [] → Does i k s (store s)) ∧
      (s.settleTap k (a.bytes ++ b.bytes ++ x.bytes) w.bytes = .ok u → Does i k s (store u))
    let rounded (f : Fl → Fl → Fl → Fl) (p q r : Nat) (on : Bool) : Option Nat :=
      if on then some (flBits g .rne (f (flOf g p) (flOf g q) (flOf g r))) else none
    go (.vadd k l true vd va vb m bc fp) va (rounded fun a b _ => flAdd a b) ∧
    go (.vmul k l true vd va vb m bc fp) va (rounded fun a b _ => flMul a b) ∧
    go (.vfma k l true vd va vb vc m bc fp) vc (rounded fun a b c => flAdd (flMul a b) c) ∧
    go (.vmin k l true vd va vb m bc fp) va (rounded fun a b _ => flMin a b) ∧
    go (.vmax k l true vd va vb m bc fp) va (rounded fun a b _ => flMax a b) ∧
    go (.vsel k l true vd va vb m bc fp) va (fun p q _ on => some (if on then p else q)))

/-- VLD and VST move the enabled 2-byte lanes of 32 bytes at an + off, and a vector pass holds its slot until it
completes. Rests on R94 (Table 4.8), R81, R82, R148, R162. -/
def Obligations.VectorMemory : Prop :=
  (∀ (s : State) (k : Nat) (l : Launch) (vd : VReg) (an : AReg) (m : MReg) (off : W16),
    let at_ := s.local' k (((s.core k).ar an + off.signExtend 32).toNat / 32 * 32) 32
    (∀ c, at_ = .error c →
      (Issues s k (.vld k l vd an m off) → exec (.vld k l vd an m off) s = .next (s.fault k c (causeEngine c 2))) ∧
      (Issues s k (.vst k l vd an m off) → exec (.vst k l vd an m off) s = .next (s.fault k c (causeEngine c 2)))) ∧
    (∀ p r w, at_ = .ok (p, r) → s.badWord p 32 = some w → Issues s k (.vld k l vd an m off) →
      exec (.vld k l vd an m off) s = .next (s.fault k (r.uncorr w) (causeEngine (r.uncorr w) 2))) ∧
    (∀ p r, at_ = .ok (p, r) → s.bad = [] →
      let loaded (c : Core) (u : State) : Core := c.setV vd (ofLanes false ((List.range 16).map fun n =>
        if (c.mr m).getLsbD n then u.rd (p + 2 * n) 2 else lane false (c.vr vd) n))
      (Issues s k (.vld k l vd an m off) → Unblocked s k (.vld k l vd an m off) [(p, 32)] [] →
        ((s.core k).tapQ = [] → Writes (.vld k l vd an m off) k s fun c => loaded c s) ∧
        (∀ u, s.settleTap k [(p, 32)] [] = .ok u → Does (.vld k l vd an m off) k s (u.setCore k (loaded (u.core k) u)))) ∧
      (Issues s k (.vst k l vd an m off) →
        let runs := (vstRuns p ((s.core k).mr m) ((s.core k).vr vd)).map fun x => (x.1, x.2.length)
        let stores (u : State) : Prop := ∃ t, Runs (.vst k l vd an m off) s t ∧ (t.core k).arch = (u.core k).advance.arch ∧
          OthersKept u t k ∧ DeviceKept u t ∧
          (∀ n, n < 16 → ((s.core k).mr m).getLsbD n → t.rd (p + 2 * n) 2 = lane false ((s.core k).vr vd) n) ∧
          ∀ a, (∀ n, n < 16 → ((s.core k).mr m).getLsbD n → a < p + 2 * n ∨ p + 2 * n + 2 ≤ a) → t.rb a = u.rb a
        Unblocked s k (.vst k l vd an m off) [] runs →
        ((s.core k).tapQ = [] → stores s) ∧ (∀ u, s.settleTap k [] runs = .ok u → stores u)))) ∧
  (∀ (s : State) (k : Nat) (p : Pass), ((s.core k).slots' 2).running = some p → (s.core k).suspended = false →
    Frees (.vectorPassComplete k) k 2 s { (s.core k).slots' 2 with running := none })

/-- The tap is armed, disarmed and let fold by itself; SYRK.TAP folds its oldest entry and TAP.DRAIN all of them. Rests
on R160, R162, R163, R164. -/
def Obligations.CurvatureTap : Prop :=
  (∀ (s : State) (k : Nat) (l : Launch) (tf : TReg) (side : Bool) (n : Nat) (gid : GReg), let c := s.core k
    (Issues s k (.tapArm k l tf side n gid) → Writes (.tapArm k l tf side n gid) k s fun c =>
      { c with tap := some { slice := c.tr tf, side := side, s := n, gid := gid.val } }) ∧
    (Issues s k (.tapOff k l) → Writes (.tapOff k l) k s fun c => { c with tap := none }) ∧
    (Issues s k (.tapAuto k l tf) → Writes (.tapAuto k l tf) k s fun c =>
      if s.bit R.devMode 0 then c else { c with tapAuto := some (c.tr tf) }) ∧
    (Issues s k (.syrkTap k l tf) → c.tapQ.length ≤ c.folding → Writes (.syrkTap k l tf) k s id) ∧
    (Issues s k (.syrkTap k l tf) → ∀ e, c.tapQ[c.folding]? = some e →
      (e.slice ≠ c.tr tf → exec (.syrkTap k l tf) s = .next (s.fault k 0x02 (causeEngine 0x02 4))) ∧
      (e.slice = c.tr tf → Unblocked s k (.syrkTap k l tf) (s.foldFoot k e).reads (s.foldFoot k e).writes →
        ∀ u, s.foldEntry k e = .ok u →
          Does (.syrkTap k l tf) k s (u.setCore k ((u.core k).beginFold (s.foldFoot k e) false)))) ∧
    (Issues s k (.tapDrain k l tf) → c.tapQ = [] → Writes (.tapDrain k l tf) k s id) ∧
    (Issues s k (.tapDrain k l tf) → c.tapQ ≠ [] → (∀ e ∈ c.unfolded, e.slice = c.tr tf) →
      ((∃ e ∈ c.unfolded, s.foldWaits k e = true) → exec (.tapDrain k l tf) s = .next (s.hold k (.tapDrain k l tf))) ∧
      ((∀ e ∈ c.unfolded, s.foldWaits k e = false) → ∀ u, s.foldFirst k c.unfolded.length = .ok u →
        exec (.tapDrain k l tf) s = .next (u.hold k (.tapDrain k l tf))))) ∧
  (∀ (s u : State) (k : Nat) (tf : Tile) (e : TapEntry) (r : List TapEntry), (s.core k).st = .running ∨ (s.core k).st = .waiting →
    s.strict = false → ((s.core k).slots' 1).running = none → ((s.core k).slots' 1).queued = none → (s.core k).folding = 0 →
    ((s.cluster (clOf k)).shape = 0 ∨ ((s.cluster (clOf k)).gangRun = none ∧ (s.cluster (clOf k)).gangQueued = none)) →
    (s.core k).tapAuto = some tf → (s.core k).tapQ = e :: r → e.slice = tf → s.foldWaits k e = false → s.foldEntry k e = .ok u →
    exec (.tapAutoFold k) s = .next (u.setCore k ((u.core k).beginFold (s.foldFoot k e) true))) ∧
  (∀ (s : State) (k : Nat) (e : TapEntry) (r : List TapEntry), (s.core k).tapQ = e :: r → (s.core k).folding ≠ 0 →
    (s.core k).suspended = false → (s.cluster (clOf k)).gangQueued = none →
    Gives (.tapFoldComplete k) s fun t => OthersKept s t k ∧ MemKept s t ∧
      (t.core k).soft = ({ s.core k with tapQ := r, folding := (s.core k).folding - 1 } : Core).soft)

/-- The matrix operations of the factor class compute their blocks in the stated order and report to gs. Rests on R93,
R173, R174, R175, R177, R198, R218. -/
def Obligations.RootIterations : Prop :=
  ∀ (s u : State) (k : Nat) (l : Launch) (t1 t2 t3 t4 : TReg) (p : Nat) (gs : GReg) (v w x z : View),
    let c := s.core k
    let n := (c.tr t1).rows.toNat
    let m := (c.tr t1).cols.toNat
    let ps := if p = 0 then 1 else if p = 1 then 2 else 4
    let co (off : Nat) : W32 := (s.reg off).truncate 32
    let j := (s.owner (clOf k)).getD 0
    let starts (i : Instr) (reads writes : List (Nat × Nat)) : Prop :=
      Issues s k i ∧ Compares s k i u ∧ Unblocked s k i reads writes
    c.gangWait = false → (s.cluster (clOf k)).shape = 0 → s.bad = [] → c.tapQ = [] →
    (starts (.nsiScale k l t1 t2 p gs) v.bytes (v.bytes ++ w.bytes) →
      s.facTile k (c.tr t1) n n true = .ok v → s.facTile k (c.tr t2) n n true = .ok w →
      let r := scaleBlock n ps (c.gr gs) (s.matOf v n n)
      let d := (u.putMat v n n r.1).putMat w n n (mkMat n n fun a b => if a = b then 0x3F800000 else 0)
      Does (.nsiScale k l t1 t2 p gs) k s (d.setCore k ((d.core k).setG gs r.2))) ∧
    (starts (.nsiStep k l t1 t2 t3 p) (v.bytes ++ w.bytes) (v.bytes ++ w.bytes ++ z.bytes) →
      s.facTile k (c.tr t1) n n true = .ok v → s.facTile k (c.tr t2) n n true = .ok w →
      s.facTile k (c.tr t3) (c.tr t3).rows.toNat (c.tr t3).cols.toNat true = .ok z →
      (if ps = 4 then 3 else 2) * n * n ≤ (c.tr t3).cr * (c.tr t3).cc →
      let r := nsiStepMat n ps (s.matOf v n n) (s.matOf w n n)
      Does (.nsiStep k l t1 t2 t3 p) k s
        (((z.cells.foldl (fun y a => y.scribble a 4) u).putMat v n n r.1).putMat w n n r.2)) ∧
    (starts (.nsiResid k l t1 t2 p gs) (v.bytes ++ w.bytes) [] →
      s.facTile k (c.tr t1) n n false = .ok v → s.facTile k (c.tr t2) n n false = .ok w →
      Does (.nsiResid k l t1 t2 p gs) k s
        (u.setCore k ((u.core k).setG gs (residual n ps (s.matOf v n n) (s.matOf w n n))))) ∧
    (starts (.updNs k l t1 t2 t3) v.bytes (v.bytes ++ w.bytes ++ z.bytes) →
      s.facTile k (c.tr t1) n m true = .ok v → s.facTile k (c.tr t2) n n true = .ok w →
      s.facTile k (c.tr t3) n n true = .ok z → n ≤ m →
      let a := s.matOf v n m
      let pp := prodM a (transposeM a n m) n m n
      let qq := mkMat n n fun e f => add32 (mul32 (co (R.nsB j)) (pp.at e f)) (mul32 (co (R.nsC j)) ((prodM pp pp n n n).at e f))
      let y := mkMat n m fun e f => add32 (mul32 (co (R.nsA j)) (a.at e f)) ((prodM qq a n n m).at e f)
      Does (.updNs k l t1 t2 t3) k s (((u.putMat w n n pp).putMat z n n qq).putMat v n m y)) ∧
    (starts (.refine k l t1 t2 t3 t4) (v.bytes ++ w.bytes ++ x.bytes) (w.bytes ++ z.bytes) →
      (c.tr t1).fmt ≠ 5 → s.facTile k (c.tr t1) n n false = .ok v →
      s.facTile k (c.tr t2) n n true = .ok w → s.facTile k (c.tr t3) n n false = .ok x → s.facTile k (c.tr t4) n n true = .ok z →
      let xm := s.matOf w n n
      let bm := s.matOf x n n
      let ax := prodM (s.matOf v n n) xm n n n
      let r := mkMat n n fun a b => sub32 (bm.at a b) (ax.at a b)
      let d := prodM xm r n n n
      Does (.refine k l t1 t2 t3 t4) k s ((u.putMat z n n r).putMat w n n (mkMat n n fun a b => add32 (xm.at a b) (d.at a b))))

/-- CHOL.SN, LDLT.SN and TRSV.SN act on the areas of their record and on no register, and completion frees the slot.
Rests on R93, R210, R212, R214, R216, R217, R222. -/
def Obligations.SupernodeOperations : Prop :=
  (∀ (s u : State) (k : Nat) (l : Launch) (t1 t2 t3 : TReg) (p : Nat) (x : SnRec) (cert : Cert) (a : SnAreas) (y : View) (z : Trsv),
    let c := s.core k
    c.gangWait = false → (s.cluster (clOf k)).shape = 0 → s.bad = [] → c.tapQ = [] →
    s.snRec k (c.tr t1) = .ok x →
    (s.solveFrozen k = false → s.certOf k (c.tr t2) = .ok cert → s.snAreas k x (c.tr t3) = .ok a → s.parentFault k x a = none →
      let goes (i : Instr) : Prop := Issues s k i ∧ Compares s k i u ∧ Unblocked s k i (snReads s x a) (snWrites s x a)
      (goes (.cholSn k l t1 t2 t3) → Does (.cholSn k l t1 t2 t3) k s (runSn false k x cert a u)) ∧
      (goes (.ldltSn k l t1 t2 t3) → Does (.ldltSn k l t1 t2 t3) k s (runSn true k x cert a u)) ∧
      (runSn false k x cert a u).cores = u.cores ∧ (runSn true k x cert a u).cores = u.cores) ∧
    (s.solveFrozen k = true →
      (Issues s k (.cholSn k l t1 t2 t3) → exec (.cholSn k l t1 t2 t3) s = .next (s.hold k (.cholSn k l t1 t2 t3))) ∧
      (Issues s k (.ldltSn k l t1 t2 t3) → exec (.ldltSn k l t1 t2 t3) s = .next (s.hold k (.ldltSn k l t1 t2 t3)))) ∧
    (let i := Instr.trsvSn k l t1 t2 t3 p
     Issues s k i → Compares s k i u → x.factor < 2 ^ 63 → x.form ≤ 1 → (c.tr t2).cols.toNat ≤ 4096 →
      s.facTile k (c.tr t2) (x.c + x.r) (c.tr t2).cols.toNat true = .ok y → s.trsvAreas k p x y (c.tr t2).cols.toNat = .ok z →
      Unblocked s k i (y.bytes ++ trsvReads s z p) (y.bytes ++ trsvWrites z p) →
      let t := runTrsv k p z (s.facExp z) u
      Does i k s (match z.stage with | some b => t.scribble b 0x40000 | none => t) ∧ t.cores = u.cores)) ∧
  (∀ (s : State) (k : Nat) (p : Pass), ((s.core k).slots' 5).running = some p → (s.core k).suspended = false →
    Gives (.factorOpComplete k false) s fun t => OthersKept s t k ∧ MemKept s t ∧
      (((s.core k).slots' 1).queued = none →
        Follows ((s.core k).setSlots 5 { (s.core k).slots' 5 with running := none }) 5 ((t.core k).slots' 5)) ∧
      (t.core k).soft = ({ s.core k with boundary := (s.core k).boundary || (countsFactor p.op && s.solveFrozen k) } : Core).soft) ∧
  (∀ (s : State) (cl : Nat) (p : GangPass), (s.cluster cl).gangRun = some p → (factorPlanOf p.op).isSome = true →
    s.gangSuspended cl = false → (s.cluster cl).gangQueued = none →
    Gives (.factorOpComplete cl true) s fun t => (t.cluster cl).gangRun = none ∧ MemKept s t)

/-- SIG.CNT, BAR.ARRIVE, FLAG.SET and HOST.IRQ leave a signal in the core, or raise NOT_OWNED; FLAG.CLR and SET.CNT act
at once. Rests on R97 (Table 4.11), R83, R80, R230. -/
def Obligations.SyncSends : Prop :=
  ∀ (s : State) (k : Nat) (l : Launch) (idx : Nat) (gt : GReg) (val : W16),
    let c := s.core k
    let i := s.instOf k
    let cl := if gt = 0 then clOf k else (c.gr gt).toNat % 4096
    let sends (x : Instr) (g : Sig) (f : Core → Core) : Prop := ∃ z p, (l = none → z = 0 ∧ p = false) ∧
      Writes x k s fun c => { f c with signals := c.signals ++ [{ sig := g, cause := z, prop := p, seq := c.seq + 1 }] }
    let refused (x : Instr) : Prop := exec x s = .next (s.fault k 0x0B 3)
    (Issues s k (.sigCnt k l idx gt val) →
      if s.owns i cl then sends (.sigCnt k l idx gt val) (.cnt cl idx val.toNat) id else refused (.sigCnt k l idx gt val)) ∧
    (Issues s k (.barArrive k l idx) → if s.ownsBar i idx then
      sends (.barArrive k l idx) (.bar idx) (fun c => { c with barKept := some (idx, s.barPhase idx) }) else refused (.barArrive k l idx)) ∧
    (Issues s k (.flagSet k l idx) → if s.ownsFlag i idx then sends (.flagSet k l idx) (.flag idx) id else refused (.flagSet k l idx)) ∧
    (Issues s k (.hostIrq k l idx) → if s.hasVec i idx then sends (.hostIrq k l idx) (.irq idx) id else refused (.hostIrq k l idx)) ∧
    (Issues s k (.flagClr k l idx) → if s.ownsFlag i idx then Does (.flagClr k l idx) k s (s.setFlag idx false) ∧
      (s.setFlag idx false).flag idx = false ∧ ∀ n, n ≠ idx → (s.setFlag idx false).flag n = s.flag n else refused (.flagClr k l idx)) ∧
    (Issues s k (.setCnt k l idx val) → Does (.setCnt k l idx val) k s (s.putCnt (clOf k) idx val.toNat) ∧
      (s.waiters = [] → s.hostWaits 0 = [] → (s.putCnt (clOf k) idx val.toNat).cnt (clOf k) idx = val.toNat ∧
        ∀ n, n ≠ idx → (s.putCnt (clOf k) idx val.toNat).cnt (clOf k) n = s.cnt (clOf k) n))

/-- A core's oldest signal takes effect once the writes before it are complete: a counter adds and saturates, a barrier
counts, a flag sets, a vector is raised; of the additions of one instant a waiter sees all. Rests on R83, R97, R98, R243,
R244. -/
def Obligations.SignalTakesEffect : Prop :=
  ∀ (s : State) (k d : Nat) (x : Signal) (r : List Signal),
    let i := Instr.signalTakesEffect [{ id := k, delay := d }]
    ((s.core k).signals = [] → exec i s = .next s) ∧
    ((s.core k).signals = x :: r → s.writesBefore k x = true → exec i s = .next s) ∧
    ((s.core k).signals = x :: r → s.writesBefore k x = false →
      let u := s.setCore k { s.core k with signals := r }
      (u.waiters = [] → (∀ n, u.hostWaits n = []) →
        (∀ cl idx v, x.sig = .cnt cl idx v → (idx ≠ 62 ∨ u.cnt cl idx + v < 256) → Gives i s fun t =>
          t.cnt cl idx = min 0xFFFF (u.cnt cl idx + v) ∧ MemKept s t ∧ (∀ j, j ≠ idx → t.cnt cl j = u.cnt cl j)) ∧
        (∀ n, x.sig = .bar n → u.barArrived n + 1 < u.barMembers n → n < 256 → Gives i s fun t =>
          t.barArrived n = u.barArrived n + 1 ∧ t.barPhase n = u.barPhase n ∧ t.barMembers n = u.barMembers n ∧ MemKept s t) ∧
        (∀ n, x.sig = .bar n → 0 < u.barMembers n → u.barMembers n ≤ u.barArrived n + 1 → n < 256 →
          Gives i s fun t => t.barArrived n = 0 ∧ t.barPhase n = (u.barPhase n + 1) % 2 ^ 32 ∧
            t.barMembers n = u.barMembers n ∧ MemKept s t) ∧
        (∀ n, x.sig = .flag n → Gives i s fun t => t.flag n = true ∧ (∀ m, m ≠ n → t.flag m = s.flag m) ∧ t.cores = u.cores)) ∧
      (∀ v, x.sig = .irq v → exec i s = .next { u with irqs := u.irqs ++ [((u.owner (clOf k)).getD 0, v)] }) ∧
      (∀ cl idx v w m, x.sig = .cnt cl idx v → idx ≠ 62 → u.waiters = [w] → clOf w = cl → (u.core w).wait = some (.cnt idx m) →
        (u.core w).stepOne = false → u.hostWaits 0 = [] → m ≤ u.cnt cl idx + v → u.cnt cl idx + v ≤ 0xFFFF →
        Gives i s fun t => t.cnt cl idx = u.cnt cl idx + v - m ∧ (t.core w).st = .running ∧ (t.core w).wait = none)) ∧
    (∀ j y q cl idx a b w m, j ≠ k → (s.core k).signals = x :: r → (s.core j).signals = y :: q → x.sig = .cnt cl idx a →
      y.sig = .cnt cl idx b → idx ≠ 62 → s.writesBefore k x = false → s.writesBefore j y = false → s.waiters = [w] →
      clOf w = cl → (s.core w).wait = some (.cnt idx m) → (s.core w).stepOne = false → s.hostWaits 0 = [] →
      m ≤ s.cnt cl idx + a + b → s.cnt cl idx + a + b ≤ 0xFFFF →
      Gives (.signalTakesEffect [{ id := k }, { id := j }]) s fun t =>
        t.cnt cl idx = s.cnt cl idx + a + b - m ∧ (t.core w).st = .running ∧ (t.core w).wait = none)

/-- WAIT.CNT, BAR.WAIT and FLAG.WAIT complete when satisfied and otherwise make the core WAITING; FENCE holds issue.
Rests on R97 (Table 4.11), R243, R102 (Table 4.15), R58 (Table 3.3), R222. -/
def Obligations.WaitsCompleteOrWait : Prop :=
  ∀ (s : State) (k : Nat) (l : Launch) (idx : Nat) (val : W16) (imm : W32),
    let n := s.cnt (clOf k) idx
    let waits (i : Instr) (w : Wait) : Prop := Gives i s fun t => (t.core k).st = .waiting ∧ (t.core k).wait = some w ∧
      (t.core k).held = none ∧ (t.core k).arch = (s.core k).arch ∧ OthersKept s t k ∧ MemKept s t ∧ DeviceKept s t
    let holds (i : Instr) : Prop := exec i s = .next (s.setCore k { s.core k with held := some i })
    (Issues s k (.waitCnt k l idx val) →
      (s.solveFrozen k = true → holds (.waitCnt k l idx val)) ∧
      (s.solveFrozen k = false → val.toNat ≤ n → Does (.waitCnt k l idx val) k s (s.takeCnt (clOf k) idx val.toNat) ∧
        (s.takeCnt (clOf k) idx val.toNat).cores = s.cores ∧ (s.takeCnt (clOf k) idx val.toNat).cnt (clOf k) idx = n - val.toNat) ∧
      (s.solveFrozen k = false → n < val.toNat → waits (.waitCnt k l idx val) (.cnt idx val.toNat))) ∧
    (Issues s k (.barWait k l idx) →
      let p := match (s.core k).barKept with | some (b, p) => if b = idx then p else s.barPhase idx | none => s.barPhase idx
      (s.solveFrozen k = true → holds (.barWait k l idx)) ∧
      (s.solveFrozen k = false → s.barPhase idx ≠ p → Writes (.barWait k l idx) k s id) ∧
      (s.solveFrozen k = false → s.barPhase idx = p → waits (.barWait k l idx) (.bar idx p))) ∧
    (Issues s k (.flagWait k l idx) →
      (s.ownsFlag (s.instOf k) idx = false → exec (.flagWait k l idx) s = .next (s.fault k 0x0B 3)) ∧
      (s.ownsFlag (s.instOf k) idx = true → s.solveFrozen k = true → holds (.flagWait k l idx)) ∧
      (s.ownsFlag (s.instOf k) idx = true → s.solveFrozen k = false → s.flag idx = true → Writes (.flagWait k l idx) k s id) ∧
      (s.ownsFlag (s.instOf k) idx = true → s.solveFrozen k = false → s.flag idx = false → waits (.flagWait k l idx) (.flag idx))) ∧
    (Issues s k (.fence k l imm) →
      ((∀ e, 1 ≤ e → e ≤ 5 → (imm = 0 ∨ imm.getLsbD e = true) → s.engineBusy k e = false) → Writes (.fence k l imm) k s id) ∧
      ((∃ e, 1 ≤ e ∧ e ≤ 5 ∧ (imm = 0 ∨ imm.getLsbD e = true) ∧ s.engineBusy k e = true) → holds (.fence k l imm)))

/-- BEAT.WAIT holds issue until its target beat, never slips, never faults, and completes at once when the beat is past.
Formalises R41. -/
def Obligations.BeatWait : Prop :=
  ∀ (s : State) (k : Nat) (l : Launch) (imm : W32),
    let i := Instr.beatWait k l imm
    let target := (s.core k).ba + imm.zeroExtend 64
    (Issues s k i → s.beat < target → exec i s = .next (s.setCore k { s.core k with held := some i })) ∧
    (Issues s k i → target ≤ s.beat → s.solveFrozen k = false → Writes i k s id) ∧
    (Issues s k i → s.solveFrozen k = true → exec i s = .next (s.setCore k { s.core k with held := some i })) ∧
    (∀ t late foot, s.place k i t late foot = s) ∧
    (i.wf = true → ∀ t, exec i s = .next t → ∀ j, (t.core j).fault = (s.core j).fault)

/-- BA.SET, BA.ADV and BA.NOW set BA and record the beat of the change; BEAT.RD reads the local beat counter. Rests on
R99 (Table 4.12), R79. -/
def Obligations.TimeClass : Prop :=
  ∀ (s : State) (k : Nat) (l : Launch) (g : GReg) (imm : W32),
    (Issues s k (.baSet k l g) → Writes (.baSet k l g) k s fun c =>
      { c with baBeat := s.beat, ba := if g = 0 then 0 else BitVec.ofNat 64 ((c.gr g).toNat + (c.gr (g.val + 1)).toNat * 2 ^ 32) }) ∧
    (Issues s k (.baAdv k l imm) → Writes (.baAdv k l imm) k s fun c => { c with baBeat := s.beat, ba := BitVec.ofNat 64 (c.ba.toNat + imm.toNat) }) ∧
    (Issues s k (.baNow k l imm) → Writes (.baNow k l imm) k s fun c => { c with baBeat := s.beat, ba := BitVec.ofNat 64 (s.beat.toNat + imm.toNat) }) ∧
    (Issues s k (.beatRd k l g) → Writes (.beatRd k l g) k s fun c =>
      (c.setG g (BitVec.ofNat 32 (s.beat.toNat % 2 ^ 32))).setG (g.val + 1) (BitVec.ofNat 32 (s.beat.toNat / 2 ^ 32)))

/-- Tile checks read the footprint in row-major order, after the folds that they meet; the digest accumulators fold, read
and clear. Rests on R101, R102 (Table 4.15), R162, R193, R302, R303. -/
def Obligations.ChecksAndDigests : Prop :=
  ∀ (s : State) (k : Nat) (l : Launch) (t1 : TReg) (g gs : GReg) (acc : Fin 4),
    let all (p : Instr → Prop) : Prop := p (.tchk k l t1 g) ∧ p (.chkRange k l t1 g gs) ∧ p (.chkNf k l t1 g) ∧ p (.updNf k l t1)
    (∀ f, s.view k ((s.core k).tr t1) false = .error f →
      all fun i => Issues s k i → exec i s = .next (s.fault k f (causeEngine f (engOf i)))) ∧
    (∀ v f, s.view k ((s.core k).tr t1) false = .ok v → s.viewBad v = some f →
      all fun i => Issues s k i → exec i s = .next (s.fault k f (causeEngine f (engOf i)))) ∧
    (∀ v u, s.view k ((s.core k).tr t1) false = .ok v → s.viewBad v = none →
      (((s.core k).tapQ = [] ∧ u = s) ∨ s.settleTap k v.bytes [] = .ok u) →
      let go (i : Instr) (w : State) : Prop := Issues s k i → Unblocked s k i v.bytes [] → Does i k s w
      let first := v.indices.find? fun p => nonFinite v.t.fmt (u.elem v p.1 p.2)
      let hot := v.indices.any fun p => exceeds v.t.fmt (u.elem v p.1 p.2) ((u.core k).gr gs)
      go (.tchk k l t1 g) (u.setCore k ((u.core k).setPair g (crc64 0 (v.cells.flatMap fun a => u.rbs a v.t.size)))) ∧
      (hot = false → go (.chkRange k l t1 g gs) (u.setCore k ((u.core k).setG g 0))) ∧
      (hot = true → go (.chkRange k l t1 g gs)
        (((u.setCore k ((u.core k).setG g 1)).raise 3 0x52 .upd 2 (coreUid k 3 0) (u.instOf k)).failCore k (coreUid k 3 0))) ∧
      go (.chkNf k l t1 g) (u.setCore k ((u.core k).setG g (match first with
        | some p => BitVec.ofNat 32 (2 ^ 31 + p.1 % 2 ^ 15 * 2 ^ 16 + p.2 % 2 ^ 16)
        | none => 0))) ∧
      (first = none ∨ (u.core k).prog = none → go (.updNf k l t1) u) ∧
      (∀ p, first.isSome = true → (u.core k).prog = some p → go (.updNf k l t1) (u.setNf p.inst p.step))) ∧
    (Issues s k (.digFold k l gs acc) → Writes (.digFold k l gs acc) k s fun c =>
      c.setDig acc (crc64 (c.digr acc) (leBytes 8 (c.pair gs).toNat))) ∧
    (Issues s k (.digRd k l g acc) → Writes (.digRd k l g acc) k s fun c => c.setPair g (c.digr acc)) ∧
    (Issues s k (.digClr k l acc) → Writes (.digClr k l acc) k s fun c => c.setDig acc 0)

/-- CNT.RD reads one word of an engine record, ATTR.SET sets the attribution, STAT.RD reads a status word, TRACE.MARK
marks. Rests on R336, R339, R102 (Table 4.14), R334 (Table 16.1), R340. -/
def Obligations.CountersAttributionStatus : Prop :=
  ∀ (s : State) (k : Nat) (l : Launch) (g gs1 gs2 : GReg) (imm : W32),
    let e := imm.toNat % 8
    let n := imm.toNat / 8 % 64
    let w (m : Nat) : W32 := (s.engRec k e).word s.beatsCounted m
    let latch (c : Core) (m : Nat) (v : Option W32) : Core := { c with cntLatch := sput (fun _ => none) c.cntLatch (e + 8 * m) v }
    (Issues s k (.cntRd k l g imm) →
      (20 ≤ n → Writes (.cntRd k l g imm) k s fun c => c.setG g (w n)) ∧
      (n < 20 → n % 2 = 0 → Writes (.cntRd k l g imm) k s fun c => (latch c (n + 1) (some (w (n + 1)))).setG g (w n)) ∧
      (n < 20 → n % 2 = 1 → Writes (.cntRd k l g imm) k s fun c =>
        (latch c n none).setG g ((sget (fun _ => none) c.cntLatch (e + 8 * n)).getD (w n)))) ∧
    (Issues s k (.attrSet k l gs1 gs2) → Writes (.attrSet k l gs1 gs2) k s fun c =>
      { c with layer := BitVec.ofNat 16 ((c.gr gs1).toNat % 2 ^ 16), oper := BitVec.ofNat 16 ((c.gr gs2).toNat % 2 ^ 16) }) ∧
    (Issues s k (.statRd k l g imm) → imm.toNat ≤ 6 ∧
      (2 ≤ imm.toNat → imm.toNat ≤ 5 → (s.cluster (clOf k)).adding (imm.toNat - 2) = true →
        exec (.statRd k l g imm) s = .next (s.hold k (.statRd k l g imm))) ∧
      ((imm.toNat < 2 ∨ imm.toNat = 6 ∨ (s.cluster (clOf k)).adding (imm.toNat - 2) = false) →
        Writes (.statRd k l g imm) k s fun c => c.setG g
          (if imm = 0 then c.cstat else if imm = 1 then c.cfault else if imm = 6 then BitVec.ofNat 32 c.tapQ.length
           else (c.acc' (imm.toNat - 2)).status))) ∧
    (Issues s k (.traceMark k l imm) → Writes (.traceMark k l imm) k s id) ∧
    (∀ (r : EngRec) (b : Nat), r.word b 36 = BitVec.ofNat 32 r.propN ∧ r.word b 39 = BitVec.ofNat 32 r.errors ∧
      ∀ c, c < 8 → r.word b (20 + c) = BitVec.ofNat 32 (sget (fun _ => 0) r.slipN c))

/-- NOP does nothing; HALT and END drain the core; BANK.SWAP swaps banks at a pass boundary. Rests on R58 (Table 3.3),
R59, R61, R102 (Table 4.15), R103. -/
def Obligations.HaltEndAndSwap : Prop :=
  ∀ (s u : State) (k : Nat) (l : Launch) (kind idx : Nat) (gt : GReg) (val : W16),
    let cl := if gt = 0 then clOf k else ((s.core k).gr gt).toNat % 4096
    let i := s.instOf k
    let owned := kind = 0 ∨ (kind = 1 ∧ s.owns i cl = true) ∨ (kind = 2 ∧ s.ownsFlag i idx = true) ∨ (kind = 3 ∧ s.hasVec i idx = true)
    (Issues s k (.nop k l) → Writes (.nop k l) k s id) ∧
    (Issues s k (.halt k l) → Gives (.halt k l) s fun t => (t.core k).st = .draining ∧ (t.core k).after = .toHalted ∧
      (t.core k).arch = (s.core k).advance.arch ∧ OthersKept s t k ∧ MemKept s t ∧ DeviceKept s t) ∧
    (Issues s k (.endProg k l kind gt idx val) → ¬owned → exec (.endProg k l kind gt idx val) s = .next (s.fault k 0x0B 3)) ∧
    (Issues s k (.endProg k l kind gt idx val) → owned → s.foldFirst k (s.core k).unfolded.length = .ok u →
      Gives (.endProg k l kind gt idx val) s fun t => (t.core k).st = .draining ∧
        (∃ z, (t.core k).after = .toEnd z ∧ z.map (·.sig) = (if kind = 0 then none else if kind = 1 then some (.cnt cl idx val.toNat)
          else if kind = 2 then some (.flag idx) else some (.irq idx))) ∧
        (t.core k).arch = (u.core k).arch ∧ OthersKept u t k ∧ MemKept u t ∧ DeviceKept u t) ∧
    (∀ f, Issues s k (.endProg k l kind gt idx val) → owned → s.foldFirst k (s.core k).unfolded.length = .error f →
      exec (.endProg k l kind gt idx val) s = .next (s.fault k f (causeEngine f 0))) ∧
    (Issues s k (.bankSwap k l) → (s.core k).shadowValid = false → (s.core k).load = none →
      exec (.bankSwap k l) s = .next (s.fault k 0x06 0)) ∧
    (Issues s k (.bankSwap k l) → (s.core k).shadowValid = true ∨ (s.core k).load ≠ none →
      s.foldFirst k (s.core k).unfolded.length = .ok u → u.quiet k = false ∨ (s.core k).shadowValid = false →
      exec (.bankSwap k l) s = .next (u.hold k (.bankSwap k l))) ∧
    (Issues s k (.bankSwap k l) → (s.core k).shadowValid = true → s.foldFirst k (s.core k).unfolded.length = .ok u → u.quiet k = true →
      Gives (.bankSwap k l) s fun t => (t.core k).activeBank = !(u.core k).activeBank ∧ (t.core k).shadowValid = false ∧
        (t.core k).pc = (if (u.core k).activeBank then (u.core k).entry0 else (u.core k).entry1) ∧ (t.core k).ba = (u.core k).ba ∧
        (t.core k).g = [] ∧ (t.core k).a = [] ∧ (t.core k).t = [] ∧ (t.core k).m = [] ∧ (t.core k).v = [] ∧ (t.core k).loops = [] ∧
        OthersKept u t k ∧ MemKept u t)

/-- A fault drains its core with CFAULT recorded; a drained core enters HALTED, FAULTED or IDLE; drains have a time
limit. Rests on R71, R72, R58 (Table 3.3), R74 (Table 3.8), R163, R343, R222. -/
def Obligations.CoreFaultsAndDrains : Prop :=
  (∀ (s : State) (k cause e : Nat), 1 ≤ cause → cause ≤ 0x0C → e < 8 →
    ((s.core k).canFault = true → (s.core k).fault.valid = false → (s.core k).ganged = false → (s.core k).prog = none →
      Gives (.coreFault k cause e) s fun t => (t.core k).st = .draining ∧
        (t.core k).after = (if (s.core k).after = .toReset then .toReset else .toFaulted) ∧ (t.core k).held = none ∧
        (t.core k).fault = { cause := cause, engine := causeEngine cause e, more := (s.core k).fault.more, pc := (s.core k).pc, valid := true } ∧
        (t.core k).tapQ = [] ∧ (t.core k).g = (s.core k).g ∧ (t.core k).acc = (s.core k).acc ∧
        (∀ j, j ≠ k → (t.core j).st = (s.core j).st ∧ (t.core j).g = (s.core j).g ∧ (t.core j).pc = (s.core j).pc) ∧ MemKept s t) ∧
    ((s.core k).canFault = true → (s.core k).fault.valid = true →
      Gives (.coreFault k cause e) s fun t => (t.core k).fault = { (s.core k).fault with more := true } ∧
        (t.core k).st = (s.core k).st ∧ OthersKept s t k ∧ MemKept s t) ∧
    ((s.core k).canFault = false → exec (.coreFault k cause e) s = .next s)) ∧
  (∀ (s : State) (k : Nat) (sig : Option Signal), (s.core k).st = .draining → (s.core k).swapPending = false →
    let c := s.core k
    (s.settledFor k = false → exec (.drainComplete k) s = .next s) ∧
    (s.settledFor k = true → c.after = .toHalted → Gives (.drainComplete k) s fun t =>
      (t.core k).st = .halted ∧ (t.core k).arch = c.arch ∧ OthersKept s t k ∧ MemKept s t) ∧
    (s.settledFor k = true → c.after = .toFaulted → Gives (.drainComplete k) s fun t =>
      (t.core k).st = .faulted ∧ (t.core k).arch = ({ c with prog := none } : Core).arch ∧ OthersKept s t k ∧ MemKept s t) ∧
    (s.settledFor k = true → c.after = .toReset → Gives (.drainComplete k) s fun t =>
      (t.core k).st = .idle ∧ (t.core k).activeValid = false ∧ (t.core k).shadowValid = false ∧ (t.core k).activeBank = false ∧
      (t.core k).fault = {} ∧ (t.core k).prog = none ∧ (t.core k).g = [] ∧ (t.core k).acc = [] ∧ OthersKept s t k ∧ MemKept s t) ∧
    (s.settledFor k = true → c.after = .toFrozen → Gives (.drainComplete k) s fun t => (t.core k).st = .idle ∧
      (t.core k).arch = ({ c with prog := none, boundary := false } : Core).arch ∧ OthersKept s t k ∧ MemKept s t) ∧
    (s.settledFor k = true → c.after = .toEnd sig → Gives (.drainComplete k) s fun t => (t.core k).st = .idle ∧
      (t.core k).arch = ({ c with prog := none, boundary := false, signals := c.signals ++ sig.toList } : Core).arch ∧
      OthersKept s t k ∧ MemKept s t)) ∧
  (∀ (s : State) (k : Nat), (s.core k).st = .draining → (s.core k).after = .toHalted → s.settledFor k = false →
    (s.reg (R.drainMax (s.instOf k))).toNat < (s.beat - (s.core k).haltAt).toNat →
    Gives (.drainTimeout k) s fun t => (t.core k).st = .halted ∧ (t.core k).suspended = true ∧ (t.core k).g = (s.core k).g ∧
      (t.core k).pc = (s.core k).pc ∧ MemKept s t ∧ t.bit (R.dbgStat (s.instOf k)) 2 = true) ∧
  (∀ (s u : State) (k : Nat), s.solveFrozen k = true → (s.core k).atSupernode = true →
    s.foldFirst k (s.core k).unfolded.length = .ok u → Gives (.supernodeBoundaryEnd k) s fun t =>
      (t.core k).st = .draining ∧ (t.core k).after = .toFrozen ∧ (t.core k).held = none ∧ (t.core k).wait = none ∧
      (t.core k).suspended = false ∧ OthersKept u t k ∧ MemKept u t)

/-- A load writes its bank, a swap makes the shadow active, and a start gives every register its start value. Rests on
R56 (Table 3.1), R60, R61, R63, R37, R66, R59, R71. -/
def Obligations.LoadsSwapsAndStarts : Prop :=
  (∀ (s : State) (k : Nat) (l : Load), (s.core k).load = some l → (s.core k).swapPending = false → (s.core k).resumeDue = false →
    s.bad = [] →
    let c := s.core k
    let base := bankBase k (if l.toActive then c.activeBank else !c.activeBank)
    Gives (.programLoadComplete k) s fun t => (t.core k).load = c.loadNext.head? ∧ OthersKept s t k ∧
      MemKeptBut s t base (8 * l.words.length) ∧
      (∀ (j : Nat) (h : j < l.words.length), t.rd (base + 8 * j) 8 = l.words[j].toNat) ∧
      (l.toActive = false → (t.core k).shadowValid = c.loadNext.head?.all (·.toActive) ∧ (t.core k).shadowGanged = l.ganged ∧
        (t.core k).st = c.st ∧ (t.core k).pc = c.pc ∧
        (t.core k).g = c.g ∧ (if c.activeBank then (t.core k).entry0 else (t.core k).entry1) = l.entry ∧
        (if c.activeBank then (t.core k).len0 else (t.core k).len1) = l.words.length) ∧
      (l.toActive = true → (t.core k).activeValid = true ∧ (t.core k).ganged = l.ganged ∧
        (t.core k).st = (if c.st = .idle then .loaded else c.st) ∧
        (c.st = .halted → (t.core k).pc = l.entry ∧ (t.core k).ba = c.ba ∧ (t.core k).g = [] ∧ (t.core k).a = [] ∧ (t.core k).acc = []))) ∧
  (∀ (s : State) (k : Nat), let c := s.core k
    s.atBoundary k = true → c.st ≠ .running → c.swapPending = true → c.shadowValid = true → c.load = none →
    Gives (.swapTakesEffect k) s fun t =>
      (t.core k).st = (if c.st = .idle then .loaded else c.st) ∧ (t.core k).activeBank = !c.activeBank ∧
      (t.core k).shadowValid = false ∧ (t.core k).swapPending = false ∧ (t.core k).activeValid = true ∧
      (t.core k).ganged = c.shadowGanged ∧ (t.core k).ba = c.ba ∧ (t.core k).fault = c.fault ∧
      (if c.st = .faulted then (t.core k).pc = c.pc ∧ (t.core k).g = c.g ∧ (t.core k).acc = c.acc
       else (t.core k).pc = (if c.activeBank then c.entry0 else c.entry1) ∧ (t.core k).g = [] ∧ (t.core k).acc = []) ∧
      OthersKept s t k ∧ MemKept s t) ∧
  (∀ (s : State) (k : Nat), s.atBoundary k = false → (∀ j l, (s.core k).held ≠ some (.bankSwap j l)) → exec (.swapTakesEffect k) s = .next s) ∧
  (∀ (s : State) (k : Nat) (l : LaunchRec), s.launches.find? (fun r => r.starts && r.unstarted.contains k) = some l →
    (s.core k).st = .loaded → (s.core k).activeLoad = false → (s.core k).swapPending = false → l.solve = none →
    (s.beat < l.launchBeat → exec (.coreStart k) s = .next s) ∧
    (l.launchBeat ≤ s.beat → Gives (.coreStart k) s fun t =>
      let d := t.core k
      d.st = .running ∧ d.ba = l.launchBeat ∧ d.pc = (if (s.core k).activeBank then (s.core k).entry1 else (s.core k).entry0) ∧
      (∀ n, d.gr n = 0 ∧ d.ar n = 0 ∧ d.tr n = {} ∧ d.mr n = 0xFFFF ∧ d.vr n = 0 ∧ d.lcr n = 0 ∧ d.acc' n = {} ∧ d.digr n = 0) ∧
      d.loops = [] ∧ d.held = none ∧ d.fault = (s.core k).fault ∧ OthersKept s t k ∧ MemKept s t))

/-- XFER.POST, COLL.POST and UPD.APPLY check their descriptor and hand it to the engine; at most 16 posts of a core are in
flight. Rests on R100, R152, R154, R199, R205, R267, R268, R303. -/
def Obligations.PostsToEngines : Prop :=
  ∀ (s : State) (k : Nat) (l : Launch) (an : AReg) (cnt : Nat) (gt : GReg) (val : W16),
    let c := s.core k
    let a := (c.ar an).toNat
    let p := spBase k + a
    let cl := if gt = 0 then clOf k else (c.gr gt).toNat % 4096
    let xfer := Instr.xferPost k l an cnt gt val
    let coll := Instr.collPost k l an cnt gt val
    let upd := Instr.updApply k l an cnt gt val
    let all (q : Instr → Prop) : Prop := q xfer ∧ q coll ∧ q upd
    (all fun x => Issues s k x → 16 ≤ c.posts → exec x s = .next (s.hold k x)) ∧
    (all fun x => Issues s k x → c.posts < 16 → (a % 64 ≠ 0 ∨ 0xC000 < a + 64) → exec x s = .next (s.fault k 0x02 3)) ∧
    (c.posts < 16 → a % 64 = 0 → a + 64 ≤ 0xC000 →
      (∀ w, s.badWord p 64 = some w → all fun x => Issues s k x → exec x s = .next
        (s.fault k (Cause.atWord Cause.spadUncorr w) (causeEngine (Cause.atWord Cause.spadUncorr w) 3))) ∧
      (∀ u, s.badWord p 64 = none → ((c.tapQ = [] ∧ u = s) ∨ s.settleTap k [(p, 64)] [] = .ok u) →
        let b := u.rbs p 64
        let i := u.instOf k
        let who := Poster.core k cnt cl val.toNat (u.launchOn k)
        let go (x : Instr) (v : Nat × Bool → State) : Prop := Issues s k x → Unblocked s k x [(p, 64)] [] →
          ∃ z, (l = none → z = (0, false)) ∧ Does x k s ((v z).setCore k { (v z).core k with posts := ((v z).core k).posts + 1 })
        (∀ f, (u.checkX i (some k) b = .error f ∨ ∃ d, u.checkX i (some k) b = .ok d ∧ u.owns i cl = false ∧ f = 0x0B) →
          Issues s k xfer → exec xfer s = .next (s.fault k f (causeEngine f 3))) ∧
        (∀ d, u.checkX i (some k) b = .ok d → u.owns i cl = true →
          go xfer (fun z => u.postX i who d (u.coreStep k) z) ∧
          ∀ z, u.coreUndone k = false → u.orderConflict i who d = none → ∃ x, (u.postX i who d (u.coreStep k) z).xfers = u.xfers ++ [x] ∧ x.id = u.nextXfer ∧
            x.inst = i ∧ x.gen = u.gen i ∧ x.poster = who ∧ x.desc = d ∧ x.pos = 0 ∧ x.cause = z.1 ∧ x.prop = z.2 ∧
            x.done = false) ∧
        (∀ f, f ≠ 0x100 → (u.checkC i (some k) b = .error f ∨ ∃ d, u.checkC i (some k) b = .ok d ∧ u.owns i cl = false ∧ f = 0x0B) →
          Issues s k coll → exec coll s = .next (s.fault k f (causeEngine f 3))) ∧
        (s.settleTap k [(p, 64)] [] = .ok u → u.checkC i (some k) b = .error 0x100 → Issues s k coll →
          exec coll s = .next ((u.sticky .coll (R.collStat i) 3 0x17 i).fault k 0x02 3)) ∧
        (∀ d src, u.checkC i (some k) b = .ok (d, src) → u.owns i cl = true →
          go coll (fun z => u.postC i who k d src (u.coreStep k) z) ∧
          ∀ z, u.coreUndone k = false → d.levels ≠ 0 →
            u.colls.find? (fun e => decide (e.inst = i ∧ e.gen = u.gen i ∧ e.desc.seq = d.seq ∧ ¬e.done)) = none →
            (∀ e ∈ u.colls, e.id ≠ u.nextXfer) → (∃ j ∈ u.contributors d, j ≠ k) →
            ∃ e, (u.postC i who k d src (u.coreStep k) z).colls = u.colls ++ [e] ∧ e.id = u.nextXfer ∧ e.inst = i ∧ e.desc = d ∧
              e.srcs = [(k, src)] ∧ e.posters = [(who, z)] ∧ e.formed = false ∧ e.done = false) ∧
        (∀ f, (u.checkU i k cnt cl val.toNat (0, false) b = .error f ∨
            ∃ q, u.checkU i k cnt cl val.toNat (0, false) b = .ok q ∧ u.owns i cl = false ∧ f = 0x0B) →
          Issues s k upd → exec upd s = .next (s.fault k f (causeEngine f 3))) ∧
        (∀ q, u.checkU i k cnt cl val.toNat (0, false) b = .ok q → u.owns i cl = true →
          go upd fun z => u.setGate i { u.gate i with
            posts := (u.gate i).posts ++ [{ q with cause := z.1, prop := z.2, discard := u.postDiscarded i k }] })))

/-- The DMA engine copies a chunk of the instance whose turn it is element by element, and a finished transfer signals or
completes its command. Rests on R153, R100, R230, R241, R237, R154, R44, R249. -/
def Obligations.TransfersMoveAndComplete : Prop :=
  (∀ (s : State) (x y : Xfer) (q : Cmd) (r c0 n dl : Nat), s.xfers.find? (fun z => z.id = x.id) = some x → x.done = false →
    y = (if dl = 0 then x else { x with cause := dl, prop := false }) →
    let d := y.desc
    let to_ := d.dst.at 0 r c0
    let i := Instr.dmaChunkDone { id := x.id, delay := dl }
    (y.gen ≠ s.gen y.inst → exec i s = .next ((s.stale y.inst).putX { y with done := true, awaiting := 0, held := [] })) ∧
    (y.gen = s.gen y.inst → y.awaiting ≠ 0 → exec i s = .next s) ∧
    (y.gen = s.gen y.inst → y.awaiting = 0 → s.dmaPick y.die ≠ some y.inst → exec i s = .next s) ∧
    (y.gen = s.gen y.inst → y.awaiting = 0 → s.dmaPick y.die = some y.inst → d.src.remote = false → d.dst.remote = false →
      s.bad = [] →
      (d.kind = 0 → exec i s = .next ((y.parts.foldl (fun (a : State) p => a.storePart y p.1 p.2.1
        ((d.src.run y.poster.core? p.1 p.2.1 p.2.2).map fun e => a.rd e d.src.size)) (s.takeDma y)).putX (y.past y.chunkLen))) ∧
      (y.poster = .cmd q → d.kind = 0 → d.wm = false → d.dstSpace = 0 → y.parts = [(r, c0, n)] →
        0 ≤ (d.dstAddr : Int) + ((r : Int) * d.dstStride + c0) * d.dst.size →
        Gives i s fun t => MemKeptBut s t to_ (n * d.dst.size) ∧ t.cores = s.cores ∧
          (∀ j, j < n → t.rd (to_ + j * d.dst.size) d.dst.size =
            d.value (s.rd (d.src.at 0 r (c0 + j)) d.src.size) 0 % 2 ^ (8 * d.dst.size)) ∧
          t.xfers = s.xfers.map fun z => if z.id = x.id then y.past y.chunkLen else z))) ∧
  (∀ (s : State) (y : Xfer), s.xfers.find? (fun z => z.id = y.id) = some y →
    let u : State := { s with xfers := s.xfers.filter fun z => decide (z.id ≠ y.id) }
    (y.done = false → exec (.transferComplete y.id) s = .next s) ∧
    (y.done = true → y.gen ≠ s.gen y.inst → exec (.transferComplete y.id) s = .next ((u.stale y.inst).orphanGone y.inst)) ∧
    (y.done = true → y.gen = s.gen y.inst →
      (∀ k cnt cl val ln, y.poster = .core k cnt cl val ln →
        exec (.transferComplete y.id) s = .next (u.postDone k cnt cl val y.tag.1 y.tag.2) ∧
        (cnt ≠ 62 → s.waiters = [] → s.hostWaits 0 = [] →
          Gives (.transferComplete y.id) s fun t => t.xfers = u.xfers ∧ t.cnt cl cnt = min 0xFFFF (s.cnt cl cnt + val) ∧
            (t.core k).posts = (s.core k).posts - 1 ∧ (t.core k).g = (s.core k).g ∧ MemKept s t)) ∧
      (∀ q, y.poster = .cmd q → exec (.transferComplete y.id) s = .next (u.complete q y.status))))

/-- Remote writes and reads are performed in buffers of the job's instance and refused elsewhere; a message of no job is
dropped and counted. Rests on R275, R156, R151, R264. -/
def Obligations.RemoteAccess : Prop :=
  ∀ (s : State) (m : Message) (i : Nat),
    let u := s.consume m
    let a := m.attr % 2 ^ 48
    (s.inbox = [] → exec .xferWrite s = .next s ∧ exec .xferReadReq s = .next s ∧ exec .xferReadData s = .next s ∧ exec .refused s = .next s) ∧
    (s.inbox = [m] → s.jobInst m.job = none → s.staleFor m = none →
      let gone := (u.incReg R.dropCount).sticky .coll R.collMstat 0 0x7F
      (m.typ = 4 → exec .xferWrite s = .next gone) ∧ (m.typ = 5 → exec .xferReadReq s = .next gone) ∧
      (m.typ = 6 → exec .xferReadData s = .next gone) ∧ (m.typ = 7 → exec .refused s = .next gone)) ∧
    (s.inbox = [m] → s.jobInst m.job = some i → m.gen = s.gen i → i < 64 → s.undone i m = true →
      (m.typ = 4 → exec .xferWrite s = .next u) ∧ (m.typ = 5 → exec .xferReadReq s = .next u) ∧
      (m.typ = 6 → exec .xferReadData s = .next u) ∧ (m.typ = 7 → exec .refused s = .next u)) ∧
    (s.inbox = [m] → s.jobInst m.job = some i → m.gen = s.gen i → i < 64 → s.undone i m = false →
      (m.typ = 4 → s.ownsHbm i a m.payload.length = true → a + m.payload.length ≤ hbmTop → s.bad = [] → Gives .xferWrite s fun t =>
        (∀ (j : Nat) (h : j < m.payload.length), t.rb (a + j) = m.payload[j]) ∧ MemKeptBut s t a m.payload.length ∧
        t.inbox = [] ∧ t.cores = s.cores) ∧
      (m.typ = 4 → (s.ownsHbm i a m.payload.length = false ∨ hbmTop < a + m.payload.length) →
        exec .xferWrite s = .next (u.answer i m 7 [])) ∧
      (m.typ = 5 → let n := leNat (m.payload.take 8)
        (n ≤ 65536 → s.ownsHbm i a n = true → a + n ≤ hbmTop → s.bad = [] → exec .xferReadReq s = .next (u.answer i m 6 (s.rbs a n))) ∧
        ((65536 < n ∨ s.ownsHbm i a n = false ∨ hbmTop < a + n) → exec .xferReadReq s = .next (u.answer i m 7 []))) ∧
      (m.typ = 6 → ∀ x y p sr dr, u.asked i m = some y → x = (if m.retried then { y with cause := 1, prop := false } else y) →
        m.chunk = y.pos % 2 ^ 32 → p = y.parts.getD 0 (0, 0, 0) → u.xRow y p.1 = some (sr, dr) →
        (y.awaiting = 1 → exec .xferReadData s = .next (u.deliver x dr p.2.1 (elemsOf x.desc.src.size m.payload))) ∧
        (y.awaiting = 2 →
          let news := ((elemsOf x.desc.src.size x.held).zip (elemsOf x.desc.dst.size m.payload)).map fun e => x.desc.value e.1 e.2
          exec .xferReadData s = .next ((u.xMessage x 4 x.desc.dstCoord (x.desc.dst.remoteAt dr p.2.1)
            (news.flatMap (leBytes x.desc.dst.size))).putX (x.past news.length)))) ∧
      (m.typ = 7 → ∀ x, s.xfers.find? (fun x => decide (x.inst = i ∧ x.gen = s.gen i ∧ x.id % 2 ^ 32 = m.seq)) = some x →
        exec .refused s = .next (((u.sticky .coll (R.collStat i) 4 0x52 i).putX
          (if x.awaiting ≠ 0 then x.flawed.past x.chunkLen else x.flawed)).failPost i x.poster x.step pcieUid)))

/-- A chunk is checked, acknowledged and reduced or distributed; lost chunks are resent, then end the collective. Rests
on R270, R272, R273, R274, R121, R123, R44. -/
def Obligations.CollectiveChunks : Prop :=
  (∀ (s : State) (m : Message) (i : Nat) (c : Coll), s.inbox = [m] → s.jobInst m.job = some i → m.gen = s.gen i →
    s.undone i m = false →
    let u := s.consume m
    let ax := m.attr / 2 ^ 11 % 4
    (m.typ = 1 → s.chunkColl i m = some c →
      (crc32c m.payload ≠ m.crc → exec .collChunk s = .next (u.badChunk c m)) ∧
      (crc32c m.payload = m.crc →
        let v := (u.dlBreak i).answer i m 2 []
        let nar := v.narrow c ax
        let K := if c.desc.fl then (if nar then 65536 else 32768) else 8192
        let got := decodeChunk c.desc.fl nar (sext 8 m.attr) m.payload
        let n := v.jobExt c.inst ax
        let me := v.myPos c.inst ax
        let d := { c with since := v.beat, resent := c.resent || m.retried }
        let goes (r : State × Coll) : Prop := exec .collChunk s = .next ((r.1.nextAxis r.2).1.putColl (r.1.nextAxis r.2).2)
        (m.attr / 2 ^ 13 % 2 = 0 → c.desc.kind ≤ 1 →
          let sum := addVec c.desc.fl got ((c.vec.drop (m.chunk * K)).take K)
          let e := encodeChunk c.desc.fl nar sum
          let val := decodeChunk c.desc.fl nar e.1 e.2
          let w := if vecNf c.desc.fl val then v.setNf c.inst c.step else v
          let p := { d with passed := if c.passed.contains m.chunk then c.passed else c.passed ++ [m.chunk] }
          (m.chunk % n ≠ me → goes (w.sendChunk p ax m.chunk false e.1 e.2 ((me + 1) % n))) ∧
          (m.chunk % n = me → goes (if c.desc.kind = 0 then w.sendChunk (d.final m.chunk val) ax m.chunk true e.1 e.2 ((me + 1) % n)
            else (w, d.final m.chunk val)))) ∧
        (m.attr / 2 ^ 13 % 2 = 1 ∨ c.desc.kind = 5 →
          let origin := if c.desc.kind = 3 then c.desc.peer else m.chunk % n
          goes (if c.desc.kind = 5 ∨ (me + 1) % n = origin then (v, d.final m.chunk got)
            else v.sendChunk (d.final m.chunk got) ax m.chunk true (sext 8 m.attr) m.payload ((me + 1) % n))))) ∧
    (m.typ = 2 → ∀ e n, u.keeper i m = some (c, e, n) → c.desc.kind ≠ 4 →
      exec .chunkAck s = .next (u.putColl { c with kept := c.kept.erase (e, n) }).reap) ∧
    (m.typ = 3 → ∀ e n, u.keeper i m = some (c, e, n) →
      (n < 3 → exec .chunkNack s = .next ((((u.incReg (R.resendCount i)).sticky .coll (R.collStat i) 0 0x7F i).putColl
        { c with kept := c.kept.map fun x => if x = (e, n) then (e, n + 1) else x, resent := true }).send e)) ∧
      (3 ≤ n → exec .chunkNack s = .next ((u.sticky .coll (R.collStat i) 1 0x50 i).putColl
        { c.fail 0x50 with kept := c.kept.erase (e, n) }).reap))) ∧
  (∀ (s : State) (i seq : Nat) (c : Coll),
    (s.colls.find? (fun c => decide (c.inst = i ∧ c.gen = s.gen i ∧ c.desc.seq = seq ∧ c.formed ∧ ¬c.done ∧ c.desc.kind ≠ 4)) = some c →
      ((s.beat - c.since).toNat < (s.reg (R.chunkTimeout i)).toNat → exec (.collChunkTimeout i seq) s = .next s) ∧
      ((s.reg (R.chunkTimeout i)).toNat ≤ (s.beat - c.since).toNat → Gives (.collChunkTimeout i seq) s fun t =>
        t.colls = (s.colls.map fun e => if e.id = c.id then { c with done := true, status := 0x50 } else e) ∧ MemKept s t ∧
        t.bit (R.collStat i) 2 = true)) ∧
    (∀ z dl, s.colls.find? (fun c => decide (c.inst = i ∧ c.desc.seq = seq ∧ (c.gen ≠ s.gen i ∨ (c.done ∧ ¬c.posters.isEmpty)))) = some c →
      let v := (s.putColl { c with posters := [] }).setReg (R.lastSeq i) (BitVec.ofNat 64 seq)
      let t := if dl = 0 then c.tag z else (dl, false)
      (c.gen ≠ s.gen i → exec (.collectiveComplete i { id := seq, delay := dl }) s = .next
        (({ s with colls := s.colls.filter fun d => decide (d.id ≠ c.id) } : State).orphanGone i)) ∧
      (∀ q, c.gen = s.gen i → c.posters = [(.cmd q, z)] → exec (.collectiveComplete i { id := seq, delay := dl }) s =
        .next (v.complete q c.status).reap) ∧
      (∀ k cnt cl val ln, c.gen = s.gen i → c.posters = [(.core k cnt cl val ln, z)] →
        exec (.collectiveComplete i { id := seq, delay := dl }) s = .next (v.postDone k cnt cl val t.1 t.2).reap))) ∧
  (∀ (x y : W64), addElem true x y = (add32 (x.truncate 32) (y.truncate 32)).zeroExtend 64 ∧
    (addElem false x y).toInt = max (-2 ^ 63) (min (2 ^ 63 - 1) (x.toInt + y.toInt)))

/-- The update unit performs the oldest post that nothing holds, or refuses it, and sends its signal. Rests on R188, R189,
R190, R199, R241, R205, R195, R303. -/
def Obligations.UpdatePosts : Prop :=
  ∀ (s : State) (i : Nat) (p : UpdPost),
    ((s.gate i).posts = [] → (s.inst i).exports = [] → s.ckpt.src = none → ∀ t, exec (.updatePostPerform i) s = .next t →
      t.mem = s.mem ∧ t.cores = s.cores ∧ (t.gate i).posts = []) ∧
    ((s.gate i).posts.find? (fun p => !s.postHeld i p) = some p → (s.inst i).exports = [] → s.ckpt.src = none →
    let u := s.setGate i { s.gate i with posts := (s.gate i).posts.erase p }
    let h := u.shard i p.shard
    let rule := u.selected i h
    let done (v : State) : State := v.postDone p.core p.cnt p.cl p.val p.cause p.prop
    let gives (v : State) : Prop := exec (.updatePostPerform i) s = .next (done v)
    (p.gen ≠ s.gen i → exec (.updatePostPerform i) s = .next ((u.stale i).orphanGone i)) ∧
    (p.gen = s.gen i → p.discard = true → gives u) ∧
    (p.gen = s.gen i → p.discard = false →
      (∀ w, u.badWord h.at_ 128 = some w → gives (u.postMemory i p w)) ∧
      (u.badWord h.at_ 128 = none → u.badShard i h rule = true →
        gives (u.refusePost i p 5) ∧ ((s.gate i).st = .open_ → MemKept s (u.refusePost i p 5))) ∧
      (u.badWord h.at_ 128 = none → u.badShard i h rule = false → (rule ≠ p.rule ∨ opAllowed rule p.op = false ∨ u.inTurn i p = false) →
        gives (u.refusePost i p 4) ∧ ((s.gate i).st = .open_ → MemKept s (u.refusePost i p 4))) ∧
      (u.badWord h.at_ 128 = none → u.badShard i h rule = false → rule = p.rule → opAllowed rule p.op = true → u.inTurn i p = true →
        (h.frozen = true → gives u) ∧
        (h.frozen = false → s.bad = [] →
          let a := u.applyRule i h rule p
          let v := if a.nf then a.s.setNf i p.step else a.s
          let b := v.setShardBit h 2 (1 - h.active)
          (p.op = 1 → gives (v.setGate i { v.gate i with moments := (v.gate i).moments ++ [(p.shard, p.rowFirst, p.rows)] })) ∧
          (p.op ≠ 1 → gives (b.setGate i { b.gate i with
            updated := if (b.gate i).updated.contains p.shard then (b.gate i).updated else (b.gate i).updated ++ [p.shard] }))))))

/-- Doorbells move the ring pointers, commands of the queue whose turn it is are fetched in ring order and checked, and
completions are posted with a phase. Rests on R191, R231, R232, R233, R234, R236, R238, R244. -/
def Obligations.QueuesAndDoorbells : Prop :=
  (∀ (s : State) (fn q v : Nat), s.fnQueue fn q = true → s.qEnabled q = true →
    (v % 65536 < s.sqSize q → exec (.sqTailDoorbell fn q v) s = .next (s.setQueue q { s.queue q with sqTail := v % 65536 })) ∧
    (s.sqSize q ≤ v % 65536 → exec (.sqTailDoorbell fn q v) s = .next (s.badDoorbell q)) ∧
    (v % 65536 < s.cqSize q → exec (.cqHeadDoorbell fn q v) s = .next (s.setQueue q { s.queue q with cqHead := v % 65536 })) ∧
    (s.cqSize q ≤ v % 65536 → exec (.cqHeadDoorbell fn q v) s = .next (s.badDoorbell q)) ∧
    (s.badDoorbell q).bit (R.qStat q) 1 = true ∧ (s.badDoorbell q).queues = s.queues) ∧
  (∀ (s : State) (fn q v : Nat), (s.fnQueue fn q = false ∨ s.qEnabled q = false) →
    exec (.sqTailDoorbell fn q v) s = .next s ∧ exec (.cqHeadDoorbell fn q v) s = .next s) ∧
  (∀ (s : State) (fn q v : Nat), s.fnQueue fn q = false →
    exec (.doorbellFlagSet fn q v) s = .next s ∧ exec (.doorbellFlagClr fn q v) s = .next s) ∧
  (∀ (s : State) (fn q n : Nat), n < 4096 → s.fnQueue fn q = true → s.ownsFlag (s.qOwner q) n = true → s.waiters = [] → s.hostWaits 1 = [] →
    (Gives (.doorbellFlagSet fn q n) s fun t => t.flag n = true ∧ ∀ m, m ≠ n → t.flag m = s.flag m) ∧
    (Gives (.doorbellFlagClr fn q n) s fun t => t.flag n = false ∧ ∀ m, m ≠ n → t.flag m = s.flag m)) ∧
  (∀ (s : State) (q : Nat), let u := s.queue q
    let i := s.qOwner q
    let a := s.sqAt q u.sqHead
    let two := s.rd a 1 = 5
    let b := s.rbs a 64 ++ (if two then s.rbs (s.sqAt q ((u.sqHead + 1) % s.sqSize q)) 64 else [])
    (s.hasCommand q = false → s.turnQueue ≠ some q → exec (.commandFetch q) s = .next s) ∧
    (s.hasCommand q = true → s.cqFull q = true → exec (.commandFetch q) s = .next (s.cqStall q) ∧ (s.cqStall q).bit (R.qStat q) 2 = true) ∧
    (s.served = [q] → (∃ e ∈ s.insts, e.1 = i) → s.turnQueue = some q) ∧
    (q ∈ s.served → (∃ e ∈ s.insts, e.1 = i) → s.qTurn.cur = i → s.qTurn.left ≠ 0 → (s.inst i).qTurn.cur = q → (s.inst i).qTurn.left ≠ 0 →
      s.turnQueue = some q) ∧
    (s.hasCommand q = true → s.cqFull q = false → s.turnQueue = some q → s.bad = [] →
      Gives (.commandFetch q) s fun t => (t.queue q).sqHead = (u.sqHead + (if two then 2 else 1)) % s.sqSize q ∧ t.mem = s.mem ∧ t.cores = s.cores ∧
        (s.rd (a + 4) 1 % 16 ≠ s.gen i → (t.inst i).accepted = (s.inst i).accepted ∧ ∃ e, (t.queue q).waiting = u.waiting ++ [e] ∧ e.status = 0x16) ∧
        (s.rd (a + 4) 1 % 16 = s.gen i → wellFormedCmd b = false →
          (t.inst i).accepted = (s.inst i).accepted ∧ ∃ e, (t.queue q).waiting = u.waiting ++ [e] ∧ e.status = 0x11) ∧
        (s.rd (a + 4) 1 % 16 = s.gen i → wellFormedCmd b = true → (t.queue q).waiting = u.waiting ∧
          ∃ c, (t.inst i).accepted = (s.inst i).accepted ++ [c] ∧ c.bytes = b ∧ c.q = q ∧ c.inst = i ∧ c.opcode = s.rd a 1 ∧
            c.id = s.rd (a + 2) 2 ∧ c.accepted = s.beat ∧ c.started = none ∧
            c.step = (if s.commitAhead i then s.reg (R.updStep i) + 1 else s.stepNow i)))) ∧
  (∀ (s : State) (q : Nat) (e : Completion) (r : List Completion), (s.queue q).waiting = e :: r →
    let u := s.queue q
    (s.cqFull q = true → exec (.completionPost q) s = .next (s.cqStall q)) ∧
    (s.bad = [] → s.cqFull q = false →
      Gives (.completionPost q) s fun t => t.rbs (s.cqAt q u.cqTail) 64 = e.bytes q u.sqHead u.phase ∧ MemKeptBut s t (s.cqAt q u.cqTail) 64 ∧
        (t.queue q).waiting = r ∧ (t.queue q).cqTail = (u.cqTail + 1) % s.cqSize q ∧
        (t.queue q).phase = (if (u.cqTail + 1) % s.cqSize q = 0 then !u.phase else u.phase) ∧
        (t.cqFull q = true → t.bit (R.qStat q) 2 = true) ∧
        t.irqs = s.irqs ++ (if s.bit (R.qIrq q) 11 then [(s.qOwner q, s.fld (R.qIrq q) 0 11)] else []))) ∧
  (∀ (s : State) (q : Nat), (s.queue q).waiting = [] → exec (.completionPost q) s = .next s) ∧
  (∀ (s : State) (fn q : Nat) (v : W32),
    (s.fnQueue fn q = true → v.getLsbD 0 = true → exec (.queueResume fn q v) s = .next (s.setQueue q { s.queue q with halted := false })) ∧
    ((s.fnQueue fn q = false ∨ v.getLsbD 0 = false) → exec (.queueResume fn q v) s = .next s))

/-- SIGNAL applies to an owned object and completes with OK; WAIT completes when satisfied and is pending otherwise.
Rests on R237, R233, R236, R242, R243. -/
def Obligations.HostSignalsAndWaits : Prop :=
  (∀ (s : State) (q : Nat) (c : Cmd),
    let u := s.startCmd c
    let idx := c.fld 0x12 2
    let cl := c.fld 0x14 2
    let val := c.fld 0x16 2
    let sig (x : Instr) (kind : Nat) (go : State) : Prop := s.nextOf q 8 (fun d => decide (d.fld 0x10 1 = kind)) = some c →
      (u.ownsObj c = true → exec x s = .next (go.complete c 0)) ∧ (u.ownsObj c = false → exec x s = .next (u.complete c 0x13))
    let wt (x : Instr) (kind : Nat) (met : Prop) : Prop := s.nextOf q 9 (fun d => decide (d.fld 0x10 1 = kind)) = some c →
      (u.ownsObj c = true → met → exec x s = .next (u.complete c 0)) ∧ (u.ownsObj c = true → ¬met → exec x s = .next u) ∧
      (u.ownsObj c = false → exec x s = .next (u.complete c 0x13))
    (s.nextOf q 8 (fun d => decide (d.fld 0x10 1 = 0 ∨ 3 < d.fld 0x10 1)) = some c →
      (3 < c.fld 0x10 1 → exec (.signalCounter q) s = .next (u.complete c 0x11)) ∧
      (c.fld 0x10 1 = 0 → u.ownsObj c = true → exec (.signalCounter q) s = .next ((u.addCnt cl idx val pcieUid 5 false).complete c 0)) ∧
      (c.fld 0x10 1 = 0 → u.ownsObj c = false → exec (.signalCounter q) s = .next (u.complete c 0x13))) ∧
    sig (.signalFlagSet q) 1 (u.putFlag idx true 5 false) ∧ sig (.signalFlagClear q) 2 (u.putFlag idx false 5 false) ∧
    sig (.signalBarrier q) 3 (u.arrive idx pcieUid c.inst 5 false) ∧
    (s.nextOf q 9 (fun d => decide (d.fld 0x10 1 = 0 ∨ 3 < d.fld 0x10 1)) = some c →
      (3 < c.fld 0x10 1 → exec (.waitCounter q) s = .next (u.complete c 0x11)) ∧
      (c.fld 0x10 1 = 0 → u.ownsObj c = false → exec (.waitCounter q) s = .next (u.complete c 0x13)) ∧
      (c.fld 0x10 1 = 0 → u.ownsObj c = true → val ≤ u.cnt cl idx →
        exec (.waitCounter q) s = .next ((u.takeCnt cl idx val).complete c 0) ∧ (u.takeCnt cl idx val).cnt cl idx = u.cnt cl idx - val) ∧
      (c.fld 0x10 1 = 0 → u.ownsObj c = true → u.cnt cl idx < val → exec (.waitCounter q) s = .next u)) ∧
    wt (.waitFlag q) 1 (u.flag idx = true) ∧ wt (.waitBarrier q) 2 (u.barPhase idx ≠ c.fld 0x18 8 % 2 ^ 32) ∧
    wt (.waitBeat q) 3 (c.fld 0x18 8 ≤ s.beat.toNat)) ∧
  (∀ (s : State) (q : Nat) (c : Cmd) (b : W64), (s.acceptedOf q).find? (fun d => decide (d.opcode = 9) && d.started.isSome) = some c →
    c.started = some b →
    (c.fld 0x20 4 ≠ 0 → c.fld 0x20 4 ≤ (s.beat - b).toNat → exec (.waitTimeout q) s = .next (s.completeWith c 0 1 0 none)) ∧
    ((c.fld 0x20 4 = 0 ∨ (s.beat - b).toNat < c.fld 0x20 4) → exec (.waitTimeout q) s = .next s)) ∧
  (∀ (s : State) (q : Nat), s.nextCmd q = none → ∀ x ∈ [Instr.signalCounter q, .signalFlagSet q, .signalFlagClear q, .signalBarrier q,
    .waitCounter q, .waitFlag q, .waitBarrier q, .waitBeat q], exec x s = .next s)

/-- A completion takes the command from the accepted ones and puts an entry with its status behind the queue's others.
Rests on R239, R238, R241, R205. -/
def Obligations.CommandsComplete : Prop :=
  ∀ (s : State) (c d : Cmd) (status lo : Nat) (r : W64),
    let t := s.completeWith c status lo r none
    ((s.inst c.inst).accepted.find? (fun d => decide (d.tag = c.tag)) = some d → d.undone = false →
      (t.inst c.inst).accepted = (s.inst c.inst).accepted.filter (fun d => decide (d.tag ≠ c.tag)) ∧
      (∃ e, (t.queue c.q).waiting = (s.queue c.q).waiting ++ [e] ∧ e.id = c.id ∧ e.gen = c.gen ∧ e.opcode = c.opcode ∧ e.status = status ∧
        e.resultLo = BitVec.ofNat 32 lo ∧ e.result = r ∧ e.start = d.started.getD 0 ∧ e.stop = s.beat ∧ e.slips = 0) ∧
      (t.queue c.q).halted = ((s.queue c.q).halted || (s.bit (R.qCfg c.q) 1 && decide (0x10 ≤ status))) ∧
      (∀ q, q ≠ c.q → t.queue q = s.queue q) ∧ t.mem = s.mem ∧ t.cores = s.cores ∧ t.flags = s.flags ∧ t.regs = s.regs) ∧
    ((s.inst c.inst).accepted.find? (fun d => decide (d.tag = c.tag)) = some d → d.undone = true →
      ∃ e, (t.queue c.q).waiting = (s.queue c.q).waiting ++ [e] ∧ e.status = codeMax status 0x21) ∧
    ((s.inst c.inst).accepted.find? (fun d => decide (d.tag = c.tag)) = none → t = s.stale c.inst)

/-- COPY and COLLECTIVE post from HBM, ALLOC takes the lowest index and granules, FREE ends ownership at once. Rests on
R155, R156, R157, R268, R237, R154. -/
def Obligations.HostTransfersAndBuffers : Prop :=
  (∀ (s : State) (q : Nat) (c : Cmd),
    let u := s.startCmd c
    let a := c.fld 0x10 8
    (s.nextOf q 2 (fun _ => true) = some c →
      (a % 64 = 0 → a + 64 ≤ hbmTop → u.ownsHbm c.inst a 64 = true → s.bad = [] → ∀ d, u.checkX c.inst none (u.rbs a 64) = .ok d →
        exec (.copy q) s = .next (u.postX c.inst (.cmd c) d c.step (0, false))) ∧
      (a % 64 = 0 → a + 64 ≤ hbmTop → u.ownsHbm c.inst a 64 = true → s.bad = [] → ∀ f, u.checkX c.inst none (u.rbs a 64) = .error f →
        exec (.copy q) s = .next (u.complete c (faultCode f))) ∧
      (a % 64 ≠ 0 → exec (.copy q) s = .next (u.complete c 0x11)) ∧
      (a % 64 = 0 → (hbmTop < a + 64 ∨ u.ownsHbm c.inst a 64 = false) → exec (.copy q) s = .next (u.complete c 0x13))) ∧
    (s.nextOf q 3 (fun _ => true) = some c →
      (a % 64 = 0 → a + 64 ≤ hbmTop → u.ownsHbm c.inst a 64 = true → s.bad = [] → ∀ d p, u.checkC c.inst none (u.rbs a 64) = .ok (d, p) →
        exec (.collective q) s = .next (u.postC c.inst (.cmd c) 0 d p c.step (0, false))) ∧
      (a % 64 = 0 → a + 64 ≤ hbmTop → u.ownsHbm c.inst a 64 = true → s.bad = [] → ∀ f, f ≠ 0x100 →
        u.checkC c.inst none (u.rbs a 64) = .error f → exec (.collective q) s = .next (u.complete c (faultCode f))) ∧
      (a % 64 ≠ 0 → exec (.collective q) s = .next (u.complete c 0x11)) ∧
      (a % 64 = 0 → (hbmTop < a + 64 ∨ u.ownsHbm c.inst a 64 = false) → exec (.collective q) s = .next (u.complete c 0x13))) ∧
    (s.nextOf q 10 (fun _ => true) = some c → let n := c.fld 0x10 4
      (n = 0 → exec (.alloc q) s = .next (u.complete c 0x11)) ∧
      (∀ j b, n ≠ 0 → u.freeIndex = some j → u.freeRun n = some b → u.heldGranules c.inst + n ≤ u.fld (R.instQuota c.inst) 0 18 →
        (∃ x, x.idx = j ∧ x.owner = c.inst ∧ x.base = b * 2 ^ 21 ∧ x.granules = n ∧ x.freeing = false ∧
          x.ownerGen = (s.reg (R.instGen c.inst)).truncate 32 ∧
          exec (.alloc q) s = .next (({ u with buffers := u.buffers ++ [x] } : State).completeWith c 0
            (j + sget (fun _ => 0) u.bufGen j % 16 * 2 ^ 16) (BitVec.ofNat 64 (b * 2 ^ 21)) none)) ∧
        b + n ≤ u.poolGranules ∧ (∀ x ∈ u.buffers, x.idx ≠ j ∧ (b + n ≤ x.base / 2 ^ 21 ∨ x.base / 2 ^ 21 + x.granules ≤ b))) ∧
      (n ≠ 0 → (u.freeIndex = none ∨ u.freeRun n = none ∨ u.fld (R.instQuota c.inst) 0 18 < u.heldGranules c.inst + n) →
        exec (.alloc q) s = .next (u.noSpace c))) ∧
    (s.nextOf q 11 (fun _ => true) = some c → let j := c.fld 0x10 4 % 65536
      (u.buffers.find? (fun b => b.idx = j) = none → exec (.free q) s = .next (u.refuseFree c 0 0x14 (sget (fun _ => 0) u.lastOwner j) j)) ∧
      (∀ b, u.buffers.find? (fun b => b.idx = j) = some b →
        (b.freeing = true ∨ c.fld 0x10 4 / 65536 % 16 ≠ sget (fun _ => 0) u.bufGen j % 16) →
        exec (.free q) s = .next (u.refuseFree c 0 0x14 b.owner j)) ∧
      (∀ b, u.buffers.find? (fun b => b.idx = j) = some b → b.freeing = false → c.fld 0x10 4 / 65536 % 16 = sget (fun _ => 0) u.bufGen j % 16 →
        (b.owner ≠ c.inst ∨ b.ownerGen ≠ (u.reg (R.instGen c.inst)).truncate 32) →
        exec (.free q) s = .next (u.refuseFree c 1 0x13 b.owner j)) ∧
      (∀ b, u.buffers.find? (fun b => b.idx = j) = some b → b.freeing = false → c.fld 0x10 4 / 65536 % 16 = sget (fun _ => 0) u.bufGen j % 16 →
        b.owner = c.inst → b.ownerGen = (u.reg (R.instGen c.inst)).truncate 32 →
        Gives (.free q) s fun t => (∀ x ∈ t.buffers, x.idx = j → x.freeing = true) ∧ t.buffers.length = s.buffers.length ∧ MemKept s t))) ∧
  (∀ (s : State) (b : Buffer) (c : Cmd), s.buffers.find? (fun x => x.idx = b.idx) = some b → b.freeing = true → b.freer = some c →
    (s.inFlight b = true → exec (.freeComplete b.idx) s = .next s) ∧
    (s.inFlight b = false → exec (.freeComplete b.idx) s = .next ((s.dropBuffer b).complete c 0) ∧
      (∀ x ∈ (s.dropBuffer b).buffers, x.idx ≠ b.idx) ∧
      sget (fun _ => 0) (s.dropBuffer b).bufGen b.idx = (sget (fun _ => 0) s.bufGen b.idx + 1) % 16))

/-- COUNTER_SNAP writes one record per cluster; EXPORT_SHARD writes header, data and checks of the slot that was ACTIVE.
Rests on R337, R208, R199. -/
def Obligations.SnapshotsAndExports : Prop :=
  (∀ (s : State) (q : Nat) (c : Cmd), s.bad = [] →
    let u := s.startCmd c
    let first := c.fld 0x10 2
    let count := c.fld 0x12 2
    let space := c.fld 0x14 1
    let a := (if space = 2 then hostBase else 0) + c.fld 0x18 8
    (s.nextOf q 12 (fun _ => true) = some c → (count = 0 ∨ 4096 < count) → exec (.counterSnap q) s = .next (u.complete c 0x11)) ∧
    (s.nextOf q 12 (fun _ => true) = some c → 0 < count → count ≤ 4096 →
      (u.destCode c.inst space (c.fld 0x18 8) (c.fld 0x20 8) (count * 263168) = 0x11 → exec (.counterSnap q) s = .next (u.complete c 0x11)) ∧
      (u.destCode c.inst space (c.fld 0x18 8) (c.fld 0x20 8) (count * 263168) ≠ 0x11 → (∃ j, j < count ∧ u.owns c.inst (first + j) = false) →
        exec (.counterSnap q) s = .next (u.complete c 0x13)) ∧
      ((∀ j, j < count → u.owns c.inst (first + j) = true) →
        u.destCode c.inst space (c.fld 0x18 8) (c.fld 0x20 8) (count * 263168) = 0 →
        let b := (List.range count).flatMap fun j => u.clusterRecord (first + j)
        Gives (.counterSnap q) s fun t => t.rbs a b.length = b ∧ MemKeptBut s t a b.length ∧ t.cores = s.cores ∧
          t.queues = (u.complete c 0).queues)) ∧
    (s.nextOf q 13 (fun _ => true) = some c → let n := c.fld 0x10 4
      let h := u.shard c.inst n
      (u.shards c.inst ≤ n → exec (.exportShard q) s = .next (u.complete c 0x11)) ∧
      (n < u.shards c.inst → u.destCode c.inst space (c.fld 0x18 8) (c.fld 0x20 8) h.exportLen ≠ 0 →
        exec (.exportShard q) s = .next (u.complete c (u.destCode c.inst space (c.fld 0x18 8) (c.fld 0x20 8) h.exportLen))) ∧
      (n < u.shards c.inst → u.destCode c.inst space (c.fld 0x18 8) (c.fld 0x20 8) h.exportLen = 0 →
        Gives (.exportShard q) s fun t =>
          (t.inst c.inst).exports = (s.inst c.inst).exports ++ [{ cmd := c, shard := n, slot := h.active, c := u.shardCommit c.inst n }] ∧ MemKept s t ∧ t.cores = s.cores))) ∧
  (∀ (s : State) (i : Nat) (e : Export) (r : List Export), (s.inst i).exports = e :: r → s.bad = [] →
    let u := s.setInst i { s.inst i with exports := r }
    let a := (if e.cmd.fld 0x14 1 = 2 then hostBase else 0) + e.cmd.fld 0x18 8
    let b := u.exportBytes i e.shard e.slot e.c
    Gives (.exportShardComplete i) s fun t => t.rbs a b.length = b ∧ MemKeptBut s t a b.length ∧
      t.queues = (u.completeWith e.cmd 0 0 (BitVec.ofNat 64 (u.shard i e.shard).exportLen) none).queues)

/-- Instances move through ABSENT, CONFIGURED, ACTIVE, QUIESCING, RESETTING and FAILED as Table 11.6 says. Rests on R229,
R247 (Table 11.6), R248, R249, R133. -/
def Obligations.InstanceLifeCycle : Prop :=
  (∀ (s : State) (fn i : Nat) (flag : Bool), i < 64 →
    let bad (x : Instr) (ok : InstSt → Prop) : Prop := fnPhysical fn = true → ¬ok (s.inst i).st →
      exec x s = .next (s.setInst i { s.inst i with err := 0x10 })
    bad (.configure fn i) (· = .absent) ∧ bad (.activate fn i flag) (· = .configured) ∧ bad (.quiesce fn i flag) (· = .active) ∧
    bad (.release fn i) (· = .configured) ∧ bad (.instanceReset fn i flag) (fun x => x = .configured ∨ x = .active ∨ x = .quiescing) ∧
    (fnPhysical fn = false → exec (.configure fn i) s = .next s ∧ exec (.activate fn i flag) s = .next s ∧ exec (.quiesce fn i flag) s = .next s ∧
      exec (.release fn i) s = .next s ∧ exec (.instanceReset fn i flag) s = .next s) ∧
    (fnPhysical fn = true →
      let full := s.poolGranules < s.quota i + ((s.otherInsts i).map s.quota).sum
      let up (t : State) : State := t.setInst i { t.inst i with st := .active, dlArmed := true, dlSince := none }
      ((s.inst i).st = .absent → s.instOverlap i = true ∨ full →
        exec (.configure fn i) s = .next (s.setInst i { s.inst i with err := 0x13 })) ∧
      ((s.inst i).st = .absent → s.instOverlap i = false → ¬full →
        exec (.configure fn i) s = .next (s.setInst i
          { s.inst i with st := .configured, link := decide (i ≠ 0) && s.bit (R.instCfg i) 1 })) ∧
      ((s.inst i).st = .configured → Gives (.activate fn i false) s fun t => (t.inst i).st = .active ∧ (t.inst i).dlArmed = true ∧
        (∀ cl n, s.owns i cl = true → t.cnt cl n = 0) ∧ (∀ n, s.ownsFlag i n = true → t.flag n = false) ∧ t.cores = s.cores) ∧
      ((s.inst i).st = .configured → s.ctxBad i = false → s.bad = [] →
        exec (.activate fn i true) s = .next (if s.ctxMatches i then up (s.loadSync i) else s.setInst i { s.inst i with err := 0x11 })) ∧
      ((s.inst i).st = .configured → s.ctxBad i = true → exec (.activate fn i true) s = .next (s.setInst i { s.inst i with err := 0x11 })) ∧
      ((s.inst i).st = .active → flag = false ∨ s.ctxBad i = false →
        exec (.quiesce fn i flag) s = .next (s.setInst i { s.inst i with st := .quiescing, saveCtx := flag })) ∧
      ((s.inst i).st = .active → s.ctxBad i = true → exec (.quiesce fn i true) s = .next (s.setInst i { s.inst i with err := 0x11 })) ∧
      ((s.inst i).st = .configured → Gives (.release fn i) s fun t => (t.inst i).st = .absent ∧ t.cores = s.cores ∧
        ∀ cl a, s.owns i cl = true → spBase (256 * cl) ≤ a → a < spBase (256 * cl + 256) → t.rb a = 0))) ∧
  (∀ (s : State) (fn i : Nat) (keep : Bool), i < 64 →
    (s.inst i).st = .configured ∨ (s.inst i).st = .active ∨ (s.inst i).st = .quiescing →
    let after (k : Bool) (t : State) : Prop :=
      (t.inst i).st = .resetting ∧ (t.inst i).accepted = [] ∧ (t.inst i).resetAt = s.beat ∧ (t.inst i).keepHbm = k
    (fnPhysical fn = true → Gives (.instanceReset fn i keep) s (after keep)) ∧ (0 < i → Gives (.functionLevelReset i) s (after false)) ∧
    (s.insts.map (·.1) = [i] → Gives (.functionLevelReset 0) s (after false))) ∧
  (∀ (s : State) (i : Nat),
    ((s.inst i).st ≠ .quiescing ∨ s.instQuiet i = false → exec (.quiesceComplete i) s = .next s) ∧
    ((s.inst i).st = .quiescing → s.instQuiet i = true →
      let u := if (s.inst i).saveCtx then s.hbmWrite (s.ctxAddr i) (s.ctxBytes i) else s
      exec (.quiesceComplete i) s = .next (u.setInst i { u.inst i with st := .configured, saveCtx := false })) ∧
    ((s.inst i).st ≠ .resetting ∨ s.reg (R.instOrphans i) ≠ 0 ∨ (s.beat - (s.inst i).resetAt).toNat < 2 ^ 19 →
      exec (.resetComplete i) s = .next s) ∧
    ((s.inst i).st = .resetting → s.reg (R.instOrphans i) = 0 → 2 ^ 19 ≤ (s.beat - (s.inst i).resetAt).toNat →
      (s.coresOf i).all (fun k => decide ((s.core k).st = .idle)) = true → i < 64 →
      Gives (.resetComplete i) s fun t => (t.inst i).st = .configured ∧ (∀ l ∈ t.launches, l.inst ≠ i) ∧ ∀ cl n, s.owns i cl = true → t.cnt cl n = 0) ∧
    ((s.inst i).st = .resetting → (s.reg (R.resetTimeout i)).toNat ≤ (s.beat - (s.inst i).resetAt).toNat →
      exec (.instanceResetTimeout i) s = .next ((s.setInst i { s.inst i with st := .failed }).raise 1 0x40 .inst (openDetail .inst 0x40) (s.holder i) i)) ∧
    ((s.inst i).st ≠ .resetting ∨ (s.beat - (s.inst i).resetAt).toNat < (s.reg (R.resetTimeout i)).toNat →
      exec (.instanceResetTimeout i) s = .next s))

/-- A write of MEMBERS takes effect at once, and the deadlock detector acts after SYNC_DL_TIMEOUT beats. Rests on R243,
R245, R246, R251. -/
def Obligations.BarriersAndDeadlock : Prop :=
  (∀ (s : State) (fn n : Nat) (v : W32), n < 256 → s.waiters = [] → s.hostWaits 2 = [] →
    let m := v.toNat % 2 ^ 21
    ((fnPhysical fn || s.ownsBar fn n) = false → exec (.barrierMembersWrite fn n v) s = .next s) ∧
    ((fnPhysical fn || s.ownsBar fn n) = true → Gives (.barrierMembersWrite fn n v) s fun t => t.barMembers n = m ∧ t.mem = s.mem ∧ t.cores = s.cores ∧
      ((m ≠ 0 ∧ m ≤ s.barArrived n) → t.barArrived n = 0 ∧ t.barPhase n = (s.barPhase n + 1) % 2 ^ 32) ∧
      (¬(m ≠ 0 ∧ m ≤ s.barArrived n) → t.barArrived n = s.barArrived n ∧ t.barPhase n = s.barPhase n))) ∧
  (∀ (s : State) (i : Nat), (s.inst i).dlSince = none → exec (.deadlock i) s = .next s) ∧
  (∀ (s : State) (i : Nat) (b : W64), (s.inst i).dlSince = some b →
    ((s.bit R.dlCfg 0 = false ∨ (s.inst i).dlArmed = false ∨ s.dlCond i = false ∨
      (s.beat - b).toNat < (s.reg R.dlTimeout).toNat) → exec (.deadlock i) s = .next s) ∧
    (s.bit R.dlCfg 0 = true → (s.inst i).dlArmed = true → s.dlCond i = true →
      (s.reg R.dlTimeout).toNat ≤ (s.beat - b).toNat →
      let u := (((s.raise 1 0x41 .sync 0 pcieUid i).dlGraph i).dlWaits i).dlSolves i
      let v := u.setInst i { u.inst i with dlArmed := false }
      (v.bit R.dlCfg 1 = false → exec (.deadlock i) s = .next v) ∧
      (v.bit R.dlCfg 1 = true → exec (.deadlock i) s = .next (forEach (v.coresOf i) v State.haltCore)) ∧
      (s.bit R.dlStat 0 = false → ((s.raise 1 0x41 .sync 0 pcieUid i).dlGraph i).bit R.dlStat 0 = true)))

/-- LAUNCH checks in the order of R65; with LOAD it begins a load on every placed core, with START its placed cores wait
for the launch beat, and with CLEAR faulted cores become IDLE. Rests on R60, R64, R65, R66, R67, R72, R236. -/
def Obligations.LaunchCommand : Prop :=
  ∀ (s : State) (q : Nat) (c : Cmd),
    let u := s.startCmd c
    let first := c.fld 0x10 2
    let count := c.fld 0x12 2
    let a := c.fld 0x18 8
    let f := lflags c
    let faulted := ∃ k, first ≤ clOf k ∧ clOf k < first + count ∧ (u.core k).st = .faulted
    (s.nextOf q 1 (fun _ => true) = none → exec (.launch q) s = .next s) ∧
    (s.nextOf q 1 (fun _ => true) = some c →
      ((count = 0 ∨ 4096 < count) → exec (.launch q) s = .next (u.complete c 0x11)) ∧
      (0 < count → count ≤ 4096 → u.ownsSet c.inst first count = false → exec (.launch q) s = .next (u.complete c 0x13)) ∧
      (0 < count → count ≤ 4096 → u.ownsSet c.inst first count = true → f.load = true →
        (u.readImage a first count = .bad → exec (.launch q) s = .next (u.complete c 0x11)) ∧
        (∀ w, u.readImage a first count = .memory w → exec (.launch q) s = .next (u.imageMemory c w)) ∧
        (∀ x : Image, u.readImage a first count = .ok x →
          (f.clear = false → faulted → exec (.launch q) s = .next (u.complete c 0x10)) ∧
          (f.clear = true ∨ ¬faulted → (∃ p ∈ x.placed, (u.core p.core).loadRefused f.active = true) →
            exec (.launch q) s = .next (u.complete c 0x15)) ∧
          (f.clear = true ∨ ¬faulted → (∀ p ∈ x.placed, (u.core p.core).loadRefused f.active = false) → f.start = true →
            (∃ p ∈ x.placed, (u.core p.core).willLoad f = false) → exec (.launch q) s = .next (u.complete c 0x10)) ∧
          (x.placed ≠ [] → (x.placed.map (·.core)).Nodup → f.clear = false → ¬faulted →
            (∀ p ∈ x.placed, (u.core p.core).loadRefused f.active = false ∧ (f.start = true → (u.core p.core).willLoad f = true)) →
            Gives (.launch q) s fun t =>
              (∀ p ∈ x.placed, let l : Load := { launch := s.freshLaunch, toActive := f.active, words := p.stream.words, entry := p.stream.entry,
                                                 ganged := p.ganged }
                (t.core p.core).st = (s.core p.core).st ∧
                ((s.core p.core).load = none → (s.core p.core).loadNext = [] → (t.core p.core).load = some l) ∧
                ((s.core p.core).load ≠ none → (t.core p.core).load = (s.core p.core).load ∧
                  (t.core p.core).loadNext = (s.core p.core).loadNext ++ [l])) ∧
              (∀ k, (∀ p ∈ x.placed, p.core ≠ k) → t.core k = s.core k) ∧ MemKept s t ∧
              ∃ r, t.launches = s.launches ++ [r] ∧ r.id = s.freshLaunch ∧ r.cmd = c ∧ r.loads = x.placed.map (·.core) ∧ r.starts = f.start ∧
                r.launchBeat = BitVec.ofNat 64 (c.fld 0x20 8)))) ∧
      (0 < count → count ≤ 4096 → u.ownsSet c.inst first count = true → f.load = false →
        (f.clear = false → faulted → exec (.launch q) s = .next (u.complete c 0x10)) ∧
        (f.start = true → f.swap = false → f.clear = false → ¬faulted → let cores := u.placedNow a first count false
          ((∃ k ∈ cores, (u.core k).willLoad f = false) → exec (.launch q) s = .next (u.complete c 0x10)) ∧
          (cores ≠ [] → (∀ k ∈ cores, (u.core k).willLoad f = true) → Gives (.launch q) s fun t => t.cores = s.cores ∧ MemKept s t ∧
            ∃ r, t.launches = s.launches ++ [r] ∧ r.id = s.freshLaunch ∧ r.cmd = c ∧ r.starts = true ∧ r.unstarted = cores ∧
              r.launchBeat = BitVec.ofNat 64 (c.fld 0x20 8))) ∧
        (f.start = false → f.swap = false → f.clear = true → Gives (.launch q) s fun t =>
          t.launches = s.launches ∧ MemKept s t ∧ ∀ k, first ≤ clOf k → clOf k < first + count →
            (t.core k).fault = {} ∧ (t.core k).st = (if (s.core k).st = .faulted then .idle else (s.core k).st))))

/-- STEP_COMMIT, verdicts and notices move the step through OPEN, COMPUTED, CHECKED, TAINTED and SKIPPED. Rests on R200,
R201, R204, R206, R207, R276, R191. -/
def Obligations.StepWindow : Prop :=
  (∀ (s : State) (q : Nat) (c : Cmd),
    let u := s.startCmd c
    let i := c.inst
    let g := u.gate i
    let mine := u.gateOn i = true ∧ c.fld 0x10 8 = (u.s0 i).toNat
    (s.nextOf q 4 (fun c => !c.replayDone) = some c →
      (¬(mine ∧ g.st = .open_) → exec (.stepCommit q) s = .next (u.complete c 0x10)) ∧
      (mine → g.st = .open_ → Gives (.stepCommit q) s fun t => (t.gate i).computedAt = s.beat ∧ (t.gate i).commitCmd = some c ∧
        (t.gate i).runAhead = true ∧ (g.tainted = false → g.failed = false → (t.gate i).st = .computed ∧ t.cores = s.cores) ∧
        (g.tainted = true ∨ g.failed = true → (t.gate i).st = .tainted ∧ (t.gate i).undo = true))) ∧
    (s.nextOf q 4 Cmd.replayDone = some c →
      (¬(mine ∧ g.st = .replaying) → exec (.stepCommitReplayDone q) s = .next (u.complete c 0x10)) ∧
      (mine → g.st = .replaying →
        exec (.stepCommitReplayDone q) s = .next ((u.setGate i { g with st := .computed, computedAt := s.beat }).complete c 0)))) ∧
  (∀ (s : State) (fn i : Nat) (v : W32),
    (fnMay fn i = false → exec (.updEnableWrite fn i v) s = .next s) ∧
    (fnMay fn i = true → (s.gateOn i = true ∨ v.getLsbD 0 = false) →
      exec (.updEnableWrite fn i v) s = .next (s.rawWrite (R.updCfg i) (v.zeroExtend 64))) ∧
    (fnMay fn i = true → s.gateOn i = false → v.getLsbD 0 = true →
      exec (.updEnableWrite fn i v) s = .next ((s.rawWrite (R.updCfg i) (v.zeroExtend 64)).openGate i)) ∧
    (fnMay fn i = true → s.gateOn i = false → v.getLsbD 0 = true → (s.gate i).commitCmd = none →
      Gives (.updEnableWrite fn i v) s fun t => t.gateOn i = true ∧ t.gate i = { posts := (s.gate i).posts } ∧ MemKept s t)) ∧
  (∀ (s : State) (i : Nat), let g := s.gate i
    (s.gateOn i = false ∨ g.sent = true ∨ g.st = .open_ ∨ g.st = .checked ∨
      (g.st = .computed ∧ s.stepBusy i = true ∧ g.failed = false ∧ g.tainted = false ∧ g.cloveSent = false)) →
    exec (.verdictSend i) s = .next s) ∧
  (∀ (s : State) (i : Nat), let g := s.gate i
    s.gateOn i = true → g.sent = false → g.st = .computed → s.stepBusy i = false → g.replayed = false → s.parent i = none → s.children i = [] →
    g.upNf = false → g.upFail = false → g.tainted = false → g.cloveSent = false → g.forwarded = false →
    (g.nf = false → g.failed = false → Gives (.verdictSend i) s fun t => (t.gate i).st = .checked ∧
      (t.gate i).commitAt = some (s.beat + BitVec.ofNat 64 (s.reg (R.verdictLead i)).toNat) ∧ t.cores = s.cores ∧ t.mem = s.mem) ∧
    (g.nf = true → Gives (.verdictSend i) s fun t => (t.gate i).st = .skipped ∧ (t.gate i).skipCode = 0x20 ∧ ((t.gate i).undo = true)) ∧
    (g.nf = false → g.failed = true → Gives (.verdictSend i) s fun t => (t.gate i).st = .tainted ∧ (t.gate i).undo = true)) ∧
  (∀ (s : State) (m : Message) (i : Nat), let g := s.gate i
    s.inbox = [m] → s.jobInst m.job = some i → m.gen = s.gen i →
    (m.typ = 8 → s.verdictOk i m = true → m.step = (s.s0 i).toNat % 4 →
      (some m.src ≠ s.parent i → g.sent = false → Gives .verdict s fun t => (t.gate i).heard = g.heard ++ [m.src] ∧ (t.gate i).st = g.st ∧
        (t.gate i).upNf = (g.upNf || nbit (fieldAt m.payload 0 8) 0) ∧ (t.gate i).upFail = (g.upFail || nbit (fieldAt m.payload 0 8) 1)) ∧
      (some m.src = s.parent i → g.sent = true → g.combined = false → s.children i = [] → g.st ≠ .tainted →
        nbit (fieldAt m.payload 0 8) 0 = false → nbit (fieldAt m.payload 0 8) 1 = false → Gives .verdict s fun t => (t.gate i).st = .checked ∧
          (t.gate i).commitAt = some (BitVec.ofNat 64 (fieldAt m.payload 8 8)))) ∧
    (m.typ = 9 → s.gateOn i = true → i < 64 →
      (m.step = (s.s0 i).toNat % 4 → (g.st = .open_ ∨ g.st = .computed ∨ g.st = .checked) → Gives .clove s fun t =>
        (t.gate i).undo = true ∧ (g.replayed = false → (t.gate i).tainted = true ∧ (t.gate i).st = .tainted) ∧
        (g.replayed = true → (t.gate i).st = .skipped ∧ (t.gate i).skipCode = 0x21)) ∧
      (m.step = (s.s0 i).toNat % 4 → g.st = .replaying → Gives .clove s fun t =>
        (t.gate i).undo = true ∧ (t.gate i).st = .skipped ∧ (t.gate i).skipCode = 0x21) ∧
      (m.step ≠ (s.s0 i).toNat % 4 → m.step = (s.s0 i + 1).toNat % 4 → Gives .clove s fun t => (t.gate i).taintedNext = true))) ∧
  (∀ (s : State) (i : Nat), let g := s.gate i
    ((s.gateOn i = false ∨ g.combined = true ∨ g.st = .open_ ∨ g.st = .checked) → exec (.gateTimeout i) s = .next s) ∧
    (s.gateOn i = true → (g.st = .computed ∨ g.st = .replaying ∨ g.st = .tainted) → (g.commitCmd.isSome = true ∨ g.replayed = true) →
      g.combined = false →
    ((s.beat - g.computedAt).toNat < (s.reg (R.gateTimeout i)).toNat → exec (.gateTimeout i) s = .next s) ∧
    ((s.reg (R.gateTimeout i)).toNat ≤ (s.beat - g.computedAt).toNat →
      Gives (.gateTimeout i) s fun t => (t.gate i).st = .skipped ∧ (t.gate i).skipCode = 0x50 ∧ (t.gate i).undo = true)))

/-- A CHECKED step commits at its commit beat unless something holds it; an undo resolves its step when it is over.
Rests on R184, R191, R202, R205, R292. -/
def Obligations.CommitsAndUndo : Prop :=
  (∀ (s : State) (i : Nat) (b : W64), let g := s.gate i
    s.gateOn i = true → g.st = .checked → g.commitAt = some b →
    let missing := s.rootsMissing i (s.reg (R.updCommits i) + 1)
    (s.beat < b → exec (.commitApply i) s = .next s) ∧
    (b ≤ s.beat → missing = [] → s.commitHeld i = none → exec (.commitApply i) s = .next (s.applyCommit i b false)) ∧
    (∀ cause, b ≤ s.beat → missing = [] → s.commitHeld i = some cause →
      let full := s.auditDue i (s.reg (R.updCommits i) + 1) && s.auditFull i
      let u := ({ s with freeCtr := s.freeCtr + 1 } : State).setGate i { g with holdCause := cause, ringHeld := g.ringHeld || full }
      exec (.commitApply i) s = .next (if full && !g.ringHeld then u.ringFull i else u)) ∧
    (b ≤ s.beat → missing ≠ [] → exec (.commitApply i) s = .next (s.setGate i { g with holdRoots := some (g.holdRoots.getD s.beat) })) ∧
    (g.holdRoots.isSome = true → exec (.commitHoldRelease i) s = exec (.commitApply i) s) ∧
    (∀ r, g.holdRoots = some r → (s.reg (R.lateMax i)).toNat ≤ (s.beat - r).toNat → b ≤ s.beat → s.commitHeld i = none →
      exec (.rootLateTimeout i) s = .next (s.applyCommit i b true)) ∧
    (∀ r, g.holdRoots = some r → (s.beat - r).toNat < (s.reg (R.lateMax i)).toNat → exec (.rootLateTimeout i) s = .next s)) ∧
  (∀ (s : State) (i : Nat), (s.gateOn i = false ∨ (s.gate i).st ≠ .checked) → exec (.commitApply i) s = .next s) ∧
  (∀ (s : State) (i : Nat), (s.gate i).holdRoots = none → exec (.commitHoldRelease i) s = .next s ∧ exec (.rootLateTimeout i) s = .next s) ∧
  (∀ (s : State) (i : Nat), i < 64 → (s.countCommit i).reg (R.updCommits i) = s.reg (R.updCommits i) + 1 ∧
    (s.countCommit i).reg (R.updStep i) = s.reg (R.updStep i) + 1) ∧
  (∀ (s : State) (i : Nat), let g := s.gate i
    s.gateOn i = true → g.undo = true →
    (s.undoBusy i = true → exec (.undoComplete i) s = .next s) ∧
    (s.undoBusy i = false → g.st = .skipped → g.taintedNext = false → g.failedNext = false → Gives (.undoComplete i) s fun t => (t.gate i).st = .open_ ∧ (t.gate i).undo = false)) ∧
  (∀ (s : State) (i n : Nat) (j : AuditJob) (r : List Nat), (s.gate i).st ≠ .checked → s.bad = [] →
    (s.inst i).audits.find? (fun j => !j.shardsLeft.isEmpty) = some j → j.shardsLeft = n :: r →
    exec (.stateDigestShardDone i) s = .next (s.setInst i { s.inst i with audits := (s.inst i).audits.map fun k =>
      if k = j then { k with shardsLeft := r, shardAcc := k.shardAcc ++ sha256 (s.rbs ((s.shard i n).wslot (s.shard i n).active)
        ((s.shard i n).rows * (s.shard i n).cols * (s.shard i n).wsize)) } else k }))

/-- The first queued block goes to a free cluster with its dispatch word and 256 on counter 63; factors fold by R171.
Rests on R183, R180, R171. -/
def Obligations.RootDispatch : Prop :=
  (∀ (s : State) (i cl : Nat) (j : RootJob) (r : List RootJob), (s.inst i).jobs.mergeSort RootJob.le = j :: r → s.rootCluster i = some cl →
    s.bad = [] → s.waiters = [] → s.hostWaits 0 = [] →
    let b := s.dispatchWord (s.layer i j.layer) j.layer j.block
    Gives (.rootDispatch i) s fun t => b.length = 64 ∧ t.rbs (cbBase cl + 0x3FFFC0) 64 = b ∧ MemKeptBut s t (cbBase cl + 0x3FFFC0) 64 ∧
      t.cnt cl 63 = min 0xFFFF (s.cnt cl 63 + 256) ∧ (t.inst i).jobs = r ∧ (t.inst i).outstanding = (s.inst i).outstanding ++ [{ j with cl := cl }]) ∧
  (∀ (s : State) (i : Nat), ((s.inst i).jobs = [] ∨ s.rootCluster i = none) → exec (.rootDispatch i) s = .next s) ∧
  (∀ beta omb scale f st : W32, foldElem true beta omb scale f st = mul32 st scale ∧
    foldElem false beta omb scale f st = add32 (mul32 beta f) (mul32 omb (mul32 st scale)))

/-- A SOLVE is checked, starts or waits, announces, is frozen at its deadline, and posts its result. Rests on R219,
R220, R221, R222, R224. -/
def Obligations.DeadlineSolves : Prop :=
  (∀ (s : State) (q : Nat) (c : Cmd), s.nextOf q 5 (fun _ => true) = some c →
    let u := s.startCmd c
    let first := c.fld 0x10 2
    let count := c.fld 0x12 2
    let img := u.readImage (c.fld 0x18 8) first count
    (u.bit (R.solvCfg c.inst) 0 = false → exec (.solve q) s = .next (u.complete c 0x10)) ∧
    (u.bit (R.solvCfg c.inst) 0 = true → u.ownsSet c.inst first count = false → exec (.solve q) s = .next (u.complete c 0x13)) ∧
    (u.bit (R.solvCfg c.inst) 0 = true → u.ownsSet c.inst first count = true →
      (img = .bad → exec (.solve q) s = .next (u.complete c 0x11)) ∧
      (∀ w, img = .memory w → exec (.solve q) s = .next (u.imageMemory c w)) ∧
      (∀ x : Image, img = .ok x → (x.certOk = false ∨ solveFieldsBad c = true) → exec (.solve q) s = .next (u.complete c 0x11)) ∧
      (∀ x : Image, img = .ok x → x.certOk = true → solveFieldsBad c = false → exec (.solve q) s = .next (u.doSolve c x)))) ∧
  (∀ (s : State) (i : Nat), let u := s.purgeSolves i
    ((u.inst i).solves.find? (u.solveCan i) = none → exec (.solveStart i) s = .next u) ∧
    (∀ r, (u.inst i).solves.find? (u.solveCan i) = some r → exec (.solveStart i) s = .next (u.startSolve i r) ∧
      r.started = false ∧ r.frozen = false ∧ u.setBusy i r = false)) ∧
  (∀ (s : State) (i tag : Nat) (r : SolveRec), (s.inst i).solves.find? (fun r => decide (r.tag = tag)) = some r →
    let same (p : SolveRec → Prop) (t : State) : Prop := ∃ z, (t.inst i).solves.find? (fun r => decide (r.tag = tag)) = some z ∧ p z
    (r.deadline ≤ s.beat → exec (.solveAnnounce i tag) s = .next s) ∧
    (r.started = true → r.final = false → r.frozen = false → s.beat < r.deadline → s.cnt r.first 61 ≠ 0 → s.waiters = [] → s.hostWaits 0 = [] →
      Gives (.solveAnnounce i tag) s fun t => t.cnt r.first 61 = s.cnt r.first 61 - 1 ∧ t.cnt r.first 60 = min 0xFFFF (s.cnt r.first 60 + 1) ∧
        t.mem = s.mem ∧ same (fun z => z.final = nbit (s.rd (solveWord r + 0x29) 1) 1 ∧ (z.final = true → z.endBeat = s.beat)) t) ∧
    ((r.final = true ∨ r.frozen = true ∨ s.beat < r.deadline) → exec (.solveFreeze i tag) s = .next s) ∧
    (r.final = false → r.frozen = false → r.deadline ≤ s.beat → s.bad = [] → Gives (.solveFreeze i tag) s fun t => MemKept s t ∧ t.cores = s.cores ∧
      same (fun z => z.frozen = true ∧ z.endBeat = s.beat ∧ z.forced = none) t) ∧
    (r.frozen = true → r.slow = false → (s.dropUnstarted i tag).solveRuns i tag = true →
      (s.reg (R.abandonMax i)).toNat ≤ (s.beat - r.endBeat).toNat → Gives (.solveAbandonTimeout i tag) s fun t =>
        same (fun z => z.slow = true) t ∧ ∃ e, t.err.raised = s.err.raised ++ [e] ∧ e.cls = 1) ∧
    (r.final = false → r.frozen = false → exec (.solveResultPost i tag) s = .next s) ∧
    (∀ st, i < 64 → r.final = true → r.frozen = false → r.posted = false → r.status = some st →
      (s.inst i).audits.any (fun j => decide (j.tag = some tag)) = false → st ≠ 0x30 →
      let u := (s.putSolve i { r with posted := true }).incReg (R.solvCount i)
      let held (l : LaunchRec) : LaunchRec := match r.ringHeld with
        | some b => l.slip 5 (s.beat - b).toNat false
        | none => l
      exec (.solveResultPost i tag) s = .next ((u.completeWith r.cmd st 0 0 ((u.solveLaunch i tag).map held)).purgeSolves i)) ∧
    (i < 64 → r.final = true → r.frozen = false → r.posted = false → r.status = none → s.auditSolves i = false →
      exec (.solveResultPost i tag) s = exec (.solveResultPost i tag) (s.closeSolve i r)))

/-- Audit and error records reach their rings, scrubs find words, windows and comparisons time out, DEV_MODE is written.
Rests on R289, R290, R292, R296, R297, R303, R305, R315, R282. -/
def Obligations.AuditErrorsAndScrub : Prop :=
  (∀ (s : State) (i : Nat) (j : AuditJob), s.bad = [] → (s.inst i).audits.find? (fun j => j.shardsLeft.isEmpty) = some j →
    let n := s.fld (R.audSize i) 0 16
    let a := (s.reg (R.audRing i)).toNat + 256 * s.fld (R.audPtr i) 16 16
    let b := s.auditBytes i j ((s.inst i).auditSeq + 1) (s.inst i).auditPrev
    (n = 0 → exec (.auditRecordWrite i) s = .next (s.setInst i { s.inst i with audits := (s.inst i).audits.erase j })) ∧
    (n ≠ 0 → n ≤ (s.inst i).auditUsed → j.tag = none → exec (.auditRecordWrite i) s = .next s) ∧
    (∀ tag, n ≠ 0 → n ≤ (s.inst i).auditUsed → j.tag = some tag → exec (.auditRecordWrite i) s = .next (s.holdSolve i tag)) ∧
    ((s.inst i).auditUsed < n → a + b.length ≤ hbmTop → Gives (.auditRecordWrite i) s fun t => t.rbs a b.length = b ∧ MemKeptBut s t a b.length ∧
      (t.inst i).audits = (s.inst i).audits.erase j ∧ (t.inst i).auditSeq = (s.inst i).auditSeq + 1 ∧ t.cores = s.cores)) ∧
  (∀ (s : State) (i : Nat), (s.inst i).audits.find? (fun j => j.shardsLeft.isEmpty) = none → exec (.auditRecordWrite i) s = .next s) ∧
  (∀ (s : State) (r : ErrRec) (l : List ErrRec), s.err.raised = r :: l → s.bad = [] → r.cls = 3 → 64 ≤ r.inst → s.eqOn 64 = true →
    s.bit (R.eqCfg 64) 1 = false → s.fld (R.eqCfg 64) 8 16 ≤ s.eqFree 64 → 0 < s.eqFree 64 →
    let a := hostBase + (s.reg (R.eqBase 64)).toNat / 32 * 32 + 32 * s.fld (R.eqPtr 64) 16 16
    Gives .errorRecordWrite s fun t => t.err.raised = l ∧ t.rbs a 32 = ({ r with seq := (s.errQ 64).seq + 1 } : ErrRec).bytes ∧
      MemKeptBut s t a 32 ∧ (t.errQ 64).seq = (s.errQ 64).seq + 1 ∧ t.cores = s.cores) ∧
  (∀ (s : State) (r : ErrRec) (l : List ErrRec), s.err.raised = r :: l → s.eqOn 64 = false → (r.inst < 64 → s.eqOn r.inst = false) →
    r.cls = 1 → r.isEscalate = false → s.slotOf (s.domainOf r) = none → s.err.waiting = [] → s.windowAt 0 = none →
    Gives .errorRecordWrite s fun t => t.err.raised = l ∧ MemKept s t ∧ t.cores = s.cores ∧
      (∃ e, t.err.reported = s.err.reported ++ [e] ∧ e.cls = 1 ∧ e.code = r.code ∧ e.uid = r.uid ∧ e.seq = (s.errQ 65).seq + 1) ∧
      t.windowAt 0 = some { domain := s.domainOf r, rung := 1, since := s.beat, begun := s.recovering (s.domainOf r) }) ∧
  (∀ s : State, s.err.raised = [] → (∀ k, (s.errQ k).pendA = [] ∧ (s.errQ k).overflow = []) → exec .errorRecordWrite s = .next s) ∧
  (∀ (s : State) (addr : Nat), let w := addr / 8 * 8
    (s.inModule w = false → ∀ b, exec (.patrolScrub addr b) s = .next s) ∧
    (s.inModule w = true → Gives (.patrolScrub addr false) s fun t => w ∈ t.bad ∧ (∀ v, v ≠ w → (v ∈ t.bad ↔ v ∈ s.bad)) ∧ t.mem = s.mem ∧
      ∃ e, t.err.raised = s.err.raised ++ [e] ∧ e.cls = 1 ∧ e.code = 0x51 ∧ e.uid = memUid w) ∧
    (s.inModule w = true → w ∈ s.bad → exec (.patrolScrub addr true) s = .next s) ∧
    (s.inModule w = true → w ∉ s.bad → Gives (.patrolScrub addr true) s fun t => t.bad = s.bad ∧ t.mem = s.mem ∧
      ∃ e, t.err.raised = s.err.raised ++ [e] ∧ e.cls = 3 ∧ e.uid = memUid w)) ∧
  (∀ (s : State) (n : Nat) (w : Window), s.windowAt n = some w →
    ((w.begun = true ∨ (s.beat - w.since).toNat < (s.reg R.errWindow).toNat) → exec (.recoveryWindowTimeout n) s = .next s) ∧
    (w.begun = false → (s.reg R.errWindow).toNat ≤ (s.beat - w.since).toNat → s.err.waiting = [] →
      Gives (.recoveryWindowTimeout n) s fun t => t.windowAt n = none ∧ ∀ m, m ≠ n → t.windowAt m = s.windowAt m) ∧
    (∀ v r, w.begun = false → (s.reg R.errWindow).toNat ≤ (s.beat - w.since).toNat → s.err.waiting = v :: r →
      Gives (.recoveryWindowTimeout n) s fun t => t.windowAt n = some { v with since := s.beat } ∧ t.err.waiting = r ∧
        ∀ m, m ≠ n → t.windowAt m = s.windowAt m)) ∧
  (∀ (s : State) (n : Nat), s.windowAt n = none → exec (.recoveryWindowTimeout n) s = .next s) ∧
  (∀ (s : State) (i : Nat), (s.inst i).cmp = none → exec (.digestCompareTimeout i) s = .next s) ∧
  (∀ (s : State) (i : Nat) (p : Compare), (s.inst i).cmp = some p →
    ((s.beat - p.since).toNat < (s.reg (R.cmpTimeout i)).toNat → exec (.digestCompareTimeout i) s = .next s) ∧
    ((s.reg (R.cmpTimeout i)).toNat ≤ (s.beat - p.since).toNat →
      exec (.digestCompareTimeout i) s = .next ((((s.setInst i { s.inst i with cmp := none }).cmpBad i 3).cmpAlarm i 3).cmpRun i))) ∧
  (∀ (s : State) (fn : Nat) (v : W32), (fnPhysical fn = true → exec (.devModeWrite fn v) s = .next (s.modeWrite (v.zeroExtend 64))) ∧
    (fnPhysical fn = false → exec (.devModeWrite fn v) s = .next s))

/-- Replay messages fill the receive area of their instance, and weight digests are gathered for the comparison. Rests
on R305, R308, R309, R317. -/
def Obligations.ReplayTraffic : Prop :=
  (∀ (s : State) (m : Message) (i : Nat), s.inbox = [m] → s.jobInst m.job = some i → m.gen = s.gen i → m.typ = 11 → s.bad = [] →
    let u := s.consume m
    let op := fieldAt m.payload 0 1
    let n := fieldAt m.payload 4 4
    let off := fieldAt m.payload 8 8
    let a := (s.reg (R.rpRecv i)).toNat + off
    let data := (m.payload.drop 16).take n
    (op = 1 → (s.reg (R.rpLen i)).toNat < off + n → exec .replayInput s = .next (u.incReg R.dropCount)) ∧
    (op = 2 → (s.reg (R.rpLen i)).toNat < off + n → exec .replayResult s = .next (u.incReg R.dropCount)) ∧
    (op = 1 → off + n < (s.reg (R.rpLen i)).toNat → s.ownsHbm i (s.reg (R.rpRecv i)).toNat (s.reg (R.rpLen i)).toNat = true →
      Gives .replayInput s fun t => t.rbs a data.length = data ∧ MemKeptBut s t a data.length ∧ t.regs = s.regs ∧ t.inbox = []) ∧
    (op = 2 → off + n < (s.reg (R.rpLen i)).toNat → s.ownsHbm i (s.reg (R.rpRecv i)).toNat (s.reg (R.rpLen i)).toNat = true →
      Gives .replayResult s fun t => t.rbs a data.length = data ∧ MemKeptBut s t a data.length ∧ t.regs = s.regs ∧ t.inbox = []) ∧
    (op = 1 → i < 64 → off + n = (s.reg (R.rpLen i)).toNat → s.fld (R.updCfg i) 16 12 = 0 →
      s.ownsHbm i (s.reg (R.rpRecv i)).toNat (s.reg (R.rpLen i)).toNat = true →
      Gives .replayInput s fun t => t.rbs a data.length = data ∧ t.bit (R.rpStat i) 0 = true ∧ (t.inst i).replayFrom = some m.src) ∧
    (op = 3 → let c : W64 := BitVec.ofNat 64 off
      let d : W64 := BitVec.ofNat 64 (fieldAt m.payload 16 8)
      ((s.inst i).cmp = none → exec .replayDigest s = .next (u.setInst i { u.inst i with early := (u.inst i).early ++ [(m.src, c, d)] })) ∧
      (∀ p, (s.inst i).cmp = some p → p.c ≠ c →
        exec .replayDigest s = .next (u.setInst i { u.inst i with early := (u.inst i).early ++ [(m.src, c, d)] })) ∧
      (∀ p, (s.inst i).cmp = some p → p.c = c → (∀ e ∈ p.got, e.1 ≠ m.src) → exec .replayDigest s =
        .next ((u.setInst i { u.inst i with cmp := some { p with got := p.got ++ [(m.src, d)] } }).cmpRun i)))) ∧
  (∀ (s : State), s.inbox = [] → exec .replayInput s = .next s ∧ exec .replayResult s = .next s ∧ exec .replayDigest s = .next s) ∧
  (∀ (s : State) (fn i : Nat), (((s.inst i).replayFrom = none ∨ fnMay fn i = false) → exec (.replaySend fn i) s = .next s) ∧
    (∀ c, (s.inst i).replayFrom = some c → fnMay fn i = true →
      exec (.replaySend fn i) s = .next (s.sendArea i c 2 (s.reg (R.rpOut i)).toNat (s.reg (R.updStep i)))))

/-- Halves of 64-bit registers latch and hold; a write stores RW bits and clears W1C bits; doorbell pages show flags; BAR4
reaches HBM up to its size. Rests on R6, R7, R27, R158, R231, R265, R303, R367, R383, R386, R387, R388. -/
def Obligations.RegisterAccess : Prop :=
  (∀ (s : State) (fn off p : Nat), mapOff fn off = some p → off % 4 = 0 → p % 8 = 0 → isWide p = true →
    let x := s.regView p &&& s.shown fn p
    ((∀ i, p ≠ R.accData i) → Gives (.lowerHalfRead fn off) s fun t => t.readData = BitVec.ofNat 64 (x.toNat % 2 ^ 32) ∧
      t.latch fn p = some ((x >>> 32).truncate 32) ∧ t.regs = s.regs ∧ t.mem = s.mem ∧ t.cores = s.cores) ∧
    (∀ u, s.latch fn p = some u → Gives (.upperHalfRead fn off) s fun t => t.readData = u.zeroExtend 64 ∧ t.latch fn p = none ∧
      t.regs = s.regs ∧ t.mem = s.mem ∧ t.cores = s.cores) ∧
    (∀ v : W32, Gives (.lowerHalfWrite fn off v) s fun t => t.heldHalf fn p = some v ∧ t.regs = s.regs ∧ t.mem = s.mem ∧ t.cores = s.cores) ∧
    (∀ v l : W32, s.heldHalf fn p = some l → exec (.upperHalfWrite fn off v) s =
      .next ((s.setHeld fn p none).writeReg fn p (BitVec.ofNat 64 (l.toNat + v.toNat * 2 ^ 32)))) ∧
    ((∀ i, p ≠ R.accData i) → off % 8 = 0 → Gives (.badAccessWidth fn off 64 false) s fun t => t.readData = x ∧
      (∀ f, t.heldHalf f p = none) ∧ t.regs = s.regs ∧ t.mem = s.mem ∧ t.cores = s.cores)) ∧
  (∀ (s : State) (fn off p base : Nat) (r : RegInfo) (v : W64), mapOff fn off = some p → off % 4 = 0 → blockAt p = some (.solv, base) →
    regInfo p = some r → r.wide = false → fnMay fn ((p - base) / 0x1000) = true → ¬(p % 8 = 4 ∧ isWide (p - 4) = true) →
    let rw : W64 := BitVec.ofNat 64 r.rw
    let n : W64 := BitVec.ofNat 64 (v.toNat % 2 ^ 32)
    Gives (.registerWrite fn off false v) s fun t =>
      t.reg p = ((s.reg p &&& ~~~rw) ||| (n &&& rw)) &&& ~~~(BitVec.ofNat 64 r.w1c &&& n) ∧ (∀ q, q ≠ p → t.reg q = s.reg q) ∧ t.mem = s.mem) ∧
  (∀ (s : State) (fn off : Nat) (w : Bool) (v : W64), mapOff fn off = none → off % 4 = 0 → fn < 64 → off < bar2Base →
    exec (.lowerHalfRead fn off) s = .next { s with readData := 0 } ∧ exec (.registerWrite fn off w v) s = .next s) ∧
  (∀ (s : State) (fn q n : Nat) (v : W32), fn < 64 → q < 16384 → n % 4 = 0 → n < 0x1000 → let off := bar2Base + 0x1000 * q + n
    (s.fnQueue fn q = true → 0x800 ≤ n → n < 0xA00 → exec (.lowerHalfRead fn off) s =
      .next { s with readData := BitVec.ofNat 64 (s.flagMap (s.qOwner q) ((n - 0x800) / 4)) }) ∧
    ((s.fnQueue fn q = false ∨ n < 0x800 ∨ 0xA00 ≤ n) → exec (.lowerHalfRead fn off) s = .next { s with readData := 0 }) ∧
    (n = 0x000 → exec (.lowerHalfWrite fn off v) s = exec (.sqTailDoorbell fn q v.toNat) s) ∧
    (n = 0x008 → exec (.lowerHalfWrite fn off v) s = exec (.cqHeadDoorbell fn q v.toNat) s) ∧
    (n = 0x400 → exec (.lowerHalfWrite fn off v) s = exec (.doorbellFlagSet fn q v.toNat) s) ∧
    (n = 0x408 → exec (.lowerHalfWrite fn off v) s = exec (.doorbellFlagClr fn q v.toNat) s) ∧
    (n ≠ 0x000 → n ≠ 0x008 → n ≠ 0x400 → n ≠ 0x408 → exec (.lowerHalfWrite fn off v) s = .next s)) ∧
  (∀ (s : State) (fn : Nat) (v : W32), fn < 64 → let n := nfield v.toNat 8 6 + 20
    (30 ≤ n → n ≤ 39 → s.cfgRetry = false → Gives (.lowerHalfWrite fn rebarCtl v) s fun t => t.bar4Log2 fn = n ∧ (∀ f, f ≠ fn → t.bar4Log2 f = s.bar4Log2 f) ∧
      t.mem = s.mem ∧ t.regs = s.regs) ∧
    ((n < 30 ∨ 39 < n ∨ s.cfgRetry = true) → exec (.lowerHalfWrite fn rebarCtl v) s = .next s)) ∧
  (∀ (s : State) (fn off width : Nat) (w : Bool),
    (accessOk off width true = true → exec (.badAccessWidth fn off width true) s = .next s) ∧
    (accessOk off 32 false = true → exec (.badAccessWidth fn off 32 false) s = exec (.lowerHalfRead fn off) s) ∧
    (∀ p, mapOff fn off = some p → accessOk off 8 false = true → (∀ i, p - p % 4 ≠ R.accData i) →
      let x := s.regView (p - p % 4) &&& s.shown fn (p - p % 4)
      exec (.badAccessWidth fn off 8 false) s = .next { s with readData := BitVec.ofNat 64 (bfGet x (8 * (p % 4)) 8) }) ∧
    (accessOk off width w = false → Gives (.badAccessWidth fn off width w) s fun t => t.regs = s.regs ∧ t.mem = s.mem ∧
      t.readData = (if w then s.readData else 0) ∧ ∃ e, t.err.raised = s.err.raised ++ [e] ∧ e.cls = 3)) ∧
  (∀ (s : State) (fn addr len : Nat) (d : List Byte), let top := min hbmTop (2 ^ s.bar4Log2 fn)
    (s.bar4Ok fn addr len = true → 0 < len → len ≤ 8 → addr + len ≤ top →
      (s.bad = [] → exec (.bar4Read fn addr len) s = .next { s with readData := BitVec.ofNat 64 (s.rd addr len) }) ∧
      (∀ w, s.bad = [w] → w < addr + len → addr < w + 8 → Gives (.bar4Read fn addr len) s fun t => t.readData = 0 ∧ t.mem = s.mem ∧
        ∃ e, t.err.raised = s.err.raised ++ [e] ∧ e.cls = 1 ∧ e.code = 0x51 ∧ e.uid = memUid w)) ∧
    (s.bar4Ok fn addr len = false → 0 < len → len ≤ 8 → addr + len ≤ top → Gives (.bar4Read fn addr len) s fun t => t.readData = 0 ∧
      t.mem = s.mem ∧ ∃ e, t.err.raised = s.err.raised ++ [e] ∧ e.cls = 2 ∧ e.code = 0x13) ∧
    (top ≤ addr → exec (.bar4Read fn addr len) s = .next { s with readData := 0 } ∧ exec (.bar4Write fn addr d) s = .next s) ∧
    (s.bar4Ok fn addr d.length = true → d ≠ [] → addr + d.length ≤ top → s.bad = [] →
      Gives (.bar4Write fn addr d) s fun t => t.rbs addr d.length = d ∧ MemKeptBut s t addr d.length ∧ t.regs = s.regs) ∧
    (s.bar4Ok fn addr d.length = false → d ≠ [] → addr + d.length ≤ top → Gives (.bar4Write fn addr d) s fun t => t.mem = s.mem ∧
      ∃ e, t.err.raised = s.err.raised ++ [e] ∧ e.cls = 2 ∧ e.code = 0x13) ∧
    (fnPhysical fn = true → s.bar4Ok fn addr len = true)) ∧
  (∀ (s : State) (fn i : Nat) (v : W32),
    let absent := s.insts.any fun e => decide (e.2.st ≠ .absent)
    (fnPhysical fn = true → absent = false → Gives (.buddySizeWrite fn v) s fun t => t.reg R.buddyCfg = BitVec.ofNat 64 (min 96 (v.toNat % 2 ^ 7))) ∧
    (fnPhysical fn = false ∨ absent = true → exec (.buddySizeWrite fn v) s = .next s) ∧
    (fnMay fn i = true → (s.inst i).st ≠ .active → cutsOk v.toNat = true →
      exec (.collCutWrite fn i v) s = .next (s.rawWrite (R.collCut i) (v.zeroExtend 64))) ∧
    (fnMay fn i = true → (s.inst i).st ≠ .active → cutsOk v.toNat = false → Gives (.collCutWrite fn i v) s fun t =>
      t.bit (R.collStat i) 5 = true ∧ t.reg (R.collCut i) = s.reg (R.collCut i)) ∧
    (fnMay fn i = true → (s.inst i).st = .active → exec (.collCutWrite fn i v) s = .next s) ∧
    (fnPhysical fn = true → let vmax := min 2 (v.toNat / 65536 % 4)
      Gives (.powerConfigWrite fn v) s fun t =>
        t.reg R.devPwrCfg = BitVec.ofNat 64 (max 4000 (min 13000 (v.toNat % 65536)) + vmax * 65536) ∧ t.vset = min s.vset vmax) ∧
    (fnPhysical fn = false → exec (.powerConfigWrite fn v) s = .next s))

/-- The beat counts and classifies, REFCLK and rates change what they name, and alignment goes through its states. Rests
on R31, R32, R33, R35, R36, R48, R51, R52, R54, R335. -/
def Obligations.BeatsAndAlignment : Prop :=
  (∀ (s : State) (obs : List StallObs),
    (s.bit R.beatStat 0 = false → exec (.beat obs) s = .next s) ∧
    (s.bit R.beatStat 0 = true → Gives (.beat obs) s fun t => t.beat = s.beat + 1 ∧ t.beatsCounted = s.beatsCounted + 1 ∧
      ∀ k e, e < 6 → ((t.core k).eng' e).busy = ((s.core k).eng' e).busy +
        (if (s.core k).beatClass s.beat k (s.traceHolds k) obs e = some none then 1 else 0))) ∧
  (∀ (s : State),
    (s.bit R.beatStat 0 = true → s.bit R.beatStat 2 = false → Gives .refclkLoss s fun t => t.bit R.beatStat 2 = true ∧ t.bit R.beatStat 1 = true ∧
      t.beat = s.beat ∧ ∃ e, t.err.raised = s.err.raised ++ [e] ∧ e.cls = 1) ∧
    (s.bit R.beatStat 0 = false ∨ s.bit R.beatStat 2 = true → exec .refclkLoss s = .next s) ∧
    Gives .refclkReturn s fun t => t.bit R.beatStat 2 = false ∧ (∀ n, n ≠ 2 → t.bit R.beatStat n = s.bit R.beatStat n) ∧ t.beat = s.beat) ∧
  (∀ (s : State) (d r n : Nat) (y : Bool),
    (d < 16 → 0x31F ≤ r → r ≤ 0x4B8 → Gives (.rateChange d r) s fun t => t.rateOf d = r ∧ (∀ e, e ≠ d → t.rateOf e = s.rateOf e) ∧ t.regs = s.regs ∧ t.beat = s.beat) ∧
    (r < 0x31F ∨ 0x4B8 < r → exec (.rateChange d r) s = .next s) ∧
    (d < 16 → s.power.fusesLoaded = true → Gives (.rateMonitorRefresh d) s fun t => t.reg (R.beatRate d) = BitVec.ofNat 64 (s.rateOf d)) ∧
    Gives (.beatSample n y) s fun t => t.power.samples = s.power.samples ++ [(s.beat, n, y)] ∧ t.regs = s.regs ∧ t.mem = s.mem) ∧
  (∀ (s : State) (fn : Nat) (v : W32) (parent : W64),
    (fnPhysical fn = false → exec (.alignEnable fn v parent) s = .next s ∧ exec (.alignDisable fn v) s = .next s ∧ exec (.alignCfgWrite fn v) s = .next s) ∧
    (fnPhysical fn = true → s.bit R.alignCfg 0 = false → s.anyActive = false → v.getLsbD 0 = true → s.bit R.beatStat 0 = true →
      Gives (.alignEnable fn v parent) s fun t => t.alignSt = 1 ∧ t.bit R.alignCfg 0 = true ∧ t.beat = if v.getLsbD 1 then s.beat else parent) ∧
    (fnPhysical fn = true → s.anyActive = true → Gives (.alignEnable fn v parent) s fun t => t.alignSt = s.alignSt ∧ t.beat = s.beat) ∧
    (fnPhysical fn = true → s.bit R.alignCfg 0 = true → s.anyActive = false → v.getLsbD 0 = false →
      Gives (.alignDisable fn v) s fun t => t.alignSt = 0 ∧ t.bit R.alignCfg 0 = false ∧ t.beat = s.beat) ∧
    (fnPhysical fn = true → Gives (.alignCfgWrite fn v) s fun t => t.alignSt = s.alignSt ∧ t.beat = s.beat ∧
      t.reg R.alignCfg = BitVec.ofNat 64 ((s.reg R.alignCfg).toNat % 2 + v.toNat % 512 / 2 * 2))) ∧
  (∀ (s : State) (port : Nat),
    (s.alignSt = 1 → 4096 ≤ s.alignRun → s.stepDue = false → Gives .alignLock s fun t => t.alignSt = 2 ∧ t.beat = s.beat) ∧
    (s.alignSt ≠ 1 ∨ s.alignRun < 4096 ∨ s.stepDue = true → exec .alignLock s = .next s) ∧
    (s.alignSt = 2 → s.isRoot = false → s.fld (R.linkStat s.parentPort) 0 2 ≠ 2 →
      (s.bit R.alignCfg 5 = true → s.parentDown = false → Gives .parentPortFail s fun t => t.alignSt = 2 ∧ t.parentDown = true) ∧
      (s.bit R.alignCfg 5 = false ∨ s.parentDown = true → Gives .parentPortFail s fun t => t.alignSt = 3 ∧ t.holdoverAt = s.beat)) ∧
    (s.alignSt = 3 → s.bit R.alignStat 2 = false → 500000 ≤ (s.beat - s.holdoverAt).toNat → Gives .holdoverTimeout s fun t =>
      t.bit R.alignStat 2 = true ∧ t.alignSt = 3 ∧ ∃ e, t.err.raised = s.err.raised ++ [e] ∧ e.cls = 1) ∧
    (s.alignSt = 3 → s.fld (R.linkStat port) 0 2 = 2 → port = s.fld R.alignCfg 2 3 → Gives (.parentPortRecover port) s fun t =>
      t.alignSt = 2 ∧ t.parentDown = false ∧ t.beat = s.beat) ∧
    (s.alignSt ≠ 3 → exec (.parentPortRecover port) s = .next s ∧ exec .holdoverTimeout s = .next s))

/-- A port trains, comes UP or FAILS, and sends and takes frames in order with retry. Rests on R254, R256, R257, R258,
R260, R278, R294. -/
def Obligations.PortsAndFrames : Prop :=
  ∀ (s : State) (p : Nat), p < 8 → let l := s.link p
    (∀ (fn : Nat) (v : W32),
      (fnPhysical fn = false → exec (.linkEnable fn p v) s = .next s ∧ exec (.linkDisable fn p v) s = .next s) ∧
      (fnPhysical fn = true → v.getLsbD 0 = true → s.bit (R.linkCfg p) 0 = false → s.power.stopped = false →
        (((List.range 8).map (s.vcBuf p)).sum ≤ 2048 → Gives (.linkEnable fn p v) s fun t => t.portSt p = 1 ∧ (t.link p).outq = l.outq ∧
          ∀ vc < 8, sget (fun _ => 0) (t.link p).bufs vc = s.vcBuf p vc ∧ (t.link p).weight vc = s.vcWeight p vc) ∧
        (2048 < ((List.range 8).map (s.vcBuf p)).sum → Gives (.linkEnable fn p v) s fun t => t.portSt p = s.portSt p ∧
          t.bit (R.linkStat p) 4 = true ∧ t.link p = l)) ∧
      (fnPhysical fn = true → v.getLsbD 0 = false → Gives (.linkDisable fn p v) s fun t => t.portSt p = 0 ∧ (t.link p).outq = l.outq ∧
        t.bit (R.linkPeer p) 31 = false ∧ t.bit (R.portDelay p) 31 = false)) ∧
    (∀ coord peer : Nat, let fits := coord = s.fld (R.linkExpect p) 0 24 ∧ peer = (p + 4) % 8
      (s.portSt p ≠ 1 → exec (.linkTrainingComplete p coord peer) s = .next s ∧ exec (.linkTrainingTimeout p) s = .next s) ∧
      (s.portSt p = 1 → (s.bit (R.linkCfg p) 1 = false ∨ fits) → Gives (.linkTrainingComplete p coord peer) s fun t => t.portSt p = 2 ∧
        t.bit (R.linkPeer p) 31 = true ∧
        ∀ vc cls, vc < 8 → cls < 2 → sget (fun _ => 0) (t.link p).credits (2 * vc + cls) = sget (fun _ => 0) l.bufs vc) ∧
      (s.portSt p = 1 → s.bit (R.linkCfg p) 1 = true → ¬fits → Gives (.linkTrainingComplete p coord peer) s fun t => t.portSt p = 0 ∧
        t.bit (R.linkStat p) 2 = true ∧ t.bit (R.linkPeer p) 31 = false)) ∧
    (s.portSt p = 1 → (s.beat - l.since).toNat < 25000000 → exec (.linkTrainingTimeout p) s = .next s) ∧
    (s.portSt p = 1 → 25000000 ≤ (s.beat - l.since).toNat → exec (.linkTrainingTimeout p) s = .next (s.portFail p)) ∧
    (s.portSt p = 2 → exec (.laneLockLoss p) s = .next (s.portFail p)) ∧
    (s.portSt p = 2 → (s.beat - l.since).toNat < 500 → exec (.frameCheckTimeout p) s = .next s) ∧
    (s.portSt p = 2 → 500 ≤ (s.beat - l.since).toNat → exec (.frameCheckTimeout p) s = .next (s.portFail p)) ∧
    ((s.portFail p).portSt p = 3 ∧ (s.portFail p).bit (R.linkStat p) 3 = true) ∧
    (s.portSt p ≠ 2 → exec (.frameSend p) s = .next s ∧ exec (.laneLockLoss p) s = .next s ∧ exec (.frameCheckTimeout p) s = .next s ∧
      ∀ f, exec (.frameReceive p f) s = .next s) ∧
    (s.portSt p = 2 →
      let leaves (b : FrameBody) : Frame := b.frame ((l.rxNext + 65535) % 65536) l.sendNack (if b.fseq % 64 = 0 then some s.marker else none)
      (∀ b r, l.resend = b :: r → Gives (.frameSend p) s fun t => (t.link p).resend = r ∧ (t.link p).fseq = l.fseq ∧ (t.link p).kept = l.kept ∧
        t.reg (R.retryCount p) = (s.incReg (R.retryCount p)).reg (R.retryCount p) ∧ (t.link p).sentFrames = l.sentFrames ++ [leaves b] ∧
        ∃ e, t.err.raised = s.err.raised ++ [e] ∧ e.cls = 3 ∧ e.uid = portUid p) ∧
      (l.resend = [] → Gives (.frameSend p) s fun t => (t.link p).fseq = (l.fseq + 1) % 65536 ∧ ∃ b : FrameBody, b.fseq = l.fseq ∧
        b.slots.length = 40 ∧ b.area.length = 10240 ∧ (t.link p).sentFrames = l.sentFrames ++ [leaves b] ∧
        (t.link p).kept = (l.kept ++ [b]).drop (l.kept.length + 1 - 128)) ∧
      (∀ f : Frame, f.good = false → Gives (.frameReceive p f) s fun t => (t.link p).sendNack = true ∧
        (t.link p).rxNext = l.rxNext ∧ t.inbox = s.inbox ∧ t.mem = s.mem) ∧
      (∀ f : Frame, f.good = true → f.nack = false →
        (f.fseq ≠ l.rxNext → Gives (.frameReceive p f) s fun t => (t.link p).rxNext = l.rxNext ∧ (t.link p).since = s.beat ∧
          (t.link p).sendNack = true ∧ t.inbox = s.inbox ∧ t.mem = s.mem) ∧
        (f.fseq = l.rxNext → f.mark = none →
          let x := ({ parts := l.rxParts, hit := l.rxHit } : Inflow).frame f (decide (l.rxLost ≠ 0))
          (x.whole = [] → Gives (.frameReceive p f) s fun t => (t.link p).rxNext = (l.rxNext + 1) % 65536 ∧ (t.link p).sendNack = false ∧
            (t.link p).rxParts = x.parts ∧ t.inbox = s.inbox ∧ t.mem = s.mem ∧
            sget (fun _ => 0) (t.link p).credits (f.fseq % 16) = sget (fun _ => 0) l.credits (f.fseq % 16) + f.credit) ∧
          (∀ m, x.whole = [m] → 0 < m.typ → m.typ ≤ 12 → s.routePort m.dst = none → Gives (.frameReceive p f) s fun t =>
            (t.link p).rxNext = (l.rxNext + 1) % 65536 ∧ t.inbox = s.inbox ++ [{ m with came := some (p, m.dclass) }] ∧ t.mem = s.mem))))

/-- A checkpoint is requested, read block by block, received into a slot, marked complete, and acknowledged or given up.
Rests on R318, R320, R322, R324, R325, R326, R328, R321. -/
def Obligations.CheckpointCopies : Prop :=
  (∀ (s : State) (q : Nat) (c : Cmd), let u := s.startCmd c
    s.nextOf q 6 (fun c => decide (c.kind ≠ 1)) = some c →
    let code := if s.ckptIllegal then 0x10 else if 1 < c.kind then 0x11 else if c.inst ≠ s.ckptInst then 0x13 else 0
    (code ≠ 0 → exec (.checkpointRequest q) s = .next (u.complete c code)) ∧
    (code = 0 → exec (.checkpointRequest q) s = .next (u.setCkpt { s.ckpt with requests := s.ckpt.requests ++ [c] }))) ∧
  (∀ s : State, s.ckpt.src = none → (s.gate s.ckptInst).st ≠ .checked → exec .ckptSourceBlockRead s = .next s) ∧
  (∀ (s : State) (c : CkptSrc), s.ckpt.src = some c → c.ended = false → c.next + 1 < c.blocks → s.areaBad c.regions c.next = none →
    s.bad = [] → (s.gate s.ckptInst).st ≠ .checked →
    let at_ := (s.reg R.ckptBase).toNat + 65536 * c.next
    Gives .ckptSourceBlockRead s fun t => t.rbs at_ 65536 = s.areaBlock c.regions c.next ∧ MemKeptBut s t at_ 65536 ∧
      ∃ d, t.ckpt.src = some d ∧ d.next = c.next + 1 ∧ d.digests = c.digests ++ [crc64 0 (s.areaBlock c.regions c.next)] ∧ d.ended = false) ∧
  (∀ (s : State) (m : Message) (i : Nat), s.inbox = [m] → m.typ = 10 → s.jobInst m.job = some i → m.gen = s.gen i → s.bad = [] →
    let b := bodyOf m
    let n := s.incomingSlot
    let a := s.slotAt n
    (opOf m = 1 → s.drains n = true → exec .ckptBegin s = .next s) ∧
    (opOf m = 1 → s.drains n = false → Gives .ckptBegin s fun t => (s.slotLen ≠ 0 → t.rbs a 64 = zeros 64 ∧ t.reg (R.ckptSlotC n) = 0) ∧
      (s.ckpt.inc.isSome = true → t.bit R.ckptStat 2 = true)) ∧
    (opOf m = 1 → s.drains n = false → ∀ h, headOf (fun o k => fieldAt b o k) = some h →
      (s.slotLen < 64 + h.dataOff + 65536 * h.blocks → Gives .ckptBegin s fun t => t.bit R.ckptStat 3 = true ∧ MemKeptBut s t a 64 ∧
        t.ckpt.inc = none) ∧
      (64 + h.dataOff + 65536 * h.blocks ≤ s.slotLen → Gives .ckptBegin s fun t => t.rbs a 64 = zeros 64 ∧ t.rbs (a + 64) b.length = b ∧
        MemKeptBut s t a (64 + b.length) ∧ t.reg (R.ckptSlotC n) = 0 ∧ t.ckpt.inc = some
          { seq := seqOf m, slot := n, full := h.full, blocks := h.blocks, dataOff := h.dataOff, digestOff := digestOff h.regions.length, last := s.beat })) ∧
    (∀ c, s.ckpt.inc = some c → c.seq = seqOf m → let a := s.slotAt c.slot
      (∀ x z, opOf m = 2 → ((blockRecs b.length b).filter fun r => decide (r.1 < c.blocks)) = [(x, z)] →
        let w := xorBytes (decodeRun z.length z) (s.baseBlock c x)
        Gives .ckptBlock s fun t => t.rbs (a + 64 + c.dataOff + 65536 * x) w.length = w ∧ MemKeptBut s t (a + 64 + c.dataOff + 65536 * x) w.length ∧
          t.ckpt.inc = some { c with got := c.got ++ [x], last := s.beat }) ∧
      (opOf m = 3 → let k := fieldAt b 0 4
        let d := (b.drop 4).take (8 * (c.blocks - k))
        Gives .ckptDigests s fun t => t.rbs (a + 64 + c.digestOff + 8 * k) d.length = d ∧ MemKeptBut s t (a + 64 + c.digestOff + 8 * k) d.length ∧
          t.ckpt.inc = some { c with last := s.beat }) ∧
      (opOf m = 4 → (∀ b < c.blocks, b ∈ c.got) →
        let good := (∀ b < c.blocks, (crc64 0 (s.rbs (a + 64 + c.dataOff + 65536 * b) 65536)).toNat = s.rd (a + 64 + c.digestOff + 8 * b) 8) ∧
          (crc64 0 (s.rbs (a + 64 + c.digestOff) (8 * c.blocks))).toNat = s.rd (a + 64 + 0x30) 8
        (good → Gives .ckptEnd s fun t => t.ckpt.inc = none ∧ t.rd a 4 = 0x4D434657 ∧ t.rd (a + 4) 4 = c.seq % 2 ^ 32 ∧ MemKeptBut s t a 64) ∧
        (¬good → Gives .ckptEnd s fun t => t.ckpt.inc = none ∧ t.mem = s.mem))) ∧
    (∀ c, s.ckpt.src = some c → seqOf m = c.seq →
      (opOf m = 5 → c.ended = true → Gives .ckptAck s fun t => t.ckpt.src = none ∧ t.ckpt.prevBlocks = c.blocks ∧ t.reg R.ckptLastC = c.c) ∧
      (opOf m = 6 → m.src = s.buddyCoord → exec .ckptAbort s = .next ((s.consume m).ckptFail c.cmds c.c
        (if fieldAt b 0 1 = 1 then 0x52 else if fieldAt b 0 1 = 2 then 0x11 else 0x50))))) ∧
  (∀ (s : State) (l : List Cmd) (n : W64) (code : Nat), (s.ckptFail l n code).ckpt.src = none ∧
    (s.ckptFail l n code).bit R.ckptStat 0 = true ∧ (s.ckptFail l n code).bit R.ckptStat 4 = true) ∧
  (∀ (s : State), (s.ckpt.inc = none → exec .ckptCopyTimeout s = .next s) ∧
    ∀ c, s.ckpt.inc = some c → ((s.beat - c.last).toNat < (s.reg R.copyTimeout).toNat → exec .ckptCopyTimeout s = .next s) ∧
      ((s.reg R.copyTimeout).toNat ≤ (s.beat - c.last).toNat → Gives .ckptCopyTimeout s fun t => t.ckpt.inc = none ∧ t.bit R.ckptStat 2 = true ∧ t.mem = s.mem))

/-- A slot is drained to host memory; an image is asked for, collected, checked and takes effect. Rests on R327, R330,
R331, R332. -/
def Obligations.DrainsAndRestores : Prop :=
  (∀ (s : State) (q : Nat) (c : Cmd), let u := s.startCmd c
    s.nextOf q 6 (fun c => decide (c.kind = 1)) = some c →
    (s.ckpt.drain.isSome = true → exec (.checkpointDrain q) s = .next s) ∧
    (s.ckpt.drain = none → (s.ckptIllegal = true ∨ s.newerSlot = none) → exec (.checkpointDrain q) s = .next (u.complete c 0x10)) ∧
    (∀ n, s.ckpt.drain = none → s.ckptIllegal = false → s.newerSlot = some n →
      (c.fld 0x20 8 < s.slotImageLen n → exec (.checkpointDrain q) s = .next (u.complete c 0x11)) ∧
      (s.slotImageLen n ≤ c.fld 0x20 8 → c.inst ≠ s.ckptInst → exec (.checkpointDrain q) s = .next (u.complete c 0x13)) ∧
      (s.slotImageLen n ≤ c.fld 0x20 8 → c.inst = s.ckptInst → Gives (.checkpointDrain q) s fun t => t.ckpt.drain = some (c, n) ∧
        t.bit R.ckptStat 6 = true ∧ t.mem = s.mem))) ∧
  (∀ (s : State), (s.ckpt.drain = none → exec .checkpointDrainComplete s = .next s) ∧
    ∀ c n, s.ckpt.drain = some (c, n) → s.bad = [] →
      let len := 64 + s.slotImageLen n
      let a := hostBase + c.fld 0x18 8
      Gives .checkpointDrainComplete s fun t => t.rbs a len = s.rbs (s.slotAt n) len ∧ MemKeptBut s t a len ∧ t.ckpt.drain = none ∧ t.bit R.ckptStat 6 = false) ∧
  (∀ (s : State) (q : Nat) (c : Cmd), let u := s.startCmd c
    s.nextOf q 7 (fun c => decide (c.kind ≠ 1)) = some c →
    (s.ckpt.restore.isSome = true → exec (.restoreBuddy q) s = .next s) ∧
    (s.ckpt.restore = none →
      (s.restoreIllegal c.inst = true → exec (.restoreBuddy q) s = .next (u.complete c 0x10)) ∧
      (s.restoreIllegal c.inst = false → (c.kind ≠ 0 ∨ nbit (c.fld 0x11 1) 0 = true) → exec (.restoreBuddy q) s = .next (u.complete c 0x11)) ∧
      (s.restoreIllegal c.inst = false → c.kind = 0 → nbit (c.fld 0x11 1) 0 = false →
        (c.inst ≠ s.ckptInst → exec (.restoreBuddy q) s = .next (u.complete c 0x13)) ∧
        (c.inst = s.ckptInst → (3 < s.ckptAxis ∨ s.routeFailed s.buddyCoord = true) → exec (.restoreBuddy q) s =
          .next ((u.setCkpt { s.ckpt with restore := some { cmd := c, host := false, reshape := false } }).restoreLost 0x50)) ∧
        (c.inst = s.ckptInst → s.ckptAxis ≤ 3 → s.routeFailed s.buddyCoord = false →
          Gives (.restoreBuddy q) s fun t => t.ckpt.restore = some { cmd := c, host := false, reshape := false } ∧ t.mem = s.mem ∧ t.regs = s.regs)))) ∧
  (∀ (s : State) (q : Nat) (c : Cmd), let u := s.startCmd c
    s.nextOf q 7 (fun c => decide (c.kind = 1)) = some c →
    (s.ckpt.restore.isSome = true → exec (.restoreHost q) s = .next s) ∧
    (s.ckpt.restore = none → s.restoreIllegal c.inst = true → exec (.restoreHost q) s = .next (u.complete c 0x10)) ∧
    (s.ckpt.restore = none → s.restoreIllegal c.inst = false →
    let a := hostBase + c.fld 0x18 8
    (headOf (fun o k => s.rd (a + o) k) = none → exec (.restoreHost q) s = .next (u.complete c 0x11)) ∧
    ∀ h, headOf (fun o k => s.rd (a + o) k) = some h → let n := h.dataOff + 65536 * h.blocks
      let fits := n ≤ c.fld 0x20 8 ∧ (c.fld 0x28 8 = 0 ∨ c.fld 0x28 8 = h.c.toNat) ∧ s.imageFits c.inst h = true
      (¬fits → exec (.restoreHost q) s = .next (u.complete c 0x11)) ∧
      (fits → c.inst ≠ s.ckptInst → exec (.restoreHost q) s = .next (u.complete c 0x13)) ∧
      (fits → c.inst = s.ckptInst → Gives (.restoreHost q) s fun t => t.mem = s.mem ∧ t.regs = s.regs ∧
        ∃ r, t.ckpt.restore = some r ∧ r.cmd = c ∧ r.host = true ∧ r.len = n ∧ r.got = n ∧ r.bytesAt 0 n = s.rbs a n))) ∧
  (∀ (s : State) (m : Message), s.inbox = [m] → m.typ = 10 →
    (opOf m = 7 → s.bad = [] → Gives .restoreReq s fun t => t.mem = s.mem ∧ t.ckpt = s.ckpt ∧ t.cores = s.cores) ∧
    (opOf m = 7 → fieldAt (bodyOf m) 0 8 = 0 → s.newerSlot = none → exec .restoreReq s = .next ((s.consume m).send
      { m with dst := m.src, came := none, dclass := 0, payload := leBytes 1 6 ++ zeros 3 ++ leBytes 4 (seqOf m) ++ [1] })) ∧
    (opOf m = 8 → s.ckpt.restore = none → exec .restoreData s = .next (s.consume m)) ∧
    (∀ r, opOf m = 8 → s.ckpt.restore = some r → r.host = false → let off := fieldAt (bodyOf m) 0 8
      let d := (bodyOf m).drop 8
      let z : Restore := { r with image := sputs (fun _ => 0) r.image off d, got := max r.got (off + d.length) }
      (((headOf z.rd).isSome = true ∨ z.got < 64 ∨ z.got < digestOff (z.rd 0x38 4)) →
        Gives .restoreData s fun t => ∃ y, t.ckpt.restore = some y ∧ y.cmd = r.cmd ∧ y.got = z.got ∧ y.bytesAt off d.length = d) ∧
      (headOf z.rd = none → 64 ≤ z.got → digestOff (z.rd 0x38 4) ≤ z.got →
        exec .restoreData s = .next (((s.consume m).setCkpt { s.ckpt with restore := none }).complete r.cmd 0x11)))) ∧
  (∀ (s : State), (s.ckpt.restore = none → exec .restoreComplete s = .next s) ∧
    ∀ r, s.ckpt.restore = some r →
      (r.len = 0 ∨ r.got < r.len → exec .restoreComplete s = .next s) ∧
      (r.len ≠ 0 → r.len ≤ r.got →
        (headOf r.rd = none → exec .restoreComplete s = .next (s.restoreLost 0x11)) ∧
        (∀ h, headOf r.rd = some h → s.imageFits r.cmd.inst h = false →
          exec .restoreComplete s = .next ((s.setCkpt { s.ckpt with restore := none }).complete r.cmd 0x11)) ∧
        ∀ h, headOf r.rd = some h → r.host = false → s.bad = [] → s.imageFits r.cmd.inst h = true → (∀ b < h.blocks, r.blockOk h b = true) →
          crc64 0 (r.bytesAt (digestOff h.regions.length) (8 * h.blocks)) = h.digest → exec .restoreComplete s = .next (s.restoreDone r h))) ∧
  (∀ (s : State) (r : Restore) (h : CkptHead), r.cmd.inst < 64 → (s.restoreDone r h).reg (R.updStep r.cmd.inst) = h.s ∧
    (s.restoreDone r h).reg (R.updCommits r.cmd.inst) = h.c ∧ (s.restoreDone r h).ckpt.restore = none)

/-- Debug needs a session; halts, steps, breakpoints and the access window act on the core named; command records reach
the ring. Rests on R341, R342, R343, R345, R346, R338, R339. -/
def Obligations.DebugSessionsAndAccess : Prop :=
  (∀ (s : State) (fn i cl core : Nat), let k := 256 * cl + core % 256
    (fnMay fn i = false → exec (.debugHalt fn i 0 cl core) s = .next s ∧ exec (.debugResume fn i 0 cl core) s = .next s ∧
      exec (.debugStep fn i cl core) s = .next s ∧ ∀ v, exec (.breakpointConfigWrite fn i v) s = .next s) ∧
    (fnMay fn i = true → s.session i = false → ∀ sc v, exec (.debugHalt fn i sc cl core) s = .next (s.denied i) ∧
      exec (.debugResume fn i sc cl core) s = .next (s.denied i) ∧ exec (.debugStep fn i cl core) s = .next (s.denied i) ∧
      exec (.breakpointConfigWrite fn i v) s = .next (s.denied i)) ∧
    ((s.denied i).bit (R.dbgStat i) 0 = true ∧ (s.denied i).cores = s.cores ∧ ∃ e, (s.denied i).err.raised = s.err.raised ++ [e] ∧ e.cls = 2) ∧
    (fnMay fn i = true → s.session i = true → s.dbgReach i cl = true →
      ((s.core k).st = .running ∨ (s.core k).st = .waiting → Gives (.debugHalt fn i 0 cl core) s fun t => (t.core k).st = .draining ∧
        (t.core k).after = .toHalted ∧ (t.core k).held = none ∧ (∀ j, j ≠ k → t.core j = s.core j) ∧ t.mem = s.mem) ∧
      ((s.core k).st = .halted →
        (s.core k).activeLoad = false →
        (Gives (.debugResume fn i 0 cl core) s fun t => (t.core k).st = .running ∧ (t.core k).suspended = false ∧ (t.core k).stepOne = false ∧
          (t.core k).pc = (s.core k).pc ∧ (∀ j, j ≠ k → t.core j = s.core j) ∧ t.mem = s.mem) ∧
        (Gives (.debugStep fn i cl core) s fun t => (t.core k).st = .running ∧ (t.core k).stepOne = true ∧
          (t.core k).pc = (s.core k).pc ∧ (∀ j, j ≠ k → t.core j = s.core j) ∧ t.mem = s.mem)) ∧
      ((s.core k).st = .halted → (s.core k).activeLoad = true → ∀ one : Bool,
        exec (if one then .debugStep fn i cl core else .debugResume fn i 0 cl core) s =
          .next (s.setCore k { s.core k with resumeDue := true, stepOne := one })) ∧
      ((s.core k).st ≠ .halted → exec (.debugResume fn i 0 cl core) s = .next s ∧ exec (.debugStep fn i cl core) s = .next s))) ∧
  (∀ (s : State) (k n clsop lo hi : Nat), let c := s.core k
    let x := c.cmp n
    (c.st ≠ .running ∨ 3 < n ∨ x.on = false ∨ x.matches c.pc clsop lo hi s.beat = false → exec (.breakpointHit k n clsop lo hi) s = .next s) ∧
    (c.st = .running → n ≤ 3 → x.on = true → x.matches c.pc clsop lo hi s.beat = true →
      (x.seen + 1 ≠ x.count → exec (.breakpointHit k n clsop lo hi) s = .next (s.setCore k (c.setCmp n { x with seen := x.seen + 1 }))) ∧
      (x.seen + 1 = x.count → x.scope = 0 → c.ganged = false → Gives (.breakpointHit k n clsop lo hi) s fun t => (t.core k).st = .draining ∧
        (t.core k).after = .toHalted ∧ (t.core k).pc = c.pc ∧ (∀ j, j ≠ k → t.core j = s.core j) ∧ t.mem = s.mem ∧
        (s.halting (s.instOf k) = false → t.reg (R.hitUid (s.instOf k)) = (coreUid k 0 0).zeroExtend 64 ∧ t.reg (R.hitBeat (s.instOf k)) = s.beat)))) ∧
  (∀ (s : State) (fn i : Nat) (v : W32), fnMay fn i = true → s.session i = true → let b := s.bpAt i
    let module := i = 0 ∧ s.modSession = true
    (s.dbgReach i (clOf b.1) = false → exec (.breakpointConfigWrite fn i v) s = .next s) ∧
    (s.dbgReach i (clOf b.1) = true → nfield v.toNat 3 2 = 3 → ¬module → exec (.breakpointConfigWrite fn i v) s = .next (s.denied i)) ∧
    (s.dbgReach i (clOf b.1) = true → (nfield v.toNat 3 2 ≠ 3 ∨ module) → exec (.breakpointConfigWrite fn i v) s =
      .next (s.setCore b.1 ((s.core b.1).setCmp b.2
        { (s.core b.1).cmp b.2 with cfg := BitVec.ofNat 32 (v.toNat % 2 ^ 21), seen := 0 })))) ∧
  (∀ (s : State) (fn i k off : Nat) (v : W64), fnMay fn i = true → s.session i = true → s.accTarget i = .core k off → off < 0xC000 → s.bad = [] →
    (Gives (.debugAccessRead fn i) s fun t => t.readData = BitVec.ofNat 64 (s.rd (spBase k + off) 8) ∧ t.mem = s.mem ∧ t.cores = s.cores ∧ t.regs = s.regs) ∧
    ((s.core k).stopped = true → Gives (.debugAccessWrite fn i v) s fun t => t.rbs (spBase k + off) 8 = leBytes 8 v.toNat ∧
      MemKeptBut s t (spBase k + off) 8 ∧ t.cores = s.cores) ∧
    ((s.core k).stopped = false → Gives (.debugAccessWrite fn i v) s fun t => t.bit (R.dbgStat i) 1 = true ∧ t.mem = s.mem)) ∧
  (∀ (s : State) (i : Nat) (e : W64) (c : BitVec 128) (g : List Byte) (m : Bool),
    (c ≠ s.nonce (if m then 0 else i) → exec (.debugUnlock i m e c g) s = .next s) ∧
    (c = s.nonce i → Gives (.debugUnlock i false e c g) s fun t => if Config.debugSignatureOk c g = true then t.bit (R.authStat i) 0 = true ∧
      t.reg (R.authExp i) = e ∧ sget (fun _ => 0) t.nonces i = sget (fun _ => 0) s.nonces i + 1 else t = s) ∧
    (c = s.nonce 0 → Gives (.debugUnlock i true e c g) s fun t => if Config.debugSignatureOk c g = true then t.moduleSession = some e else t = s)) ∧
  (∀ (s : State) (fn i : Nat),
    (fnMay fn i = false → exec (.debugLock fn i) s = .next s) ∧
    (fnMay fn i = true → Gives (.debugLock fn i) s fun t => t.bit (R.authStat i) 0 = false ∧ t.reg (R.authExp i) = 0 ∧ (i = 0 → t.moduleSession = none)) ∧
    (s.bit (R.authStat i) 0 = true → s.reg (R.authExp i) ≤ s.beat → Gives (.debugSessionExpire i) s fun t => t.bit (R.authStat i) 0 = false) ∧
    (s.beat < s.reg (R.authExp i) → s.moduleSession = none → exec (.debugSessionExpire i) s = .next s)) ∧
  (∀ (s : State) (i : Nat), let due := s.launches.find? fun l => decide (l.inst = i) && s.recordDue l
    let n := s.fld (R.cmdSize i) 0 16
    let a := (s.reg (R.cmdRing i)).toNat / 256 * 256 + 256 * s.fld (R.cmdPtr i) 16 16
    (due = none → exec (.commandRecordWrite i) s = .next s) ∧
    (∀ l, due = some l → let u : State := { s with launches := s.launches.filter fun m => decide (m.id ≠ l.id) }
      (s.bit (R.cntCfg i) 0 = false → exec (.commandRecordWrite i) s = .next u) ∧
      (s.bit (R.cntCfg i) 0 = true → s.bit (R.telem i) 31 = false → s.bad = [] →
        (n ≤ (s.inst i).cmdUsed → Gives (.commandRecordWrite i) s fun t => t.bit (R.cntStat i) 0 = true ∧ t.mem = s.mem ∧ t.launches = u.launches) ∧
        ((s.inst i).cmdUsed < n → a + 256 ≤ hbmTop → Gives (.commandRecordWrite i) s fun t => (u.cmdRecord l).length = 256 ∧
          t.rbs a 256 = u.cmdRecord l ∧ MemKeptBut s t a 256 ∧ (t.inst i).cmdUsed = (s.inst i).cmdUsed + 1 ∧ t.launches = u.launches))) ∧
    (∀ m : Message, s.inbox = [m] → m.typ = 12 → s.jobInst m.job = some i → m.gen = s.gen i → s.bad = [] → let d := (m.payload.drop 8).take 256
      (fieldAt m.payload 0 1 ≠ 1 → exec .telemetry s = .next (s.consume m)) ∧
      (fieldAt m.payload 0 1 = 1 → n ≤ (s.inst i).cmdUsed → Gives .telemetry s fun t => t.bit (R.cntStat i) 0 = true ∧ t.mem = s.mem) ∧
      (fieldAt m.payload 0 1 = 1 → (s.inst i).cmdUsed < n → a + d.length ≤ hbmTop → Gives .telemetry s fun t => t.rbs a d.length = d ∧
        MemKeptBut s t a d.length ∧ (t.inst i).cmdUsed = (s.inst i).cmdUsed + 1)))

/-- The island meters, emits signed records, disciplines its clock, logs what a seal break changes, and fills its
mirror. Rests on R348, R351, R353, R354, R355, R357, R358, R359, R362, R363. -/
def Obligations.IslandClockAndRecords : Prop :=
  (∀ (s : State) (m : Meter) (mv w : Nat), let x := s.island.pass m
    (s.power.standby = false → exec (.intervalRecord m mv w) s = .next s ∧ exec (.sealBreak m) s = .next s ∧ exec .sealBreakEnd s = .next s ∧
      exec .reverseCurrent s = .next s ∧ (∀ a b c, exec (.mirrorRefresh m a b c) s = .next s) ∧
      (∀ a b c d e, exec (.timeDisciplineMessage m a b c d e) s = .next s) ∧ (∀ a b c, exec (.readRequest a b c) s = .next s) ∧
      (∀ a b c, exec (.serviceChange m a b c) s = .next s) ∧
      Gives .calendarLost s fun t => t.island.vbatLost = true ∧ t.island.stepped = false ∧ t.island.stampSt = .unset ∧ t.regs = s.regs) ∧
    (Gives .vbatLow s fun t => t.island = { s.island with vbatLow := true } ∧ t.regs = s.regs) ∧
    (s.power.standby = true → exec .calendarLost s = .next s ∧
      (Gives .reverseCurrent s fun t => t.island = { s.island with reverse := true, reverseSeen := true } ∧ t.regs = s.regs) ∧
      (x.tai / x.intervalNs ≤ x.boundary → exec (.intervalRecord m mv w) s = .next s) ∧
      (x.boundary < x.tai / x.intervalNs → Gives (.intervalRecord m mv w) s fun t => t.island.savedEnergy = x.energy ∧ t.island.intervalStart = x.energy ∧
        t.island.boundary = x.tai / x.intervalNs ∧ t.mem = s.mem ∧ t.regs = s.regs ∧ ∃ r, t.island.records.getLast? = some r ∧ r.kind = 1 ∧
          r.seq = s.island.seq + 1 ∧ r.energy = x.energy ∧ r.data = leBytes 8 (x.energy - x.intervalStart).toNat ++ leBytes 4 mv ++ leBytes 4 w))) ∧
  (∀ (s : State) (m : Meter) (ptp utc : Int) (sync : Bool) (b : W64), s.power.standby = true → let x := s.island.pass m
    let off := ptp - x.tai
    (Gives (.timeDisciplineMessage m false ptp sync utc b) s fun t => t.island.rejects = satInc 32 s.island.rejects 1 ∧ t.island.records = s.island.records ∧
      t.island.tai = x.tai) ∧
    (Gives (.timeDisciplineMessage m true ptp false utc b) s fun t => t.island.tickBeat = b ∧ t.island.utc = utc ∧ t.island.tai = x.tai ∧
      ∃ r, t.island.records.getLast? = some r ∧ r.kind = 2 ∧ r.seq = s.island.seq + 1 ∧ r.data = leBytes 8 b.toNat ++ zeros 8) ∧
    (s.island.stepped = false → Gives (.timeDisciplineMessage m true ptp true utc b) s fun t => t.island.tai = ptp ∧ t.island.stepped = true ∧
      t.island.unc = (off.natAbs + 999) / 1000 + 20 ∧ t.island.trim = 0) ∧
    (let mean := ((s.island.offsets ++ [off]).foldl (· + ·) 0).tdiv 16
     s.island.stepped = true → s.island.offsets.length = 15 → mean.natAbs ≤ s.island.stepNs →
      Gives (.timeDisciplineMessage m true ptp true utc b) s fun t => t.island.tai = x.tai ∧
        t.island.trim = max (-200000) (min 200000 (mean.tdiv 16)) ∧ t.island.offsets = [])) ∧
  (∀ (s : State) (m : Meter) (p v k n : Nat), s.power.standby = true →
    (Gives (.readRequest true k n) s fun t => t.island.served = s.island.records.filter (fun r => decide (r.kind = k ∧ n ≤ r.seq)) ∧ t.regs = s.regs) ∧
    (Gives (.readRequest false k n) s fun t => t.island = { s.island with rejects := satInc 32 s.island.rejects 1 }) ∧
    (s.island.sealOpen = true → exec (.sealBreak m) s = .next s) ∧
    (s.island.sealOpen = false → Gives (.sealBreak m) s fun t => t.island.sealOpen = true ∧ t.island.sealCount = satInc 32 s.island.sealCount 1 ∧
      t.island.changes = [] ∧ (s.island.log.length < 1024 → ∃ e, t.island.log = s.island.log ++ [e] ∧ e.kind = 3)) ∧
    (s.island.sealOpen = false ∨ 1024 ≤ s.island.log.length ∨ paramOk p v = false → exec (.serviceChange m false p v) s = .next s) ∧
    (s.island.sealOpen = true → s.island.log.length < 1024 → paramOk p v = true → Gives (.serviceChange m false p v) s fun t =>
      t.island.changes = s.island.changes ++ [(p, v)] ∧ t.island.param p = s.island.param p ∧
      ∃ e, t.island.log = s.island.log ++ [e] ∧ e.kind = 2 ∧ e.param = p ∧ e.old = (s.island.param p : Int) ∧ e.new = (v : Int)) ∧
    (let room := s.island.calRow + (s.island.changes.filter fun e => e.1 = 0).length + 1 < 16
     (s.island.sealOpen = true → s.island.log.length < 1024 → room → Gives (.serviceChange m true p v) s fun t =>
      t.island.changes = s.island.changes ++ [(0, v)] ∧ t.island.calValue = s.island.calValue ∧
      ∃ e, t.island.log = s.island.log ++ [e] ∧ e.kind = 1 ∧ e.old = (s.island.calValue : Int) ∧ e.new = (v : Int)) ∧
     (s.island.sealOpen = false ∨ 1024 ≤ s.island.log.length ∨ ¬room → exec (.serviceChange m true p v) s = .next s)) ∧
    (s.island.sealOpen = false → exec .sealBreakEnd s = .next s) ∧
    (s.island.sealOpen = true → Gives .sealBreakEnd s fun t => t.island.sealOpen = false ∧ t.island.changes = [] ∧
      (∀ v, s.island.changes = [(1, v)] → t.island.interval = v) ∧ (∀ v, s.island.changes = [(2, v)] → t.island.limitUs = v) ∧
      (∀ v, s.island.changes = [(3, v)] → t.island.stepNs = v) ∧
      (∀ v, s.island.changes = [(0, v)] → t.island.calValue = v ∧ t.island.calRow = s.island.calRow + 1))) ∧
  (∀ (s : State) (m : Meter) (mv ma mw : Nat), s.power.standby = true → let x := s.island.pass m
    Gives (.mirrorRefresh m mv ma mw) s fun t => t.bit R.mtrStat 0 = true ∧ t.reg R.mtrEnergy = x.energy ∧ t.reg R.mtrVolt = BitVec.ofNat 64 (mv % 2 ^ 32) ∧
      t.reg R.mtrPower = BitVec.ofNat 64 (mw % 2 ^ 32) ∧ t.reg R.mtrSeal = BitVec.ofNat 64 (x.sealCount % 2 ^ 32) ∧ t.island.mirrorAt = s.beat ∧ t.mem = s.mem)

/-- Start-up goes step by step from the standby rail to ready; a step that fails or takes too long leaves its code.
Rests on R350, R362, R365, R369, R370, R371, R376, R377, R27. -/
def Obligations.StartupAndSupplies : Prop :=
  (∀ (s : State) (m : Meter),
    (s.power.standby = true → exec (.standbyPowerOn m) s = .next s) ∧
    (s.power.standby = false → exec .standbyPowerFall s = .next s ∧ Gives (.standbyPowerOn m) s fun t => t.power.standby = true ∧
      t.power.step = 1 ∧ t.power.stopped = false ∧ t.island.ready = false ∧ t.regs = s.regs ∧ t.mem = s.mem) ∧
    (s.power.standby = true → Gives .standbyPowerFall s fun t => t.power.standby = false ∧ t.power.step = 1 ∧ t.power.regulators = false ∧
      t.island.ready = false ∧ t.island.savedEnergy = s.island.energy) ∧
    (Gives .perstDeassert s fun t => t.regs = s.regs ∧
      (let strap := if s.power.step = 7 ∧ s.power.done = false then Config.bifurcationStrap else s.power.bifurcated
       t.power = { s.power with perst := false, bifurcated := strap })) ∧
    (let ramps := s.power.standby = true ∧ s.power.step = 3 ∧ s.island.ready = true ∧ s.power.tripped = false ∧ s.power.fwOnly = false ∧ s.power.stopped = false
     (ramps → Gives .regulatorRamp s fun t => t.power = { s.power with regulators := true } ∧ t.regs = s.regs) ∧
     (¬ramps → exec .regulatorRamp s = .next s))) ∧
  (∀ (s : State), let p := s.power
    (p.standby = false ∨ p.done = true ∨ p.stopped = true ∨ p.tripped = true →
      exec .startupStepComplete s = .next s ∧ exec .startupStepTimeout s = .next s) ∧
    (p.standby = true → p.done = false → p.stopped = false → p.tripped = false →
      (p.step = 1 → Gives .startupStepComplete s fun t => t.power.step = 2 ∧ t.island.ready = true) ∧
      (p.step = 2 → let good := if p.mcAlt then p.fwGood1 else p.fwGood0
        (good = true → Gives .startupStepComplete s fun t => t.power.step = 3) ∧
        (good = false → p.mcAlt = false → Gives .startupStepComplete s fun t => t.power.mcAlt = true ∧ t.power.step = 2 ∧ t.power.stopped = false) ∧
        (good = false → p.mcAlt = true → Gives .startupStepComplete s fun t =>
          t.power.failed = true ∧ t.power.code = 2 ∧ t.power.stopped = true ∧ t.power.fwOnly = true)) ∧
      (p.step = 3 →
        (p.regulators = true → (Gives .startupStepComplete s fun t => t.power.step = 4) ∧
          Gives .startupStepTimeout s fun t => t.power.regulators = false ∧ t.power.tripped = true ∧ t.power.failed = true ∧ t.power.code = 3) ∧
        (p.regulators = false → exec .startupStepComplete s = .next s ∧ exec .startupStepTimeout s = .next s)) ∧
      (p.step = 4 →
        (s.fuses.agree = true → Gives .startupStepComplete s fun t => t.power.step = 5 ∧ t.power.fusesLoaded = true ∧ t.reg R.dumapStat = 1 ∧
          ∀ d, d < 16 → t.reg (R.beatRate d) = BitVec.ofNat 64 (s.rateOf d)) ∧
        (s.fuses.agree = false → Gives .startupStepComplete s fun t => t.power.failed = true ∧ t.power.code = 0x0A ∧ t.power.stopped = true)) ∧
      (p.step = 5 → p.keptHbm = false → Gives .startupStepComplete s fun t => t.power.step = 6 ∧ t.power.hbmReady = true) ∧
      (p.step = 6 → Gives .startupStepComplete s fun t => t.power.step = 7 ∧ t.bit R.beatStat 0 = true ∧ t.beat = 0) ∧
      (p.step = 7 → (p.perst = true → exec .startupStepComplete s = .next s ∧ exec .startupStepTimeout s = .next s) ∧
        (p.perst = false → p.board = none → (Gives .startupStepComplete s fun t => t.power.step = 8 ∧ t.regs = s.regs) ∧
          Gives .startupStepTimeout s fun t => t.power.step = 8 ∧ t.power.failed = true ∧ t.power.code = 7 ∧ t.power.stopped = false)) ∧
      (p.step = 8 → (∀ n < 8, s.portSt n = 0 ∨ s.portSt n = 2) → (Gives .startupStepComplete s fun t => t.power.step = 9 ∧ t.regs = s.regs) ∧
        Gives .startupStepTimeout s fun t => t.power.step = 9 ∧ t.power.failed = true ∧ t.power.code = 8 ∧ t.power.stopped = false) ∧
      (p.step = 9 → Gives .startupStepComplete s fun t => t.power.done = true ∧ t.reg R.devFwVer = (s.fwVersion 0).zeroExtend 64) ∧
      (p.step = 1 ∨ p.step = 4 ∨ p.step = 5 ∨ p.step = 6 ∨ p.step = 9 → Gives .startupStepTimeout s fun t =>
        t.power.failed = true ∧ t.power.code = p.step ∧ t.power.stopped = true ∧ t.power.step = p.step ∧ t.regs = s.regs))) ∧
  (∀ (s : State) (g : Bool) (n : Nat) (v : W32), let p := s.power
    (g = false ∨ 2 < n ∨ p.standby = false → exec (.firmwareUpdate g n v) s = .next s) ∧
    (g = true → n ≤ 2 → p.standby = true → 3 ≤ p.step → Gives (.firmwareUpdate g n v) s fun t => t.fwVersion (if n = 2 then 0 else n + 1) = v ∧
      t.power.step = p.step ∧ t.regs = s.regs)) ∧
  (∀ (s : State) (cfg expect : List W32) (coord ext align : W32),
    (s.power.standby = true → s.power.fwOnly = false → Gives (.boardRecordWrite cfg expect coord ext align) s fun t =>
      t.power = { s.power with board := some (cfg, expect, coord, ext, align) } ∧ t.regs = s.regs) ∧
    (s.power.standby = false ∨ s.power.fwOnly = true → exec (.boardRecordWrite cfg expect coord ext align) s = .next s))

/-- Resets keep what R313 keeps; trips stop the regulators and restart; the power controller moves the set point. Rests
on R312, R313, R317, R364, R365, R366, R367, R368, R372. -/
def Obligations.ResetsAndPowerControl : Prop :=
  (∀ (s : State),
    (Gives .deviceReset s fun t => (∀ o, t.reg o = resetOf o) ∧ (∀ k, (t.core k).st = .idle) ∧ (∀ i, (t.inst i).st = .absent) ∧ t.beat = 0 ∧
      (∀ a, hostBase ≤ a → t.rb a = s.rb a) ∧ (∀ a, a < hostBase → t.rb a = 0) ∧ t.bad = s.bad ∧ t.power.warm = false) ∧
    (∀ fn keep, (fnPhysical fn = false ∨ s.power.regulators = false → exec (.warmReset fn keep) s = .next s) ∧
      (s.power.regulators = true → fnPhysical fn = true → Gives (.warmReset fn keep) s fun t => (∀ k, (t.core k).st = .idle) ∧ t.beat = 0 ∧
        t.power.step = 4 ∧ t.power.warm = true ∧ t.power.keptHbm = keep ∧ (∀ a, hostBase ≤ a → t.rb a = s.rb a) ∧
        (keep = false → (∀ o, t.reg o = resetOf o) ∧ (∀ i, (t.inst i).st = .absent) ∧ ∀ a, a < hostBase → t.rb a = 0) ∧
        (keep = true → (∀ a, a < 2 ^ 40 → t.rb a = s.rb a) ∧ (∀ a, 2 ^ 40 ≤ a → a < hostBase → t.rb a = 0) ∧
          ∀ i, i < 64 → (s.inst i).st ≠ .absent → (t.inst i).st = .configured ∧ t.reg (R.instSeed i) = s.reg (R.instSeed i) ∧
            (∀ n, n < 8 → t.reg (R.instGroups i n) = s.reg (R.instGroups i n))))) ∧
    (∀ keep,
      ((s.power.standby = false ∨ s.power.needsPldm = false) → exec (.mcWarmResetRequest keep) s = exec (.warmReset 0 keep) s) ∧
      (s.power.standby = true → s.power.needsPldm = true → Gives (.mcWarmResetRequest keep) s fun t => t.power.needsPldm = false ∧
        t.power.tripped = false ∧ t.power.step = 3 ∧ t.regs = s.regs ∧ t.mem = s.mem))) ∧
  (∀ (s : State) (y : Bool) (n : Nat),
    (s.power.standby = false → exec (.mainInputTrip y) s = .next s) ∧
    (s.power.standby = true → exec (.mainInputTrip y) s = .next (s.trip (if y then 2 else 1))) ∧
    ((s.trip n).power.regulators = false ∧ (s.trip n).power.tripLog = s.power.tripLog ++ [Config.tripCode n]) ∧
    (s.power.regulators = true → (∀ k, ((s.trip n).core k).st = .idle) ∧ (s.trip n).power.step = 3 ∧ (s.trip n).power.tripped = true ∧
      (∀ a, hostBase ≤ a → (s.trip n).rb a = s.rb a) ∧ (∀ a, a < hostBase → (s.trip n).rb a = 0)) ∧
    (Gives .meteringReadyLoss s fun t => t.island.ready = false ∧ t.power.regulators = false) ∧
    (s.power.standby = false ∨ s.power.tripped = false ∨ s.power.needsPldm = true → exec (.tripRestart n) s = .next s) ∧
    (s.power.standby = true → s.power.tripped = true → s.power.needsPldm = false → let l := s.power.restarts.filter fun t => decide (n < t + 3600)
      (3 ≤ l.length → Gives (.tripRestart n) s fun t => t.power = { s.power with needsPldm := true }) ∧
      (l.length < 3 → Gives (.tripRestart n) s fun t => t.power.tripped = false ∧ t.power.step = 3 ∧ t.power.restarts = l ++ [n])) ∧
    (s.power.standby = true → 3 ≤ s.power.step → Gives .powerCycle s fun t => t.power.step = 3 ∧ t.power.regulators = false ∧
      t.power.tripped = false ∧ t.power.needsPldm = false) ∧
    exec .hostWatchdogExpire s = exec .powerCycle s) ∧
  (∀ (s : State) (w v tj : Nat), let p := s.power
    let lim := s.fld R.devPwrCfg 0 16
    (p.regulators = false → exec (.powerSample w v) s = .next s ∧ exec (.junctionOverTemp tj) s = .next s ∧ exec (.thermalShutdown tj) s = .next s) ∧
    (p.regulators = true →
      (14000 < w → 99 ≤ p.tripTicks → exec (.powerSample w v) s =
        .next ((s.setReg R.devPwrIn (BitVec.ofNat 64 (w % 65536 + v % 65536 * 65536))).trip 4)) ∧
      ((w ≤ 14000 ∨ p.tripTicks < 99) → lim < w → s.vset ≠ 0 → Gives (.powerSample w v) s fun t => t.vset = s.vset - 1 ∧ t.bit R.devPwrStat 2 = true ∧
        t.reg R.devPwrIn = BitVec.ofNat 64 (w % 65536 + v % 65536 * 65536)) ∧
      ((w ≤ 14000 ∨ p.tripTicks < 99) → lim < w → s.vset = 0 → p.overTicks = 99 → Gives (.powerSample w v) s fun t => t.vset = 0 ∧
        t.bit R.devPwrStat 3 = true ∧ ∃ e, t.err.raised = s.err.raised ++ [e] ∧ e.cls = 1) ∧
      ((w ≤ 14000 ∨ p.tripTicks < 99) → w ≤ lim → 10 * w < 9 * lim → 99 ≤ p.underTicks → s.vset < s.fld R.devPwrCfg 16 2 → p.thermalHold = false →
        Gives (.powerSample w v) s fun t => t.vset = s.vset + 1) ∧
      (95 < tj → p.thermalHold = false → Gives (.junctionOverTemp tj) s fun t => t.vset = 0 ∧ t.bit R.devPwrStat 4 = true ∧ t.power.thermalHold = true ∧
        ∃ e, t.err.raised = s.err.raised ++ [e] ∧ e.cls = 1) ∧
      (tj ≤ 95 → Gives (.junctionOverTemp tj) s fun t => t.vset = s.vset ∧ t.power.thermalHold = false ∧ t.fld R.devPwrStat 16 8 = tj) ∧
      (105 ≤ tj → exec (.thermalShutdown tj) s = .next (s.trip 5)) ∧ (tj < 105 → exec (.thermalShutdown tj) s = .next s)))

/-- After reset every unit is at its start value and memory is in canonical form; what unwritten memory reads as is log
3. Rests on R54, R56, R186, R209, R252, R279, R381, R387. -/
def Obligations.ResetLeaves : Prop :=
  State.reset.pending = [] ∧ State.reset.beat = 0 ∧ Memory.wf State.reset.mem = true ∧
  (∀ a, State.reset.rb a = 0) ∧ (∀ o, State.reset.reg o = resetOf o) ∧ (∀ n, State.reset.flag n = false) ∧
  (∀ cl n, State.reset.cnt cl n = 0) ∧ (∀ k, (State.reset.core k).st = .idle) ∧ (∀ k n, (State.reset.core k).mr n = 0xFFFF) ∧
  (∀ k n, (State.reset.core k).gr n = 0) ∧ (∀ i, (State.reset.inst i).st = .absent) ∧ State.reset.power.standby = false ∧
  (∀ i, i < 64 → State.reset.reg (R.residMax i) = 0x3B800000 ∧ State.reset.reg (R.gateTimeout i) = 0x00400000 ∧
    State.reset.reg (R.chunkTimeout i) = 0x00100000 ∧ State.reset.reg (R.resetTimeout i) = 0x02000000) ∧
  State.reset.fld R.devPwrCfg 0 16 = 0x32C8 ∧ (∀ fn, State.reset.bar4Log2 fn = 39)

/-- Every well-formed core instruction has a 64-bit word that decodes to it, and a word decodes to nothing else. Rests
on R75, R76, R77, R78, R79. -/
def Obligations.InstructionWordsRoundTrip : Prop :=
  (∀ (i : Instr) (k : Nat), coreOf i = some k → i.wf = true → ∃ w, encode i = some w ∧ w < 2 ^ 64 ∧ decodeWord k w = some i) ∧
  (∀ (i : Instr) (k w : Nat), decodeWord k w = some i → encode i = some w ∧ i.wf = true ∧ coreOf i = some k)

/-- Every step keeps the canonical form of memory. Rests on R5, R303. -/
def Obligations.MemoryStaysCanonical : Prop :=
  ∀ (s t : State), Memory.wf s.mem = true → step s = .next t → Memory.wf t.mem = true
end

