-- ==== Sys2Proof/Laws/Sparse.lean ====
section
/-! SUPPORT. Reading after writing in a sparse table, and that writing keeps the canonical form. -/

namespace Sys2Proof.Machine

variable {α : Type} (d : Nat → α)

/-- A table without entries for a key reads its default there. -/
theorem sget_sdel_same (m : Sparse α) (a : Nat) : sget d (sdel m a) a = d a := by
  induction m with
  | nil => rfl
  | cons e r ih =>
    obtain ⟨k, w⟩ := e
    by_cases h : k = a
    · subst h; simpa [sdel] using ih
    · have h' : ¬ a = k := fun x => h x.symm
      simp only [sdel, List.filter_cons, h, ne_eq, not_false_eq_true, decide_true, if_true, sget, h', if_false]
      exact ih

/-- Removing a key leaves every other key as it was. -/
theorem sget_sdel_ne (m : Sparse α) {a b : Nat} (h : b ≠ a) : sget d (sdel m a) b = sget d m b := by
  induction m with
  | nil => rfl
  | cons e r ih =>
    obtain ⟨k, w⟩ := e
    by_cases hk : k = a
    · subst hk
      simp only [sget, h, if_false]
      simpa [sdel] using ih
    · simp only [sdel, List.filter_cons, hk, ne_eq, not_false_eq_true, decide_true, if_true, sget]
      split
      · rfl
      · exact ih

variable [DecidableEq α]

/-- A write is read back, in every table. -/
@[simp] theorem sget_sput_same (m : Sparse α) (a : Nat) (v : α) : sget d (sput d m a v) a = v := by
  induction m with
  | nil => by_cases h : v = d a <;> simp [sput, sget, h]
  | cons e r ih =>
    obtain ⟨k, w⟩ := e
    unfold sput
    split
    · split
      · rename_i h; rw [sget_sdel_same, h]
      · simp [sget]
    · split
      · split
        · rename_i h; rw [sget_sdel_same, h]
        · simp [sget]
      · rename_i _ h; simp [sget, h, ih]

/-- A write leaves every other key as it was, in every table. -/
theorem sget_sput_ne (m : Sparse α) {a b : Nat} (v : α) (h : b ≠ a) :
    sget d (sput d m a v) b = sget d m b := by
  induction m with
  | nil => by_cases hv : v = d a <;> simp [sput, sget, hv, h]
  | cons e r ih =>
    obtain ⟨k, w⟩ := e
    unfold sput
    split
    · split
      · rw [sget_sdel_ne d _ h]
      · simp [sget, h]
    · split
      · rename_i hk
        split
        · rw [sget_sdel_ne d _ h]; subst hk; simp [sget, h]
        · subst hk; simp [sget, h]
      · simp [sget, ih]

/-- A read after a write, at any key. -/
theorem sget_sput (m : Sparse α) (a b : Nat) (v : α) :
    sget d (sput d m a v) b = if b = a then v else sget d m b := by
  split
  · rename_i h; subst h; simp
  · rename_i h; exact sget_sput_ne d m v h

/-- Removing a key keeps the canonical form. -/
theorem swf_sdel (m : Sparse α) (a : Nat) (h : swf d m = true) : swf d (sdel m a) = true := by
  induction m with
  | nil => rfl
  | cons e r ih =>
    obtain ⟨k, w⟩ := e
    simp only [swf, Bool.and_eq_true, List.all_eq_true, decide_eq_true_eq] at h
    obtain ⟨⟨h1, h2⟩, h3⟩ := h
    by_cases hk : k = a
    · simpa [sdel, hk] using ih h3
    · have : sdel ((k, w) :: r) a = (k, w) :: sdel r a := by simp [sdel, hk]
      rw [this]
      simp only [swf, Bool.and_eq_true, List.all_eq_true, decide_eq_true_eq]
      exact ⟨⟨h1, fun x hx => h2 x (List.mem_of_mem_filter hx)⟩, ih h3⟩

/-- The keys of a table after a write are among the old keys and the one written. -/
theorem mem_sput_key (m : Sparse α) (a : Nat) (v : α) (x : Nat × α) (hx : x ∈ sput d m a v) :
    x.1 = a ∨ x ∈ m := by
  induction m with
  | nil =>
    unfold sput at hx
    split at hx
    · simp at hx
    · simp only [List.mem_singleton] at hx; left; rw [hx]
  | cons e r ih =>
    obtain ⟨k, w⟩ := e
    unfold sput at hx
    split at hx
    · split at hx
      · exact .inr (List.mem_of_mem_filter hx)
      · rcases List.mem_cons.1 hx with h | h
        · left; rw [h]
        · exact .inr h
    · split at hx
      · split at hx
        · exact .inr (List.mem_cons_of_mem _ (List.mem_of_mem_filter hx))
        · rcases List.mem_cons.1 hx with h | h
          · left; rw [h]
          · exact .inr (List.mem_cons_of_mem _ h)
      · rcases List.mem_cons.1 hx with h | h
        · exact .inr (by simp [h])
        · rcases ih h with h' | h'
          · exact .inl h'
          · exact .inr (List.mem_cons_of_mem _ h')

/-- Writing keeps the canonical form. -/
theorem swf_sput (m : Sparse α) (a : Nat) (v : α) (h : swf d m = true) : swf d (sput d m a v) = true := by
  induction m with
  | nil => by_cases hv : v = d a <;> simp [sput, swf, hv]
  | cons e r ih =>
    obtain ⟨k, w⟩ := e
    have h0 := h
    simp only [swf, Bool.and_eq_true, List.all_eq_true, decide_eq_true_eq] at h
    obtain ⟨⟨h1, h2⟩, h3⟩ := h
    unfold sput
    split
    · rename_i ha
      split
      · exact swf_sdel d _ a h0
      · rename_i hv
        simp only [swf, Bool.and_eq_true, List.all_eq_true, decide_eq_true_eq]
        refine ⟨⟨hv, fun x hx => ?_⟩, ⟨h1, h2⟩, h3⟩
        rcases List.mem_cons.1 hx with hx | hx
        · subst hx; exact ha
        · exact Nat.lt_trans ha (h2 x hx)
    · split
      · rename_i hk
        split
        · exact swf_sdel d _ a h3
        · rename_i hv
          subst hk
          simp only [swf, Bool.and_eq_true, List.all_eq_true, decide_eq_true_eq]
          exact ⟨⟨hv, h2⟩, h3⟩
      · rename_i ha hk
        simp only [swf, Bool.and_eq_true, List.all_eq_true, decide_eq_true_eq]
        refine ⟨⟨h1, fun x hx => ?_⟩, ih h3⟩
        rcases mem_sput_key d r a v x hx with h' | h'
        · omega
        · exact h2 x h'

/-- Dropping entries keeps the canonical form. -/
theorem swf_filter (m : Sparse α) (p : Nat × α → Bool) (h : swf d m = true) : swf d (m.filter p) = true := by
  induction m with
  | nil => rfl
  | cons e r ih =>
    obtain ⟨k, w⟩ := e
    simp only [swf, Bool.and_eq_true, List.all_eq_true, decide_eq_true_eq] at h
    obtain ⟨⟨h1, h2⟩, h3⟩ := h
    rw [List.filter_cons]
    split
    · simp only [swf, Bool.and_eq_true, List.all_eq_true, decide_eq_true_eq]
      exact ⟨⟨h1, fun x hx => h2 x (List.mem_of_mem_filter hx)⟩, ih h3⟩
    · exact ih h3

end Sys2Proof.Machine
end

