-- ==== Sys2Proof/Laws/State.lean ====
section
/-! SUPPORT. What each update of the state leaves as it was, field by field, and what it writes. -/

namespace Sys2Proof.Machine

/-! ### setReg -/

@[simp] theorem State.setReg_pending (s : State) (off : Nat) (v : W64) : (s.setReg off v).pending = s.pending := rfl
@[simp] theorem State.setReg_beat (s : State) (off : Nat) (v : W64) : (s.setReg off v).beat = s.beat := rfl
@[simp] theorem State.setReg_beatsCounted (s : State) (off : Nat) (v : W64) : (s.setReg off v).beatsCounted = s.beatsCounted := rfl
@[simp] theorem State.setReg_freeCtr (s : State) (off : Nat) (v : W64) : (s.setReg off v).freeCtr = s.freeCtr := rfl
@[simp] theorem State.setReg_readData (s : State) (off : Nat) (v : W64) : (s.setReg off v).readData = s.readData := rfl
@[simp] theorem State.setReg_mem (s : State) (off : Nat) (v : W64) : (s.setReg off v).mem = s.mem := rfl
@[simp] theorem State.setReg_bad (s : State) (off : Nat) (v : W64) : (s.setReg off v).bad = s.bad := rfl
@[simp] theorem State.setReg_fuses (s : State) (off : Nat) (v : W64) : (s.setReg off v).fuses = s.fuses := rfl
@[simp] theorem State.setReg_readLatch (s : State) (off : Nat) (v : W64) : (s.setReg off v).readLatch = s.readLatch := rfl
@[simp] theorem State.setReg_writeHold (s : State) (off : Nat) (v : W64) : (s.setReg off v).writeHold = s.writeHold := rfl
@[simp] theorem State.setReg_actualRate (s : State) (off : Nat) (v : W64) : (s.setReg off v).actualRate = s.actualRate := rfl
@[simp] theorem State.setReg_alignRun (s : State) (off : Nat) (v : W64) : (s.setReg off v).alignRun = s.alignRun := rfl
@[simp] theorem State.setReg_parentDown (s : State) (off : Nat) (v : W64) : (s.setReg off v).parentDown = s.parentDown := rfl
@[simp] theorem State.setReg_stepDue (s : State) (off : Nat) (v : W64) : (s.setReg off v).stepDue = s.stepDue := rfl
@[simp] theorem State.setReg_holdoverAt (s : State) (off : Nat) (v : W64) : (s.setReg off v).holdoverAt = s.holdoverAt := rfl
@[simp] theorem State.setReg_cores (s : State) (off : Nat) (v : W64) : (s.setReg off v).cores = s.cores := rfl
@[simp] theorem State.setReg_clusters (s : State) (off : Nat) (v : W64) : (s.setReg off v).clusters = s.clusters := rfl
@[simp] theorem State.setReg_insts (s : State) (off : Nat) (v : W64) : (s.setReg off v).insts = s.insts := rfl
@[simp] theorem State.setReg_queues (s : State) (off : Nat) (v : W64) : (s.setReg off v).queues = s.queues := rfl
@[simp] theorem State.setReg_flags (s : State) (off : Nat) (v : W64) : (s.setReg off v).flags = s.flags := rfl
@[simp] theorem State.setReg_irqs (s : State) (off : Nat) (v : W64) : (s.setReg off v).irqs = s.irqs := rfl
@[simp] theorem State.setReg_launches (s : State) (off : Nat) (v : W64) : (s.setReg off v).launches = s.launches := rfl
@[simp] theorem State.setReg_nextLaunch (s : State) (off : Nat) (v : W64) : (s.setReg off v).nextLaunch = s.nextLaunch := rfl
@[simp] theorem State.setReg_xfers (s : State) (off : Nat) (v : W64) : (s.setReg off v).xfers = s.xfers := rfl
@[simp] theorem State.setReg_nextXfer (s : State) (off : Nat) (v : W64) : (s.setReg off v).nextXfer = s.nextXfer := rfl
@[simp] theorem State.setReg_colls (s : State) (off : Nat) (v : W64) : (s.setReg off v).colls = s.colls := rfl
@[simp] theorem State.setReg_buffers (s : State) (off : Nat) (v : W64) : (s.setReg off v).buffers = s.buffers := rfl
@[simp] theorem State.setReg_bufGen (s : State) (off : Nat) (v : W64) : (s.setReg off v).bufGen = s.bufGen := rfl
@[simp] theorem State.setReg_lastOwner (s : State) (off : Nat) (v : W64) : (s.setReg off v).lastOwner = s.lastOwner := rfl
@[simp] theorem State.setReg_err (s : State) (off : Nat) (v : W64) : (s.setReg off v).err = s.err := rfl
@[simp] theorem State.setReg_links (s : State) (off : Nat) (v : W64) : (s.setReg off v).links = s.links := rfl
@[simp] theorem State.setReg_inbox (s : State) (off : Nat) (v : W64) : (s.setReg off v).inbox = s.inbox := rfl
@[simp] theorem State.setReg_ckpt (s : State) (off : Nat) (v : W64) : (s.setReg off v).ckpt = s.ckpt := rfl
@[simp] theorem State.setReg_island (s : State) (off : Nat) (v : W64) : (s.setReg off v).island = s.island := rfl
@[simp] theorem State.setReg_power (s : State) (off : Nat) (v : W64) : (s.setReg off v).power = s.power := rfl
@[simp] theorem State.setReg_moduleSession (s : State) (off : Nat) (v : W64) : (s.setReg off v).moduleSession = s.moduleSession := rfl
@[simp] theorem State.setReg_nonces (s : State) (off : Nat) (v : W64) : (s.setReg off v).nonces = s.nonces := rfl
@[simp] theorem State.setReg_qTurn (s : State) (off : Nat) (v : W64) : (s.setReg off v).qTurn = s.qTurn := rfl
@[simp] theorem State.setReg_dmaTurn (s : State) (off : Nat) (v : W64) : (s.setReg off v).dmaTurn = s.dmaTurn := rfl
@[simp] theorem State.setReg_bar4 (s : State) (off : Nat) (v : W64) : (s.setReg off v).bar4 = s.bar4 := rfl
@[simp] theorem State.setReg_factorE (s : State) (off : Nat) (v : W64) : (s.setReg off v).factorE = s.factorE := rfl
@[simp] theorem State.setReg_flagTags (s : State) (off : Nat) (v : W64) : (s.setReg off v).flagTags = s.flagTags := rfl
@[simp] theorem State.setReg_barTags (s : State) (off : Nat) (v : W64) : (s.setReg off v).barTags = s.barTags := rfl

/-! ### setCore -/

@[simp] theorem State.setCore_pending (s : State) (k : Nat) (c : Core) : (s.setCore k c).pending = s.pending := rfl
@[simp] theorem State.setCore_beat (s : State) (k : Nat) (c : Core) : (s.setCore k c).beat = s.beat := rfl
@[simp] theorem State.setCore_beatsCounted (s : State) (k : Nat) (c : Core) : (s.setCore k c).beatsCounted = s.beatsCounted := rfl
@[simp] theorem State.setCore_freeCtr (s : State) (k : Nat) (c : Core) : (s.setCore k c).freeCtr = s.freeCtr := rfl
@[simp] theorem State.setCore_readData (s : State) (k : Nat) (c : Core) : (s.setCore k c).readData = s.readData := rfl
@[simp] theorem State.setCore_regs (s : State) (k : Nat) (c : Core) : (s.setCore k c).regs = s.regs := rfl
@[simp] theorem State.setCore_mem (s : State) (k : Nat) (c : Core) : (s.setCore k c).mem = s.mem := rfl
@[simp] theorem State.setCore_bad (s : State) (k : Nat) (c : Core) : (s.setCore k c).bad = s.bad := rfl
@[simp] theorem State.setCore_fuses (s : State) (k : Nat) (c : Core) : (s.setCore k c).fuses = s.fuses := rfl
@[simp] theorem State.setCore_readLatch (s : State) (k : Nat) (c : Core) : (s.setCore k c).readLatch = s.readLatch := rfl
@[simp] theorem State.setCore_writeHold (s : State) (k : Nat) (c : Core) : (s.setCore k c).writeHold = s.writeHold := rfl
@[simp] theorem State.setCore_actualRate (s : State) (k : Nat) (c : Core) : (s.setCore k c).actualRate = s.actualRate := rfl
@[simp] theorem State.setCore_alignRun (s : State) (k : Nat) (c : Core) : (s.setCore k c).alignRun = s.alignRun := rfl
@[simp] theorem State.setCore_parentDown (s : State) (k : Nat) (c : Core) : (s.setCore k c).parentDown = s.parentDown := rfl
@[simp] theorem State.setCore_stepDue (s : State) (k : Nat) (c : Core) : (s.setCore k c).stepDue = s.stepDue := rfl
@[simp] theorem State.setCore_holdoverAt (s : State) (k : Nat) (c : Core) : (s.setCore k c).holdoverAt = s.holdoverAt := rfl
@[simp] theorem State.setCore_clusters (s : State) (k : Nat) (c : Core) : (s.setCore k c).clusters = s.clusters := rfl
@[simp] theorem State.setCore_insts (s : State) (k : Nat) (c : Core) : (s.setCore k c).insts = s.insts := rfl
@[simp] theorem State.setCore_queues (s : State) (k : Nat) (c : Core) : (s.setCore k c).queues = s.queues := rfl
@[simp] theorem State.setCore_flags (s : State) (k : Nat) (c : Core) : (s.setCore k c).flags = s.flags := rfl
@[simp] theorem State.setCore_irqs (s : State) (k : Nat) (c : Core) : (s.setCore k c).irqs = s.irqs := rfl
@[simp] theorem State.setCore_launches (s : State) (k : Nat) (c : Core) : (s.setCore k c).launches = s.launches := rfl
@[simp] theorem State.setCore_nextLaunch (s : State) (k : Nat) (c : Core) : (s.setCore k c).nextLaunch = s.nextLaunch := rfl
@[simp] theorem State.setCore_xfers (s : State) (k : Nat) (c : Core) : (s.setCore k c).xfers = s.xfers := rfl
@[simp] theorem State.setCore_nextXfer (s : State) (k : Nat) (c : Core) : (s.setCore k c).nextXfer = s.nextXfer := rfl
@[simp] theorem State.setCore_colls (s : State) (k : Nat) (c : Core) : (s.setCore k c).colls = s.colls := rfl
@[simp] theorem State.setCore_buffers (s : State) (k : Nat) (c : Core) : (s.setCore k c).buffers = s.buffers := rfl
@[simp] theorem State.setCore_bufGen (s : State) (k : Nat) (c : Core) : (s.setCore k c).bufGen = s.bufGen := rfl
@[simp] theorem State.setCore_lastOwner (s : State) (k : Nat) (c : Core) : (s.setCore k c).lastOwner = s.lastOwner := rfl
@[simp] theorem State.setCore_err (s : State) (k : Nat) (c : Core) : (s.setCore k c).err = s.err := rfl
@[simp] theorem State.setCore_links (s : State) (k : Nat) (c : Core) : (s.setCore k c).links = s.links := rfl
@[simp] theorem State.setCore_inbox (s : State) (k : Nat) (c : Core) : (s.setCore k c).inbox = s.inbox := rfl
@[simp] theorem State.setCore_ckpt (s : State) (k : Nat) (c : Core) : (s.setCore k c).ckpt = s.ckpt := rfl
@[simp] theorem State.setCore_island (s : State) (k : Nat) (c : Core) : (s.setCore k c).island = s.island := rfl
@[simp] theorem State.setCore_power (s : State) (k : Nat) (c : Core) : (s.setCore k c).power = s.power := rfl
@[simp] theorem State.setCore_moduleSession (s : State) (k : Nat) (c : Core) : (s.setCore k c).moduleSession = s.moduleSession := rfl
@[simp] theorem State.setCore_nonces (s : State) (k : Nat) (c : Core) : (s.setCore k c).nonces = s.nonces := rfl
@[simp] theorem State.setCore_qTurn (s : State) (k : Nat) (c : Core) : (s.setCore k c).qTurn = s.qTurn := rfl
@[simp] theorem State.setCore_dmaTurn (s : State) (k : Nat) (c : Core) : (s.setCore k c).dmaTurn = s.dmaTurn := rfl
@[simp] theorem State.setCore_bar4 (s : State) (k : Nat) (c : Core) : (s.setCore k c).bar4 = s.bar4 := rfl
@[simp] theorem State.setCore_factorE (s : State) (k : Nat) (c : Core) : (s.setCore k c).factorE = s.factorE := rfl
@[simp] theorem State.setCore_flagTags (s : State) (k : Nat) (c : Core) : (s.setCore k c).flagTags = s.flagTags := rfl
@[simp] theorem State.setCore_barTags (s : State) (k : Nat) (c : Core) : (s.setCore k c).barTags = s.barTags := rfl

/-! ### setCluster -/

@[simp] theorem State.setCluster_pending (s : State) (k : Nat) (c : Cluster) : (s.setCluster k c).pending = s.pending := rfl
@[simp] theorem State.setCluster_beat (s : State) (k : Nat) (c : Cluster) : (s.setCluster k c).beat = s.beat := rfl
@[simp] theorem State.setCluster_beatsCounted (s : State) (k : Nat) (c : Cluster) : (s.setCluster k c).beatsCounted = s.beatsCounted := rfl
@[simp] theorem State.setCluster_freeCtr (s : State) (k : Nat) (c : Cluster) : (s.setCluster k c).freeCtr = s.freeCtr := rfl
@[simp] theorem State.setCluster_readData (s : State) (k : Nat) (c : Cluster) : (s.setCluster k c).readData = s.readData := rfl
@[simp] theorem State.setCluster_regs (s : State) (k : Nat) (c : Cluster) : (s.setCluster k c).regs = s.regs := rfl
@[simp] theorem State.setCluster_mem (s : State) (k : Nat) (c : Cluster) : (s.setCluster k c).mem = s.mem := rfl
@[simp] theorem State.setCluster_bad (s : State) (k : Nat) (c : Cluster) : (s.setCluster k c).bad = s.bad := rfl
@[simp] theorem State.setCluster_fuses (s : State) (k : Nat) (c : Cluster) : (s.setCluster k c).fuses = s.fuses := rfl
@[simp] theorem State.setCluster_readLatch (s : State) (k : Nat) (c : Cluster) : (s.setCluster k c).readLatch = s.readLatch := rfl
@[simp] theorem State.setCluster_writeHold (s : State) (k : Nat) (c : Cluster) : (s.setCluster k c).writeHold = s.writeHold := rfl
@[simp] theorem State.setCluster_actualRate (s : State) (k : Nat) (c : Cluster) : (s.setCluster k c).actualRate = s.actualRate := rfl
@[simp] theorem State.setCluster_alignRun (s : State) (k : Nat) (c : Cluster) : (s.setCluster k c).alignRun = s.alignRun := rfl
@[simp] theorem State.setCluster_parentDown (s : State) (k : Nat) (c : Cluster) : (s.setCluster k c).parentDown = s.parentDown := rfl
@[simp] theorem State.setCluster_stepDue (s : State) (k : Nat) (c : Cluster) : (s.setCluster k c).stepDue = s.stepDue := rfl
@[simp] theorem State.setCluster_holdoverAt (s : State) (k : Nat) (c : Cluster) : (s.setCluster k c).holdoverAt = s.holdoverAt := rfl
@[simp] theorem State.setCluster_cores (s : State) (k : Nat) (c : Cluster) : (s.setCluster k c).cores = s.cores := rfl
@[simp] theorem State.setCluster_insts (s : State) (k : Nat) (c : Cluster) : (s.setCluster k c).insts = s.insts := rfl
@[simp] theorem State.setCluster_queues (s : State) (k : Nat) (c : Cluster) : (s.setCluster k c).queues = s.queues := rfl
@[simp] theorem State.setCluster_flags (s : State) (k : Nat) (c : Cluster) : (s.setCluster k c).flags = s.flags := rfl
@[simp] theorem State.setCluster_irqs (s : State) (k : Nat) (c : Cluster) : (s.setCluster k c).irqs = s.irqs := rfl
@[simp] theorem State.setCluster_launches (s : State) (k : Nat) (c : Cluster) : (s.setCluster k c).launches = s.launches := rfl
@[simp] theorem State.setCluster_nextLaunch (s : State) (k : Nat) (c : Cluster) : (s.setCluster k c).nextLaunch = s.nextLaunch := rfl
@[simp] theorem State.setCluster_xfers (s : State) (k : Nat) (c : Cluster) : (s.setCluster k c).xfers = s.xfers := rfl
@[simp] theorem State.setCluster_nextXfer (s : State) (k : Nat) (c : Cluster) : (s.setCluster k c).nextXfer = s.nextXfer := rfl
@[simp] theorem State.setCluster_colls (s : State) (k : Nat) (c : Cluster) : (s.setCluster k c).colls = s.colls := rfl
@[simp] theorem State.setCluster_buffers (s : State) (k : Nat) (c : Cluster) : (s.setCluster k c).buffers = s.buffers := rfl
@[simp] theorem State.setCluster_bufGen (s : State) (k : Nat) (c : Cluster) : (s.setCluster k c).bufGen = s.bufGen := rfl
@[simp] theorem State.setCluster_lastOwner (s : State) (k : Nat) (c : Cluster) : (s.setCluster k c).lastOwner = s.lastOwner := rfl
@[simp] theorem State.setCluster_err (s : State) (k : Nat) (c : Cluster) : (s.setCluster k c).err = s.err := rfl
@[simp] theorem State.setCluster_links (s : State) (k : Nat) (c : Cluster) : (s.setCluster k c).links = s.links := rfl
@[simp] theorem State.setCluster_inbox (s : State) (k : Nat) (c : Cluster) : (s.setCluster k c).inbox = s.inbox := rfl
@[simp] theorem State.setCluster_ckpt (s : State) (k : Nat) (c : Cluster) : (s.setCluster k c).ckpt = s.ckpt := rfl
@[simp] theorem State.setCluster_island (s : State) (k : Nat) (c : Cluster) : (s.setCluster k c).island = s.island := rfl
@[simp] theorem State.setCluster_power (s : State) (k : Nat) (c : Cluster) : (s.setCluster k c).power = s.power := rfl
@[simp] theorem State.setCluster_moduleSession (s : State) (k : Nat) (c : Cluster) : (s.setCluster k c).moduleSession = s.moduleSession := rfl
@[simp] theorem State.setCluster_nonces (s : State) (k : Nat) (c : Cluster) : (s.setCluster k c).nonces = s.nonces := rfl
@[simp] theorem State.setCluster_qTurn (s : State) (k : Nat) (c : Cluster) : (s.setCluster k c).qTurn = s.qTurn := rfl
@[simp] theorem State.setCluster_dmaTurn (s : State) (k : Nat) (c : Cluster) : (s.setCluster k c).dmaTurn = s.dmaTurn := rfl
@[simp] theorem State.setCluster_bar4 (s : State) (k : Nat) (c : Cluster) : (s.setCluster k c).bar4 = s.bar4 := rfl
@[simp] theorem State.setCluster_factorE (s : State) (k : Nat) (c : Cluster) : (s.setCluster k c).factorE = s.factorE := rfl
@[simp] theorem State.setCluster_flagTags (s : State) (k : Nat) (c : Cluster) : (s.setCluster k c).flagTags = s.flagTags := rfl
@[simp] theorem State.setCluster_barTags (s : State) (k : Nat) (c : Cluster) : (s.setCluster k c).barTags = s.barTags := rfl

/-! ### setInst -/

@[simp] theorem State.setInst_pending (s : State) (k : Nat) (x : Inst) : (s.setInst k x).pending = s.pending := rfl
@[simp] theorem State.setInst_beat (s : State) (k : Nat) (x : Inst) : (s.setInst k x).beat = s.beat := rfl
@[simp] theorem State.setInst_beatsCounted (s : State) (k : Nat) (x : Inst) : (s.setInst k x).beatsCounted = s.beatsCounted := rfl
@[simp] theorem State.setInst_freeCtr (s : State) (k : Nat) (x : Inst) : (s.setInst k x).freeCtr = s.freeCtr := rfl
@[simp] theorem State.setInst_readData (s : State) (k : Nat) (x : Inst) : (s.setInst k x).readData = s.readData := rfl
@[simp] theorem State.setInst_regs (s : State) (k : Nat) (x : Inst) : (s.setInst k x).regs = s.regs := rfl
@[simp] theorem State.setInst_mem (s : State) (k : Nat) (x : Inst) : (s.setInst k x).mem = s.mem := rfl
@[simp] theorem State.setInst_bad (s : State) (k : Nat) (x : Inst) : (s.setInst k x).bad = s.bad := rfl
@[simp] theorem State.setInst_fuses (s : State) (k : Nat) (x : Inst) : (s.setInst k x).fuses = s.fuses := rfl
@[simp] theorem State.setInst_readLatch (s : State) (k : Nat) (x : Inst) : (s.setInst k x).readLatch = s.readLatch := rfl
@[simp] theorem State.setInst_writeHold (s : State) (k : Nat) (x : Inst) : (s.setInst k x).writeHold = s.writeHold := rfl
@[simp] theorem State.setInst_actualRate (s : State) (k : Nat) (x : Inst) : (s.setInst k x).actualRate = s.actualRate := rfl
@[simp] theorem State.setInst_alignRun (s : State) (k : Nat) (x : Inst) : (s.setInst k x).alignRun = s.alignRun := rfl
@[simp] theorem State.setInst_parentDown (s : State) (k : Nat) (x : Inst) : (s.setInst k x).parentDown = s.parentDown := rfl
@[simp] theorem State.setInst_stepDue (s : State) (k : Nat) (x : Inst) : (s.setInst k x).stepDue = s.stepDue := rfl
@[simp] theorem State.setInst_holdoverAt (s : State) (k : Nat) (x : Inst) : (s.setInst k x).holdoverAt = s.holdoverAt := rfl
@[simp] theorem State.setInst_cores (s : State) (k : Nat) (x : Inst) : (s.setInst k x).cores = s.cores := rfl
@[simp] theorem State.setInst_clusters (s : State) (k : Nat) (x : Inst) : (s.setInst k x).clusters = s.clusters := rfl
@[simp] theorem State.setInst_queues (s : State) (k : Nat) (x : Inst) : (s.setInst k x).queues = s.queues := rfl
@[simp] theorem State.setInst_flags (s : State) (k : Nat) (x : Inst) : (s.setInst k x).flags = s.flags := rfl
@[simp] theorem State.setInst_irqs (s : State) (k : Nat) (x : Inst) : (s.setInst k x).irqs = s.irqs := rfl
@[simp] theorem State.setInst_launches (s : State) (k : Nat) (x : Inst) : (s.setInst k x).launches = s.launches := rfl
@[simp] theorem State.setInst_nextLaunch (s : State) (k : Nat) (x : Inst) : (s.setInst k x).nextLaunch = s.nextLaunch := rfl
@[simp] theorem State.setInst_xfers (s : State) (k : Nat) (x : Inst) : (s.setInst k x).xfers = s.xfers := rfl
@[simp] theorem State.setInst_nextXfer (s : State) (k : Nat) (x : Inst) : (s.setInst k x).nextXfer = s.nextXfer := rfl
@[simp] theorem State.setInst_colls (s : State) (k : Nat) (x : Inst) : (s.setInst k x).colls = s.colls := rfl
@[simp] theorem State.setInst_buffers (s : State) (k : Nat) (x : Inst) : (s.setInst k x).buffers = s.buffers := rfl
@[simp] theorem State.setInst_bufGen (s : State) (k : Nat) (x : Inst) : (s.setInst k x).bufGen = s.bufGen := rfl
@[simp] theorem State.setInst_lastOwner (s : State) (k : Nat) (x : Inst) : (s.setInst k x).lastOwner = s.lastOwner := rfl
@[simp] theorem State.setInst_err (s : State) (k : Nat) (x : Inst) : (s.setInst k x).err = s.err := rfl
@[simp] theorem State.setInst_links (s : State) (k : Nat) (x : Inst) : (s.setInst k x).links = s.links := rfl
@[simp] theorem State.setInst_inbox (s : State) (k : Nat) (x : Inst) : (s.setInst k x).inbox = s.inbox := rfl
@[simp] theorem State.setInst_ckpt (s : State) (k : Nat) (x : Inst) : (s.setInst k x).ckpt = s.ckpt := rfl
@[simp] theorem State.setInst_island (s : State) (k : Nat) (x : Inst) : (s.setInst k x).island = s.island := rfl
@[simp] theorem State.setInst_power (s : State) (k : Nat) (x : Inst) : (s.setInst k x).power = s.power := rfl
@[simp] theorem State.setInst_moduleSession (s : State) (k : Nat) (x : Inst) : (s.setInst k x).moduleSession = s.moduleSession := rfl
@[simp] theorem State.setInst_nonces (s : State) (k : Nat) (x : Inst) : (s.setInst k x).nonces = s.nonces := rfl
@[simp] theorem State.setInst_qTurn (s : State) (k : Nat) (x : Inst) : (s.setInst k x).qTurn = s.qTurn := rfl
@[simp] theorem State.setInst_dmaTurn (s : State) (k : Nat) (x : Inst) : (s.setInst k x).dmaTurn = s.dmaTurn := rfl
@[simp] theorem State.setInst_bar4 (s : State) (k : Nat) (x : Inst) : (s.setInst k x).bar4 = s.bar4 := rfl
@[simp] theorem State.setInst_factorE (s : State) (k : Nat) (x : Inst) : (s.setInst k x).factorE = s.factorE := rfl
@[simp] theorem State.setInst_flagTags (s : State) (k : Nat) (x : Inst) : (s.setInst k x).flagTags = s.flagTags := rfl
@[simp] theorem State.setInst_barTags (s : State) (k : Nat) (x : Inst) : (s.setInst k x).barTags = s.barTags := rfl

/-! ### setQueue -/

@[simp] theorem State.setQueue_pending (s : State) (k : Nat) (x : QueueSt) : (s.setQueue k x).pending = s.pending := rfl
@[simp] theorem State.setQueue_beat (s : State) (k : Nat) (x : QueueSt) : (s.setQueue k x).beat = s.beat := rfl
@[simp] theorem State.setQueue_beatsCounted (s : State) (k : Nat) (x : QueueSt) : (s.setQueue k x).beatsCounted = s.beatsCounted := rfl
@[simp] theorem State.setQueue_freeCtr (s : State) (k : Nat) (x : QueueSt) : (s.setQueue k x).freeCtr = s.freeCtr := rfl
@[simp] theorem State.setQueue_readData (s : State) (k : Nat) (x : QueueSt) : (s.setQueue k x).readData = s.readData := rfl
@[simp] theorem State.setQueue_regs (s : State) (k : Nat) (x : QueueSt) : (s.setQueue k x).regs = s.regs := rfl
@[simp] theorem State.setQueue_mem (s : State) (k : Nat) (x : QueueSt) : (s.setQueue k x).mem = s.mem := rfl
@[simp] theorem State.setQueue_bad (s : State) (k : Nat) (x : QueueSt) : (s.setQueue k x).bad = s.bad := rfl
@[simp] theorem State.setQueue_fuses (s : State) (k : Nat) (x : QueueSt) : (s.setQueue k x).fuses = s.fuses := rfl
@[simp] theorem State.setQueue_readLatch (s : State) (k : Nat) (x : QueueSt) : (s.setQueue k x).readLatch = s.readLatch := rfl
@[simp] theorem State.setQueue_writeHold (s : State) (k : Nat) (x : QueueSt) : (s.setQueue k x).writeHold = s.writeHold := rfl
@[simp] theorem State.setQueue_actualRate (s : State) (k : Nat) (x : QueueSt) : (s.setQueue k x).actualRate = s.actualRate := rfl
@[simp] theorem State.setQueue_alignRun (s : State) (k : Nat) (x : QueueSt) : (s.setQueue k x).alignRun = s.alignRun := rfl
@[simp] theorem State.setQueue_parentDown (s : State) (k : Nat) (x : QueueSt) : (s.setQueue k x).parentDown = s.parentDown := rfl
@[simp] theorem State.setQueue_stepDue (s : State) (k : Nat) (x : QueueSt) : (s.setQueue k x).stepDue = s.stepDue := rfl
@[simp] theorem State.setQueue_holdoverAt (s : State) (k : Nat) (x : QueueSt) : (s.setQueue k x).holdoverAt = s.holdoverAt := rfl
@[simp] theorem State.setQueue_cores (s : State) (k : Nat) (x : QueueSt) : (s.setQueue k x).cores = s.cores := rfl
@[simp] theorem State.setQueue_clusters (s : State) (k : Nat) (x : QueueSt) : (s.setQueue k x).clusters = s.clusters := rfl
@[simp] theorem State.setQueue_insts (s : State) (k : Nat) (x : QueueSt) : (s.setQueue k x).insts = s.insts := rfl
@[simp] theorem State.setQueue_flags (s : State) (k : Nat) (x : QueueSt) : (s.setQueue k x).flags = s.flags := rfl
@[simp] theorem State.setQueue_irqs (s : State) (k : Nat) (x : QueueSt) : (s.setQueue k x).irqs = s.irqs := rfl
@[simp] theorem State.setQueue_launches (s : State) (k : Nat) (x : QueueSt) : (s.setQueue k x).launches = s.launches := rfl
@[simp] theorem State.setQueue_nextLaunch (s : State) (k : Nat) (x : QueueSt) : (s.setQueue k x).nextLaunch = s.nextLaunch := rfl
@[simp] theorem State.setQueue_xfers (s : State) (k : Nat) (x : QueueSt) : (s.setQueue k x).xfers = s.xfers := rfl
@[simp] theorem State.setQueue_nextXfer (s : State) (k : Nat) (x : QueueSt) : (s.setQueue k x).nextXfer = s.nextXfer := rfl
@[simp] theorem State.setQueue_colls (s : State) (k : Nat) (x : QueueSt) : (s.setQueue k x).colls = s.colls := rfl
@[simp] theorem State.setQueue_buffers (s : State) (k : Nat) (x : QueueSt) : (s.setQueue k x).buffers = s.buffers := rfl
@[simp] theorem State.setQueue_bufGen (s : State) (k : Nat) (x : QueueSt) : (s.setQueue k x).bufGen = s.bufGen := rfl
@[simp] theorem State.setQueue_lastOwner (s : State) (k : Nat) (x : QueueSt) : (s.setQueue k x).lastOwner = s.lastOwner := rfl
@[simp] theorem State.setQueue_err (s : State) (k : Nat) (x : QueueSt) : (s.setQueue k x).err = s.err := rfl
@[simp] theorem State.setQueue_links (s : State) (k : Nat) (x : QueueSt) : (s.setQueue k x).links = s.links := rfl
@[simp] theorem State.setQueue_inbox (s : State) (k : Nat) (x : QueueSt) : (s.setQueue k x).inbox = s.inbox := rfl
@[simp] theorem State.setQueue_ckpt (s : State) (k : Nat) (x : QueueSt) : (s.setQueue k x).ckpt = s.ckpt := rfl
@[simp] theorem State.setQueue_island (s : State) (k : Nat) (x : QueueSt) : (s.setQueue k x).island = s.island := rfl
@[simp] theorem State.setQueue_power (s : State) (k : Nat) (x : QueueSt) : (s.setQueue k x).power = s.power := rfl
@[simp] theorem State.setQueue_moduleSession (s : State) (k : Nat) (x : QueueSt) : (s.setQueue k x).moduleSession = s.moduleSession := rfl
@[simp] theorem State.setQueue_nonces (s : State) (k : Nat) (x : QueueSt) : (s.setQueue k x).nonces = s.nonces := rfl
@[simp] theorem State.setQueue_qTurn (s : State) (k : Nat) (x : QueueSt) : (s.setQueue k x).qTurn = s.qTurn := rfl
@[simp] theorem State.setQueue_dmaTurn (s : State) (k : Nat) (x : QueueSt) : (s.setQueue k x).dmaTurn = s.dmaTurn := rfl
@[simp] theorem State.setQueue_bar4 (s : State) (k : Nat) (x : QueueSt) : (s.setQueue k x).bar4 = s.bar4 := rfl
@[simp] theorem State.setQueue_factorE (s : State) (k : Nat) (x : QueueSt) : (s.setQueue k x).factorE = s.factorE := rfl
@[simp] theorem State.setQueue_flagTags (s : State) (k : Nat) (x : QueueSt) : (s.setQueue k x).flagTags = s.flagTags := rfl
@[simp] theorem State.setQueue_barTags (s : State) (k : Nat) (x : QueueSt) : (s.setQueue k x).barTags = s.barTags := rfl

/-! ### setLink -/

@[simp] theorem State.setLink_pending (s : State) (k : Nat) (x : LinkSt) : (s.setLink k x).pending = s.pending := rfl
@[simp] theorem State.setLink_beat (s : State) (k : Nat) (x : LinkSt) : (s.setLink k x).beat = s.beat := rfl
@[simp] theorem State.setLink_beatsCounted (s : State) (k : Nat) (x : LinkSt) : (s.setLink k x).beatsCounted = s.beatsCounted := rfl
@[simp] theorem State.setLink_freeCtr (s : State) (k : Nat) (x : LinkSt) : (s.setLink k x).freeCtr = s.freeCtr := rfl
@[simp] theorem State.setLink_readData (s : State) (k : Nat) (x : LinkSt) : (s.setLink k x).readData = s.readData := rfl
@[simp] theorem State.setLink_regs (s : State) (k : Nat) (x : LinkSt) : (s.setLink k x).regs = s.regs := rfl
@[simp] theorem State.setLink_mem (s : State) (k : Nat) (x : LinkSt) : (s.setLink k x).mem = s.mem := rfl
@[simp] theorem State.setLink_bad (s : State) (k : Nat) (x : LinkSt) : (s.setLink k x).bad = s.bad := rfl
@[simp] theorem State.setLink_fuses (s : State) (k : Nat) (x : LinkSt) : (s.setLink k x).fuses = s.fuses := rfl
@[simp] theorem State.setLink_readLatch (s : State) (k : Nat) (x : LinkSt) : (s.setLink k x).readLatch = s.readLatch := rfl
@[simp] theorem State.setLink_writeHold (s : State) (k : Nat) (x : LinkSt) : (s.setLink k x).writeHold = s.writeHold := rfl
@[simp] theorem State.setLink_actualRate (s : State) (k : Nat) (x : LinkSt) : (s.setLink k x).actualRate = s.actualRate := rfl
@[simp] theorem State.setLink_alignRun (s : State) (k : Nat) (x : LinkSt) : (s.setLink k x).alignRun = s.alignRun := rfl
@[simp] theorem State.setLink_parentDown (s : State) (k : Nat) (x : LinkSt) : (s.setLink k x).parentDown = s.parentDown := rfl
@[simp] theorem State.setLink_stepDue (s : State) (k : Nat) (x : LinkSt) : (s.setLink k x).stepDue = s.stepDue := rfl
@[simp] theorem State.setLink_holdoverAt (s : State) (k : Nat) (x : LinkSt) : (s.setLink k x).holdoverAt = s.holdoverAt := rfl
@[simp] theorem State.setLink_cores (s : State) (k : Nat) (x : LinkSt) : (s.setLink k x).cores = s.cores := rfl
@[simp] theorem State.setLink_clusters (s : State) (k : Nat) (x : LinkSt) : (s.setLink k x).clusters = s.clusters := rfl
@[simp] theorem State.setLink_insts (s : State) (k : Nat) (x : LinkSt) : (s.setLink k x).insts = s.insts := rfl
@[simp] theorem State.setLink_queues (s : State) (k : Nat) (x : LinkSt) : (s.setLink k x).queues = s.queues := rfl
@[simp] theorem State.setLink_flags (s : State) (k : Nat) (x : LinkSt) : (s.setLink k x).flags = s.flags := rfl
@[simp] theorem State.setLink_irqs (s : State) (k : Nat) (x : LinkSt) : (s.setLink k x).irqs = s.irqs := rfl
@[simp] theorem State.setLink_launches (s : State) (k : Nat) (x : LinkSt) : (s.setLink k x).launches = s.launches := rfl
@[simp] theorem State.setLink_nextLaunch (s : State) (k : Nat) (x : LinkSt) : (s.setLink k x).nextLaunch = s.nextLaunch := rfl
@[simp] theorem State.setLink_xfers (s : State) (k : Nat) (x : LinkSt) : (s.setLink k x).xfers = s.xfers := rfl
@[simp] theorem State.setLink_nextXfer (s : State) (k : Nat) (x : LinkSt) : (s.setLink k x).nextXfer = s.nextXfer := rfl
@[simp] theorem State.setLink_colls (s : State) (k : Nat) (x : LinkSt) : (s.setLink k x).colls = s.colls := rfl
@[simp] theorem State.setLink_buffers (s : State) (k : Nat) (x : LinkSt) : (s.setLink k x).buffers = s.buffers := rfl
@[simp] theorem State.setLink_bufGen (s : State) (k : Nat) (x : LinkSt) : (s.setLink k x).bufGen = s.bufGen := rfl
@[simp] theorem State.setLink_lastOwner (s : State) (k : Nat) (x : LinkSt) : (s.setLink k x).lastOwner = s.lastOwner := rfl
@[simp] theorem State.setLink_err (s : State) (k : Nat) (x : LinkSt) : (s.setLink k x).err = s.err := rfl
@[simp] theorem State.setLink_inbox (s : State) (k : Nat) (x : LinkSt) : (s.setLink k x).inbox = s.inbox := rfl
@[simp] theorem State.setLink_ckpt (s : State) (k : Nat) (x : LinkSt) : (s.setLink k x).ckpt = s.ckpt := rfl
@[simp] theorem State.setLink_island (s : State) (k : Nat) (x : LinkSt) : (s.setLink k x).island = s.island := rfl
@[simp] theorem State.setLink_power (s : State) (k : Nat) (x : LinkSt) : (s.setLink k x).power = s.power := rfl
@[simp] theorem State.setLink_moduleSession (s : State) (k : Nat) (x : LinkSt) : (s.setLink k x).moduleSession = s.moduleSession := rfl
@[simp] theorem State.setLink_nonces (s : State) (k : Nat) (x : LinkSt) : (s.setLink k x).nonces = s.nonces := rfl
@[simp] theorem State.setLink_qTurn (s : State) (k : Nat) (x : LinkSt) : (s.setLink k x).qTurn = s.qTurn := rfl
@[simp] theorem State.setLink_dmaTurn (s : State) (k : Nat) (x : LinkSt) : (s.setLink k x).dmaTurn = s.dmaTurn := rfl
@[simp] theorem State.setLink_bar4 (s : State) (k : Nat) (x : LinkSt) : (s.setLink k x).bar4 = s.bar4 := rfl
@[simp] theorem State.setLink_factorE (s : State) (k : Nat) (x : LinkSt) : (s.setLink k x).factorE = s.factorE := rfl
@[simp] theorem State.setLink_flagTags (s : State) (k : Nat) (x : LinkSt) : (s.setLink k x).flagTags = s.flagTags := rfl
@[simp] theorem State.setLink_barTags (s : State) (k : Nat) (x : LinkSt) : (s.setLink k x).barTags = s.barTags := rfl

/-! ### setErr -/

@[simp] theorem State.setErr_pending (s : State) (e : ErrSt) : (s.setErr e).pending = s.pending := rfl
@[simp] theorem State.setErr_beat (s : State) (e : ErrSt) : (s.setErr e).beat = s.beat := rfl
@[simp] theorem State.setErr_beatsCounted (s : State) (e : ErrSt) : (s.setErr e).beatsCounted = s.beatsCounted := rfl
@[simp] theorem State.setErr_freeCtr (s : State) (e : ErrSt) : (s.setErr e).freeCtr = s.freeCtr := rfl
@[simp] theorem State.setErr_readData (s : State) (e : ErrSt) : (s.setErr e).readData = s.readData := rfl
@[simp] theorem State.setErr_regs (s : State) (e : ErrSt) : (s.setErr e).regs = s.regs := rfl
@[simp] theorem State.setErr_mem (s : State) (e : ErrSt) : (s.setErr e).mem = s.mem := rfl
@[simp] theorem State.setErr_bad (s : State) (e : ErrSt) : (s.setErr e).bad = s.bad := rfl
@[simp] theorem State.setErr_fuses (s : State) (e : ErrSt) : (s.setErr e).fuses = s.fuses := rfl
@[simp] theorem State.setErr_readLatch (s : State) (e : ErrSt) : (s.setErr e).readLatch = s.readLatch := rfl
@[simp] theorem State.setErr_writeHold (s : State) (e : ErrSt) : (s.setErr e).writeHold = s.writeHold := rfl
@[simp] theorem State.setErr_actualRate (s : State) (e : ErrSt) : (s.setErr e).actualRate = s.actualRate := rfl
@[simp] theorem State.setErr_alignRun (s : State) (e : ErrSt) : (s.setErr e).alignRun = s.alignRun := rfl
@[simp] theorem State.setErr_parentDown (s : State) (e : ErrSt) : (s.setErr e).parentDown = s.parentDown := rfl
@[simp] theorem State.setErr_stepDue (s : State) (e : ErrSt) : (s.setErr e).stepDue = s.stepDue := rfl
@[simp] theorem State.setErr_holdoverAt (s : State) (e : ErrSt) : (s.setErr e).holdoverAt = s.holdoverAt := rfl
@[simp] theorem State.setErr_cores (s : State) (e : ErrSt) : (s.setErr e).cores = s.cores := rfl
@[simp] theorem State.setErr_clusters (s : State) (e : ErrSt) : (s.setErr e).clusters = s.clusters := rfl
@[simp] theorem State.setErr_insts (s : State) (e : ErrSt) : (s.setErr e).insts = s.insts := rfl
@[simp] theorem State.setErr_queues (s : State) (e : ErrSt) : (s.setErr e).queues = s.queues := rfl
@[simp] theorem State.setErr_flags (s : State) (e : ErrSt) : (s.setErr e).flags = s.flags := rfl
@[simp] theorem State.setErr_irqs (s : State) (e : ErrSt) : (s.setErr e).irqs = s.irqs := rfl
@[simp] theorem State.setErr_launches (s : State) (e : ErrSt) : (s.setErr e).launches = s.launches := rfl
@[simp] theorem State.setErr_nextLaunch (s : State) (e : ErrSt) : (s.setErr e).nextLaunch = s.nextLaunch := rfl
@[simp] theorem State.setErr_xfers (s : State) (e : ErrSt) : (s.setErr e).xfers = s.xfers := rfl
@[simp] theorem State.setErr_nextXfer (s : State) (e : ErrSt) : (s.setErr e).nextXfer = s.nextXfer := rfl
@[simp] theorem State.setErr_colls (s : State) (e : ErrSt) : (s.setErr e).colls = s.colls := rfl
@[simp] theorem State.setErr_buffers (s : State) (e : ErrSt) : (s.setErr e).buffers = s.buffers := rfl
@[simp] theorem State.setErr_bufGen (s : State) (e : ErrSt) : (s.setErr e).bufGen = s.bufGen := rfl
@[simp] theorem State.setErr_lastOwner (s : State) (e : ErrSt) : (s.setErr e).lastOwner = s.lastOwner := rfl
@[simp] theorem State.setErr_links (s : State) (e : ErrSt) : (s.setErr e).links = s.links := rfl
@[simp] theorem State.setErr_inbox (s : State) (e : ErrSt) : (s.setErr e).inbox = s.inbox := rfl
@[simp] theorem State.setErr_ckpt (s : State) (e : ErrSt) : (s.setErr e).ckpt = s.ckpt := rfl
@[simp] theorem State.setErr_island (s : State) (e : ErrSt) : (s.setErr e).island = s.island := rfl
@[simp] theorem State.setErr_power (s : State) (e : ErrSt) : (s.setErr e).power = s.power := rfl
@[simp] theorem State.setErr_moduleSession (s : State) (e : ErrSt) : (s.setErr e).moduleSession = s.moduleSession := rfl
@[simp] theorem State.setErr_nonces (s : State) (e : ErrSt) : (s.setErr e).nonces = s.nonces := rfl
@[simp] theorem State.setErr_qTurn (s : State) (e : ErrSt) : (s.setErr e).qTurn = s.qTurn := rfl
@[simp] theorem State.setErr_dmaTurn (s : State) (e : ErrSt) : (s.setErr e).dmaTurn = s.dmaTurn := rfl
@[simp] theorem State.setErr_bar4 (s : State) (e : ErrSt) : (s.setErr e).bar4 = s.bar4 := rfl
@[simp] theorem State.setErr_factorE (s : State) (e : ErrSt) : (s.setErr e).factorE = s.factorE := rfl
@[simp] theorem State.setErr_flagTags (s : State) (e : ErrSt) : (s.setErr e).flagTags = s.flagTags := rfl
@[simp] theorem State.setErr_barTags (s : State) (e : ErrSt) : (s.setErr e).barTags = s.barTags := rfl

/-! ### setCkpt -/

@[simp] theorem State.setCkpt_pending (s : State) (c : CkptSt) : (s.setCkpt c).pending = s.pending := rfl
@[simp] theorem State.setCkpt_beat (s : State) (c : CkptSt) : (s.setCkpt c).beat = s.beat := rfl
@[simp] theorem State.setCkpt_beatsCounted (s : State) (c : CkptSt) : (s.setCkpt c).beatsCounted = s.beatsCounted := rfl
@[simp] theorem State.setCkpt_freeCtr (s : State) (c : CkptSt) : (s.setCkpt c).freeCtr = s.freeCtr := rfl
@[simp] theorem State.setCkpt_readData (s : State) (c : CkptSt) : (s.setCkpt c).readData = s.readData := rfl
@[simp] theorem State.setCkpt_regs (s : State) (c : CkptSt) : (s.setCkpt c).regs = s.regs := rfl
@[simp] theorem State.setCkpt_mem (s : State) (c : CkptSt) : (s.setCkpt c).mem = s.mem := rfl
@[simp] theorem State.setCkpt_bad (s : State) (c : CkptSt) : (s.setCkpt c).bad = s.bad := rfl
@[simp] theorem State.setCkpt_fuses (s : State) (c : CkptSt) : (s.setCkpt c).fuses = s.fuses := rfl
@[simp] theorem State.setCkpt_readLatch (s : State) (c : CkptSt) : (s.setCkpt c).readLatch = s.readLatch := rfl
@[simp] theorem State.setCkpt_writeHold (s : State) (c : CkptSt) : (s.setCkpt c).writeHold = s.writeHold := rfl
@[simp] theorem State.setCkpt_actualRate (s : State) (c : CkptSt) : (s.setCkpt c).actualRate = s.actualRate := rfl
@[simp] theorem State.setCkpt_alignRun (s : State) (c : CkptSt) : (s.setCkpt c).alignRun = s.alignRun := rfl
@[simp] theorem State.setCkpt_parentDown (s : State) (c : CkptSt) : (s.setCkpt c).parentDown = s.parentDown := rfl
@[simp] theorem State.setCkpt_stepDue (s : State) (c : CkptSt) : (s.setCkpt c).stepDue = s.stepDue := rfl
@[simp] theorem State.setCkpt_holdoverAt (s : State) (c : CkptSt) : (s.setCkpt c).holdoverAt = s.holdoverAt := rfl
@[simp] theorem State.setCkpt_cores (s : State) (c : CkptSt) : (s.setCkpt c).cores = s.cores := rfl
@[simp] theorem State.setCkpt_clusters (s : State) (c : CkptSt) : (s.setCkpt c).clusters = s.clusters := rfl
@[simp] theorem State.setCkpt_insts (s : State) (c : CkptSt) : (s.setCkpt c).insts = s.insts := rfl
@[simp] theorem State.setCkpt_queues (s : State) (c : CkptSt) : (s.setCkpt c).queues = s.queues := rfl
@[simp] theorem State.setCkpt_flags (s : State) (c : CkptSt) : (s.setCkpt c).flags = s.flags := rfl
@[simp] theorem State.setCkpt_irqs (s : State) (c : CkptSt) : (s.setCkpt c).irqs = s.irqs := rfl
@[simp] theorem State.setCkpt_launches (s : State) (c : CkptSt) : (s.setCkpt c).launches = s.launches := rfl
@[simp] theorem State.setCkpt_nextLaunch (s : State) (c : CkptSt) : (s.setCkpt c).nextLaunch = s.nextLaunch := rfl
@[simp] theorem State.setCkpt_xfers (s : State) (c : CkptSt) : (s.setCkpt c).xfers = s.xfers := rfl
@[simp] theorem State.setCkpt_nextXfer (s : State) (c : CkptSt) : (s.setCkpt c).nextXfer = s.nextXfer := rfl
@[simp] theorem State.setCkpt_colls (s : State) (c : CkptSt) : (s.setCkpt c).colls = s.colls := rfl
@[simp] theorem State.setCkpt_buffers (s : State) (c : CkptSt) : (s.setCkpt c).buffers = s.buffers := rfl
@[simp] theorem State.setCkpt_bufGen (s : State) (c : CkptSt) : (s.setCkpt c).bufGen = s.bufGen := rfl
@[simp] theorem State.setCkpt_lastOwner (s : State) (c : CkptSt) : (s.setCkpt c).lastOwner = s.lastOwner := rfl
@[simp] theorem State.setCkpt_err (s : State) (c : CkptSt) : (s.setCkpt c).err = s.err := rfl
@[simp] theorem State.setCkpt_links (s : State) (c : CkptSt) : (s.setCkpt c).links = s.links := rfl
@[simp] theorem State.setCkpt_inbox (s : State) (c : CkptSt) : (s.setCkpt c).inbox = s.inbox := rfl
@[simp] theorem State.setCkpt_island (s : State) (c : CkptSt) : (s.setCkpt c).island = s.island := rfl
@[simp] theorem State.setCkpt_power (s : State) (c : CkptSt) : (s.setCkpt c).power = s.power := rfl
@[simp] theorem State.setCkpt_moduleSession (s : State) (c : CkptSt) : (s.setCkpt c).moduleSession = s.moduleSession := rfl
@[simp] theorem State.setCkpt_nonces (s : State) (c : CkptSt) : (s.setCkpt c).nonces = s.nonces := rfl
@[simp] theorem State.setCkpt_qTurn (s : State) (c : CkptSt) : (s.setCkpt c).qTurn = s.qTurn := rfl
@[simp] theorem State.setCkpt_dmaTurn (s : State) (c : CkptSt) : (s.setCkpt c).dmaTurn = s.dmaTurn := rfl
@[simp] theorem State.setCkpt_bar4 (s : State) (c : CkptSt) : (s.setCkpt c).bar4 = s.bar4 := rfl
@[simp] theorem State.setCkpt_factorE (s : State) (c : CkptSt) : (s.setCkpt c).factorE = s.factorE := rfl
@[simp] theorem State.setCkpt_flagTags (s : State) (c : CkptSt) : (s.setCkpt c).flagTags = s.flagTags := rfl
@[simp] theorem State.setCkpt_barTags (s : State) (c : CkptSt) : (s.setCkpt c).barTags = s.barTags := rfl

/-! ### setPower -/

@[simp] theorem State.setPower_pending (s : State) (p : Power) : (s.setPower p).pending = s.pending := rfl
@[simp] theorem State.setPower_beat (s : State) (p : Power) : (s.setPower p).beat = s.beat := rfl
@[simp] theorem State.setPower_beatsCounted (s : State) (p : Power) : (s.setPower p).beatsCounted = s.beatsCounted := rfl
@[simp] theorem State.setPower_freeCtr (s : State) (p : Power) : (s.setPower p).freeCtr = s.freeCtr := rfl
@[simp] theorem State.setPower_readData (s : State) (p : Power) : (s.setPower p).readData = s.readData := rfl
@[simp] theorem State.setPower_regs (s : State) (p : Power) : (s.setPower p).regs = s.regs := rfl
@[simp] theorem State.setPower_mem (s : State) (p : Power) : (s.setPower p).mem = s.mem := rfl
@[simp] theorem State.setPower_bad (s : State) (p : Power) : (s.setPower p).bad = s.bad := rfl
@[simp] theorem State.setPower_fuses (s : State) (p : Power) : (s.setPower p).fuses = s.fuses := rfl
@[simp] theorem State.setPower_readLatch (s : State) (p : Power) : (s.setPower p).readLatch = s.readLatch := rfl
@[simp] theorem State.setPower_writeHold (s : State) (p : Power) : (s.setPower p).writeHold = s.writeHold := rfl
@[simp] theorem State.setPower_actualRate (s : State) (p : Power) : (s.setPower p).actualRate = s.actualRate := rfl
@[simp] theorem State.setPower_alignRun (s : State) (p : Power) : (s.setPower p).alignRun = s.alignRun := rfl
@[simp] theorem State.setPower_parentDown (s : State) (p : Power) : (s.setPower p).parentDown = s.parentDown := rfl
@[simp] theorem State.setPower_stepDue (s : State) (p : Power) : (s.setPower p).stepDue = s.stepDue := rfl
@[simp] theorem State.setPower_holdoverAt (s : State) (p : Power) : (s.setPower p).holdoverAt = s.holdoverAt := rfl
@[simp] theorem State.setPower_cores (s : State) (p : Power) : (s.setPower p).cores = s.cores := rfl
@[simp] theorem State.setPower_clusters (s : State) (p : Power) : (s.setPower p).clusters = s.clusters := rfl
@[simp] theorem State.setPower_insts (s : State) (p : Power) : (s.setPower p).insts = s.insts := rfl
@[simp] theorem State.setPower_queues (s : State) (p : Power) : (s.setPower p).queues = s.queues := rfl
@[simp] theorem State.setPower_flags (s : State) (p : Power) : (s.setPower p).flags = s.flags := rfl
@[simp] theorem State.setPower_irqs (s : State) (p : Power) : (s.setPower p).irqs = s.irqs := rfl
@[simp] theorem State.setPower_launches (s : State) (p : Power) : (s.setPower p).launches = s.launches := rfl
@[simp] theorem State.setPower_nextLaunch (s : State) (p : Power) : (s.setPower p).nextLaunch = s.nextLaunch := rfl
@[simp] theorem State.setPower_xfers (s : State) (p : Power) : (s.setPower p).xfers = s.xfers := rfl
@[simp] theorem State.setPower_nextXfer (s : State) (p : Power) : (s.setPower p).nextXfer = s.nextXfer := rfl
@[simp] theorem State.setPower_colls (s : State) (p : Power) : (s.setPower p).colls = s.colls := rfl
@[simp] theorem State.setPower_buffers (s : State) (p : Power) : (s.setPower p).buffers = s.buffers := rfl
@[simp] theorem State.setPower_bufGen (s : State) (p : Power) : (s.setPower p).bufGen = s.bufGen := rfl
@[simp] theorem State.setPower_lastOwner (s : State) (p : Power) : (s.setPower p).lastOwner = s.lastOwner := rfl
@[simp] theorem State.setPower_err (s : State) (p : Power) : (s.setPower p).err = s.err := rfl
@[simp] theorem State.setPower_links (s : State) (p : Power) : (s.setPower p).links = s.links := rfl
@[simp] theorem State.setPower_inbox (s : State) (p : Power) : (s.setPower p).inbox = s.inbox := rfl
@[simp] theorem State.setPower_ckpt (s : State) (p : Power) : (s.setPower p).ckpt = s.ckpt := rfl
@[simp] theorem State.setPower_island (s : State) (p : Power) : (s.setPower p).island = s.island := rfl
@[simp] theorem State.setPower_moduleSession (s : State) (p : Power) : (s.setPower p).moduleSession = s.moduleSession := rfl
@[simp] theorem State.setPower_nonces (s : State) (p : Power) : (s.setPower p).nonces = s.nonces := rfl
@[simp] theorem State.setPower_qTurn (s : State) (p : Power) : (s.setPower p).qTurn = s.qTurn := rfl
@[simp] theorem State.setPower_dmaTurn (s : State) (p : Power) : (s.setPower p).dmaTurn = s.dmaTurn := rfl
@[simp] theorem State.setPower_bar4 (s : State) (p : Power) : (s.setPower p).bar4 = s.bar4 := rfl
@[simp] theorem State.setPower_factorE (s : State) (p : Power) : (s.setPower p).factorE = s.factorE := rfl
@[simp] theorem State.setPower_flagTags (s : State) (p : Power) : (s.setPower p).flagTags = s.flagTags := rfl
@[simp] theorem State.setPower_barTags (s : State) (p : Power) : (s.setPower p).barTags = s.barTags := rfl

/-! ### setIsland -/

@[simp] theorem State.setIsland_pending (s : State) (x : Island) : (s.setIsland x).pending = s.pending := rfl
@[simp] theorem State.setIsland_beat (s : State) (x : Island) : (s.setIsland x).beat = s.beat := rfl
@[simp] theorem State.setIsland_beatsCounted (s : State) (x : Island) : (s.setIsland x).beatsCounted = s.beatsCounted := rfl
@[simp] theorem State.setIsland_freeCtr (s : State) (x : Island) : (s.setIsland x).freeCtr = s.freeCtr := rfl
@[simp] theorem State.setIsland_readData (s : State) (x : Island) : (s.setIsland x).readData = s.readData := rfl
@[simp] theorem State.setIsland_regs (s : State) (x : Island) : (s.setIsland x).regs = s.regs := rfl
@[simp] theorem State.setIsland_mem (s : State) (x : Island) : (s.setIsland x).mem = s.mem := rfl
@[simp] theorem State.setIsland_bad (s : State) (x : Island) : (s.setIsland x).bad = s.bad := rfl
@[simp] theorem State.setIsland_fuses (s : State) (x : Island) : (s.setIsland x).fuses = s.fuses := rfl
@[simp] theorem State.setIsland_readLatch (s : State) (x : Island) : (s.setIsland x).readLatch = s.readLatch := rfl
@[simp] theorem State.setIsland_writeHold (s : State) (x : Island) : (s.setIsland x).writeHold = s.writeHold := rfl
@[simp] theorem State.setIsland_actualRate (s : State) (x : Island) : (s.setIsland x).actualRate = s.actualRate := rfl
@[simp] theorem State.setIsland_alignRun (s : State) (x : Island) : (s.setIsland x).alignRun = s.alignRun := rfl
@[simp] theorem State.setIsland_parentDown (s : State) (x : Island) : (s.setIsland x).parentDown = s.parentDown := rfl
@[simp] theorem State.setIsland_stepDue (s : State) (x : Island) : (s.setIsland x).stepDue = s.stepDue := rfl
@[simp] theorem State.setIsland_holdoverAt (s : State) (x : Island) : (s.setIsland x).holdoverAt = s.holdoverAt := rfl
@[simp] theorem State.setIsland_cores (s : State) (x : Island) : (s.setIsland x).cores = s.cores := rfl
@[simp] theorem State.setIsland_clusters (s : State) (x : Island) : (s.setIsland x).clusters = s.clusters := rfl
@[simp] theorem State.setIsland_insts (s : State) (x : Island) : (s.setIsland x).insts = s.insts := rfl
@[simp] theorem State.setIsland_queues (s : State) (x : Island) : (s.setIsland x).queues = s.queues := rfl
@[simp] theorem State.setIsland_flags (s : State) (x : Island) : (s.setIsland x).flags = s.flags := rfl
@[simp] theorem State.setIsland_irqs (s : State) (x : Island) : (s.setIsland x).irqs = s.irqs := rfl
@[simp] theorem State.setIsland_launches (s : State) (x : Island) : (s.setIsland x).launches = s.launches := rfl
@[simp] theorem State.setIsland_nextLaunch (s : State) (x : Island) : (s.setIsland x).nextLaunch = s.nextLaunch := rfl
@[simp] theorem State.setIsland_xfers (s : State) (x : Island) : (s.setIsland x).xfers = s.xfers := rfl
@[simp] theorem State.setIsland_nextXfer (s : State) (x : Island) : (s.setIsland x).nextXfer = s.nextXfer := rfl
@[simp] theorem State.setIsland_colls (s : State) (x : Island) : (s.setIsland x).colls = s.colls := rfl
@[simp] theorem State.setIsland_buffers (s : State) (x : Island) : (s.setIsland x).buffers = s.buffers := rfl
@[simp] theorem State.setIsland_bufGen (s : State) (x : Island) : (s.setIsland x).bufGen = s.bufGen := rfl
@[simp] theorem State.setIsland_lastOwner (s : State) (x : Island) : (s.setIsland x).lastOwner = s.lastOwner := rfl
@[simp] theorem State.setIsland_err (s : State) (x : Island) : (s.setIsland x).err = s.err := rfl
@[simp] theorem State.setIsland_links (s : State) (x : Island) : (s.setIsland x).links = s.links := rfl
@[simp] theorem State.setIsland_inbox (s : State) (x : Island) : (s.setIsland x).inbox = s.inbox := rfl
@[simp] theorem State.setIsland_ckpt (s : State) (x : Island) : (s.setIsland x).ckpt = s.ckpt := rfl
@[simp] theorem State.setIsland_power (s : State) (x : Island) : (s.setIsland x).power = s.power := rfl
@[simp] theorem State.setIsland_moduleSession (s : State) (x : Island) : (s.setIsland x).moduleSession = s.moduleSession := rfl
@[simp] theorem State.setIsland_nonces (s : State) (x : Island) : (s.setIsland x).nonces = s.nonces := rfl
@[simp] theorem State.setIsland_qTurn (s : State) (x : Island) : (s.setIsland x).qTurn = s.qTurn := rfl
@[simp] theorem State.setIsland_dmaTurn (s : State) (x : Island) : (s.setIsland x).dmaTurn = s.dmaTurn := rfl
@[simp] theorem State.setIsland_bar4 (s : State) (x : Island) : (s.setIsland x).bar4 = s.bar4 := rfl
@[simp] theorem State.setIsland_factorE (s : State) (x : Island) : (s.setIsland x).factorE = s.factorE := rfl
@[simp] theorem State.setIsland_flagTags (s : State) (x : Island) : (s.setIsland x).flagTags = s.flagTags := rfl
@[simp] theorem State.setIsland_barTags (s : State) (x : Island) : (s.setIsland x).barTags = s.barTags := rfl

/-- What setReg writes is read back. -/
@[simp] theorem State.setReg_reg_same (s : State) (off : Nat) (v : W64) : (s.setReg off v).reg off = v := by
  simp [State.setReg, State.reg]
/-- setReg leaves every other one as it was. -/
theorem State.setReg_reg_ne (s : State) (off : Nat) (v : W64) (j : Nat) (h : j ≠ off) : (s.setReg off v).reg j = s.reg j :=
  sget_sput_ne _ _ _ h
@[simp] theorem State.setCore_reg (s : State) (k : Nat) (c : Core) (j : Nat) : (s.setCore k c).reg j = s.reg j := rfl
@[simp] theorem State.setCluster_reg (s : State) (k : Nat) (c : Cluster) (j : Nat) : (s.setCluster k c).reg j = s.reg j := rfl
@[simp] theorem State.setInst_reg (s : State) (k : Nat) (x : Inst) (j : Nat) : (s.setInst k x).reg j = s.reg j := rfl
@[simp] theorem State.setQueue_reg (s : State) (k : Nat) (x : QueueSt) (j : Nat) : (s.setQueue k x).reg j = s.reg j := rfl
@[simp] theorem State.setLink_reg (s : State) (k : Nat) (x : LinkSt) (j : Nat) : (s.setLink k x).reg j = s.reg j := rfl
@[simp] theorem State.setErr_reg (s : State) (e : ErrSt) (j : Nat) : (s.setErr e).reg j = s.reg j := rfl
@[simp] theorem State.setCkpt_reg (s : State) (c : CkptSt) (j : Nat) : (s.setCkpt c).reg j = s.reg j := rfl
@[simp] theorem State.setPower_reg (s : State) (p : Power) (j : Nat) : (s.setPower p).reg j = s.reg j := rfl
@[simp] theorem State.setIsland_reg (s : State) (x : Island) (j : Nat) : (s.setIsland x).reg j = s.reg j := rfl

/-- What setCore writes is read back. -/
@[simp] theorem State.setCore_core_same (s : State) (k : Nat) (c : Core) : (s.setCore k c).core k = c := by
  simp [State.setCore, State.core]
/-- setCore leaves every other one as it was. -/
theorem State.setCore_core_ne (s : State) (k : Nat) (c : Core) (j : Nat) (h : j ≠ k) : (s.setCore k c).core j = s.core j :=
  sget_sput_ne _ _ _ h
@[simp] theorem State.setReg_core (s : State) (off : Nat) (v : W64) (j : Nat) : (s.setReg off v).core j = s.core j := rfl
@[simp] theorem State.setCluster_core (s : State) (k : Nat) (c : Cluster) (j : Nat) : (s.setCluster k c).core j = s.core j := rfl
@[simp] theorem State.setInst_core (s : State) (k : Nat) (x : Inst) (j : Nat) : (s.setInst k x).core j = s.core j := rfl
@[simp] theorem State.setQueue_core (s : State) (k : Nat) (x : QueueSt) (j : Nat) : (s.setQueue k x).core j = s.core j := rfl
@[simp] theorem State.setLink_core (s : State) (k : Nat) (x : LinkSt) (j : Nat) : (s.setLink k x).core j = s.core j := rfl
@[simp] theorem State.setErr_core (s : State) (e : ErrSt) (j : Nat) : (s.setErr e).core j = s.core j := rfl
@[simp] theorem State.setCkpt_core (s : State) (c : CkptSt) (j : Nat) : (s.setCkpt c).core j = s.core j := rfl
@[simp] theorem State.setPower_core (s : State) (p : Power) (j : Nat) : (s.setPower p).core j = s.core j := rfl
@[simp] theorem State.setIsland_core (s : State) (x : Island) (j : Nat) : (s.setIsland x).core j = s.core j := rfl

/-- What setCluster writes is read back. -/
@[simp] theorem State.setCluster_cluster_same (s : State) (k : Nat) (c : Cluster) : (s.setCluster k c).cluster k = c := by
  simp [State.setCluster, State.cluster]
/-- setCluster leaves every other one as it was. -/
theorem State.setCluster_cluster_ne (s : State) (k : Nat) (c : Cluster) (j : Nat) (h : j ≠ k) : (s.setCluster k c).cluster j = s.cluster j :=
  sget_sput_ne _ _ _ h
@[simp] theorem State.setReg_cluster (s : State) (off : Nat) (v : W64) (j : Nat) : (s.setReg off v).cluster j = s.cluster j := rfl
@[simp] theorem State.setCore_cluster (s : State) (k : Nat) (c : Core) (j : Nat) : (s.setCore k c).cluster j = s.cluster j := rfl
@[simp] theorem State.setInst_cluster (s : State) (k : Nat) (x : Inst) (j : Nat) : (s.setInst k x).cluster j = s.cluster j := rfl
@[simp] theorem State.setQueue_cluster (s : State) (k : Nat) (x : QueueSt) (j : Nat) : (s.setQueue k x).cluster j = s.cluster j := rfl
@[simp] theorem State.setLink_cluster (s : State) (k : Nat) (x : LinkSt) (j : Nat) : (s.setLink k x).cluster j = s.cluster j := rfl
@[simp] theorem State.setErr_cluster (s : State) (e : ErrSt) (j : Nat) : (s.setErr e).cluster j = s.cluster j := rfl
@[simp] theorem State.setCkpt_cluster (s : State) (c : CkptSt) (j : Nat) : (s.setCkpt c).cluster j = s.cluster j := rfl
@[simp] theorem State.setPower_cluster (s : State) (p : Power) (j : Nat) : (s.setPower p).cluster j = s.cluster j := rfl
@[simp] theorem State.setIsland_cluster (s : State) (x : Island) (j : Nat) : (s.setIsland x).cluster j = s.cluster j := rfl

/-- What setInst writes is read back. -/
@[simp] theorem State.setInst_inst_same (s : State) (k : Nat) (x : Inst) : (s.setInst k x).inst k = x := by
  simp [State.setInst, State.inst]
/-- setInst leaves every other one as it was. -/
theorem State.setInst_inst_ne (s : State) (k : Nat) (x : Inst) (j : Nat) (h : j ≠ k) : (s.setInst k x).inst j = s.inst j :=
  sget_sput_ne _ _ _ h
@[simp] theorem State.setReg_inst (s : State) (off : Nat) (v : W64) (j : Nat) : (s.setReg off v).inst j = s.inst j := rfl
@[simp] theorem State.setCore_inst (s : State) (k : Nat) (c : Core) (j : Nat) : (s.setCore k c).inst j = s.inst j := rfl
@[simp] theorem State.setCluster_inst (s : State) (k : Nat) (c : Cluster) (j : Nat) : (s.setCluster k c).inst j = s.inst j := rfl
@[simp] theorem State.setQueue_inst (s : State) (k : Nat) (x : QueueSt) (j : Nat) : (s.setQueue k x).inst j = s.inst j := rfl
@[simp] theorem State.setLink_inst (s : State) (k : Nat) (x : LinkSt) (j : Nat) : (s.setLink k x).inst j = s.inst j := rfl
@[simp] theorem State.setErr_inst (s : State) (e : ErrSt) (j : Nat) : (s.setErr e).inst j = s.inst j := rfl
@[simp] theorem State.setCkpt_inst (s : State) (c : CkptSt) (j : Nat) : (s.setCkpt c).inst j = s.inst j := rfl
@[simp] theorem State.setPower_inst (s : State) (p : Power) (j : Nat) : (s.setPower p).inst j = s.inst j := rfl
@[simp] theorem State.setIsland_inst (s : State) (x : Island) (j : Nat) : (s.setIsland x).inst j = s.inst j := rfl

/-- What setQueue writes is read back. -/
@[simp] theorem State.setQueue_queue_same (s : State) (k : Nat) (x : QueueSt) : (s.setQueue k x).queue k = x := by
  simp [State.setQueue, State.queue]
/-- setQueue leaves every other one as it was. -/
theorem State.setQueue_queue_ne (s : State) (k : Nat) (x : QueueSt) (j : Nat) (h : j ≠ k) : (s.setQueue k x).queue j = s.queue j :=
  sget_sput_ne _ _ _ h
@[simp] theorem State.setReg_queue (s : State) (off : Nat) (v : W64) (j : Nat) : (s.setReg off v).queue j = s.queue j := rfl
@[simp] theorem State.setCore_queue (s : State) (k : Nat) (c : Core) (j : Nat) : (s.setCore k c).queue j = s.queue j := rfl
@[simp] theorem State.setCluster_queue (s : State) (k : Nat) (c : Cluster) (j : Nat) : (s.setCluster k c).queue j = s.queue j := rfl
@[simp] theorem State.setInst_queue (s : State) (k : Nat) (x : Inst) (j : Nat) : (s.setInst k x).queue j = s.queue j := rfl
@[simp] theorem State.setLink_queue (s : State) (k : Nat) (x : LinkSt) (j : Nat) : (s.setLink k x).queue j = s.queue j := rfl
@[simp] theorem State.setErr_queue (s : State) (e : ErrSt) (j : Nat) : (s.setErr e).queue j = s.queue j := rfl
@[simp] theorem State.setCkpt_queue (s : State) (c : CkptSt) (j : Nat) : (s.setCkpt c).queue j = s.queue j := rfl
@[simp] theorem State.setPower_queue (s : State) (p : Power) (j : Nat) : (s.setPower p).queue j = s.queue j := rfl
@[simp] theorem State.setIsland_queue (s : State) (x : Island) (j : Nat) : (s.setIsland x).queue j = s.queue j := rfl

/-- What setLink writes is read back. -/
@[simp] theorem State.setLink_link_same (s : State) (k : Nat) (x : LinkSt) : (s.setLink k x).link k = x := by
  simp [State.setLink, State.link]
/-- setLink leaves every other one as it was. -/
theorem State.setLink_link_ne (s : State) (k : Nat) (x : LinkSt) (j : Nat) (h : j ≠ k) : (s.setLink k x).link j = s.link j :=
  sget_sput_ne _ _ _ h
@[simp] theorem State.setReg_link (s : State) (off : Nat) (v : W64) (j : Nat) : (s.setReg off v).link j = s.link j := rfl
@[simp] theorem State.setCore_link (s : State) (k : Nat) (c : Core) (j : Nat) : (s.setCore k c).link j = s.link j := rfl
@[simp] theorem State.setCluster_link (s : State) (k : Nat) (c : Cluster) (j : Nat) : (s.setCluster k c).link j = s.link j := rfl
@[simp] theorem State.setInst_link (s : State) (k : Nat) (x : Inst) (j : Nat) : (s.setInst k x).link j = s.link j := rfl
@[simp] theorem State.setQueue_link (s : State) (k : Nat) (x : QueueSt) (j : Nat) : (s.setQueue k x).link j = s.link j := rfl
@[simp] theorem State.setErr_link (s : State) (e : ErrSt) (j : Nat) : (s.setErr e).link j = s.link j := rfl
@[simp] theorem State.setCkpt_link (s : State) (c : CkptSt) (j : Nat) : (s.setCkpt c).link j = s.link j := rfl
@[simp] theorem State.setPower_link (s : State) (p : Power) (j : Nat) : (s.setPower p).link j = s.link j := rfl
@[simp] theorem State.setIsland_link (s : State) (x : Island) (j : Nat) : (s.setIsland x).link j = s.link j := rfl

@[simp] theorem State.setReg_rb (s : State) (off : Nat) (v : W64) (j : Nat) : (s.setReg off v).rb j = s.rb j := rfl
@[simp] theorem State.setCore_rb (s : State) (k : Nat) (c : Core) (j : Nat) : (s.setCore k c).rb j = s.rb j := rfl
@[simp] theorem State.setCluster_rb (s : State) (k : Nat) (c : Cluster) (j : Nat) : (s.setCluster k c).rb j = s.rb j := rfl
@[simp] theorem State.setInst_rb (s : State) (k : Nat) (x : Inst) (j : Nat) : (s.setInst k x).rb j = s.rb j := rfl
@[simp] theorem State.setQueue_rb (s : State) (k : Nat) (x : QueueSt) (j : Nat) : (s.setQueue k x).rb j = s.rb j := rfl
@[simp] theorem State.setLink_rb (s : State) (k : Nat) (x : LinkSt) (j : Nat) : (s.setLink k x).rb j = s.rb j := rfl
@[simp] theorem State.setErr_rb (s : State) (e : ErrSt) (j : Nat) : (s.setErr e).rb j = s.rb j := rfl
@[simp] theorem State.setCkpt_rb (s : State) (c : CkptSt) (j : Nat) : (s.setCkpt c).rb j = s.rb j := rfl
@[simp] theorem State.setPower_rb (s : State) (p : Power) (j : Nat) : (s.setPower p).rb j = s.rb j := rfl
@[simp] theorem State.setIsland_rb (s : State) (x : Island) (j : Nat) : (s.setIsland x).rb j = s.rb j := rfl

end Sys2Proof.Machine
end

