-- ==== Sys2Proof/Laws/Memory.lean ====
section
/-! SUPPORT. Memory: a read after a write, a write leaves every other byte alone, no write touches anything but memory
and its uncorrectable words, and every operation on memory keeps the canonical form (R5, R303). -/

namespace Sys2Proof.Machine

/-! ### Byte order (R5) -/

@[simp] theorem leBytes_length (n x : Nat) : (leBytes n x).length = n := by
  induction n generalizing x with
  | zero => rfl
  | succ n ih => simp [leBytes, ih]

theorem leNat_leBytes (n x : Nat) : leNat (leBytes n x) = x % 256 ^ n := by
  induction n generalizing x with
  | zero => simp [leBytes, leNat, Nat.mod_one]
  | succ n ih =>
    have e : (BitVec.ofNat 8 x).toNat = x % 256 := by rw [BitVec.toNat_ofNat]
    rw [leBytes, leNat, ih, e, Nat.pow_succ', Nat.mod_mul]

@[simp] theorem zeros_length (n : Nat) : (zeros n).length = n := by simp [zeros]

@[simp] theorem State.rbs_length (s : State) (a n : Nat) : (s.rbs a n).length = n := by simp [State.rbs]

/-- Runs of bytes agree when every byte of them agrees. -/
theorem State.rbs_congr {s t : State} {a n : Nat} (h : ∀ i < n, t.rb (a + i) = s.rb (a + i)) : t.rbs a n = s.rbs a n := by
  unfold State.rbs
  exact List.map_congr_left fun i hi => h i (List.mem_range.1 hi)

theorem State.rb_of_mem {s t : State} (h : t.mem = s.mem) (a : Nat) : t.rb a = s.rb a := by simp [State.rb, h]
theorem State.rbs_of_mem {s t : State} (h : t.mem = s.mem) (a n : Nat) : t.rbs a n = s.rbs a n :=
  State.rbs_congr fun _ _ => State.rb_of_mem h _
theorem State.rd_of_mem {s t : State} (h : t.mem = s.mem) (a n : Nat) : t.rd a n = s.rd a n := by
  simp [State.rd, State.rbs_of_mem h]

/-! ### One byte -/

/-- Everything that storing a byte can do: memory at its address, unless the word there is uncorrectable. -/
theorem State.wb_eq (s : State) (a : Nat) (v : Byte) :
    s.wb a v = s ∨ s.wb a v = { s with mem := sput unwritten s.mem a v } := by
  unfold State.wb
  split
  · exact .inl rfl
  · exact .inr rfl

@[simp] theorem State.poisoned_nil (s : State) (a n : Nat) (h : s.bad = []) : s.poisoned a n = false := by
  simp [State.poisoned, h]

@[simp] theorem State.wb_bad (s : State) (a : Nat) (v : Byte) : (s.wb a v).bad = s.bad := by
  rcases State.wb_eq s a v with h | h <;> rw [h]

theorem State.wb_rb (s : State) (a b : Nat) (v : Byte) (h : s.bad = []) :
    (s.wb a v).rb b = if b = a then v else s.rb b := by
  simp [State.wb, State.rb, h, sget_sput]

theorem State.wb_rb_ne (s : State) {a b : Nat} (v : Byte) (h : b ≠ a) : (s.wb a v).rb b = s.rb b := by
  rcases State.wb_eq s a v with e | e <;> simp [e, State.rb, sget_sput, h]

/-! ### Runs of bytes -/

@[simp] theorem State.wbs_bad (s : State) (a : Nat) (l : List Byte) : (s.wbs a l).bad = s.bad := by
  induction l generalizing s a with
  | nil => rfl
  | cons v l ih => simp [State.wbs, ih]

theorem State.wbs_rb_out (s : State) (a b : Nat) (l : List Byte) (h : b < a ∨ a + l.length ≤ b) :
    (s.wbs a l).rb b = s.rb b := by
  induction l generalizing s a with
  | nil => rfl
  | cons v l ih =>
    simp only [List.length_cons] at h
    rw [State.wbs, ih _ _ (by omega), State.wb_rb_ne _ _ (by omega)]

theorem State.wbs_rbs (s : State) (a : Nat) (l : List Byte) (h : s.bad = []) : (s.wbs a l).rbs a l.length = l := by
  induction l generalizing s a with
  | nil => rfl
  | cons v l ih =>
    have hb : (s.wb a v).bad = [] := by simp [h]
    have := ih (s.wb a v) (a + 1) hb
    unfold State.rbs at this ⊢
    simp only [List.length_cons, List.range_succ_eq_map, List.map_cons, List.map_map, Nat.add_zero, State.wbs]
    rw [State.wbs_rb_out _ _ _ _ (by omega), State.wb_rb _ _ _ _ h, if_pos rfl]
    congr 1
    refine Eq.trans (List.map_congr_left fun i _ => ?_) this
    simp only [Function.comp, Nat.succ_eq_add_one]
    rw [show a + (i + 1) = a + 1 + i by omega]

/-! ### Writes -/

/-- A write leaves every byte outside its range. -/
theorem write_kept_but (s : State) (a : Nat) (l : List Byte) : MemKeptBut s (s.write a l) a l.length := fun b h => by
  unfold State.write
  rw [State.wbs_rb_out _ _ _ _ h]
  rfl

/-- A read after a write, where no word is uncorrectable. -/
theorem write_rbs (s : State) (a : Nat) (l : List Byte) (h : s.bad = []) : (s.write a l).rbs a l.length = l := by
  unfold State.write
  exact State.wbs_rbs _ _ _ (by simp [h])

@[simp] theorem State.write_bad_nil (s : State) (a : Nat) (l : List Byte) (h : s.bad = []) : (s.write a l).bad = [] := by
  simp [State.write, h]

theorem wr_kept_but (s : State) (a n x : Nat) : MemKeptBut s (s.wr a n x) a n := by
  simpa [State.wr] using write_kept_but s a (leBytes n x)

theorem wr_rd (s : State) (a n x : Nat) (h : s.bad = []) : (s.wr a n x).rd a n = x % 256 ^ n := by
  have := write_rbs s a (leBytes n x) h
  rw [leBytes_length] at this
  simp [State.rd, State.wr, this, leNat_leBytes]

/-- Everything that a write can change: memory and the uncorrectable words. -/
theorem State.wbs_eq (s : State) (a : Nat) (l : List Byte) : ∃ m, s.wbs a l = { s with mem := m } := by
  induction l generalizing s a with
  | nil => exact ⟨s.mem, rfl⟩
  | cons v l ih =>
    obtain ⟨m, hm⟩ := ih (s.wb a v) (a + 1)
    rw [State.wbs, hm]
    rcases State.wb_eq s a v with h | h
    · exact ⟨m, by rw [h]⟩
    · exact ⟨m, by rw [h]⟩

theorem State.write_eq (s : State) (a : Nat) (l : List Byte) : ∃ m b, s.write a l = { s with mem := m, bad := b } := by
  obtain ⟨m, hm⟩ := State.wbs_eq { s with bad := s.bad.filter fun w => !decide (a ≤ w ∧ w + 8 ≤ a + l.length) } a l
  exact ⟨m, _, by rw [State.write, hm]⟩

@[simp] theorem State.write_regs (s : State) (a : Nat) (l : List Byte) : (s.write a l).regs = s.regs := by
  obtain ⟨m, b, h⟩ := State.write_eq s a l; rw [h]
@[simp] theorem State.write_cores (s : State) (a : Nat) (l : List Byte) : (s.write a l).cores = s.cores := by
  obtain ⟨m, b, h⟩ := State.write_eq s a l; rw [h]
@[simp] theorem State.write_clusters (s : State) (a : Nat) (l : List Byte) : (s.write a l).clusters = s.clusters := by
  obtain ⟨m, b, h⟩ := State.write_eq s a l; rw [h]
@[simp] theorem State.write_insts (s : State) (a : Nat) (l : List Byte) : (s.write a l).insts = s.insts := by
  obtain ⟨m, b, h⟩ := State.write_eq s a l; rw [h]
@[simp] theorem State.write_queues (s : State) (a : Nat) (l : List Byte) : (s.write a l).queues = s.queues := by
  obtain ⟨m, b, h⟩ := State.write_eq s a l; rw [h]
@[simp] theorem State.write_ckpt (s : State) (a : Nat) (l : List Byte) : (s.write a l).ckpt = s.ckpt := by
  obtain ⟨m, b, h⟩ := State.write_eq s a l; rw [h]
@[simp] theorem State.write_err (s : State) (a : Nat) (l : List Byte) : (s.write a l).err = s.err := by
  obtain ⟨m, b, h⟩ := State.write_eq s a l; rw [h]
@[simp] theorem State.write_links (s : State) (a : Nat) (l : List Byte) : (s.write a l).links = s.links := by
  obtain ⟨m, b, h⟩ := State.write_eq s a l; rw [h]
@[simp] theorem State.write_inbox (s : State) (a : Nat) (l : List Byte) : (s.write a l).inbox = s.inbox := by
  obtain ⟨m, b, h⟩ := State.write_eq s a l; rw [h]
@[simp] theorem State.write_beat (s : State) (a : Nat) (l : List Byte) : (s.write a l).beat = s.beat := by
  obtain ⟨m, b, h⟩ := State.write_eq s a l; rw [h]
@[simp] theorem State.write_launches (s : State) (a : Nat) (l : List Byte) : (s.write a l).launches = s.launches := by
  obtain ⟨m, b, h⟩ := State.write_eq s a l; rw [h]

/-! ### The canonical form -/

theorem wf_wb (s : State) (a : Nat) (v : Byte) (h : Memory.wf s.mem = true) : Memory.wf (s.wb a v).mem = true := by
  rcases State.wb_eq s a v with e | e <;> rw [e]
  · exact h
  · exact swf_sput unwritten s.mem a v h

theorem wf_wbs (s : State) (a : Nat) (l : List Byte) (h : Memory.wf s.mem = true) : Memory.wf (s.wbs a l).mem = true := by
  induction l generalizing s a with
  | nil => exact h
  | cons v l ih => exact ih _ _ (wf_wb s a v h)

/-- A write keeps the canonical form. -/
theorem wf_write (s : State) (a : Nat) (l : List Byte) (h : Memory.wf s.mem = true) : Memory.wf (s.write a l).mem = true :=
  wf_wbs _ a l h

theorem wf_wr (s : State) (a n x : Nat) (h : Memory.wf s.mem = true) : Memory.wf (s.wr a n x).mem = true := wf_write s a _ h

/-- Zeroing a range keeps the canonical form. -/
theorem wf_zeroRange (s : State) (a n : Nat) (h : Memory.wf s.mem = true) : Memory.wf (s.zeroRange a n).mem = true :=
  swf_filter unwritten s.mem _ h

/-- What a reset keeps of memory is in canonical form. -/
theorem wf_keptMem (keep : Bool) (m : List Host.Cell) (h : Memory.wf m = true) : Memory.wf (keptMem keep m) = true :=
  swf_filter unwritten m _ h

/-- Memory after reset is in canonical form. -/
theorem wf_reset : Memory.wf State.reset.mem = true := rfl

/-- A run over a list keeps what each item keeps. -/
theorem forEach_keeps {α : Type} (P : State → Prop) (l : List α) (s : State) (f : State → α → State)
    (hf : ∀ s x, P s → P (f s x)) (h : P s) : P (forEach l s f) := by
  unfold forEach
  induction l generalizing s with
  | nil => exact h
  | cons x l ih => exact ih _ (hf _ _ h)

end Sys2Proof.Machine
end

