-- ==== Sys2Proof/Laws/Frames.lean ====
section
/-! SUPPORT. What a receiver reads in a frame is what the sender wrote: the flit area, the control word and a good FCRC
(R256, R257). -/

namespace Sys2Proof.Machine

theorem leNat_lt : ∀ l : List Byte, leNat l < 256 ^ l.length
  | [] => by simp [leNat]
  | b :: l => by
    have := leNat_lt l
    have := b.isLt
    rw [leNat, List.length_cons, Nat.pow_succ]
    omega

theorem leNat_lt_bits (l : List Byte) (n : Nat) (h : 8 * l.length = n) : leNat l < 2 ^ n := by
  have := leNat_lt l
  rwa [show (256 : Nat) = 2 ^ 8 from rfl, ← Nat.pow_mul, h] at this

theorem leBytes_leNat : ∀ l : List Byte, leBytes l.length (leNat l) = l
  | [] => rfl
  | b :: l => by
    have h : (b.toNat + 256 * leNat l) / 256 = leNat l := by have := b.isLt; omega
    rw [List.length_cons, leBytes, leNat, h, leBytes_leNat l]
    congr 1
    apply BitVec.eq_of_toNat_eq
    have := b.isLt
    simp only [BitVec.toNat_ofNat]
    omega

/-- The low digits of a number in base 2^20 add up to it. -/
theorem sum_digits (x : Nat) : ∀ n, ((List.range n).map fun l => x / 2 ^ (20 * l) % 2 ^ 20 * 2 ^ (20 * l)).sum = x % 2 ^ (20 * n)
  | 0 => by simp [Nat.mod_one]
  | n + 1 => by
    have e : 2 ^ (20 * (n + 1)) = 2 ^ (20 * n) * 2 ^ 20 := by rw [← Nat.pow_add]; congr 1
    rw [List.range_succ, List.map_append, List.sum_append, sum_digits x n, e, Nat.mod_mul]
    simp [Nat.mul_comm]

/-- One lane of a frame. -/
theorem lane_lanesOf (a c : List Byte) (l : Nat) (h : l < 16) : nth {} (lanesOf a c) l =
    { flits := (List.range 640).map fun j => nth 0 a (16 * j + l), fcw := BitVec.ofNat 20 (leNat c / 2 ^ (20 * l)) } := by
  simp [nth, lanesOf, h]

/-- The flit area comes out as it went in. -/
theorem area_lanesOf (a c : List Byte) (h : a.length = 10240) : Frame.area { lanes := lanesOf a c } = a := by
  apply List.ext_getElem
  · simp [Frame.area, h]
  · intro n h1 h2
    rw [h] at h2
    have h3 : n / 16 < 640 := by omega
    have h4 : n % 16 < 16 := by omega
    have h5 : 16 * (n / 16) + n % 16 = n := by omega
    simp only [Frame.area, List.getElem_map, List.getElem_range]
    rw [lane_lanesOf a c _ h4]
    simp [nth, h3, h5, h2, h]

/-- The control word comes out as it went in. -/
theorem fcw_lanesOf (a c : List Byte) (h : c.length = 40) : Frame.fcw { lanes := lanesOf a c } = c := by
  have e : ((List.range 16).map fun l => (nth {} (lanesOf a c) l).fcw.toNat * 2 ^ (20 * l)) =
      (List.range 16).map fun l => leNat c / 2 ^ (20 * l) % 2 ^ 20 * 2 ^ (20 * l) := by
    apply List.map_congr_left
    intro l hl
    rw [lane_lanesOf a c l (by simpa using hl)]
    simp
  rw [Frame.fcw, e, sum_digits, Nat.mod_eq_of_lt (leNat_lt_bits c _ (by omega)), ← h, leBytes_leNat]

@[simp] theorem FrameBody.head_length (b : FrameBody) (ack : Nat) (nack : Bool) (mark : Option Nat) :
    (b.head ack nack mark).length = 36 := by simp [FrameBody.head, zeros]

theorem FrameBody.frame_area (b : FrameBody) (ack : Nat) (nack : Bool) (mark : Option Nat) (h : b.area.length = 10240) :
    (b.frame ack nack mark).area = b.area := area_lanesOf _ _ h

theorem FrameBody.frame_fcw (b : FrameBody) (ack : Nat) (nack : Bool) (mark : Option Nat) :
    (b.frame ack nack mark).fcw = b.head ack nack mark ++ leBytes 4 (crc32c (b.area ++ b.head ack nack mark)).toNat :=
  fcw_lanesOf _ _ (by simp)

/-- A field before the FCRC. -/
theorem FrameBody.frame_field (b : FrameBody) (ack : Nat) (nack : Bool) (mark : Option Nat) (o n : Nat) (h : o + n ≤ 36) :
    (b.frame ack nack mark).field o n = leNat (((b.head ack nack mark).drop o).take n) := by
  rw [Frame.field, b.frame_fcw, List.drop_append_of_le_length (by simp; omega), List.take_append_of_le_length (by simp; omega)]

/-- A frame arrives good where FEC corrects every codeword (R257). -/
theorem FrameBody.frame_good (b : FrameBody) (ack : Nat) (nack : Bool) (mark : Option Nat) (h : b.area.length = 10240) :
    (b.frame ack nack mark).good = true := by
  have e : (b.frame ack nack mark).field 0x24 4 = (crc32c (b.area ++ b.head ack nack mark)).toNat := by
    rw [Frame.field, b.frame_fcw, List.drop_append, List.drop_eq_nil_of_le (by simp)]
    simp only [FrameBody.head_length, Nat.sub_self, List.nil_append, List.drop_zero]
    rw [List.take_of_length_le (by simp), leNat_leBytes, show (256 : Nat) ^ 4 = 2 ^ 32 from rfl, Nat.mod_eq_of_lt (BitVec.isLt _)]
  have t : (b.frame ack nack mark).fcw.take 0x24 = b.head ack nack mark := by
    rw [b.frame_fcw, List.take_append_of_le_length (by simp), List.take_of_length_le (by simp)]
  simp [Frame.good, b.frame_area ack nack mark h, t, e, show (b.frame ack nack mark).uncorr = 0 from rfl]

end Sys2Proof.Machine
end

