-- ==== Sys2Proof/Laws/Issue.lean ====
section
/-! SUPPORT. What issuing an instruction does around its act: slips, trace entries and slots touch no register that
software sees, no memory, and no other core's registers; pc advances (R39, R43, R81, R88, R340). -/

namespace Sys2Proof.Machine

/-! ### Registers that software sees -/

@[simp] theorem Core.arch_st (c : Core) (x : CoreSt) : ({ c with st := x } : Core).arch = c.arch := rfl
@[simp] theorem Core.arch_setEng (c : Core) (e : Nat) (r : EngRec) : (c.setEng e r).arch = c.arch := rfl
@[simp] theorem Core.arch_setSlots (c : Core) (e : Nat) (r : Slots) : (c.setSlots e r).arch = c.arch := rfl

/-- Cores with the same visible registers advance alike. -/
theorem Core.advanceIn_arch (l : List LoopRec) : ∀ {c d : Core} (n : Nat) (kept : List LoopRec), c.arch = d.arch →
    (c.advanceIn n kept l).arch = (d.advanceIn n kept l).arch := by
  induction l with
  | nil =>
    intro c d n kept h
    simp only [Core.arch, Core.mk.injEq] at h
    simp only [Core.advanceIn, Core.arch]
    simp_all
  | cons r l ih =>
    intro c d n kept h
    have hp : c.pc = d.pc := (show c.arch.pc = d.arch.pc by rw [h])
    have hl : c.lc = d.lc := (show c.arch.lc = d.arch.lc by rw [h])
    have key : ∀ n : W16, (c.setLc r.lc n).arch = (d.setLc r.lc n).arch := by
      intro n
      simp only [Core.arch, Core.mk.injEq] at h
      simp only [Core.setLc, Core.arch, Core.mk.injEq]
      simp_all
    unfold Core.advanceIn
    rw [hp, show c.lcr r.lc = d.lcr r.lc by simp only [Core.lcr, hl]]
    dsimp only
    split
    · split
      · have := key (d.lcr r.lc - 1)
        simp only [Core.arch, Core.mk.injEq] at this
        simp only [Core.arch, Core.mk.injEq]
        simp_all
      · exact ih _ _ (key _)
    · exact ih _ _ h

theorem Core.advance_arch {c d : Core} (h : c.arch = d.arch) : c.advance.arch = d.advance.arch := by
  have hl : c.loops = d.loops := (show c.arch.loops = d.arch.loops by rw [h])
  have hp : c.pc = d.pc := (show c.arch.pc = d.arch.pc by rw [h])
  unfold Core.advance
  rw [hl, hp]
  exact Core.advanceIn_arch _ _ _ h

/-! ### Changes that no program sees -/

theorem device_refl (s : State) : DeviceKept s s := by simp [DeviceKept]
theorem device_trans {s t u : State} (h : DeviceKept s t) (h' : DeviceKept t u) : DeviceKept s u := by
  unfold DeviceKept at *
  simp_all

/-- The state's cores keep their visible registers, and its memory and the rest of the module are the same. -/
def Quiet (s t : State) : Prop := (∀ j, (t.core j).arch = (s.core j).arch) ∧ t.mem = s.mem ∧ DeviceKept s t

theorem Quiet.refl (s : State) : Quiet s s := ⟨fun _ => rfl, rfl, device_refl s⟩
theorem Quiet.trans {s t u : State} (h : Quiet s t) (h' : Quiet t u) : Quiet s u :=
  ⟨fun j => (h'.1 j).trans (h.1 j), h'.2.1.trans h.2.1, device_trans h.2.2 h'.2.2⟩

/-- A core replaced by one with the same visible registers. -/
theorem quiet_setCore (s : State) (k : Nat) (c : Core) (h : c.arch = (s.core k).arch) : Quiet s (s.setCore k c) := by
  refine ⟨fun j => ?_, rfl, by simp [DeviceKept]⟩
  by_cases hj : j = k
  · subst hj; simpa using h
  · rw [State.setCore_core_ne s k c j hj]

theorem quiet_setCluster (s : State) (k : Nat) (c : Cluster) (h : c.cnts = (s.cluster k).cnts) :
    Quiet s (s.setCluster k c) := by
  refine ⟨fun _ => rfl, rfl, ?_⟩
  have : ∀ cl, ((s.setCluster k c).cluster cl).cnts = (s.cluster cl).cnts := by
    intro cl
    by_cases hc : cl = k
    · subst hc; simpa using h
    · rw [State.setCluster_cluster_ne s k c cl hc]
  simp [DeviceKept, this]
theorem quiet_setInst (s : State) (k : Nat) (c : Inst) : Quiet s (s.setInst k c) :=
  ⟨fun _ => rfl, rfl, by simp [DeviceKept]⟩
theorem quiet_incReg (s : State) (k n : Nat) : Quiet s (s.incReg k n) :=
  ⟨fun _ => rfl, rfl, by simp [DeviceKept, State.incReg, State.setReg, State.cluster]⟩
theorem quiet_modLaunch (s : State) (k : Nat) (f : LaunchRec → LaunchRec) : Quiet s (s.modLaunch k f) :=
  ⟨fun _ => rfl, rfl, by simp [DeviceKept, State.modLaunch, State.cluster]⟩

/-- A trace entry changes the ring of its cluster, and TRACE_LOST. -/
theorem quiet_trace (s : State) (k kind word n cause : Nat) : Quiet s (s.trace k kind word n cause) := by
  unfold State.trace
  split
  · exact .refl s
  · dsimp only
    split
    · split
      · exact quiet_setCluster _ _ _ rfl
      · refine Quiet.trans ?_ (quiet_incReg ..)
        exact quiet_setCluster _ _ _ rfl
    · exact quiet_setCluster _ _ _ rfl

/-- A slip is counted and recorded, and no more. -/
theorem quiet_slip (s : State) (k e : Nat) (i : Instr) (t : W64) (tag : Tag) (held : Bool) :
    Quiet s (s.slip k e i t tag held) := by
  have h : Quiet s ((s.setCore k { (s.core k).setEng e (((s.core k).eng' e).slip tag.1 (s.beat - t).toNat tag.2) with
      lastSlip := if held then some (s.beat, tag.1) else
        ((s.core k).setEng e (((s.core k).eng' e).slip tag.1 (s.beat - t).toNat tag.2)).lastSlip }).trace k 2 (clsOp i)
          (s.beat - t).toNat (tag.1 + tag.2.toNat * 8)) :=
    Quiet.trans (by exact quiet_setCore _ _ _ rfl) (quiet_trace ..)
  unfold State.slip
  dsimp only
  split
  · exact h.trans (quiet_modLaunch ..)
  · exact h

/-- A pass that begins takes its slot, and slips when it is late. -/
theorem quiet_startPass (s : State) (k e : Nat) (p : Pass) (held : Bool) : Quiet s (s.startPass k e p held) := by
  have h (x : Slots) : Quiet s (s.setCore k ((s.core k).setSlots e x)) := quiet_setCore _ _ _ rfl
  unfold State.startPass
  dsimp only
  split
  · split
    · exact (h _).trans (quiet_slip ..)
    · exact h _
  · exact h _

theorem quiet_enterSlot (s : State) (k e : Nat) (i : Instr) (t : Option W64) (late : Late) (foot : Foot) :
    Quiet s (s.enterSlot k e i t late foot) := by
  unfold State.enterSlot
  dsimp only
  split
  · exact quiet_startPass ..
  · exact quiet_setCore _ _ _ rfl

theorem quiet_place (s : State) (k : Nat) (i : Instr) (t : Option W64) (late : Late) (foot : Foot) :
    Quiet s (s.place k i t late foot) := by
  unfold State.place
  repeat' split
  · exact quiet_enterSlot ..
  · exact quiet_slip ..
  · exact Quiet.refl s
  · exact Quiet.refl s

theorem quiet_countIssue (s : State) (k : Nat) (i : Instr) : Quiet s (s.countIssue k i) := by
  unfold State.countIssue
  exact (quiet_trace s k 1 (clsOp i) 0 0).trans (quiet_setCore _ _ _ rfl)

theorem quiet_dlBreak (s : State) (i : Nat) : Quiet s (s.dlBreak i) := by
  unfold State.dlBreak
  dsimp only
  split
  · exact Quiet.refl s
  · exact quiet_setInst ..

theorem quiet_rearm (s : State) (k : Nat) : Quiet s (s.rearm k) := by
  unfold State.rearm; split
  · exact quiet_setInst ..
  · exact Quiet.refl s

theorem quiet_unbind (s : State) (k : Nat) (x : CoreSt) : Quiet s (s.unbind k x) := by
  unfold State.unbind
  repeat' split
  · exact quiet_dlBreak ..
  · exact Quiet.refl s
  · exact Quiet.refl s

theorem quiet_setSt (s : State) (k : Nat) (x : CoreSt) : Quiet s (s.setSt k x) := by
  have go (u : State) (h : Quiet s u) : Quiet s ((u.setCore k { u.core k with st := x }).trace k 4 x.code 0 0) :=
    h.trans (Quiet.trans (by exact quiet_setCore _ _ _ rfl) (quiet_trace ..))
  unfold State.setSt
  dsimp only
  split
  · exact Quiet.refl s
  · split
    · exact go _ (quiet_rearm ..)
    · exact go _ (quiet_unbind ..)

/-- Completing issue: pc advances unless the instruction set it, and nothing else that a program sees changes. -/
theorem finish_spec (s : State) (k : Nat) (i : Instr) (t : Option W64) (late : Late) (jumped : Bool) :
    ((s.finish k i t late jumped).core k).arch = (if jumped then (s.core k).arch else (s.core k).advance.arch) ∧
    (∀ j, j ≠ k → ((s.finish k i t late jumped).core j).arch = (s.core j).arch) ∧ (s.finish k i t late jumped).mem = s.mem ∧
    DeviceKept s (s.finish k i t late jumped) := by
  unfold State.finish
  have q : Quiet s ((s.countIssue k i).place k i t late (s.core k).foot) := (quiet_countIssue ..).trans (quiet_place ..)
  generalize hu : (s.countIssue k i).place k i t late (s.core k).foot = u at q ⊢
  have m : ∀ v : State, (v.core k).arch = (if jumped then (u.core k).arch else (u.core k).advance.arch) →
      (∀ j, j ≠ k → (v.core j).arch = (u.core j).arch) → v.mem = u.mem → DeviceKept u v →
      (v.core k).arch = (if jumped then (s.core k).arch else (s.core k).advance.arch) ∧
      (∀ j, j ≠ k → (v.core j).arch = (s.core j).arch) ∧ v.mem = s.mem ∧ DeviceKept s v := by
    intro v h1 h2 h3 h4
    refine ⟨?_, fun j hj => (h2 j hj).trans (q.1 j), h3.trans q.2.1, device_trans q.2.2 h4⟩
    rw [h1]
    cases jumped
    · exact Core.advance_arch (q.1 k)
    · exact q.1 k
  unfold State.moveOn
  generalize hw : (if jumped = true then u else u.setCore k (u.core k).advance) = w
  have w1 : (w.core k).arch = (if jumped then (u.core k).arch else (u.core k).advance.arch) := by
    subst hw; cases jumped <;> simp
  have w2 : ∀ j, j ≠ k → (w.core j).arch = (u.core j).arch := by
    intro j hj; subst hw; cases jumped
    · simp [State.setCore_core_ne u k _ j hj]
    · rfl
  have w3 : w.mem = u.mem := by subst hw; cases jumped <;> rfl
  have w4 : DeviceKept u w := by subst hw; cases jumped <;> simp [DeviceKept]
  dsimp only
  split
  · split
    · have z : Quiet w (w.setCore k { w.core k with stepOne := false }) := quiet_setCore _ _ _ rfl
      exact m _ ((z.1 k).trans w1) (fun j hj => (z.1 j).trans (w2 j hj)) (z.2.1.trans w3) (device_trans w4 z.2.2)
    have z : Quiet w ((w.setCore k { w.core k with stepOne := false, after := .toHalted, haltAt := w.beat }).setSt k .draining) :=
      Quiet.trans (by exact quiet_setCore _ _ _ rfl) (quiet_setSt ..)
    exact m _ ((z.1 k).trans w1) (fun j hj => (z.1 j).trans (w2 j hj)) (z.2.1.trans w3) (device_trans w4 z.2.2)
  · exact m _ w1 w2 w3 w4

/-! ### Issue -/

/-- No bytes meet none, so an instruction that notes none is held for none. -/
theorem unblocked_nil (s : State) (k : Nat) (i : Instr) : s.blocked k i {} = false := by
  have h (f : Foot) : Foot.clash {} f = false := by simp [Foot.clash, meet]
  simp [State.blocked, Core.waitsFor, h]

/-- An instruction that a core takes begins, and its act decides what becomes of it. -/
theorem issue_settles {s : State} {k : Nat} {i : Instr} (act : Tag → State → Act) (h : Issues s k i) :
    ∃ tag t late, s.issue k i act = s.settle k i (act tag s) t late := by
  obtain ⟨⟨⟨h1, h2, h3, h4⟩, h5, h6, -, h8⟩, h7⟩ := h
  unfold State.issue State.begin
  simp only [h1, h2, h3, h4, h5, h6, h7, ne_eq, not_true_eq_false, Option.isSome_none, Bool.false_eq_true, or_self,
    if_false, Bool.not_true, Bool.or_false]
  have : ¬ (((s.core k).target i).any fun t => decide (s.beat < t)) = true := by
    cases ht : (s.core k).target i with
    | none => simp
    | some t =>
      simp only [Core.target, Option.map_eq_some_iff] at ht
      obtain ⟨d, hd, rfl⟩ := ht
      simpa using BitVec.not_lt.mpr (h8 d hd)
  rw [if_neg this]
  exact ⟨_, _, _, rfl⟩

/-- What an act answers for an instruction that a core takes and that nothing holds for its bytes: it completes issue. -/
theorem issue_next {s s' : State} {k : Nat} {i : Instr} {act : Tag → State → Act} (h : Issues s k i)
    (ha : ∀ tag, act tag s = .next s') (hb : s.blocked k i (s'.core k).foot = false) :
    ∃ t late, s.issue k i act = s'.finish k i t late false := by
  obtain ⟨tag, t, late, he⟩ := issue_settles act h
  exact ⟨t, late, by rw [he, ha]; simp [State.settle, hb]⟩

theorem issue_jump {s s' : State} {k : Nat} {i : Instr} {act : Tag → State → Act} (h : Issues s k i)
    (ha : ∀ tag, act tag s = .jump s') : ∃ t late, s.issue k i act = s'.finish k i t late true := by
  obtain ⟨tag, t, late, he⟩ := issue_settles act h
  exact ⟨t, late, by rw [he, ha]; rfl⟩

/-- An instruction whose act answers a state, and that nothing holds for its bytes. -/
theorem does_of {s u : State} {k : Nat} {i : Instr} {act : Tag → State → Act}
    (he : exec i s = .next (s.issue k i act)) (h : Issues s k i) (ha : ∀ tag, act tag s = .next u)
    (hb : s.blocked k i (u.core k).foot = false) : Does i k s u := by
  obtain ⟨t, late, ht⟩ := issue_next h ha hb
  obtain ⟨f1, f2, f3, f4⟩ := finish_spec u k i t late false
  exact ⟨_, he.trans (by rw [ht]), by simpa using f1, f2, f3, f4⟩

/-- A core replaced leaves the rest of the module. -/
theorem device_setCore (s : State) (k : Nat) (c : Core) : DeviceKept s (s.setCore k c) := by simp [DeviceKept]

/-- An instruction whose act changes the registers of its own core alone, and notes no bytes. -/
theorem writes_of {s : State} {k : Nat} {i : Instr} {act : Tag → State → Act} {f : Core → Core}
    (he : exec i s = .next (s.issue k i act)) (h : Issues s k i)
    (ha : ∀ tag, act tag s = .next (s.setCore k (f (s.core k)))) (hf : (f (s.core k)).foot = (s.core k).foot) :
    Writes i k s f := by
  obtain ⟨t, h1, h2, h3, h4, h5⟩ := does_of he h ha
    (by rw [State.setCore_core_same, hf, h.1.2.2.2.1]; exact unblocked_nil ..)
  refine ⟨t, h1, by simpa using h2, fun j hj => ?_, fun a => ?_, device_trans (device_setCore ..) h5⟩
  · rw [h3 j hj, State.setCore_core_ne _ _ _ _ hj]
  · simp only [State.rb, h4]; rfl

theorem jumps_of {s : State} {k : Nat} {i : Instr} {act : Tag → State → Act} {f : Core → Core}
    (he : exec i s = .next (s.issue k i act)) (h : Issues s k i)
    (ha : ∀ tag, act tag s = .jump (s.setCore k (f (s.core k)))) : Jumps i k s f := by
  obtain ⟨t, late, ht⟩ := issue_jump h ha
  obtain ⟨f1, f2, f3, f4⟩ := finish_spec (s.setCore k (f (s.core k))) k i t late true
  refine ⟨_, he.trans (by rw [ht]), by simpa using f1, fun j hj => ?_, fun a => ?_, device_trans (device_setCore ..) f4⟩
  · rw [f2 j hj, State.setCore_core_ne _ _ _ _ hj]
  · simp only [State.rb, f3]; rfl

end Sys2Proof.Machine
end

