-- ==== Sys2Proof/Laws/PerInstr.lean ====
section
/-! SUPPORT. Per instruction: its word has 64 bits and holds the launch field as Table 4.1 places it, L in bit 51 and
DELTA in [50:44] (R75); a command that is no core instruction has no word. -/

section

set_option Elab.async false

/-- A word whose class and operation have 6 bits, and whose operands lie below bit 44. -/
theorem Sys2Proof.Laws.Encoding.word_shape {cls op n : Nat} {l : Sys2Proof.Launch} (hc : cls < 64) (ho : op < 64)
    (hl : l.wf = true) (hn : n < 2 ^ 44) :
    Machine.wordOf cls op l n < 2 ^ 64 ∧ Machine.nfield (Machine.wordOf cls op l n) 51 1 = l.isSome.toNat ∧
      Machine.nfield (Machine.wordOf cls op l n) 44 7 = l.getD 0 := by
  unfold Machine.wordOf Machine.nfield
  cases l with
  | none => simp only [Nat.shiftRight_eq_div_pow, Option.isSome_none, Bool.toNat_false, Option.getD_none]; omega
  | some d =>
    have : d < 128 := by simpa [Sys2Proof.Launch.wf] using hl
    simp only [Nat.shiftRight_eq_div_pow, Option.isSome_some, Bool.toNat_true, Option.getD_some]; omega

/-- What is said of each command. -/
def Sys2Proof.Laws.Encoding.Statement (i : Sys2Proof.Instr) : Prop :=
  i.wf = true → ∀ w, Machine.encode i = some w → w < 2 ^ 64 ∧
    Machine.nfield w 51 1 = (Machine.launchOf i).isSome.toNat ∧ Machine.nfield w 44 7 = (Machine.launchOf i).getD 0

theorem Sys2Proof.Laws.Encoding.lowerHalfRead : ∀ fn off, Sys2Proof.Laws.Encoding.Statement (.lowerHalfRead fn off) := by intro fn off h w e; cases e

theorem Sys2Proof.Laws.Encoding.upperHalfRead : ∀ fn off, Sys2Proof.Laws.Encoding.Statement (.upperHalfRead fn off) := by intro fn off h w e; cases e

theorem Sys2Proof.Laws.Encoding.lowerHalfWrite : ∀ fn off v, Sys2Proof.Laws.Encoding.Statement (.lowerHalfWrite fn off v) := by intro fn off v h w e; cases e

theorem Sys2Proof.Laws.Encoding.upperHalfWrite : ∀ fn off v, Sys2Proof.Laws.Encoding.Statement (.upperHalfWrite fn off v) := by intro fn off v h w e; cases e

theorem Sys2Proof.Laws.Encoding.registerWrite : ∀ fn off wide v, Sys2Proof.Laws.Encoding.Statement (.registerWrite fn off wide v) := by intro fn off wide v h w e; cases e

theorem Sys2Proof.Laws.Encoding.badAccessWidth : ∀ fn off width write, Sys2Proof.Laws.Encoding.Statement (.badAccessWidth fn off width write) := by intro fn off width write h w e; cases e

theorem Sys2Proof.Laws.Encoding.bar4Read : ∀ fn addr len, Sys2Proof.Laws.Encoding.Statement (.bar4Read fn addr len) := by intro fn addr len h w e; cases e

theorem Sys2Proof.Laws.Encoding.bar4Write : ∀ fn addr data, Sys2Proof.Laws.Encoding.Statement (.bar4Write fn addr data) := by intro fn addr data h w e; cases e

theorem Sys2Proof.Laws.Encoding.beat : ∀ obs, Sys2Proof.Laws.Encoding.Statement (.beat obs) := by intro obs h w e; cases e

theorem Sys2Proof.Laws.Encoding.refclkLoss : Sys2Proof.Laws.Encoding.Statement .refclkLoss := by intro h w e; cases e

theorem Sys2Proof.Laws.Encoding.refclkReturn : Sys2Proof.Laws.Encoding.Statement .refclkReturn := by intro h w e; cases e

theorem Sys2Proof.Laws.Encoding.rateChange : ∀ die rate, Sys2Proof.Laws.Encoding.Statement (.rateChange die rate) := by intro die rate h w e; cases e

theorem Sys2Proof.Laws.Encoding.rateMonitorRefresh : ∀ die, Sys2Proof.Laws.Encoding.Statement (.rateMonitorRefresh die) := by intro die h w e; cases e

theorem Sys2Proof.Laws.Encoding.beatSample : ∀ time sync, Sys2Proof.Laws.Encoding.Statement (.beatSample time sync) := by intro time sync h w e; cases e

theorem Sys2Proof.Laws.Encoding.alignEnable : ∀ fn v parent, Sys2Proof.Laws.Encoding.Statement (.alignEnable fn v parent) := by intro fn v parent h w e; cases e

theorem Sys2Proof.Laws.Encoding.alignDisable : ∀ fn v, Sys2Proof.Laws.Encoding.Statement (.alignDisable fn v) := by intro fn v h w e; cases e

theorem Sys2Proof.Laws.Encoding.alignCfgWrite : ∀ fn v, Sys2Proof.Laws.Encoding.Statement (.alignCfgWrite fn v) := by intro fn v h w e; cases e

theorem Sys2Proof.Laws.Encoding.alignLock : Sys2Proof.Laws.Encoding.Statement .alignLock := by intro h w e; cases e

theorem Sys2Proof.Laws.Encoding.parentPortFail : Sys2Proof.Laws.Encoding.Statement .parentPortFail := by intro h w e; cases e

theorem Sys2Proof.Laws.Encoding.holdoverTimeout : Sys2Proof.Laws.Encoding.Statement .holdoverTimeout := by intro h w e; cases e

theorem Sys2Proof.Laws.Encoding.parentPortRecover : ∀ port, Sys2Proof.Laws.Encoding.Statement (.parentPortRecover port) := by intro port h w e; cases e

theorem Sys2Proof.Laws.Encoding.add : ∀ k l gd gs1 gs2, Sys2Proof.Laws.Encoding.Statement (.add k l gd gs1 gs2) := by
  intro k l gd gs1 gs2 h w e
  simp only [Sys2Proof.Instr.wf, Sys2Proof.coreOk, Bool.and_eq_true, decide_eq_true_eq] at h
  cases Option.some.inj e
  have := gd.isLt
  have := gs1.isLt
  have := gs2.isLt
  exact Sys2Proof.Laws.Encoding.word_shape (by decide) (by decide) (by simp_all) (by omega)

theorem Sys2Proof.Laws.Encoding.sub : ∀ k l gd gs1 gs2, Sys2Proof.Laws.Encoding.Statement (.sub k l gd gs1 gs2) := by
  intro k l gd gs1 gs2 h w e
  simp only [Sys2Proof.Instr.wf, Sys2Proof.coreOk, Bool.and_eq_true, decide_eq_true_eq] at h
  cases Option.some.inj e
  have := gd.isLt
  have := gs1.isLt
  have := gs2.isLt
  exact Sys2Proof.Laws.Encoding.word_shape (by decide) (by decide) (by simp_all) (by omega)

theorem Sys2Proof.Laws.Encoding.and : ∀ k l gd gs1 gs2, Sys2Proof.Laws.Encoding.Statement (.and k l gd gs1 gs2) := by
  intro k l gd gs1 gs2 h w e
  simp only [Sys2Proof.Instr.wf, Sys2Proof.coreOk, Bool.and_eq_true, decide_eq_true_eq] at h
  cases Option.some.inj e
  have := gd.isLt
  have := gs1.isLt
  have := gs2.isLt
  exact Sys2Proof.Laws.Encoding.word_shape (by decide) (by decide) (by simp_all) (by omega)

theorem Sys2Proof.Laws.Encoding.or : ∀ k l gd gs1 gs2, Sys2Proof.Laws.Encoding.Statement (.or k l gd gs1 gs2) := by
  intro k l gd gs1 gs2 h w e
  simp only [Sys2Proof.Instr.wf, Sys2Proof.coreOk, Bool.and_eq_true, decide_eq_true_eq] at h
  cases Option.some.inj e
  have := gd.isLt
  have := gs1.isLt
  have := gs2.isLt
  exact Sys2Proof.Laws.Encoding.word_shape (by decide) (by decide) (by simp_all) (by omega)

theorem Sys2Proof.Laws.Encoding.xor : ∀ k l gd gs1 gs2, Sys2Proof.Laws.Encoding.Statement (.xor k l gd gs1 gs2) := by
  intro k l gd gs1 gs2 h w e
  simp only [Sys2Proof.Instr.wf, Sys2Proof.coreOk, Bool.and_eq_true, decide_eq_true_eq] at h
  cases Option.some.inj e
  have := gd.isLt
  have := gs1.isLt
  have := gs2.isLt
  exact Sys2Proof.Laws.Encoding.word_shape (by decide) (by decide) (by simp_all) (by omega)

theorem Sys2Proof.Laws.Encoding.shl : ∀ k l gd gs1 gs2, Sys2Proof.Laws.Encoding.Statement (.shl k l gd gs1 gs2) := by
  intro k l gd gs1 gs2 h w e
  simp only [Sys2Proof.Instr.wf, Sys2Proof.coreOk, Bool.and_eq_true, decide_eq_true_eq] at h
  cases Option.some.inj e
  have := gd.isLt
  have := gs1.isLt
  have := gs2.isLt
  exact Sys2Proof.Laws.Encoding.word_shape (by decide) (by decide) (by simp_all) (by omega)

theorem Sys2Proof.Laws.Encoding.shr : ∀ k l gd gs1 gs2, Sys2Proof.Laws.Encoding.Statement (.shr k l gd gs1 gs2) := by
  intro k l gd gs1 gs2 h w e
  simp only [Sys2Proof.Instr.wf, Sys2Proof.coreOk, Bool.and_eq_true, decide_eq_true_eq] at h
  cases Option.some.inj e
  have := gd.isLt
  have := gs1.isLt
  have := gs2.isLt
  exact Sys2Proof.Laws.Encoding.word_shape (by decide) (by decide) (by simp_all) (by omega)

theorem Sys2Proof.Laws.Encoding.sra : ∀ k l gd gs1 gs2, Sys2Proof.Laws.Encoding.Statement (.sra k l gd gs1 gs2) := by
  intro k l gd gs1 gs2 h w e
  simp only [Sys2Proof.Instr.wf, Sys2Proof.coreOk, Bool.and_eq_true, decide_eq_true_eq] at h
  cases Option.some.inj e
  have := gd.isLt
  have := gs1.isLt
  have := gs2.isLt
  exact Sys2Proof.Laws.Encoding.word_shape (by decide) (by decide) (by simp_all) (by omega)

theorem Sys2Proof.Laws.Encoding.mul : ∀ k l gd gs1 gs2, Sys2Proof.Laws.Encoding.Statement (.mul k l gd gs1 gs2) := by
  intro k l gd gs1 gs2 h w e
  simp only [Sys2Proof.Instr.wf, Sys2Proof.coreOk, Bool.and_eq_true, decide_eq_true_eq] at h
  cases Option.some.inj e
  have := gd.isLt
  have := gs1.isLt
  have := gs2.isLt
  exact Sys2Proof.Laws.Encoding.word_shape (by decide) (by decide) (by simp_all) (by omega)

theorem Sys2Proof.Laws.Encoding.slt : ∀ k l gd gs1 gs2, Sys2Proof.Laws.Encoding.Statement (.slt k l gd gs1 gs2) := by
  intro k l gd gs1 gs2 h w e
  simp only [Sys2Proof.Instr.wf, Sys2Proof.coreOk, Bool.and_eq_true, decide_eq_true_eq] at h
  cases Option.some.inj e
  have := gd.isLt
  have := gs1.isLt
  have := gs2.isLt
  exact Sys2Proof.Laws.Encoding.word_shape (by decide) (by decide) (by simp_all) (by omega)

theorem Sys2Proof.Laws.Encoding.sltu : ∀ k l gd gs1 gs2, Sys2Proof.Laws.Encoding.Statement (.sltu k l gd gs1 gs2) := by
  intro k l gd gs1 gs2 h w e
  simp only [Sys2Proof.Instr.wf, Sys2Proof.coreOk, Bool.and_eq_true, decide_eq_true_eq] at h
  cases Option.some.inj e
  have := gd.isLt
  have := gs1.isLt
  have := gs2.isLt
  exact Sys2Proof.Laws.Encoding.word_shape (by decide) (by decide) (by simp_all) (by omega)

theorem Sys2Proof.Laws.Encoding.min : ∀ k l gd gs1 gs2, Sys2Proof.Laws.Encoding.Statement (.min k l gd gs1 gs2) := by
  intro k l gd gs1 gs2 h w e
  simp only [Sys2Proof.Instr.wf, Sys2Proof.coreOk, Bool.and_eq_true, decide_eq_true_eq] at h
  cases Option.some.inj e
  have := gd.isLt
  have := gs1.isLt
  have := gs2.isLt
  exact Sys2Proof.Laws.Encoding.word_shape (by decide) (by decide) (by simp_all) (by omega)

theorem Sys2Proof.Laws.Encoding.max : ∀ k l gd gs1 gs2, Sys2Proof.Laws.Encoding.Statement (.max k l gd gs1 gs2) := by
  intro k l gd gs1 gs2 h w e
  simp only [Sys2Proof.Instr.wf, Sys2Proof.coreOk, Bool.and_eq_true, decide_eq_true_eq] at h
  cases Option.some.inj e
  have := gd.isLt
  have := gs1.isLt
  have := gs2.isLt
  exact Sys2Proof.Laws.Encoding.word_shape (by decide) (by decide) (by simp_all) (by omega)

theorem Sys2Proof.Laws.Encoding.addi : ∀ k l gd gs1 imm, Sys2Proof.Laws.Encoding.Statement (.addi k l gd gs1 imm) := by
  intro k l gd gs1 imm h w e
  simp only [Sys2Proof.Instr.wf, Sys2Proof.coreOk, Bool.and_eq_true, decide_eq_true_eq] at h
  cases Option.some.inj e
  have := gd.isLt
  have := gs1.isLt
  have := imm.isLt
  exact Sys2Proof.Laws.Encoding.word_shape (by decide) (by decide) (by simp_all) (by omega)

theorem Sys2Proof.Laws.Encoding.andi : ∀ k l gd gs1 imm, Sys2Proof.Laws.Encoding.Statement (.andi k l gd gs1 imm) := by
  intro k l gd gs1 imm h w e
  simp only [Sys2Proof.Instr.wf, Sys2Proof.coreOk, Bool.and_eq_true, decide_eq_true_eq] at h
  cases Option.some.inj e
  have := gd.isLt
  have := gs1.isLt
  have := imm.isLt
  exact Sys2Proof.Laws.Encoding.word_shape (by decide) (by decide) (by simp_all) (by omega)

theorem Sys2Proof.Laws.Encoding.ori : ∀ k l gd gs1 imm, Sys2Proof.Laws.Encoding.Statement (.ori k l gd gs1 imm) := by
  intro k l gd gs1 imm h w e
  simp only [Sys2Proof.Instr.wf, Sys2Proof.coreOk, Bool.and_eq_true, decide_eq_true_eq] at h
  cases Option.some.inj e
  have := gd.isLt
  have := gs1.isLt
  have := imm.isLt
  exact Sys2Proof.Laws.Encoding.word_shape (by decide) (by decide) (by simp_all) (by omega)

theorem Sys2Proof.Laws.Encoding.xori : ∀ k l gd gs1 imm, Sys2Proof.Laws.Encoding.Statement (.xori k l gd gs1 imm) := by
  intro k l gd gs1 imm h w e
  simp only [Sys2Proof.Instr.wf, Sys2Proof.coreOk, Bool.and_eq_true, decide_eq_true_eq] at h
  cases Option.some.inj e
  have := gd.isLt
  have := gs1.isLt
  have := imm.isLt
  exact Sys2Proof.Laws.Encoding.word_shape (by decide) (by decide) (by simp_all) (by omega)

theorem Sys2Proof.Laws.Encoding.movi : ∀ k l gd imm, Sys2Proof.Laws.Encoding.Statement (.movi k l gd imm) := by
  intro k l gd imm h w e
  simp only [Sys2Proof.Instr.wf, Sys2Proof.coreOk, Bool.and_eq_true, decide_eq_true_eq] at h
  cases Option.some.inj e
  have := gd.isLt
  have := imm.isLt
  exact Sys2Proof.Laws.Encoding.word_shape (by decide) (by decide) (by simp_all) (by omega)

theorem Sys2Proof.Laws.Encoding.ldw : ∀ k l g an off, Sys2Proof.Laws.Encoding.Statement (.ldw k l g an off) := by
  intro k l g an off h w e
  simp only [Sys2Proof.Instr.wf, Sys2Proof.coreOk, Bool.and_eq_true, decide_eq_true_eq] at h
  cases Option.some.inj e
  have := g.isLt
  have := an.isLt
  have := off.isLt
  exact Sys2Proof.Laws.Encoding.word_shape (by decide) (by decide) (by simp_all) (by omega)

theorem Sys2Proof.Laws.Encoding.stw : ∀ k l g an off, Sys2Proof.Laws.Encoding.Statement (.stw k l g an off) := by
  intro k l g an off h w e
  simp only [Sys2Proof.Instr.wf, Sys2Proof.coreOk, Bool.and_eq_true, decide_eq_true_eq] at h
  cases Option.some.inj e
  have := g.isLt
  have := an.isLt
  have := off.isLt
  exact Sys2Proof.Laws.Encoding.word_shape (by decide) (by decide) (by simp_all) (by omega)

theorem Sys2Proof.Laws.Encoding.mova : ∀ k l g an off, Sys2Proof.Laws.Encoding.Statement (.mova k l g an off) := by
  intro k l g an off h w e
  simp only [Sys2Proof.Instr.wf, Sys2Proof.coreOk, Bool.and_eq_true, decide_eq_true_eq] at h
  cases Option.some.inj e
  have := g.isLt
  have := an.isLt
  have := off.isLt
  exact Sys2Proof.Laws.Encoding.word_shape (by decide) (by decide) (by simp_all) (by omega)

theorem Sys2Proof.Laws.Encoding.movg : ∀ k l g an off, Sys2Proof.Laws.Encoding.Statement (.movg k l g an off) := by
  intro k l g an off h w e
  simp only [Sys2Proof.Instr.wf, Sys2Proof.coreOk, Bool.and_eq_true, decide_eq_true_eq] at h
  cases Option.some.inj e
  have := g.isLt
  have := an.isLt
  have := off.isLt
  exact Sys2Proof.Laws.Encoding.word_shape (by decide) (by decide) (by simp_all) (by omega)

theorem Sys2Proof.Laws.Encoding.br : ∀ k l off, Sys2Proof.Laws.Encoding.Statement (.br k l off) := by
  intro k l off h w e
  simp only [Sys2Proof.Instr.wf, Sys2Proof.coreOk, Bool.and_eq_true, decide_eq_true_eq] at h
  cases Option.some.inj e
  have := off.isLt
  exact Sys2Proof.Laws.Encoding.word_shape (by decide) (by decide) (by simp_all) (by omega)

theorem Sys2Proof.Laws.Encoding.beq : ∀ k l gs1 gs2 off, Sys2Proof.Laws.Encoding.Statement (.beq k l gs1 gs2 off) := by
  intro k l gs1 gs2 off h w e
  simp only [Sys2Proof.Instr.wf, Sys2Proof.coreOk, Bool.and_eq_true, decide_eq_true_eq] at h
  cases Option.some.inj e
  have := gs1.isLt
  have := gs2.isLt
  have := off.isLt
  exact Sys2Proof.Laws.Encoding.word_shape (by decide) (by decide) (by simp_all) (by omega)

theorem Sys2Proof.Laws.Encoding.bne : ∀ k l gs1 gs2 off, Sys2Proof.Laws.Encoding.Statement (.bne k l gs1 gs2 off) := by
  intro k l gs1 gs2 off h w e
  simp only [Sys2Proof.Instr.wf, Sys2Proof.coreOk, Bool.and_eq_true, decide_eq_true_eq] at h
  cases Option.some.inj e
  have := gs1.isLt
  have := gs2.isLt
  have := off.isLt
  exact Sys2Proof.Laws.Encoding.word_shape (by decide) (by decide) (by simp_all) (by omega)

theorem Sys2Proof.Laws.Encoding.blt : ∀ k l gs1 gs2 off, Sys2Proof.Laws.Encoding.Statement (.blt k l gs1 gs2 off) := by
  intro k l gs1 gs2 off h w e
  simp only [Sys2Proof.Instr.wf, Sys2Proof.coreOk, Bool.and_eq_true, decide_eq_true_eq] at h
  cases Option.some.inj e
  have := gs1.isLt
  have := gs2.isLt
  have := off.isLt
  exact Sys2Proof.Laws.Encoding.word_shape (by decide) (by decide) (by simp_all) (by omega)

theorem Sys2Proof.Laws.Encoding.bge : ∀ k l gs1 gs2 off, Sys2Proof.Laws.Encoding.Statement (.bge k l gs1 gs2 off) := by
  intro k l gs1 gs2 off h w e
  simp only [Sys2Proof.Instr.wf, Sys2Proof.coreOk, Bool.and_eq_true, decide_eq_true_eq] at h
  cases Option.some.inj e
  have := gs1.isLt
  have := gs2.isLt
  have := off.isLt
  exact Sys2Proof.Laws.Encoding.word_shape (by decide) (by decide) (by simp_all) (by omega)

theorem Sys2Proof.Laws.Encoding.bltu : ∀ k l gs1 gs2 off, Sys2Proof.Laws.Encoding.Statement (.bltu k l gs1 gs2 off) := by
  intro k l gs1 gs2 off h w e
  simp only [Sys2Proof.Instr.wf, Sys2Proof.coreOk, Bool.and_eq_true, decide_eq_true_eq] at h
  cases Option.some.inj e
  have := gs1.isLt
  have := gs2.isLt
  have := off.isLt
  exact Sys2Proof.Laws.Encoding.word_shape (by decide) (by decide) (by simp_all) (by omega)

theorem Sys2Proof.Laws.Encoding.bgeu : ∀ k l gs1 gs2 off, Sys2Proof.Laws.Encoding.Statement (.bgeu k l gs1 gs2 off) := by
  intro k l gs1 gs2 off h w e
  simp only [Sys2Proof.Instr.wf, Sys2Proof.coreOk, Bool.and_eq_true, decide_eq_true_eq] at h
  cases Option.some.inj e
  have := gs1.isLt
  have := gs2.isLt
  have := off.isLt
  exact Sys2Proof.Laws.Encoding.word_shape (by decide) (by decide) (by simp_all) (by omega)

theorem Sys2Proof.Laws.Encoding.loop : ∀ k l lc gs len cnt, Sys2Proof.Laws.Encoding.Statement (.loop k l lc gs len cnt) := by
  intro k l lc gs len cnt h w e
  simp only [Sys2Proof.Instr.wf, Sys2Proof.coreOk, Bool.and_eq_true, decide_eq_true_eq] at h
  cases Option.some.inj e
  have := lc.isLt
  have := gs.isLt
  have := cnt.isLt
  exact Sys2Proof.Laws.Encoding.word_shape (by decide) (by decide) (by simp_all) (by omega)

theorem Sys2Proof.Laws.Encoding.tdSet : ∀ k l td fld reg gs imm, Sys2Proof.Laws.Encoding.Statement (.tdSet k l td fld reg gs imm) := by
  intro k l td fld reg gs imm h w e
  simp only [Sys2Proof.Instr.wf, Sys2Proof.coreOk, Bool.and_eq_true, decide_eq_true_eq] at h
  cases Option.some.inj e
  have := td.isLt
  have := Bool.toNat_lt reg
  have := gs.isLt
  have := imm.isLt
  exact Sys2Proof.Laws.Encoding.word_shape (by decide) (by decide) (by simp_all) (by omega)

theorem Sys2Proof.Laws.Encoding.tdCopy : ∀ k l tdst tsrc, Sys2Proof.Laws.Encoding.Statement (.tdCopy k l tdst tsrc) := by
  intro k l tdst tsrc h w e
  simp only [Sys2Proof.Instr.wf, Sys2Proof.coreOk, Bool.and_eq_true, decide_eq_true_eq] at h
  cases Option.some.inj e
  have := tdst.isLt
  have := tsrc.isLt
  exact Sys2Proof.Laws.Encoding.word_shape (by decide) (by decide) (by simp_all) (by omega)

theorem Sys2Proof.Laws.Encoding.tmov : ∀ k l tdst tsrc wm gsc, Sys2Proof.Laws.Encoding.Statement (.tmov k l tdst tsrc wm gsc) := by
  intro k l tdst tsrc wm gsc h w e
  simp only [Sys2Proof.Instr.wf, Sys2Proof.coreOk, Bool.and_eq_true, decide_eq_true_eq] at h
  cases Option.some.inj e
  have := tdst.isLt
  have := tsrc.isLt
  have := gsc.isLt
  exact Sys2Proof.Laws.Encoding.word_shape (by decide) (by decide) (by simp_all) (by omega)

theorem Sys2Proof.Laws.Encoding.tfill : ∀ k l tdst gsc, Sys2Proof.Laws.Encoding.Statement (.tfill k l tdst gsc) := by
  intro k l tdst gsc h w e
  simp only [Sys2Proof.Instr.wf, Sys2Proof.coreOk, Bool.and_eq_true, decide_eq_true_eq] at h
  cases Option.some.inj e
  have := tdst.isLt
  have := gsc.isLt
  exact Sys2Proof.Laws.Encoding.word_shape (by decide) (by decide) (by simp_all) (by omega)

theorem Sys2Proof.Laws.Encoding.mmaF16 : ∀ k l ac ta tb tc n gang, Sys2Proof.Laws.Encoding.Statement (.mmaF16 k l ac ta tb tc n gang) := by
  intro k l ac ta tb tc n gang h w e
  simp only [Sys2Proof.Instr.wf, Sys2Proof.coreOk, Bool.and_eq_true, decide_eq_true_eq] at h
  cases Option.some.inj e
  have := ac.isLt
  have := ta.isLt
  have := tb.isLt
  have := tc.isLt
  have := Bool.toNat_lt gang
  exact Sys2Proof.Laws.Encoding.word_shape (by decide) (by decide) (by simp_all) (by omega)

theorem Sys2Proof.Laws.Encoding.mmaF32 : ∀ k l ac ta tb tc n gang, Sys2Proof.Laws.Encoding.Statement (.mmaF32 k l ac ta tb tc n gang) := by
  intro k l ac ta tb tc n gang h w e
  simp only [Sys2Proof.Instr.wf, Sys2Proof.coreOk, Bool.and_eq_true, decide_eq_true_eq] at h
  cases Option.some.inj e
  have := ac.isLt
  have := ta.isLt
  have := tb.isLt
  have := tc.isLt
  have := Bool.toNat_lt gang
  exact Sys2Proof.Laws.Encoding.word_shape (by decide) (by decide) (by simp_all) (by omega)

theorem Sys2Proof.Laws.Encoding.mmaI16 : ∀ k l ac ta tb tc n gang, Sys2Proof.Laws.Encoding.Statement (.mmaI16 k l ac ta tb tc n gang) := by
  intro k l ac ta tb tc n gang h w e
  simp only [Sys2Proof.Instr.wf, Sys2Proof.coreOk, Bool.and_eq_true, decide_eq_true_eq] at h
  cases Option.some.inj e
  have := ac.isLt
  have := ta.isLt
  have := tb.isLt
  have := tc.isLt
  have := Bool.toNat_lt gang
  exact Sys2Proof.Laws.Encoding.word_shape (by decide) (by decide) (by simp_all) (by omega)

theorem Sys2Proof.Laws.Encoding.mmaOut : ∀ k l ac ta tb rnd ep gid gang, Sys2Proof.Laws.Encoding.Statement (.mmaOut k l ac ta tb rnd ep gid gang) := by
  intro k l ac ta tb rnd ep gid gang h w e
  simp only [Sys2Proof.Instr.wf, Sys2Proof.coreOk, Bool.and_eq_true, decide_eq_true_eq] at h
  cases Option.some.inj e
  have := ac.isLt
  have := ta.isLt
  have := tb.isLt
  have := gid.isLt
  have := Bool.toNat_lt gang
  exact Sys2Proof.Laws.Encoding.word_shape (by decide) (by decide) (by simp_all) (by omega)

theorem Sys2Proof.Laws.Encoding.mmaOuts : ∀ k l ac ta tb tc rnd ep gid gang, Sys2Proof.Laws.Encoding.Statement (.mmaOuts k l ac ta tb tc rnd ep gid gang) := by
  intro k l ac ta tb tc rnd ep gid gang h w e
  simp only [Sys2Proof.Instr.wf, Sys2Proof.coreOk, Bool.and_eq_true, decide_eq_true_eq] at h
  cases Option.some.inj e
  have := ac.isLt
  have := ta.isLt
  have := tb.isLt
  have := tc.isLt
  have := gid.isLt
  have := Bool.toNat_lt gang
  exact Sys2Proof.Laws.Encoding.word_shape (by decide) (by decide) (by simp_all) (by omega)

theorem Sys2Proof.Laws.Encoding.mmaClr : ∀ k l ac, Sys2Proof.Laws.Encoding.Statement (.mmaClr k l ac) := by
  intro k l ac h w e
  simp only [Sys2Proof.Instr.wf, Sys2Proof.coreOk, Bool.and_eq_true, decide_eq_true_eq] at h
  cases Option.some.inj e
  have := ac.isLt
  exact Sys2Proof.Laws.Encoding.word_shape (by decide) (by decide) (by simp_all) (by omega)

theorem Sys2Proof.Laws.Encoding.gang : ∀ k l shape, Sys2Proof.Laws.Encoding.Statement (.gang k l shape) := by
  intro k l shape h w e
  simp only [Sys2Proof.Instr.wf, Sys2Proof.coreOk, Bool.and_eq_true, decide_eq_true_eq] at h
  cases Option.some.inj e
  exact Sys2Proof.Laws.Encoding.word_shape (by decide) (by decide) (by simp_all) (by omega)

theorem Sys2Proof.Laws.Encoding.gangedPassStart : ∀ cl, Sys2Proof.Laws.Encoding.Statement (.gangedPassStart cl) := by intro cl h w e; cases e

theorem Sys2Proof.Laws.Encoding.gangShapeChange : ∀ cl, Sys2Proof.Laws.Encoding.Statement (.gangShapeChange cl) := by intro cl h w e; cases e

theorem Sys2Proof.Laws.Encoding.matrixEntryEnd : ∀ u gang, Sys2Proof.Laws.Encoding.Statement (.matrixEntryEnd u gang) := by intro u gang h w e; cases e

theorem Sys2Proof.Laws.Encoding.matrixPassComplete : ∀ u gang, Sys2Proof.Laws.Encoding.Statement (.matrixPassComplete u gang) := by intro u gang h w e; cases e

theorem Sys2Proof.Laws.Encoding.gangFeedUncorrectable : ∀ cl entered, Sys2Proof.Laws.Encoding.Statement (.gangFeedUncorrectable cl entered) := by intro cl entered h w e; cases e

theorem Sys2Proof.Laws.Encoding.vadd : ∀ k l tile vd va vb m bc fp, Sys2Proof.Laws.Encoding.Statement (.vadd k l tile vd va vb m bc fp) := by
  intro k l tile vd va vb m bc fp h w e
  simp only [Sys2Proof.Instr.wf, Sys2Proof.coreOk, Sys2Proof.bcOk, Bool.and_eq_true, decide_eq_true_eq] at h
  cases Option.some.inj e
  have := Bool.toNat_lt tile
  have := vd.isLt
  have := va.isLt
  have := vb.isLt
  have := m.isLt
  have := Bool.toNat_lt fp
  exact Sys2Proof.Laws.Encoding.word_shape (by decide) (by decide) (by simp_all) (by omega)

theorem Sys2Proof.Laws.Encoding.vmul : ∀ k l tile vd va vb m bc fp, Sys2Proof.Laws.Encoding.Statement (.vmul k l tile vd va vb m bc fp) := by
  intro k l tile vd va vb m bc fp h w e
  simp only [Sys2Proof.Instr.wf, Sys2Proof.coreOk, Sys2Proof.bcOk, Bool.and_eq_true, decide_eq_true_eq] at h
  cases Option.some.inj e
  have := Bool.toNat_lt tile
  have := vd.isLt
  have := va.isLt
  have := vb.isLt
  have := m.isLt
  have := Bool.toNat_lt fp
  exact Sys2Proof.Laws.Encoding.word_shape (by decide) (by decide) (by simp_all) (by omega)

theorem Sys2Proof.Laws.Encoding.vfma : ∀ k l tile vd va vb vc m bc fp, Sys2Proof.Laws.Encoding.Statement (.vfma k l tile vd va vb vc m bc fp) := by
  intro k l tile vd va vb vc m bc fp h w e
  simp only [Sys2Proof.Instr.wf, Sys2Proof.coreOk, Sys2Proof.bcOk, Bool.and_eq_true, decide_eq_true_eq] at h
  cases Option.some.inj e
  have := Bool.toNat_lt tile
  have := vd.isLt
  have := va.isLt
  have := vb.isLt
  have := vc.isLt
  have := m.isLt
  have := Bool.toNat_lt fp
  exact Sys2Proof.Laws.Encoding.word_shape (by decide) (by decide) (by simp_all) (by omega)

theorem Sys2Proof.Laws.Encoding.vcmp : ∀ k l md va vb cmp fp, Sys2Proof.Laws.Encoding.Statement (.vcmp k l md va vb cmp fp) := by
  intro k l md va vb cmp fp h w e
  simp only [Sys2Proof.Instr.wf, Sys2Proof.coreOk, Bool.and_eq_true, decide_eq_true_eq] at h
  cases Option.some.inj e
  have := md.isLt
  have := va.isLt
  have := vb.isLt
  have := Bool.toNat_lt fp
  exact Sys2Proof.Laws.Encoding.word_shape (by decide) (by decide) (by simp_all) (by omega)

theorem Sys2Proof.Laws.Encoding.vsel : ∀ k l tile vd va vb m bc fp, Sys2Proof.Laws.Encoding.Statement (.vsel k l tile vd va vb m bc fp) := by
  intro k l tile vd va vb m bc fp h w e
  simp only [Sys2Proof.Instr.wf, Sys2Proof.coreOk, Sys2Proof.bcOk, Bool.and_eq_true, decide_eq_true_eq] at h
  cases Option.some.inj e
  have := Bool.toNat_lt tile
  have := vd.isLt
  have := va.isLt
  have := vb.isLt
  have := m.isLt
  have := Bool.toNat_lt fp
  exact Sys2Proof.Laws.Encoding.word_shape (by decide) (by decide) (by simp_all) (by omega)

theorem Sys2Proof.Laws.Encoding.vmin : ∀ k l tile vd va vb m bc fp, Sys2Proof.Laws.Encoding.Statement (.vmin k l tile vd va vb m bc fp) := by
  intro k l tile vd va vb m bc fp h w e
  simp only [Sys2Proof.Instr.wf, Sys2Proof.coreOk, Sys2Proof.bcOk, Bool.and_eq_true, decide_eq_true_eq] at h
  cases Option.some.inj e
  have := Bool.toNat_lt tile
  have := vd.isLt
  have := va.isLt
  have := vb.isLt
  have := m.isLt
  have := Bool.toNat_lt fp
  exact Sys2Proof.Laws.Encoding.word_shape (by decide) (by decide) (by simp_all) (by omega)

theorem Sys2Proof.Laws.Encoding.vmax : ∀ k l tile vd va vb m bc fp, Sys2Proof.Laws.Encoding.Statement (.vmax k l tile vd va vb m bc fp) := by
  intro k l tile vd va vb m bc fp h w e
  simp only [Sys2Proof.Instr.wf, Sys2Proof.coreOk, Sys2Proof.bcOk, Bool.and_eq_true, decide_eq_true_eq] at h
  cases Option.some.inj e
  have := Bool.toNat_lt tile
  have := vd.isLt
  have := va.isLt
  have := vb.isLt
  have := m.isLt
  have := Bool.toNat_lt fp
  exact Sys2Proof.Laws.Encoding.word_shape (by decide) (by decide) (by simp_all) (by omega)

theorem Sys2Proof.Laws.Encoding.vld : ∀ k l vd an m off, Sys2Proof.Laws.Encoding.Statement (.vld k l vd an m off) := by
  intro k l vd an m off h w e
  simp only [Sys2Proof.Instr.wf, Sys2Proof.coreOk, Bool.and_eq_true, decide_eq_true_eq] at h
  cases Option.some.inj e
  have := vd.isLt
  have := an.isLt
  have := m.isLt
  have := off.isLt
  exact Sys2Proof.Laws.Encoding.word_shape (by decide) (by decide) (by simp_all) (by omega)

theorem Sys2Proof.Laws.Encoding.vst : ∀ k l vd an m off, Sys2Proof.Laws.Encoding.Statement (.vst k l vd an m off) := by
  intro k l vd an m off h w e
  simp only [Sys2Proof.Instr.wf, Sys2Proof.coreOk, Bool.and_eq_true, decide_eq_true_eq] at h
  cases Option.some.inj e
  have := vd.isLt
  have := an.isLt
  have := m.isLt
  have := off.isLt
  exact Sys2Proof.Laws.Encoding.word_shape (by decide) (by decide) (by simp_all) (by omega)

theorem Sys2Proof.Laws.Encoding.vectorPassComplete : ∀ k, Sys2Proof.Laws.Encoding.Statement (.vectorPassComplete k) := by intro k h w e; cases e

theorem Sys2Proof.Laws.Encoding.movePassComplete : ∀ k, Sys2Proof.Laws.Encoding.Statement (.movePassComplete k) := by intro k h w e; cases e

theorem Sys2Proof.Laws.Encoding.tapArm : ∀ k l tf side n gid, Sys2Proof.Laws.Encoding.Statement (.tapArm k l tf side n gid) := by
  intro k l tf side n gid h w e
  simp only [Sys2Proof.Instr.wf, Sys2Proof.coreOk, Bool.and_eq_true, decide_eq_true_eq] at h
  cases Option.some.inj e
  have := tf.isLt
  have := Bool.toNat_lt side
  have := gid.isLt
  exact Sys2Proof.Laws.Encoding.word_shape (by decide) (by decide) (by simp_all) (by omega)

theorem Sys2Proof.Laws.Encoding.tapOff : ∀ k l, Sys2Proof.Laws.Encoding.Statement (.tapOff k l) := by
  intro k l h w e
  simp only [Sys2Proof.Instr.wf, Sys2Proof.coreOk, Bool.and_eq_true, decide_eq_true_eq] at h
  cases Option.some.inj e
  exact Sys2Proof.Laws.Encoding.word_shape (by decide) (by decide) (by simp_all) (by omega)

theorem Sys2Proof.Laws.Encoding.tapAuto : ∀ k l tf, Sys2Proof.Laws.Encoding.Statement (.tapAuto k l tf) := by
  intro k l tf h w e
  simp only [Sys2Proof.Instr.wf, Sys2Proof.coreOk, Bool.and_eq_true, decide_eq_true_eq] at h
  cases Option.some.inj e
  have := tf.isLt
  exact Sys2Proof.Laws.Encoding.word_shape (by decide) (by decide) (by simp_all) (by omega)

theorem Sys2Proof.Laws.Encoding.syrkTap : ∀ k l tf, Sys2Proof.Laws.Encoding.Statement (.syrkTap k l tf) := by
  intro k l tf h w e
  simp only [Sys2Proof.Instr.wf, Sys2Proof.coreOk, Bool.and_eq_true, decide_eq_true_eq] at h
  cases Option.some.inj e
  have := tf.isLt
  exact Sys2Proof.Laws.Encoding.word_shape (by decide) (by decide) (by simp_all) (by omega)

theorem Sys2Proof.Laws.Encoding.tapDrain : ∀ k l tf, Sys2Proof.Laws.Encoding.Statement (.tapDrain k l tf) := by
  intro k l tf h w e
  simp only [Sys2Proof.Instr.wf, Sys2Proof.coreOk, Bool.and_eq_true, decide_eq_true_eq] at h
  cases Option.some.inj e
  have := tf.isLt
  exact Sys2Proof.Laws.Encoding.word_shape (by decide) (by decide) (by simp_all) (by omega)

theorem Sys2Proof.Laws.Encoding.tapAutoFold : ∀ k, Sys2Proof.Laws.Encoding.Statement (.tapAutoFold k) := by intro k h w e; cases e

theorem Sys2Proof.Laws.Encoding.tapFoldComplete : ∀ k, Sys2Proof.Laws.Encoding.Statement (.tapFoldComplete k) := by intro k h w e; cases e

theorem Sys2Proof.Laws.Encoding.nsiScale : ∀ k l t1 t2 p gs, Sys2Proof.Laws.Encoding.Statement (.nsiScale k l t1 t2 p gs) := by
  intro k l t1 t2 p gs h w e
  simp only [Sys2Proof.Instr.wf, Sys2Proof.coreOk, Bool.and_eq_true, decide_eq_true_eq] at h
  cases Option.some.inj e
  have := t1.isLt
  have := t2.isLt
  have := gs.isLt
  exact Sys2Proof.Laws.Encoding.word_shape (by decide) (by decide) (by simp_all) (by omega)

theorem Sys2Proof.Laws.Encoding.nsiStep : ∀ k l t1 t2 t3 p, Sys2Proof.Laws.Encoding.Statement (.nsiStep k l t1 t2 t3 p) := by
  intro k l t1 t2 t3 p h w e
  simp only [Sys2Proof.Instr.wf, Sys2Proof.coreOk, Bool.and_eq_true, decide_eq_true_eq] at h
  cases Option.some.inj e
  have := t1.isLt
  have := t2.isLt
  have := t3.isLt
  exact Sys2Proof.Laws.Encoding.word_shape (by decide) (by decide) (by simp_all) (by omega)

theorem Sys2Proof.Laws.Encoding.nsiResid : ∀ k l t1 t2 p gs, Sys2Proof.Laws.Encoding.Statement (.nsiResid k l t1 t2 p gs) := by
  intro k l t1 t2 p gs h w e
  simp only [Sys2Proof.Instr.wf, Sys2Proof.coreOk, Bool.and_eq_true, decide_eq_true_eq] at h
  cases Option.some.inj e
  have := t1.isLt
  have := t2.isLt
  have := gs.isLt
  exact Sys2Proof.Laws.Encoding.word_shape (by decide) (by decide) (by simp_all) (by omega)

theorem Sys2Proof.Laws.Encoding.cholSn : ∀ k l t1 t2 t3, Sys2Proof.Laws.Encoding.Statement (.cholSn k l t1 t2 t3) := by
  intro k l t1 t2 t3 h w e
  simp only [Sys2Proof.Instr.wf, Sys2Proof.coreOk, Bool.and_eq_true, decide_eq_true_eq] at h
  cases Option.some.inj e
  have := t1.isLt
  have := t2.isLt
  have := t3.isLt
  exact Sys2Proof.Laws.Encoding.word_shape (by decide) (by decide) (by simp_all) (by omega)

theorem Sys2Proof.Laws.Encoding.ldltSn : ∀ k l t1 t2 t3, Sys2Proof.Laws.Encoding.Statement (.ldltSn k l t1 t2 t3) := by
  intro k l t1 t2 t3 h w e
  simp only [Sys2Proof.Instr.wf, Sys2Proof.coreOk, Bool.and_eq_true, decide_eq_true_eq] at h
  cases Option.some.inj e
  have := t1.isLt
  have := t2.isLt
  have := t3.isLt
  exact Sys2Proof.Laws.Encoding.word_shape (by decide) (by decide) (by simp_all) (by omega)

theorem Sys2Proof.Laws.Encoding.trsvSn : ∀ k l t1 t2 t3 p, Sys2Proof.Laws.Encoding.Statement (.trsvSn k l t1 t2 t3 p) := by
  intro k l t1 t2 t3 p h w e
  simp only [Sys2Proof.Instr.wf, Sys2Proof.coreOk, Bool.and_eq_true, decide_eq_true_eq] at h
  cases Option.some.inj e
  have := t1.isLt
  have := t2.isLt
  have := t3.isLt
  exact Sys2Proof.Laws.Encoding.word_shape (by decide) (by decide) (by simp_all) (by omega)

theorem Sys2Proof.Laws.Encoding.refine : ∀ k l t1 t2 t3 t4, Sys2Proof.Laws.Encoding.Statement (.refine k l t1 t2 t3 t4) := by
  intro k l t1 t2 t3 t4 h w e
  simp only [Sys2Proof.Instr.wf, Sys2Proof.coreOk, Bool.and_eq_true, decide_eq_true_eq] at h
  cases Option.some.inj e
  have := t1.isLt
  have := t2.isLt
  have := t3.isLt
  have := t4.isLt
  exact Sys2Proof.Laws.Encoding.word_shape (by decide) (by decide) (by simp_all) (by omega)

theorem Sys2Proof.Laws.Encoding.factorOpComplete : ∀ u gang, Sys2Proof.Laws.Encoding.Statement (.factorOpComplete u gang) := by intro u gang h w e; cases e

theorem Sys2Proof.Laws.Encoding.sigCnt : ∀ k l idx gt val, Sys2Proof.Laws.Encoding.Statement (.sigCnt k l idx gt val) := by
  intro k l idx gt val h w e
  simp only [Sys2Proof.Instr.wf, Sys2Proof.coreOk, Bool.and_eq_true, decide_eq_true_eq] at h
  cases Option.some.inj e
  have := gt.isLt
  have := val.isLt
  exact Sys2Proof.Laws.Encoding.word_shape (by decide) (by decide) (by simp_all) (by omega)

theorem Sys2Proof.Laws.Encoding.waitCnt : ∀ k l idx val, Sys2Proof.Laws.Encoding.Statement (.waitCnt k l idx val) := by
  intro k l idx val h w e
  simp only [Sys2Proof.Instr.wf, Sys2Proof.coreOk, Bool.and_eq_true, decide_eq_true_eq] at h
  cases Option.some.inj e
  have := val.isLt
  exact Sys2Proof.Laws.Encoding.word_shape (by decide) (by decide) (by simp_all) (by omega)

theorem Sys2Proof.Laws.Encoding.setCnt : ∀ k l idx val, Sys2Proof.Laws.Encoding.Statement (.setCnt k l idx val) := by
  intro k l idx val h w e
  simp only [Sys2Proof.Instr.wf, Sys2Proof.coreOk, Bool.and_eq_true, decide_eq_true_eq] at h
  cases Option.some.inj e
  have := val.isLt
  exact Sys2Proof.Laws.Encoding.word_shape (by decide) (by decide) (by simp_all) (by omega)

theorem Sys2Proof.Laws.Encoding.barArrive : ∀ k l idx, Sys2Proof.Laws.Encoding.Statement (.barArrive k l idx) := by
  intro k l idx h w e
  simp only [Sys2Proof.Instr.wf, Sys2Proof.coreOk, Bool.and_eq_true, decide_eq_true_eq] at h
  cases Option.some.inj e
  exact Sys2Proof.Laws.Encoding.word_shape (by decide) (by decide) (by simp_all) (by omega)

theorem Sys2Proof.Laws.Encoding.barWait : ∀ k l idx, Sys2Proof.Laws.Encoding.Statement (.barWait k l idx) := by
  intro k l idx h w e
  simp only [Sys2Proof.Instr.wf, Sys2Proof.coreOk, Bool.and_eq_true, decide_eq_true_eq] at h
  cases Option.some.inj e
  exact Sys2Proof.Laws.Encoding.word_shape (by decide) (by decide) (by simp_all) (by omega)

theorem Sys2Proof.Laws.Encoding.flagSet : ∀ k l idx, Sys2Proof.Laws.Encoding.Statement (.flagSet k l idx) := by
  intro k l idx h w e
  simp only [Sys2Proof.Instr.wf, Sys2Proof.coreOk, Bool.and_eq_true, decide_eq_true_eq] at h
  cases Option.some.inj e
  exact Sys2Proof.Laws.Encoding.word_shape (by decide) (by decide) (by simp_all) (by omega)

theorem Sys2Proof.Laws.Encoding.flagWait : ∀ k l idx, Sys2Proof.Laws.Encoding.Statement (.flagWait k l idx) := by
  intro k l idx h w e
  simp only [Sys2Proof.Instr.wf, Sys2Proof.coreOk, Bool.and_eq_true, decide_eq_true_eq] at h
  cases Option.some.inj e
  exact Sys2Proof.Laws.Encoding.word_shape (by decide) (by decide) (by simp_all) (by omega)

theorem Sys2Proof.Laws.Encoding.flagClr : ∀ k l idx, Sys2Proof.Laws.Encoding.Statement (.flagClr k l idx) := by
  intro k l idx h w e
  simp only [Sys2Proof.Instr.wf, Sys2Proof.coreOk, Bool.and_eq_true, decide_eq_true_eq] at h
  cases Option.some.inj e
  exact Sys2Proof.Laws.Encoding.word_shape (by decide) (by decide) (by simp_all) (by omega)

theorem Sys2Proof.Laws.Encoding.hostIrq : ∀ k l idx, Sys2Proof.Laws.Encoding.Statement (.hostIrq k l idx) := by
  intro k l idx h w e
  simp only [Sys2Proof.Instr.wf, Sys2Proof.coreOk, Bool.and_eq_true, decide_eq_true_eq] at h
  cases Option.some.inj e
  exact Sys2Proof.Laws.Encoding.word_shape (by decide) (by decide) (by simp_all) (by omega)

theorem Sys2Proof.Laws.Encoding.signalTakesEffect : ∀ k, Sys2Proof.Laws.Encoding.Statement (.signalTakesEffect k) := by intro k h w e; cases e

theorem Sys2Proof.Laws.Encoding.baSet : ∀ k l g, Sys2Proof.Laws.Encoding.Statement (.baSet k l g) := by
  intro k l g h w e
  simp only [Sys2Proof.Instr.wf, Sys2Proof.coreOk, Bool.and_eq_true, decide_eq_true_eq] at h
  cases Option.some.inj e
  have := g.isLt
  exact Sys2Proof.Laws.Encoding.word_shape (by decide) (by decide) (by simp_all) (by omega)

theorem Sys2Proof.Laws.Encoding.baAdv : ∀ k l imm, Sys2Proof.Laws.Encoding.Statement (.baAdv k l imm) := by
  intro k l imm h w e
  simp only [Sys2Proof.Instr.wf, Sys2Proof.coreOk, Bool.and_eq_true, decide_eq_true_eq] at h
  cases Option.some.inj e
  have := imm.isLt
  exact Sys2Proof.Laws.Encoding.word_shape (by decide) (by decide) (by simp_all) (by omega)

theorem Sys2Proof.Laws.Encoding.baNow : ∀ k l imm, Sys2Proof.Laws.Encoding.Statement (.baNow k l imm) := by
  intro k l imm h w e
  simp only [Sys2Proof.Instr.wf, Sys2Proof.coreOk, Bool.and_eq_true, decide_eq_true_eq] at h
  cases Option.some.inj e
  have := imm.isLt
  exact Sys2Proof.Laws.Encoding.word_shape (by decide) (by decide) (by simp_all) (by omega)

theorem Sys2Proof.Laws.Encoding.beatWait : ∀ k l imm, Sys2Proof.Laws.Encoding.Statement (.beatWait k l imm) := by
  intro k l imm h w e
  simp only [Sys2Proof.Instr.wf, Sys2Proof.coreOk, Bool.and_eq_true, decide_eq_true_eq] at h
  cases Option.some.inj e
  have := imm.isLt
  exact Sys2Proof.Laws.Encoding.word_shape (by decide) (by decide) (by simp_all) (by omega)

theorem Sys2Proof.Laws.Encoding.beatRd : ∀ k l g, Sys2Proof.Laws.Encoding.Statement (.beatRd k l g) := by
  intro k l g h w e
  simp only [Sys2Proof.Instr.wf, Sys2Proof.coreOk, Bool.and_eq_true, decide_eq_true_eq] at h
  cases Option.some.inj e
  have := g.isLt
  exact Sys2Proof.Laws.Encoding.word_shape (by decide) (by decide) (by simp_all) (by omega)

theorem Sys2Proof.Laws.Encoding.instructionStart : ∀ k inp, Sys2Proof.Laws.Encoding.Statement (.instructionStart k inp) := by intro k inp h w e; cases e

theorem Sys2Proof.Laws.Encoding.xferPost : ∀ k l an cnt gt val, Sys2Proof.Laws.Encoding.Statement (.xferPost k l an cnt gt val) := by
  intro k l an cnt gt val h w e
  simp only [Sys2Proof.Instr.wf, Sys2Proof.coreOk, Bool.and_eq_true, decide_eq_true_eq] at h
  cases Option.some.inj e
  have := an.isLt
  have := gt.isLt
  have := val.isLt
  exact Sys2Proof.Laws.Encoding.word_shape (by decide) (by decide) (by simp_all) (by omega)

theorem Sys2Proof.Laws.Encoding.collPost : ∀ k l an cnt gt val, Sys2Proof.Laws.Encoding.Statement (.collPost k l an cnt gt val) := by
  intro k l an cnt gt val h w e
  simp only [Sys2Proof.Instr.wf, Sys2Proof.coreOk, Bool.and_eq_true, decide_eq_true_eq] at h
  cases Option.some.inj e
  have := an.isLt
  have := gt.isLt
  have := val.isLt
  exact Sys2Proof.Laws.Encoding.word_shape (by decide) (by decide) (by simp_all) (by omega)

theorem Sys2Proof.Laws.Encoding.updApply : ∀ k l an cnt gt val, Sys2Proof.Laws.Encoding.Statement (.updApply k l an cnt gt val) := by
  intro k l an cnt gt val h w e
  simp only [Sys2Proof.Instr.wf, Sys2Proof.coreOk, Bool.and_eq_true, decide_eq_true_eq] at h
  cases Option.some.inj e
  have := an.isLt
  have := gt.isLt
  have := val.isLt
  exact Sys2Proof.Laws.Encoding.word_shape (by decide) (by decide) (by simp_all) (by omega)

theorem Sys2Proof.Laws.Encoding.updNs : ∀ k l t1 t2 t3, Sys2Proof.Laws.Encoding.Statement (.updNs k l t1 t2 t3) := by
  intro k l t1 t2 t3 h w e
  simp only [Sys2Proof.Instr.wf, Sys2Proof.coreOk, Bool.and_eq_true, decide_eq_true_eq] at h
  cases Option.some.inj e
  have := t1.isLt
  have := t2.isLt
  have := t3.isLt
  exact Sys2Proof.Laws.Encoding.word_shape (by decide) (by decide) (by simp_all) (by omega)

theorem Sys2Proof.Laws.Encoding.updNf : ∀ k l t1, Sys2Proof.Laws.Encoding.Statement (.updNf k l t1) := by
  intro k l t1 h w e
  simp only [Sys2Proof.Instr.wf, Sys2Proof.coreOk, Bool.and_eq_true, decide_eq_true_eq] at h
  cases Option.some.inj e
  have := t1.isLt
  exact Sys2Proof.Laws.Encoding.word_shape (by decide) (by decide) (by simp_all) (by omega)

theorem Sys2Proof.Laws.Encoding.dmaChunkDone : ∀ x, Sys2Proof.Laws.Encoding.Statement (.dmaChunkDone x) := by intro x h w e; cases e

theorem Sys2Proof.Laws.Encoding.transferComplete : ∀ x, Sys2Proof.Laws.Encoding.Statement (.transferComplete x) := by intro x h w e; cases e

theorem Sys2Proof.Laws.Encoding.tchk : ∀ k l t1 g, Sys2Proof.Laws.Encoding.Statement (.tchk k l t1 g) := by
  intro k l t1 g h w e
  simp only [Sys2Proof.Instr.wf, Sys2Proof.coreOk, Bool.and_eq_true, decide_eq_true_eq] at h
  cases Option.some.inj e
  have := t1.isLt
  have := g.isLt
  exact Sys2Proof.Laws.Encoding.word_shape (by decide) (by decide) (by simp_all) (by omega)

theorem Sys2Proof.Laws.Encoding.chkRange : ∀ k l t1 g gs, Sys2Proof.Laws.Encoding.Statement (.chkRange k l t1 g gs) := by
  intro k l t1 g gs h w e
  simp only [Sys2Proof.Instr.wf, Sys2Proof.coreOk, Bool.and_eq_true, decide_eq_true_eq] at h
  cases Option.some.inj e
  have := t1.isLt
  have := g.isLt
  have := gs.isLt
  exact Sys2Proof.Laws.Encoding.word_shape (by decide) (by decide) (by simp_all) (by omega)

theorem Sys2Proof.Laws.Encoding.chkNf : ∀ k l t1 g, Sys2Proof.Laws.Encoding.Statement (.chkNf k l t1 g) := by
  intro k l t1 g h w e
  simp only [Sys2Proof.Instr.wf, Sys2Proof.coreOk, Bool.and_eq_true, decide_eq_true_eq] at h
  cases Option.some.inj e
  have := t1.isLt
  have := g.isLt
  exact Sys2Proof.Laws.Encoding.word_shape (by decide) (by decide) (by simp_all) (by omega)

theorem Sys2Proof.Laws.Encoding.digFold : ∀ k l gs acc, Sys2Proof.Laws.Encoding.Statement (.digFold k l gs acc) := by
  intro k l gs acc h w e
  simp only [Sys2Proof.Instr.wf, Sys2Proof.coreOk, Bool.and_eq_true, decide_eq_true_eq] at h
  cases Option.some.inj e
  have := gs.isLt
  have := acc.isLt
  exact Sys2Proof.Laws.Encoding.word_shape (by decide) (by decide) (by simp_all) (by omega)

theorem Sys2Proof.Laws.Encoding.digRd : ∀ k l g acc, Sys2Proof.Laws.Encoding.Statement (.digRd k l g acc) := by
  intro k l g acc h w e
  simp only [Sys2Proof.Instr.wf, Sys2Proof.coreOk, Bool.and_eq_true, decide_eq_true_eq] at h
  cases Option.some.inj e
  have := g.isLt
  have := acc.isLt
  exact Sys2Proof.Laws.Encoding.word_shape (by decide) (by decide) (by simp_all) (by omega)

theorem Sys2Proof.Laws.Encoding.digClr : ∀ k l acc, Sys2Proof.Laws.Encoding.Statement (.digClr k l acc) := by
  intro k l acc h w e
  simp only [Sys2Proof.Instr.wf, Sys2Proof.coreOk, Bool.and_eq_true, decide_eq_true_eq] at h
  cases Option.some.inj e
  have := acc.isLt
  exact Sys2Proof.Laws.Encoding.word_shape (by decide) (by decide) (by simp_all) (by omega)

theorem Sys2Proof.Laws.Encoding.cntRd : ∀ k l g imm, Sys2Proof.Laws.Encoding.Statement (.cntRd k l g imm) := by
  intro k l g imm h w e
  simp only [Sys2Proof.Instr.wf, Sys2Proof.coreOk, Bool.and_eq_true, decide_eq_true_eq] at h
  cases Option.some.inj e
  have := g.isLt
  have := imm.isLt
  exact Sys2Proof.Laws.Encoding.word_shape (by decide) (by decide) (by simp_all) (by omega)

theorem Sys2Proof.Laws.Encoding.attrSet : ∀ k l gs1 gs2, Sys2Proof.Laws.Encoding.Statement (.attrSet k l gs1 gs2) := by
  intro k l gs1 gs2 h w e
  simp only [Sys2Proof.Instr.wf, Sys2Proof.coreOk, Bool.and_eq_true, decide_eq_true_eq] at h
  cases Option.some.inj e
  have := gs1.isLt
  have := gs2.isLt
  exact Sys2Proof.Laws.Encoding.word_shape (by decide) (by decide) (by simp_all) (by omega)

theorem Sys2Proof.Laws.Encoding.traceMark : ∀ k l imm, Sys2Proof.Laws.Encoding.Statement (.traceMark k l imm) := by
  intro k l imm h w e
  simp only [Sys2Proof.Instr.wf, Sys2Proof.coreOk, Bool.and_eq_true, decide_eq_true_eq] at h
  cases Option.some.inj e
  have := imm.isLt
  exact Sys2Proof.Laws.Encoding.word_shape (by decide) (by decide) (by simp_all) (by omega)

theorem Sys2Proof.Laws.Encoding.halt : ∀ k l, Sys2Proof.Laws.Encoding.Statement (.halt k l) := by
  intro k l h w e
  simp only [Sys2Proof.Instr.wf, Sys2Proof.coreOk, Bool.and_eq_true, decide_eq_true_eq] at h
  cases Option.some.inj e
  exact Sys2Proof.Laws.Encoding.word_shape (by decide) (by decide) (by simp_all) (by omega)

theorem Sys2Proof.Laws.Encoding.nop : ∀ k l, Sys2Proof.Laws.Encoding.Statement (.nop k l) := by
  intro k l h w e
  simp only [Sys2Proof.Instr.wf, Sys2Proof.coreOk, Bool.and_eq_true, decide_eq_true_eq] at h
  cases Option.some.inj e
  exact Sys2Proof.Laws.Encoding.word_shape (by decide) (by decide) (by simp_all) (by omega)

theorem Sys2Proof.Laws.Encoding.endProg : ∀ k l kind gt idx val, Sys2Proof.Laws.Encoding.Statement (.endProg k l kind gt idx val) := by
  intro k l kind gt idx val h w e
  simp only [Sys2Proof.Instr.wf, Sys2Proof.coreOk, Bool.and_eq_true, decide_eq_true_eq] at h
  cases Option.some.inj e
  have := gt.isLt
  have := val.isLt
  exact Sys2Proof.Laws.Encoding.word_shape (by decide) (by decide) (by simp_all) (by omega)

theorem Sys2Proof.Laws.Encoding.bankSwap : ∀ k l, Sys2Proof.Laws.Encoding.Statement (.bankSwap k l) := by
  intro k l h w e
  simp only [Sys2Proof.Instr.wf, Sys2Proof.coreOk, Bool.and_eq_true, decide_eq_true_eq] at h
  cases Option.some.inj e
  exact Sys2Proof.Laws.Encoding.word_shape (by decide) (by decide) (by simp_all) (by omega)

theorem Sys2Proof.Laws.Encoding.fence : ∀ k l imm, Sys2Proof.Laws.Encoding.Statement (.fence k l imm) := by
  intro k l imm h w e
  simp only [Sys2Proof.Instr.wf, Sys2Proof.coreOk, Bool.and_eq_true, decide_eq_true_eq] at h
  cases Option.some.inj e
  have := imm.isLt
  exact Sys2Proof.Laws.Encoding.word_shape (by decide) (by decide) (by simp_all) (by omega)

theorem Sys2Proof.Laws.Encoding.statRd : ∀ k l g imm, Sys2Proof.Laws.Encoding.Statement (.statRd k l g imm) := by
  intro k l g imm h w e
  simp only [Sys2Proof.Instr.wf, Sys2Proof.coreOk, Bool.and_eq_true, decide_eq_true_eq] at h
  cases Option.some.inj e
  have := g.isLt
  have := imm.isLt
  exact Sys2Proof.Laws.Encoding.word_shape (by decide) (by decide) (by simp_all) (by omega)

theorem Sys2Proof.Laws.Encoding.coreFault : ∀ k cause engine, Sys2Proof.Laws.Encoding.Statement (.coreFault k cause engine) := by intro k cause engine h w e; cases e

theorem Sys2Proof.Laws.Encoding.drainComplete : ∀ k, Sys2Proof.Laws.Encoding.Statement (.drainComplete k) := by intro k h w e; cases e

theorem Sys2Proof.Laws.Encoding.programLoadComplete : ∀ k, Sys2Proof.Laws.Encoding.Statement (.programLoadComplete k) := by intro k h w e; cases e

theorem Sys2Proof.Laws.Encoding.swapTakesEffect : ∀ k, Sys2Proof.Laws.Encoding.Statement (.swapTakesEffect k) := by intro k h w e; cases e

theorem Sys2Proof.Laws.Encoding.coreStart : ∀ k, Sys2Proof.Laws.Encoding.Statement (.coreStart k) := by intro k h w e; cases e

theorem Sys2Proof.Laws.Encoding.launch : ∀ q, Sys2Proof.Laws.Encoding.Statement (.launch q) := by intro q h w e; cases e

theorem Sys2Proof.Laws.Encoding.copy : ∀ q, Sys2Proof.Laws.Encoding.Statement (.copy q) := by intro q h w e; cases e

theorem Sys2Proof.Laws.Encoding.collective : ∀ q, Sys2Proof.Laws.Encoding.Statement (.collective q) := by intro q h w e; cases e

theorem Sys2Proof.Laws.Encoding.stepCommit : ∀ q, Sys2Proof.Laws.Encoding.Statement (.stepCommit q) := by intro q h w e; cases e

theorem Sys2Proof.Laws.Encoding.stepCommitReplayDone : ∀ q, Sys2Proof.Laws.Encoding.Statement (.stepCommitReplayDone q) := by intro q h w e; cases e

theorem Sys2Proof.Laws.Encoding.solve : ∀ q, Sys2Proof.Laws.Encoding.Statement (.solve q) := by intro q h w e; cases e

theorem Sys2Proof.Laws.Encoding.checkpointRequest : ∀ q, Sys2Proof.Laws.Encoding.Statement (.checkpointRequest q) := by intro q h w e; cases e

theorem Sys2Proof.Laws.Encoding.checkpointDrain : ∀ q, Sys2Proof.Laws.Encoding.Statement (.checkpointDrain q) := by intro q h w e; cases e

theorem Sys2Proof.Laws.Encoding.restoreBuddy : ∀ q, Sys2Proof.Laws.Encoding.Statement (.restoreBuddy q) := by intro q h w e; cases e

theorem Sys2Proof.Laws.Encoding.restoreHost : ∀ q, Sys2Proof.Laws.Encoding.Statement (.restoreHost q) := by intro q h w e; cases e

theorem Sys2Proof.Laws.Encoding.signalCounter : ∀ q, Sys2Proof.Laws.Encoding.Statement (.signalCounter q) := by intro q h w e; cases e

theorem Sys2Proof.Laws.Encoding.signalFlagSet : ∀ q, Sys2Proof.Laws.Encoding.Statement (.signalFlagSet q) := by intro q h w e; cases e

theorem Sys2Proof.Laws.Encoding.signalFlagClear : ∀ q, Sys2Proof.Laws.Encoding.Statement (.signalFlagClear q) := by intro q h w e; cases e

theorem Sys2Proof.Laws.Encoding.signalBarrier : ∀ q, Sys2Proof.Laws.Encoding.Statement (.signalBarrier q) := by intro q h w e; cases e

theorem Sys2Proof.Laws.Encoding.waitCounter : ∀ q, Sys2Proof.Laws.Encoding.Statement (.waitCounter q) := by intro q h w e; cases e

theorem Sys2Proof.Laws.Encoding.waitFlag : ∀ q, Sys2Proof.Laws.Encoding.Statement (.waitFlag q) := by intro q h w e; cases e

theorem Sys2Proof.Laws.Encoding.waitBarrier : ∀ q, Sys2Proof.Laws.Encoding.Statement (.waitBarrier q) := by intro q h w e; cases e

theorem Sys2Proof.Laws.Encoding.waitBeat : ∀ q, Sys2Proof.Laws.Encoding.Statement (.waitBeat q) := by intro q h w e; cases e

theorem Sys2Proof.Laws.Encoding.waitTimeout : ∀ q, Sys2Proof.Laws.Encoding.Statement (.waitTimeout q) := by intro q h w e; cases e

theorem Sys2Proof.Laws.Encoding.alloc : ∀ q, Sys2Proof.Laws.Encoding.Statement (.alloc q) := by intro q h w e; cases e

theorem Sys2Proof.Laws.Encoding.free : ∀ q, Sys2Proof.Laws.Encoding.Statement (.free q) := by intro q h w e; cases e

theorem Sys2Proof.Laws.Encoding.freeComplete : ∀ idx, Sys2Proof.Laws.Encoding.Statement (.freeComplete idx) := by intro idx h w e; cases e

theorem Sys2Proof.Laws.Encoding.counterSnap : ∀ q, Sys2Proof.Laws.Encoding.Statement (.counterSnap q) := by intro q h w e; cases e

theorem Sys2Proof.Laws.Encoding.exportShard : ∀ q, Sys2Proof.Laws.Encoding.Statement (.exportShard q) := by intro q h w e; cases e

theorem Sys2Proof.Laws.Encoding.sqTailDoorbell : ∀ fn q v, Sys2Proof.Laws.Encoding.Statement (.sqTailDoorbell fn q v) := by intro fn q v h w e; cases e

theorem Sys2Proof.Laws.Encoding.cqHeadDoorbell : ∀ fn q v, Sys2Proof.Laws.Encoding.Statement (.cqHeadDoorbell fn q v) := by intro fn q v h w e; cases e

theorem Sys2Proof.Laws.Encoding.doorbellFlagSet : ∀ fn q idx, Sys2Proof.Laws.Encoding.Statement (.doorbellFlagSet fn q idx) := by intro fn q idx h w e; cases e

theorem Sys2Proof.Laws.Encoding.doorbellFlagClr : ∀ fn q idx, Sys2Proof.Laws.Encoding.Statement (.doorbellFlagClr fn q idx) := by intro fn q idx h w e; cases e

theorem Sys2Proof.Laws.Encoding.commandFetch : ∀ q, Sys2Proof.Laws.Encoding.Statement (.commandFetch q) := by intro q h w e; cases e

theorem Sys2Proof.Laws.Encoding.completionPost : ∀ q, Sys2Proof.Laws.Encoding.Statement (.completionPost q) := by intro q h w e; cases e

theorem Sys2Proof.Laws.Encoding.queueResume : ∀ fn q v, Sys2Proof.Laws.Encoding.Statement (.queueResume fn q v) := by intro fn q v h w e; cases e

theorem Sys2Proof.Laws.Encoding.barrierMembersWrite : ∀ fn n v, Sys2Proof.Laws.Encoding.Statement (.barrierMembersWrite fn n v) := by intro fn n v h w e; cases e

theorem Sys2Proof.Laws.Encoding.deadlock : ∀ ix, Sys2Proof.Laws.Encoding.Statement (.deadlock ix) := by intro ix h w e; cases e

theorem Sys2Proof.Laws.Encoding.configure : ∀ fn ix, Sys2Proof.Laws.Encoding.Statement (.configure fn ix) := by intro fn ix h w e; cases e

theorem Sys2Proof.Laws.Encoding.activate : ∀ fn ix restore, Sys2Proof.Laws.Encoding.Statement (.activate fn ix restore) := by intro fn ix restore h w e; cases e

theorem Sys2Proof.Laws.Encoding.quiesce : ∀ fn ix save, Sys2Proof.Laws.Encoding.Statement (.quiesce fn ix save) := by intro fn ix save h w e; cases e

theorem Sys2Proof.Laws.Encoding.quiesceComplete : ∀ ix, Sys2Proof.Laws.Encoding.Statement (.quiesceComplete ix) := by intro ix h w e; cases e

theorem Sys2Proof.Laws.Encoding.instanceReset : ∀ fn ix keepHbm, Sys2Proof.Laws.Encoding.Statement (.instanceReset fn ix keepHbm) := by intro fn ix keepHbm h w e; cases e

theorem Sys2Proof.Laws.Encoding.release : ∀ fn ix, Sys2Proof.Laws.Encoding.Statement (.release fn ix) := by intro fn ix h w e; cases e

theorem Sys2Proof.Laws.Encoding.functionLevelReset : ∀ fn, Sys2Proof.Laws.Encoding.Statement (.functionLevelReset fn) := by intro fn h w e; cases e

theorem Sys2Proof.Laws.Encoding.resetComplete : ∀ ix, Sys2Proof.Laws.Encoding.Statement (.resetComplete ix) := by intro ix h w e; cases e

theorem Sys2Proof.Laws.Encoding.instanceResetTimeout : ∀ ix, Sys2Proof.Laws.Encoding.Statement (.instanceResetTimeout ix) := by intro ix h w e; cases e

theorem Sys2Proof.Laws.Encoding.linkEnable : ∀ fn p v, Sys2Proof.Laws.Encoding.Statement (.linkEnable fn p v) := by intro fn p v h w e; cases e

theorem Sys2Proof.Laws.Encoding.linkDisable : ∀ fn p v, Sys2Proof.Laws.Encoding.Statement (.linkDisable fn p v) := by intro fn p v h w e; cases e

theorem Sys2Proof.Laws.Encoding.linkTrainingComplete : ∀ p coord peerPort, Sys2Proof.Laws.Encoding.Statement (.linkTrainingComplete p coord peerPort) := by intro p coord peerPort h w e; cases e

theorem Sys2Proof.Laws.Encoding.linkTrainingTimeout : ∀ p, Sys2Proof.Laws.Encoding.Statement (.linkTrainingTimeout p) := by intro p h w e; cases e

theorem Sys2Proof.Laws.Encoding.frameSend : ∀ p, Sys2Proof.Laws.Encoding.Statement (.frameSend p) := by intro p h w e; cases e

theorem Sys2Proof.Laws.Encoding.frameReceive : ∀ p f, Sys2Proof.Laws.Encoding.Statement (.frameReceive p f) := by intro p f h w e; cases e

theorem Sys2Proof.Laws.Encoding.laneLockLoss : ∀ p, Sys2Proof.Laws.Encoding.Statement (.laneLockLoss p) := by intro p h w e; cases e

theorem Sys2Proof.Laws.Encoding.frameCheckTimeout : ∀ p, Sys2Proof.Laws.Encoding.Statement (.frameCheckTimeout p) := by intro p h w e; cases e

theorem Sys2Proof.Laws.Encoding.collChunk : Sys2Proof.Laws.Encoding.Statement .collChunk := by intro h w e; cases e

theorem Sys2Proof.Laws.Encoding.chunkAck : Sys2Proof.Laws.Encoding.Statement .chunkAck := by intro h w e; cases e

theorem Sys2Proof.Laws.Encoding.chunkNack : Sys2Proof.Laws.Encoding.Statement .chunkNack := by intro h w e; cases e

theorem Sys2Proof.Laws.Encoding.collChunkTimeout : ∀ ix seq, Sys2Proof.Laws.Encoding.Statement (.collChunkTimeout ix seq) := by intro ix seq h w e; cases e

theorem Sys2Proof.Laws.Encoding.collectiveComplete : ∀ ix seq, Sys2Proof.Laws.Encoding.Statement (.collectiveComplete ix seq) := by intro ix seq h w e; cases e

theorem Sys2Proof.Laws.Encoding.xferWrite : Sys2Proof.Laws.Encoding.Statement .xferWrite := by intro h w e; cases e

theorem Sys2Proof.Laws.Encoding.xferReadReq : Sys2Proof.Laws.Encoding.Statement .xferReadReq := by intro h w e; cases e

theorem Sys2Proof.Laws.Encoding.xferReadData : Sys2Proof.Laws.Encoding.Statement .xferReadData := by intro h w e; cases e

theorem Sys2Proof.Laws.Encoding.refused : Sys2Proof.Laws.Encoding.Statement .refused := by intro h w e; cases e

theorem Sys2Proof.Laws.Encoding.verdict : Sys2Proof.Laws.Encoding.Statement .verdict := by intro h w e; cases e

theorem Sys2Proof.Laws.Encoding.verdictSend : ∀ ix, Sys2Proof.Laws.Encoding.Statement (.verdictSend ix) := by intro ix h w e; cases e

theorem Sys2Proof.Laws.Encoding.clove : Sys2Proof.Laws.Encoding.Statement .clove := by intro h w e; cases e

theorem Sys2Proof.Laws.Encoding.gateTimeout : ∀ ix, Sys2Proof.Laws.Encoding.Statement (.gateTimeout ix) := by intro ix h w e; cases e

theorem Sys2Proof.Laws.Encoding.commitApply : ∀ ix, Sys2Proof.Laws.Encoding.Statement (.commitApply ix) := by intro ix h w e; cases e

theorem Sys2Proof.Laws.Encoding.rootDispatch : ∀ ix, Sys2Proof.Laws.Encoding.Statement (.rootDispatch ix) := by intro ix h w e; cases e

theorem Sys2Proof.Laws.Encoding.commitHoldRelease : ∀ ix, Sys2Proof.Laws.Encoding.Statement (.commitHoldRelease ix) := by intro ix h w e; cases e

theorem Sys2Proof.Laws.Encoding.rootLateTimeout : ∀ ix, Sys2Proof.Laws.Encoding.Statement (.rootLateTimeout ix) := by intro ix h w e; cases e

theorem Sys2Proof.Laws.Encoding.updEnableWrite : ∀ fn ix v, Sys2Proof.Laws.Encoding.Statement (.updEnableWrite fn ix v) := by intro fn ix v h w e; cases e

theorem Sys2Proof.Laws.Encoding.updatePostPerform : ∀ ix, Sys2Proof.Laws.Encoding.Statement (.updatePostPerform ix) := by intro ix h w e; cases e

theorem Sys2Proof.Laws.Encoding.undoComplete : ∀ ix, Sys2Proof.Laws.Encoding.Statement (.undoComplete ix) := by intro ix h w e; cases e

theorem Sys2Proof.Laws.Encoding.solveStart : ∀ ix, Sys2Proof.Laws.Encoding.Statement (.solveStart ix) := by intro ix h w e; cases e

theorem Sys2Proof.Laws.Encoding.solveAnnounce : ∀ ix tag, Sys2Proof.Laws.Encoding.Statement (.solveAnnounce ix tag) := by intro ix tag h w e; cases e

theorem Sys2Proof.Laws.Encoding.solveFreeze : ∀ ix tag, Sys2Proof.Laws.Encoding.Statement (.solveFreeze ix tag) := by intro ix tag h w e; cases e

theorem Sys2Proof.Laws.Encoding.supernodeBoundaryEnd : ∀ k, Sys2Proof.Laws.Encoding.Statement (.supernodeBoundaryEnd k) := by intro k h w e; cases e

theorem Sys2Proof.Laws.Encoding.solveAbandonTimeout : ∀ ix tag, Sys2Proof.Laws.Encoding.Statement (.solveAbandonTimeout ix tag) := by intro ix tag h w e; cases e

theorem Sys2Proof.Laws.Encoding.solveResultPost : ∀ ix tag, Sys2Proof.Laws.Encoding.Statement (.solveResultPost ix tag) := by intro ix tag h w e; cases e

theorem Sys2Proof.Laws.Encoding.devModeWrite : ∀ fn v, Sys2Proof.Laws.Encoding.Statement (.devModeWrite fn v) := by intro fn v h w e; cases e

theorem Sys2Proof.Laws.Encoding.auditRecordWrite : ∀ ix, Sys2Proof.Laws.Encoding.Statement (.auditRecordWrite ix) := by intro ix h w e; cases e

theorem Sys2Proof.Laws.Encoding.errorRecordWrite : Sys2Proof.Laws.Encoding.Statement .errorRecordWrite := by intro h w e; cases e

theorem Sys2Proof.Laws.Encoding.recoveryWindowTimeout : ∀ slot, Sys2Proof.Laws.Encoding.Statement (.recoveryWindowTimeout slot) := by intro slot h w e; cases e

theorem Sys2Proof.Laws.Encoding.patrolScrub : ∀ addr corrected, Sys2Proof.Laws.Encoding.Statement (.patrolScrub addr corrected) := by intro addr corrected h w e; cases e

theorem Sys2Proof.Laws.Encoding.warmReset : ∀ fn keepHbm, Sys2Proof.Laws.Encoding.Statement (.warmReset fn keepHbm) := by intro fn keepHbm h w e; cases e

theorem Sys2Proof.Laws.Encoding.digestCompareTimeout : ∀ ix, Sys2Proof.Laws.Encoding.Statement (.digestCompareTimeout ix) := by intro ix h w e; cases e

theorem Sys2Proof.Laws.Encoding.replayInput : Sys2Proof.Laws.Encoding.Statement .replayInput := by intro h w e; cases e

theorem Sys2Proof.Laws.Encoding.replayResult : Sys2Proof.Laws.Encoding.Statement .replayResult := by intro h w e; cases e

theorem Sys2Proof.Laws.Encoding.replayDigest : Sys2Proof.Laws.Encoding.Statement .replayDigest := by intro h w e; cases e

theorem Sys2Proof.Laws.Encoding.replaySend : ∀ fn ix, Sys2Proof.Laws.Encoding.Statement (.replaySend fn ix) := by intro fn ix h w e; cases e

theorem Sys2Proof.Laws.Encoding.ckptBegin : Sys2Proof.Laws.Encoding.Statement .ckptBegin := by intro h w e; cases e

theorem Sys2Proof.Laws.Encoding.ckptBlock : Sys2Proof.Laws.Encoding.Statement .ckptBlock := by intro h w e; cases e

theorem Sys2Proof.Laws.Encoding.ckptDigests : Sys2Proof.Laws.Encoding.Statement .ckptDigests := by intro h w e; cases e

theorem Sys2Proof.Laws.Encoding.ckptEnd : Sys2Proof.Laws.Encoding.Statement .ckptEnd := by intro h w e; cases e

theorem Sys2Proof.Laws.Encoding.ckptAck : Sys2Proof.Laws.Encoding.Statement .ckptAck := by intro h w e; cases e

theorem Sys2Proof.Laws.Encoding.ckptAbort : Sys2Proof.Laws.Encoding.Statement .ckptAbort := by intro h w e; cases e

theorem Sys2Proof.Laws.Encoding.ckptCopyTimeout : Sys2Proof.Laws.Encoding.Statement .ckptCopyTimeout := by intro h w e; cases e

theorem Sys2Proof.Laws.Encoding.restoreReq : Sys2Proof.Laws.Encoding.Statement .restoreReq := by intro h w e; cases e

theorem Sys2Proof.Laws.Encoding.restoreData : Sys2Proof.Laws.Encoding.Statement .restoreData := by intro h w e; cases e

theorem Sys2Proof.Laws.Encoding.checkpointDrainComplete : Sys2Proof.Laws.Encoding.Statement .checkpointDrainComplete := by intro h w e; cases e

theorem Sys2Proof.Laws.Encoding.restoreComplete : Sys2Proof.Laws.Encoding.Statement .restoreComplete := by intro h w e; cases e

theorem Sys2Proof.Laws.Encoding.telemetry : Sys2Proof.Laws.Encoding.Statement .telemetry := by intro h w e; cases e

theorem Sys2Proof.Laws.Encoding.commandRecordWrite : ∀ ix, Sys2Proof.Laws.Encoding.Statement (.commandRecordWrite ix) := by intro ix h w e; cases e

theorem Sys2Proof.Laws.Encoding.breakpointHit : ∀ k comp clsop lo hi, Sys2Proof.Laws.Encoding.Statement (.breakpointHit k comp clsop lo hi) := by intro k comp clsop lo hi h w e; cases e

theorem Sys2Proof.Laws.Encoding.drainTimeout : ∀ k, Sys2Proof.Laws.Encoding.Statement (.drainTimeout k) := by intro k h w e; cases e

theorem Sys2Proof.Laws.Encoding.debugHalt : ∀ fn ix scope cl core, Sys2Proof.Laws.Encoding.Statement (.debugHalt fn ix scope cl core) := by intro fn ix scope cl core h w e; cases e

theorem Sys2Proof.Laws.Encoding.debugResume : ∀ fn ix scope cl core, Sys2Proof.Laws.Encoding.Statement (.debugResume fn ix scope cl core) := by intro fn ix scope cl core h w e; cases e

theorem Sys2Proof.Laws.Encoding.debugStep : ∀ fn ix cl core, Sys2Proof.Laws.Encoding.Statement (.debugStep fn ix cl core) := by intro fn ix cl core h w e; cases e

theorem Sys2Proof.Laws.Encoding.breakpointConfigWrite : ∀ fn ix v, Sys2Proof.Laws.Encoding.Statement (.breakpointConfigWrite fn ix v) := by intro fn ix v h w e; cases e

theorem Sys2Proof.Laws.Encoding.debugAccessRead : ∀ fn ix, Sys2Proof.Laws.Encoding.Statement (.debugAccessRead fn ix) := by intro fn ix h w e; cases e

theorem Sys2Proof.Laws.Encoding.debugAccessWrite : ∀ fn ix v, Sys2Proof.Laws.Encoding.Statement (.debugAccessWrite fn ix v) := by intro fn ix v h w e; cases e

theorem Sys2Proof.Laws.Encoding.debugUnlock : ∀ ix module expiry challenge sig, Sys2Proof.Laws.Encoding.Statement (.debugUnlock ix module expiry challenge sig) := by intro ix module expiry challenge sig h w e; cases e

theorem Sys2Proof.Laws.Encoding.debugLock : ∀ fn ix, Sys2Proof.Laws.Encoding.Statement (.debugLock fn ix) := by intro fn ix h w e; cases e

theorem Sys2Proof.Laws.Encoding.debugSessionExpire : ∀ ix, Sys2Proof.Laws.Encoding.Statement (.debugSessionExpire ix) := by intro ix h w e; cases e

theorem Sys2Proof.Laws.Encoding.intervalRecord : ∀ m meanMv peakW, Sys2Proof.Laws.Encoding.Statement (.intervalRecord m meanMv peakW) := by intro m meanMv peakW h w e; cases e

theorem Sys2Proof.Laws.Encoding.timeDisciplineMessage : ∀ m wellFormed ptp sync utc bt, Sys2Proof.Laws.Encoding.Statement (.timeDisciplineMessage m wellFormed ptp sync utc bt) := by intro m wellFormed ptp sync utc bt h w e; cases e

theorem Sys2Proof.Laws.Encoding.readRequest : ∀ wellFormed kind first, Sys2Proof.Laws.Encoding.Statement (.readRequest wellFormed kind first) := by intro wellFormed kind first h w e; cases e

theorem Sys2Proof.Laws.Encoding.sealBreak : ∀ m, Sys2Proof.Laws.Encoding.Statement (.sealBreak m) := by intro m h w e; cases e

theorem Sys2Proof.Laws.Encoding.serviceChange : ∀ m calibration param value, Sys2Proof.Laws.Encoding.Statement (.serviceChange m calibration param value) := by intro m calibration param value h w e; cases e

theorem Sys2Proof.Laws.Encoding.sealBreakEnd : Sys2Proof.Laws.Encoding.Statement .sealBreakEnd := by intro h w e; cases e

theorem Sys2Proof.Laws.Encoding.mirrorRefresh : ∀ m mv ma mw, Sys2Proof.Laws.Encoding.Statement (.mirrorRefresh m mv ma mw) := by intro m mv ma mw h w e; cases e

theorem Sys2Proof.Laws.Encoding.standbyPowerOn : ∀ m, Sys2Proof.Laws.Encoding.Statement (.standbyPowerOn m) := by intro m h w e; cases e

theorem Sys2Proof.Laws.Encoding.standbyPowerFall : Sys2Proof.Laws.Encoding.Statement .standbyPowerFall := by intro h w e; cases e

theorem Sys2Proof.Laws.Encoding.startupStepComplete : Sys2Proof.Laws.Encoding.Statement .startupStepComplete := by intro h w e; cases e

theorem Sys2Proof.Laws.Encoding.startupStepTimeout : Sys2Proof.Laws.Encoding.Statement .startupStepTimeout := by intro h w e; cases e

theorem Sys2Proof.Laws.Encoding.perstDeassert : Sys2Proof.Laws.Encoding.Statement .perstDeassert := by intro h w e; cases e

theorem Sys2Proof.Laws.Encoding.regulatorRamp : Sys2Proof.Laws.Encoding.Statement .regulatorRamp := by intro h w e; cases e

theorem Sys2Proof.Laws.Encoding.mainInputTrip : ∀ standby, Sys2Proof.Laws.Encoding.Statement (.mainInputTrip standby) := by intro standby h w e; cases e

theorem Sys2Proof.Laws.Encoding.tripRestart : ∀ now, Sys2Proof.Laws.Encoding.Statement (.tripRestart now) := by intro now h w e; cases e

theorem Sys2Proof.Laws.Encoding.meteringReadyLoss : Sys2Proof.Laws.Encoding.Statement .meteringReadyLoss := by intro h w e; cases e

theorem Sys2Proof.Laws.Encoding.powerSample : ∀ watts volts, Sys2Proof.Laws.Encoding.Statement (.powerSample watts volts) := by intro watts volts h w e; cases e

theorem Sys2Proof.Laws.Encoding.junctionOverTemp : ∀ tj, Sys2Proof.Laws.Encoding.Statement (.junctionOverTemp tj) := by intro tj h w e; cases e

theorem Sys2Proof.Laws.Encoding.thermalShutdown : ∀ tj, Sys2Proof.Laws.Encoding.Statement (.thermalShutdown tj) := by intro tj h w e; cases e

theorem Sys2Proof.Laws.Encoding.powerConfigWrite : ∀ fn v, Sys2Proof.Laws.Encoding.Statement (.powerConfigWrite fn v) := by intro fn v h w e; cases e

theorem Sys2Proof.Laws.Encoding.buddySizeWrite : ∀ fn v, Sys2Proof.Laws.Encoding.Statement (.buddySizeWrite fn v) := by intro fn v h w e; cases e

theorem Sys2Proof.Laws.Encoding.collCutWrite : ∀ fn ix v, Sys2Proof.Laws.Encoding.Statement (.collCutWrite fn ix v) := by intro fn ix v h w e; cases e

theorem Sys2Proof.Laws.Encoding.boardRecordWrite : ∀ cfg expect coord ext align, Sys2Proof.Laws.Encoding.Statement (.boardRecordWrite cfg expect coord ext align) := by intro cfg expect coord ext align h w e; cases e

theorem Sys2Proof.Laws.Encoding.mcWarmResetRequest : ∀ keepHbm, Sys2Proof.Laws.Encoding.Statement (.mcWarmResetRequest keepHbm) := by intro keepHbm h w e; cases e

theorem Sys2Proof.Laws.Encoding.powerCycle : Sys2Proof.Laws.Encoding.Statement .powerCycle := by intro h w e; cases e

theorem Sys2Proof.Laws.Encoding.hostWatchdogExpire : Sys2Proof.Laws.Encoding.Statement .hostWatchdogExpire := by intro h w e; cases e

theorem Sys2Proof.Laws.Encoding.deviceReset : Sys2Proof.Laws.Encoding.Statement .deviceReset := by intro h w e; cases e

theorem Sys2Proof.Laws.Encoding.exportShardComplete : ∀ ix, Sys2Proof.Laws.Encoding.Statement (.exportShardComplete ix) := by intro ix h w e; cases e

theorem Sys2Proof.Laws.Encoding.ckptSourceBlockRead : Sys2Proof.Laws.Encoding.Statement .ckptSourceBlockRead := by intro h w e; cases e

theorem Sys2Proof.Laws.Encoding.stateDigestShardDone : ∀ ix, Sys2Proof.Laws.Encoding.Statement (.stateDigestShardDone ix) := by intro ix h w e; cases e

theorem Sys2Proof.Laws.Encoding.vbatLow : Sys2Proof.Laws.Encoding.Statement .vbatLow := by intro h w e; cases e

theorem Sys2Proof.Laws.Encoding.calendarLost : Sys2Proof.Laws.Encoding.Statement .calendarLost := by intro h w e; cases e

theorem Sys2Proof.Laws.Encoding.reverseCurrent : Sys2Proof.Laws.Encoding.Statement .reverseCurrent := by intro h w e; cases e

theorem Sys2Proof.Laws.Encoding.firmwareUpdate : ∀ good slot ver, Sys2Proof.Laws.Encoding.Statement (.firmwareUpdate good slot ver) := by intro good slot ver h w e; cases e

end
end

