-- ==== Sys2Proof/Tests/Slice0.lean ====
section
/-! SUPPORT. The author's own tests: ill-formed commands that WellFormed refuses, instruction words written out from
the encoding tables of the manual, values the manual or a standard gives, and for every statement a concrete state and
operands that meet the hypotheses of each of its clauses (`witness_` and the statement's name). -/

namespace Sys2Proof.Tests

open Sys2Proof Sys2Proof.Machine

section
set_option Elab.async false

/-! ### Helpers -/

/-- `Attends`, computed. -/
def attendsB (s : State) (k : Nat) : Bool :=
  decide ((s.core k).st = .running) && (s.core k).held.isNone && !(s.core k).boundary && !s.resumeHolds k

theorem attends_of {s : State} {k : Nat} (h : attendsB s k = true) : Attends s k := by
  simp only [attendsB, Bool.and_eq_true, decide_eq_true_eq, Option.isNone_iff_eq_none, Bool.not_eq_true'] at h
  exact ⟨h.1.1.1, h.1.1.2, h.1.2, h.2⟩

/-- `Takes`, computed. -/
def takesB (s : State) (k : Nat) (i : Instr) : Bool :=
  attendsB s k && i.wf && !s.traceHolds k && decide ((s.core k).foot = {}) &&
    match launchOf i with
    | none => true
    | some d => decide ((s.core k).ba + BitVec.ofNat 64 d ≤ s.beat)

theorem takes_of {s : State} {k : Nat} {i : Instr} (h : takesB s k i = true) : Takes s k i := by
  simp only [takesB, Bool.and_eq_true, decide_eq_true_eq, Bool.not_eq_true'] at h
  obtain ⟨⟨⟨⟨h1, h2⟩, h3⟩, h4⟩, h5⟩ := h
  refine ⟨attends_of h1, h2, h3, h4, fun d hd => ?_⟩
  rw [hd] at h5
  exact of_decide_eq_true h5

/-- `Issues`, computed. -/
def issuesB (s : State) (k : Nat) (i : Instr) : Bool := takesB s k i && !(s.core k).slotsFull i

theorem issues_of {s : State} {k : Nat} {i : Instr} (h : issuesB s k i = true) : Issues s k i := by
  simp only [issuesB, Bool.and_eq_true, Bool.not_eq_true'] at h
  exact ⟨takes_of h.1, h.2⟩

/-- Core (0,0) of a gang goes on with an instruction where no core that came before it there differs. -/
theorem compares_of {s : State} {k : Nat} {i : Instr} (hk : idxOf k = 0)
    (h : ((((s.cluster (clOf k)).gangCmp (s.core k).gangNo).seen.filter
      fun e => decide (e.2 ≠ (s.core k).gangKey i)).isEmpty) = true) : ∃ v, Compares s k i v := by
  unfold Compares
  split
  · exact ⟨s, rfl⟩
  · refine ⟨(s.setCluster (clOf k) ((s.cluster (clOf k)).setGangCmp { (s.cluster (clOf k)).gangCmp (s.core k).gangNo with
      first := some ((s.core k).gangKey i) })).setCore k { s.core k with gangNo := (s.core k).gangNo + 1 }, fun go => ?_⟩
    unfold State.gangCompare
    rw [if_pos hk]
    simp only [h, if_true]

/-- An instruction of an unganged core goes on as it is. -/
theorem compares_same {s : State} {k : Nat} {i : Instr} (h : (s.core k).ganged = false) : Compares s k i s := by
  unfold Compares
  rw [if_pos h]

theorem issues_all {s : State} {k : Nat} {l : List Instr} (h : l.all (issuesB s k) = true) : ∀ i ∈ l, Issues s k i :=
  fun i hi => issues_of (List.all_eq_true.1 h i hi)

/-- A running core with some registers written. -/
def run : Core :=
  { st := .running, pc := 3, g := [(1, 7), (2, 9), (3, 0x80000000), (4, 5)], a := [(1, 0x100), (2, 0xBFFC)] }

/-- Instance 0 ACTIVE with clusters 0 to 15, flags 0 to 63, vectors 0 to 7 and barriers 0 to 7. -/
def base : State :=
  ((((({ beat := 1000 } : State).setInst 0 { st := .active }).setReg (R.instGroups 0 0) 1).setReg (R.instFlags 0) 0x40000).setReg
    (R.instVec 0) 0x8000).setReg (R.instBars 0) 0x800

/-- Core 0 of that instance runs. -/
def W : State := base.setCore 0 run


/-! ### Instruction words (Tables 4.1 to 4.15)

Each word is put together from the tables: class, operation, L = 1 and DELTA = 77, and the operand fields of Table 4.3, every field with
a value of its own. -/

/-- Each word decodes to its instruction on core 0. -/
def decodesAll (l : List (Nat × Instr)) : Bool := l.all fun e => decide (decodeWord 0 e.1 = some e.2)

theorem test_words_scalar : decodesAll [
    (0x000CDAA8E0000000, .add 0 (some 77) 21 10 7),
    (0x001CDAA8E0000000, .sub 0 (some 77) 21 10 7),
    (0x002CDAA8E0000000, .and 0 (some 77) 21 10 7),
    (0x003CDAA8E0000000, .or 0 (some 77) 21 10 7),
    (0x004CDAA8E0000000, .xor 0 (some 77) 21 10 7),
    (0x005CDAA8E0000000, .shl 0 (some 77) 21 10 7),
    (0x006CDAA8E0000000, .shr 0 (some 77) 21 10 7),
    (0x007CDAA8E0000000, .sra 0 (some 77) 21 10 7),
    (0x008CDAA8E0000000, .mul 0 (some 77) 21 10 7),
    (0x009CDAA8E0000000, .slt 0 (some 77) 21 10 7),
    (0x00ACDAA8E0000000, .sltu 0 (some 77) 21 10 7),
    (0x00BCDAA8E0000000, .min 0 (some 77) 21 10 7),
    (0x00CCDAA8E0000000, .max 0 (some 77) 21 10 7),
    (0x010CDAA889ABCDEF, .addi 0 (some 77) 21 10 0x89ABCDEF),
    (0x011CDAA889ABCDEF, .andi 0 (some 77) 21 10 0x89ABCDEF),
    (0x012CDAA889ABCDEF, .ori 0 (some 77) 21 10 0x89ABCDEF),
    (0x013CDAA889ABCDEF, .xori 0 (some 77) 21 10 0x89ABCDEF),
    (0x014CDA8089ABCDEF, .movi 0 (some 77) 21 0x89ABCDEF),
    (0x018CDAD889ABCDEF, .ldw 0 (some 77) 21 11 0x89ABCDEF),
    (0x019CDAD889ABCDEF, .stw 0 (some 77) 21 11 0x89ABCDEF),
    (0x01ACDAD889ABCDEF, .mova 0 (some 77) 21 11 0x89ABCDEF),
    (0x01BCDAD889ABCDEF, .movg 0 (some 77) 21 11 0x89ABCDEF)] = true := by decide +kernel

theorem test_words_branch : decodesAll [
    (0x040CD000000005A3, .br 0 (some 77) 0x5A3),
    (0x041CDAA8000005A3, .beq 0 (some 77) 21 10 0x5A3),
    (0x042CDAA8000005A3, .bne 0 (some 77) 21 10 0x5A3),
    (0x043CDAA8000005A3, .blt 0 (some 77) 21 10 0x5A3),
    (0x044CDAA8000005A3, .bge 0 (some 77) 21 10 0x5A3),
    (0x045CDAA8000005A3, .bltu 0 (some 77) 21 10 0x5A3),
    (0x046CDAA8000005A3, .bgeu 0 (some 77) 21 10 0x5A3),
    (0x050CDAA002B5BEEF, .loop 0 (some 77) 2 21 0x2B5 0xBEEF)] = true := by decide +kernel

theorem test_words_tile : decodesAll [
    (0x080CDD6000ABCDEF, .tdSet 0 (some 77) 13 6 false 0 0xABCDEF),
    (0x080CDD6D40000000, .tdSet 0 (some 77) 13 6 true 21 0),
    (0x081CDD6000000000, .tdCopy 0 (some 77) 13 6),
    (0x088CDD66A0000000, .tmov 0 (some 77) 13 6 1 21),
    (0x089CDD02A0000000, .tfill 0 (some 77) 13 21)] = true := by decide +kernel

theorem test_words_matrix : decodesAll [
    (0x0C0CDB5A6AF20000, .mmaF16 0 (some 77) 2 13 6 9 0xABC true),
    (0x0C1CDB5A6AF20000, .mmaF32 0 (some 77) 2 13 6 9 0xABC true),
    (0x0C2CDB5A6AF20000, .mmaI16 0 (some 77) 2 13 6 9 0xABC true),
    (0x0C8CDB580002D500, .mmaOut 0 (some 77) 2 13 6 1 2 21 true),
    (0x0C9CDB5A40013500, .mmaOuts 0 (some 77) 2 13 6 9 2 1 21 false),
    (0x0CACD80000000000, .mmaClr 0 (some 77) 2),
    (0x0D0CDC0000000000, .gang 0 (some 77) 3)] = true := by decide +kernel

theorem test_words_vector : decodesAll [
    (0x100CDD690BA00000, .vadd 0 (some 77) true 13 6 9 5 2 true),
    (0x101CDD690BA00000, .vmul 0 (some 77) true 13 6 9 5 2 true),
    (0x104CDD690BA00000, .vsel 0 (some 77) true 13 6 9 5 2 true),
    (0x105CDD690BA00000, .vmin 0 (some 77) true 13 6 9 5 2 true),
    (0x106CDD690BA00000, .vmax 0 (some 77) true 13 6 9 5 2 true),
    (0x102CDD69AB400000, .vfma 0 (some 77) true 13 6 9 10 5 1 false),
    (0x103CD56900300000, .vcmp 0 (some 77) 5 6 9 4 true),
    (0x110CDD6A0000BEEF, .vld 0 (some 77) 13 6 5 0xBEEF),
    (0x111CDD6A0000BEEF, .vst 0 (some 77) 13 6 5 0xBEEF)] = true := by decide +kernel

theorem test_words_tap : decodesAll [
    (0x140CDD0EA8000000, .tapArm 0 (some 77) 13 true 6 21),
    (0x141CD00000000000, .tapOff 0 (some 77)),
    (0x142CDD0000000000, .tapAuto 0 (some 77) 13),
    (0x148CDD0000000000, .syrkTap 0 (some 77) 13),
    (0x149CDD0000000000, .tapDrain 0 (some 77) 13)] = true := by decide +kernel

theorem test_words_factor : decodesAll [
    (0x180CDD600AA00000, .nsiScale 0 (some 77) 13 6 2 21),
    (0x181CDD6904000000, .nsiStep 0 (some 77) 13 6 9 1),
    (0x182CDD600AA00000, .nsiResid 0 (some 77) 13 6 2 21),
    (0x188CDD6900000000, .cholSn 0 (some 77) 13 6 9),
    (0x189CDD6900000000, .ldltSn 0 (some 77) 13 6 9),
    (0x18ACDD6904000000, .trsvSn 0 (some 77) 13 6 9 1),
    (0x18BCDD69A0000000, .refine 0 (some 77) 13 6 9 10)] = true := by decide +kernel

theorem test_words_sync : decodesAll [
    (0x1C0CD02DA800BEEF, .sigCnt 0 (some 77) 45 21 0xBEEF),
    (0x1C1CD02D0000BEEF, .waitCnt 0 (some 77) 45 0xBEEF),
    (0x1C2CD02D0000BEEF, .setCnt 0 (some 77) 45 0xBEEF),
    (0x1C8CD0AB00000000, .barArrive 0 (some 77) 0xAB),
    (0x1C9CD0AB00000000, .barWait 0 (some 77) 0xAB),
    (0x1D0CDABC00000000, .flagSet 0 (some 77) 0xABC),
    (0x1D1CDABC00000000, .flagWait 0 (some 77) 0xABC),
    (0x1D2CDABC00000000, .flagClr 0 (some 77) 0xABC),
    (0x1D8CD6BC00000000, .hostIrq 0 (some 77) 0x6BC)] = true := by decide +kernel

theorem test_words_time : decodesAll [
    (0x200CDA8000000000, .baSet 0 (some 77) 21),
    (0x201CD00089ABCDEF, .baAdv 0 (some 77) 0x89ABCDEF),
    (0x202CD00089ABCDEF, .baNow 0 (some 77) 0x89ABCDEF),
    (0x208CD00089ABCDEF, .beatWait 0 (some 77) 0x89ABCDEF),
    (0x209CDA8000000000, .beatRd 0 (some 77) 21)] = true := by decide +kernel

theorem test_words_post : decodesAll [
    (0x240CDDB6A000BEEF, .xferPost 0 (some 77) 13 45 21 0xBEEF),
    (0x280CDDB6A000BEEF, .collPost 0 (some 77) 13 45 21 0xBEEF),
    (0x2C0CDDB6A000BEEF, .updApply 0 (some 77) 13 45 21 0xBEEF),
    (0x2C1CDD6900000000, .updNs 0 (some 77) 13 6 9),
    (0x2C2CDD0000000000, .updNf 0 (some 77) 13)] = true := by decide +kernel

theorem test_words_check : decodesAll [
    (0x300CDDA800000000, .tchk 0 (some 77) 13 21),
    (0x301CDDAA80000000, .chkRange 0 (some 77) 13 21 10),
    (0x302CDDA800000000, .chkNf 0 (some 77) 13 21),
    (0x308CD002A0000000, .digFold 0 (some 77) 10 2),
    (0x309CD0A820000000, .digRd 0 (some 77) 21 2),
    (0x30ACD00020000000, .digClr 0 (some 77) 2)] = true := by decide +kernel

theorem test_words_system : decodesAll [
    (0x340CDA800000013E, .cntRd 0 (some 77) 21 318),
    (0x341CD05540000000, .attrSet 0 (some 77) 21 10),
    (0x348CD00089ABCDEF, .traceMark 0 (some 77) 0x89ABCDEF),
    (0x350CD00000000000, .halt 0 (some 77)),
    (0xFC0CD00000000000, .nop 0 (some 77)),
    (0xFC1CDAA006BCBEEF, .endProg 0 (some 77) 2 21 0x6BC 0xBEEF),
    (0xFC2CD00000000000, .bankSwap 0 (some 77)),
    (0xFC3CD0000000002A, .fence 0 (some 77) 42),
    (0xFC4CDA8000000006, .statRd 0 (some 77) 21 6)] = true := by decide +kernel

/-- Words that no instruction has: a class and an operation that no table lists, DELTA without L, a reserved operand bit, pair 31, a
loop of no instruction, fence bit 0, spare counter and vector, vd[3] of VCMP, T = 0 with a broadcast, and a word of more than 64 bits. -/
theorem test_unassigned_words : ([0x3800000000000000, 0x00D0000000000000, 0x0000100000000000, 0x0000000000000001, 0x20900F8000000000,
    0x0500000000000000, 0xFC30000000000001, 0x1C00040000000000 + 0x40 * 2 ^ 32, 0x1D80080000000000, 0x1030080000000000, 0x1000000000400000,
    0x10000000000000000] : List Nat).all (fun w => decide (decodeWord 0 w = none)) = true := by decide +kernel

/-- The word of Table 4.16. -/
theorem test_word_example : decodeWord 0 0x0C0B448D0FFC0000 = some (.mmaF16 0 (some 52) 1 2 3 4 1023 false) := by decide +kernel

/-! ### Ill-formed commands, one for each check of WellFormed -/

theorem test_ill_formed : ([.nop 1048576 none, .add 0 (some 128) 1 2 3, .loop 0 none 0 1 0 5, .loop 0 none 0 1 768 5, .tdSet 0 none 1 9 false 0 0, .tdSet 0 none 1 1 true 5 7,
   .tdSet 0 none 1 0 true 16 0, .tdSet 0 none 1 1 false 5 0, .tmov 0 none 1 2 2 0, .mmaF16 0 none 0 1 2 3 4096 false, .mmaOut 0 none 0 1 2 3 0 0 false,
   .mmaOut 0 none 0 1 2 0 3 0 false, .gang 0 none 4, .vadd 0 none true 1 2 3 0 3 false, .vadd 0 none false 1 2 3 0 1 false, .vcmp 0 none 0 1 2 6 false,
   .tapArm 0 none 1 false 8 0, .nsiScale 0 none 1 2 3 0, .sigCnt 0 none 64 0 1, .barWait 0 none 256, .flagSet 0 none 4096, .hostIrq 0 none 2048,
   .baSet 0 none 31, .beatRd 0 none 31, .xferPost 0 none 1 64 0 0, .tchk 0 none 1 31, .digFold 0 none 31 0, .cntRd 0 none 1 7, .cntRd 0 none 1 320,
   .endProg 0 none 0 0 4096 0, .endProg 0 none 1 0 64 0, .endProg 0 none 3 0 2048 0, .fence 0 none 64, .fence 0 none 1, .statRd 0 none 1 7,
   .gangShapeChange 4096, .matrixEntryEnd 4096 true, .matrixEntryEnd 1048576 false, .launch 16384, .sqTailDoorbell 65 0 0, .sqTailDoorbell 0 16384 0,
   .linkEnable 65 0 0, .frameSend 8, .linkTrainingComplete 0 0 8, .rateChange 16 0, .deadlock 64, .configure 0 64, .configure 65 0,
   .barrierMembersWrite 0 256 0, .freeComplete 65536, .recoveryWindowTimeout 4, .firmwareUpdate true 3 0, .lowerHalfRead 68 0] : List Instr).all (fun i => !i.wf) = true := by decide +kernel

/-! ### Values from the manual's worked examples and from the standards it names -/

/-- FIPS 180-4: the digest of "abc". -/
theorem test_sha256 : sha256 [0x61, 0x62, 0x63] = beBytes 32 0xBA7816BF8F01CFEA414140DE5DAE2223B00361A396177A9CB410FF61F20015AD := by
  decide +kernel
/-- CRC-32C of "123456789". -/
theorem test_crc32c : crc32c ((List.range 9).map fun n => BitVec.ofNat 8 (0x31 + n)) = 0xE3069283 := by decide +kernel
/-- CRC-64/ECMA-182 of "123456789". -/
theorem test_crc64 : crc64 0 ((List.range 9).map fun n => BitVec.ofNat 8 (0x31 + n)) = 0x6C40DF5F0B497347 := by decide +kernel
/-- The known answer of Philox-4x32-10 for key and counter zero. -/
theorem test_philox : philoxRounds 10 (0, 0, 0, 0) 0 0 = (0x6627E8D5, 0xE169C58D, 0xBC57AC4C, 0x9B00DBD8) := by decide +kernel
/-- Chapter 1: the matrix engine 3.5,11.7,9. -/
theorem test_uid : coreUid ((3 * 256 + 5 * 16 + 11) * 256 + 7 * 16 + 9) 1 0 = 0x1ADBC900 := by decide +kernel
/-- Chapter 5: 1 + 2^-12 rounded stochastically to FP16 moves up from u = 0xC000 on. -/
theorem test_stochastic : (flStoch .fp16 0xD1A0 (f32 0x3F800800), flStoch .fp16 0xC000 (f32 0x3F800800), flStoch .fp16 0xBFFF (f32 0x3F800800)) =
    (0x3C01, 0x3C01, 0x3C00) := by decide +kernel
/-- Chapter 6: in WS16, the share of core (10, 5) holds output element (9, 150) as its element (1, 2). -/
theorem test_share : let h := shareOf 2 (10 * 16 + 5)
    (h.row0 + 1, h.col0 + 2) = (9, 150) := by decide +kernel
/-- Chapter 7: with G1 = 8 rows 0 to 15 of column 0 lie in sixteen banks. -/
theorem test_swizzle : (List.range 16).map (fun i => swizzle false 8 (128 * i) / 16 % 16) =
    [0, 8, 1, 9, 2, 10, 3, 11, 4, 12, 5, 13, 6, 14, 7, 15] := by decide +kernel
/-- Chapter 9: one momentum-SGD update. -/
theorem test_momentum :
    let hs : HSet := { lr := 0x3C800000, mu := 0x3F600000, beta2 := 0, eps := 0, wd := 0, b1 := 0, b2 := 0 }
    let r := ruleElem 0 0 1 0 hs (unscale 16 (rn (flOf .fp16 0x6A40))) fun _ => 0x3E800000
    (r.d, r.moments, newWeight hs 0x4A3C 0x3F800000 r.d) = (0x3E890000, [(0, 0x3E890000)], 0x3BF7) := by decide +kernel
/-- Chapter 12: the narrow encoding of a chunk's hops. -/
theorem test_chunk_hops :
    (encodeChunk true true [0x42C00000], encodeChunk true true [0x43088000], decodeChunk true true 7 [0x74], encodeChunk true true [0x42DD8000],
      decodeChunk true true 8 [0x77]) = ((8, [0x76]), (7, [0x74]), [0x43000000], (8, [0x77]), [0x42E00000]) := by decide +kernel
/-- Chapter 19: a core's CSTAT and UPD_STEP seen from virtual function 5. -/
theorem test_functions : (mapOff 5 0x012A59B8, mapOff 5 0xC00030, mapOff 0 0x082A59B8, R.updStep 5) =
    (some 0x082A59B8, some 0xC05030, some 0x082A59B8, 0xC05030) := by decide +kernel

/-! ### One step -/

/-- Whether a command gives a next state with a property. -/
def gives (i : Instr) (s : State) (p : State → Bool) : Bool := match exec i s with | .next t => p t | _ => false
/-- Whether an instruction of core 0 leaves a value in a register. -/
def leaves (i : Instr) (n : GReg) (v : W32) : Bool := gives i W fun t => decide ((t.core 0).gr n = v ∧ (t.core 0).pc = 4)

/-- g1 = 7, g2 = 9, g3 = 0x80000000, g4 = 5; a1 = 0x100; g0 reads zero and discards writes. -/
theorem test_scalar : leaves (.sub 0 none 5 1 2) 5 0xFFFFFFFE && leaves (.add 0 none 5 3 3) 5 0 && leaves (.sra 0 none 5 3 4) 5 0xFC000000 &&
    leaves (.shr 0 none 5 3 4) 5 0x04000000 && leaves (.slt 0 none 5 3 1) 5 1 && leaves (.sltu 0 none 5 3 1) 5 0 && leaves (.mul 0 none 5 3 1) 5 0x80000000 &&
    leaves (.add 0 none 0 1 2) 0 0 && leaves (.movg 0 none 5 1 0xFFFFFFFF) 5 0xFF && leaves (.xori 0 none 5 1 0x80000001) 5 0x80000006 := by
  decide +kernel

/-- A taken branch back, one not taken, and the end of a loop's body that repeats. -/
theorem test_branches : gives (.blt 0 none 3 1 0x7FE) W (fun t => decide ((t.core 0).pc = 1)) &&
    gives (.bltu 0 none 3 1 0x7FE) W (fun t => decide ((t.core 0).pc = 4)) &&
    gives (.nop 0 none) (W.setCore 0 { run with loops := [⟨1, 1, 3⟩], lc := [(1, 2)] }) (fun t => decide ((t.core 0).pc = 1 ∧ (t.core 0).lcr 1 = 1)) := by
  decide +kernel

/-- STW then LDW of the last word of the scratchpad, and the word after it. -/
theorem test_scalar_memory : gives (.stw 0 none 3 2 0) W (fun t => decide (t.rd (spBase 0 + 0xBFFC) 4 = 0x80000000)) &&
    gives (.ldw 0 none 5 2 0) (W.wr (spBase 0 + 0xBFFC) 4 0x12345678) (fun t => decide ((t.core 0).gr 5 = 0x12345678)) &&
    gives (.ldw 0 none 5 2 4) W (fun t => decide ((t.core 0).fault.cause = 2 ∧ (t.core 0).st ≠ .running)) := by decide +kernel

/-- SIG.CNT saturates at 0xFFFF when its signal takes effect, and FLAG.SET sets its flag. -/
theorem test_signals : gives (.sigCnt 0 none 5 0 0xFFFF) W (fun t => gives (.signalTakesEffect [{ id := 0 }]) (t.setCnt 0 5 1) fun u => decide (u.cnt 0 5 = 0xFFFF)) &&
    gives (.flagSet 0 none 63) W (fun t => gives (.signalTakesEffect [{ id := 0 }]) t fun u => u.flag 63) := by decide +kernel

/-- The pair of g0 reads zero in both halves (R79), BA.SET takes the pair of g1, and BEAT.RD to the pair of g0 writes g1. -/
theorem test_time : gives (.baSet 0 none 0) (W.setCore 0 { run with ba := 5 }) (fun t => decide ((t.core 0).ba = 0)) &&
    gives (.baSet 0 none 1) W (fun t => decide ((t.core 0).ba = 0x900000007)) &&
    gives (.beatRd 0 none 0) W (fun t => decide ((t.core 0).gr 0 = 0 ∧ (t.core 0).gr 1 = 0)) && gives (.beatRd 0 none 5) W (fun t => decide ((t.core 0).gr 5 = 1000)) := by decide +kernel
/-! ### Witnesses: the core -/

/-- Core 0 replaced in W. -/
def with0 (f : Core → Core) : State := W.setCore 0 (f (W.core 0))

theorem witness_StepRunsFront : State.reset.pending = [] := rfl

theorem witness_CoreIssueInOrder :
    Issues W 0 (.add 0 (some 5) 1 2 3) ∧ coreOf (.add 0 (some 5) 1 2 3) = some 0 ∧
    ((with0 fun c => { c with held := some (.nop 0 none) }).core 0).held ≠ none ∧
    (let s := with0 fun c => { c with ba := 996 }
     Attends s 0 ∧ (Instr.add 0 (some 5) 1 2 3).wf = true ∧ s.traceHolds 0 = false ∧
       launchOf (.add 0 (some 5) 1 2 3) = some 5 ∧ s.beat < (s.core 0).ba + BitVec.ofNat 64 5) ∧
    (let p : Pass := { op := .nop 0 none }
     let s := with0 fun c => c.setSlots 3 { running := some p, queued := some p }
     Attends s 0 ∧ s.traceHolds 0 = false ∧ (s.core 0).slotsFull (.chkNf 0 none 1 2) = true) ∧
    (let s := with0 fun c => { c with ba := 995, held := some (.add 0 (some 5) 1 2 3) }
     (s.core 0).held = some (.add 0 (some 5) 1 2 3) ∧ (s.core 0).st = .running ∧ (s.core 0).gangWait = false ∧
       (s.core 0).boundary = false ∧ s.resumeHolds 0 = false ∧ (s.core 0).slotsFull (.add 0 (some 5) 1 2 3) = false ∧
       (s.core 0).ba + BitVec.ofNat 64 5 ≤ s.beat ∧ s.traceHolds 0 = false) :=
  ⟨issues_of (by decide +kernel), rfl, by decide +kernel, ⟨attends_of (by decide +kernel), by decide +kernel⟩,
    ⟨attends_of (by decide +kernel), by decide +kernel⟩, by decide +kernel⟩

theorem witness_UnassignedEncodingFaults :
    (Instr.add 0 (some 128) 1 2 3).wf = false ∧ coreOf (.add 0 (some 128) 1 2 3) = some 0 ∧ Attends W 0 ∧
    (W.core 0).after ≠ .toReset ∧ (W.core 0).fault.valid = false ∧ (W.core 0).ganged = false ∧ (W.core 0).prog = none ∧
    (let s := with0 fun c => { c with fault := { cause := 2, valid := true } }
     Attends s 0 ∧ (s.core 0).fault.valid = true) :=
  ⟨by decide +kernel, rfl, attends_of (by decide +kernel), by decide +kernel, by decide +kernel, by decide +kernel, by decide +kernel,
    attends_of (by decide +kernel), by decide +kernel⟩

theorem witness_ScalarArithmetic : ∀ i ∈ [Instr.add 0 none 0 1 2, .sub 0 (some 127) 31 1 2, .mul 0 none 1 1 2, .addi 0 none 1 2 0x80000000,
    .movi 0 none 1 5], Issues W 0 i := issues_all (by decide +kernel)

theorem witness_ScalarLogicAndShifts : ∀ i ∈ [Instr.and 0 none 0 1 2, .or 0 none 1 1 2, .xor 0 none 1 1 2, .andi 0 none 1 2 5,
    .ori 0 none 1 2 5, .xori 0 none 1 2 5, .shl 0 none 1 1 2, .shr 0 none 1 3 2, .sra 0 none 1 3 2], Issues W 0 i :=
  issues_all (by decide +kernel)

theorem witness_ScalarComparisons : ∀ i ∈ [Instr.slt 0 none 5 3 1, .sltu 0 none 5 3 1, .min 0 none 5 3 1, .max 0 none 0 3 1],
    Issues W 0 i := issues_all (by decide +kernel)

/-- The last word of the scratchpad is reached, the word after it is not. -/
theorem witness_ScalarMemoryAndAddress :
    (∀ i ∈ [Instr.mova 0 none 1 2 4, .movg 0 none 0 2 4, .ldw 0 none 1 2 3, .stw 0 none 1 2 0, .ldw 0 none 1 2 4, .stw 0 none 1 2 4],
      Issues W 0 i) ∧
    ((W.core 0).ar 2 + 0).toNat / 4 * 4 = 0xBFFC ∧ ((W.core 0).ar 2 + 3).toNat / 4 * 4 = 0xBFFC ∧
    W.local' 0 0xBFFC 4 = .ok (spBase 0 + 0xBFFC, ⟨0, spBase 0, false, true, 0⟩) ∧
    W.poisoned (spBase 0 + 0xBFFC) 4 = false ∧ (W.core 0).tapQ = [] ∧ Unblocked W 0 (.ldw 0 none 1 2 3) [(spBase 0 + 0xBFFC, 4)] [] ∧
    Unblocked W 0 (.stw 0 none 1 2 0) [] [(spBase 0 + 0xBFFC, 4)] ∧
    (W.settleTap 0 [(spBase 0 + 0xBFFC, 4)] []).toOption.isSome ∧ (W.settleTap 0 [] [(spBase 0 + 0xBFFC, 4)]).toOption.isSome ∧
    ({ W with bad := [spBase 0 + 0xBFF8] } : State).badWord (spBase 0 + 0xBFFC) 4 = some (spBase 0 + 0xBFF8) ∧
    W.local' 0 (((W.core 0).ar 2 + 4).toNat / 4 * 4) 4 = .error 2 :=
  ⟨issues_all (by decide +kernel), by decide +kernel, by decide +kernel, by decide +kernel, by decide +kernel, by decide +kernel,
    by unfold Unblocked; decide +kernel, by unfold Unblocked; decide +kernel, by decide +kernel, by decide +kernel, by decide +kernel,
    by decide +kernel⟩

/-- Branches taken and not taken, and a loop skipped, opened, too deep, repeated, and left. -/
theorem witness_BranchesAndLoops :
    (∀ i ∈ [Instr.br 0 none 0x7FC, .beq 0 none 1 1 5, .beq 0 none 1 2 5, .bne 0 none 1 1 5, .bne 0 none 1 2 5, .blt 0 none 3 1 5,
      .blt 0 none 1 3 5, .bge 0 none 3 1 5, .bge 0 none 1 3 5, .bltu 0 none 1 3 5, .bltu 0 none 3 1 5, .bgeu 0 none 1 3 5,
      .bgeu 0 none 3 1 5, .loop 0 none 0 0 767 0, .loop 0 none 0 0 1 5], Issues W 0 i) ∧
    Issues (with0 fun c => { c with loops := [⟨0, 2, 9⟩] }) 0 (.loop 0 none 0 1 1 0) ∧
    (∃ c : Core, c.loops = [⟨1, 3, 9⟩] ∧ c.pc = 9 ∧ c.lcr 1 ≠ 1) ∧ (∃ c : Core, c.loops = [⟨1, 3, 9⟩] ∧ c.pc = 9 ∧ c.lcr 1 = 1) ∧
    (∃ c : Core, c.loops = [⟨1, 3, 9⟩, ⟨0, 2, 7⟩] ∧ c.pc ≠ 9 ∧ c.pc ≠ 7) ∧ closeLoops 3 [⟨0, 2, 9⟩] = [⟨0, 2, 9⟩] ∧ closeLoops 1 [⟨0, 2, 9⟩] ≠ [⟨0, 2, 9⟩] :=
  ⟨issues_all (by decide +kernel), issues_of (by decide +kernel), ⟨{ loops := [⟨1, 3, 9⟩], pc := 9, lc := [(1, 2)] }, by decide +kernel⟩,
    ⟨{ loops := [⟨1, 3, 9⟩], pc := 9, lc := [(1, 1)] }, by decide +kernel⟩, ⟨{ loops := [⟨1, 3, 9⟩, ⟨0, 2, 7⟩], pc := 8 }, by decide +kernel⟩,
    by decide +kernel, by decide +kernel⟩

theorem witness_TileDescriptorsWritten : ∀ i ∈ [Instr.tdSet 0 none 0 0 true 15 0, .tdSet 0 none 15 0 false 0 0x800000,
    .tdSet 0 none 1 1 true 31 0, .tdSet 0 none 1 8 false 0 4, .tdCopy 0 none 1 15], Issues W 0 i := issues_all (by decide +kernel)

/-- A tile of rows × cols elements in row-major order. -/
def tileAt (base rows cols fmt : Nat) : Tile :=
  { base := .ofNat 32 base, rows := .ofNat 16 rows, cols := .ofNat 16 cols, rs := .ofNat 24 cols, cs := 1, format := .ofNat 8 fmt }

/-- The own scratchpad of core 0 as a region. -/
def sp0 : Region := ⟨0, spBase 0, false, true, 0⟩

/-- Core 0 with FP16 tiles t1 (4 × 2), t2 (2 × 4) and t3 (4 × 4), an FP32 tile t4, a pair tile t5, INT16 tiles t6 and t7,
and an INT32 tile t8. -/
def WT : State :=
  (with0 fun c => { c with t := [(1, tileAt 0x100 4 2 0), (2, tileAt 0x200 2 4 0), (3, tileAt 0x300 4 4 0), (4, tileAt 0x400 4 4 1),
    (5, tileAt 0x500 4 4 7), (6, tileAt 0x600 4 2 2), (7, tileAt 0x700 2 4 2), (8, tileAt 0x800 4 4 5), (9, tileAt 0x900 4 4 1)] }).wr
    (spBase 0 + 0x100) 8 0x3C00400042003C00

theorem witness_TileMovesStoreElements :
    (∀ i ∈ [Instr.tmov 0 none 4 3 0 0, .tmov 0 none 4 3 1 1, .tfill 0 none 3 1], Issues WT 0 i) ∧
    WT.view 0 (tileAt 0x300 4 4 0) true = .ok ⟨tileAt 0x300 4 4 0, sp0⟩ ∧
    WT.view 0 (tileAt 0x400 4 4 1) true = .ok ⟨tileAt 0x400 4 4 1, sp0⟩ ∧ (convert 0 1 none 0).isSome ∧
    (accumulate 0 1 (some 7) 0 0).isSome ∧ WT.strides (tileAt 0x400 4 4 1) false = none ∧ WT.strides (tileAt 0x400 4 4 1) true = none ∧
    (let v : View := ⟨tileAt 0x300 4 4 0, sp0⟩
     let w : View := ⟨tileAt 0x400 4 4 1, sp0⟩
     WT.viewBad v = none ∧ WT.viewPart v = none ∧ WT.viewPart w = none ∧ WT.viewBad w = none ∧
       Unblocked WT 0 (.tmov 0 none 4 3 0 0) v.bytes w.bytes ∧ Unblocked WT 0 (.tfill 0 none 3 1) [] v.bytes ∧ (WT.core 0).tapQ = [] ∧
       (WT.settleTap 0 v.bytes w.bytes).toOption.isSome ∧ (WT.settleTap 0 [] v.bytes).toOption.isSome ∧
       (({ WT with bad := [spBase 0 + 0x300] } : State).viewBad v).isSome ∧
       (({ WT with bad := [spBase 0 + 0x300] } : State).viewPart v).isSome) ∧
    (let p : Pass := { op := .tmov 0 none 4 3 0 0 }
     let s := with0 fun c => c.setSlots 3 { running := some p, queued := some p }
     ((s.core 0).slots' 3).full = true ∧ Takes s 0 (.tmov 0 none 4 3 0 0) ∧ Takes s 0 (.tfill 0 none 3 1)) ∧
    (let p : Pass := { op := .tmov 0 none 4 3 0 0 }
     let s := with0 fun c => c.setSlots 3 { running := some p }
     ((s.core 0).slots' 3).running = some p ∧ ((s.core 0).slots' 3).queued = none ∧ (s.core 0).suspended = false) :=
  ⟨issues_all (by decide +kernel), by decide +kernel, by decide +kernel, by decide +kernel, by decide +kernel, by decide +kernel,
    by decide +kernel, by unfold Unblocked; decide +kernel,
    ⟨by decide +kernel, takes_of (by decide +kernel), takes_of (by decide +kernel)⟩, by decide +kernel⟩

theorem witness_MatrixAccumulates :
    (∀ i ∈ [Instr.mmaF16 0 none 0 1 2 0 1 false, .mmaF16 0 none 0 1 2 5 0 false, .mmaF32 0 none 0 4 9 0 4095 false,
      .mmaI16 0 none 3 6 7 0 1 false, .mmaClr 0 none 3], Issues WT 0 i) ∧
    ((WT.core 0).gangWait = false ∧ (WT.cluster 0).shape = 0 ∧ WT.bad = [] ∧ (WT.core 0).tapQ = [] ∧
      (WT.core 0).tap = none ∧ (WT.core 0).tapFull = false ∧ (WT.cluster 0).passes = [] ∧
      Unblocked WT 0 (.mmaF16 0 none 0 1 2 0 1 false)
        (View.bytes ⟨tileAt 0x100 4 2 0, sp0⟩ ++ View.bytes ⟨tileAt 0x200 2 4 0, sp0⟩) [] ∧
      (let v : View × View × Option View := (⟨tileAt 0x100 4 2 0, sp0⟩, ⟨tileAt 0x200 2 4 0, sp0⟩, some ⟨tileAt 0x500 4 4 7, sp0⟩)
       Unblocked WT 0 (.mmaF16 0 none 0 1 2 5 0 false) (mmaReads v) (mmaWrites v))) ∧
    WT.mmaCheck 0 {} kindF16 (tileAt 0x100 4 2 0) (tileAt 0x200 2 4 0) {} 1 {} =
      .ok (⟨tileAt 0x100 4 2 0, sp0⟩, ⟨tileAt 0x200 2 4 0, sp0⟩, none) ∧
    WT.mmaCheck 0 {} kindF16 (tileAt 0x100 4 2 0) (tileAt 0x200 2 4 0) (tileAt 0x500 4 4 7) 0 {} =
      .ok (⟨tileAt 0x100 4 2 0, sp0⟩, ⟨tileAt 0x200 2 4 0, sp0⟩, some ⟨tileAt 0x500 4 4 7, sp0⟩) ∧
    WT.mmaCheck 0 {} kindF32 (tileAt 0x400 4 4 1) (tileAt 0x900 4 4 1) {} 4095 {} =
      .ok (⟨tileAt 0x400 4 4 1, sp0⟩, ⟨tileAt 0x900 4 4 1, sp0⟩, none) ∧
    WT.mmaCheck 0 {} kindI16 (tileAt 0x600 4 2 2) (tileAt 0x700 2 4 2) {} 1 {} =
      .ok (⟨tileAt 0x600 4 2 2, sp0⟩, ⟨tileAt 0x700 2 4 2, sp0⟩, none) ∧
    (WT.applyMma 0 0 kindI16 (⟨tileAt 0x600 4 2 2, sp0⟩, ⟨tileAt 0x700 2 4 2, sp0⟩, none) 1 2 {}).toOption.isSome :=
  ⟨issues_all (by decide +kernel), by unfold Unblocked; decide +kernel, by decide +kernel, by decide +kernel, by decide +kernel,
    by decide +kernel, by decide +kernel⟩

theorem witness_MatrixOutputStores :
    (∀ i ∈ [Instr.mmaOut 0 none 0 3 4 0 0 0 false, .mmaOut 0 none 0 3 4 2 1 29 false, .mmaOuts 0 none 0 3 4 5 1 2 31 false], Issues WT 0 i) ∧
    WT.outCheck 0 {} (tileAt 0x300 4 4 0) (tileAt 0x400 4 4 1) none 0 {} = .ok (⟨tileAt 0x300 4 4 0, sp0⟩, none, none) ∧
    WT.outCheck 0 {} (tileAt 0x300 4 4 0) (tileAt 0x400 4 4 1) (some (tileAt 0x500 4 4 7)) 2 {} =
      .ok (⟨tileAt 0x300 4 4 0, sp0⟩, some ⟨tileAt 0x400 4 4 1, sp0⟩, some ⟨tileAt 0x500 4 4 7, sp0⟩) ∧
    ((WT.core 0).gangWait = false ∧ (WT.cluster 0).shape = 0 ∧ WT.bad = [] ∧ (WT.core 0).tapQ = [] ∧
      (let v : View × Option View × Option View := (⟨tileAt 0x300 4 4 0, sp0⟩, none, none)
       Unblocked WT 0 (.mmaOut 0 none 0 3 4 0 0 0 false) (outReads v) (outWrites v) ∧
       (WT.settleTap 0 (outReads v) (outWrites v)).toOption.isSome)) :=
  ⟨issues_all (by decide +kernel), by decide +kernel, by decide +kernel, by unfold Unblocked; decide +kernel⟩

theorem witness_MatrixPassesLeaveSlots :
    (let p : Pass := { op := .mmaF16 0 none 0 1 2 0 1 false }
     let q : Pass := { op := .mmaOut 0 none 1 3 4 0 0 0 false }
     let s := with0 fun c => c.setSlots 1 { running := some p, tail := [p] }
     ((s.core 0).slots' 1).running = some p ∧ ((s.core 0).slots' 1).tail = [p] ∧ (s.core 0).suspended = false ∧
       staysInFlight p.op = true ∧ staysInFlight q.op = false) ∧
    (let p : GangPass := { op := .mmaF16 0 none 0 1 2 0 1 true }
     let q : GangPass := { op := .mmaF16 0 none 1 1 2 0 1 true }
     let s := W.setCluster 0 { shape := 1, gangRun := some p, gangTail := [p] }
     let u := W.setCluster 0 { shape := 1, gangQueued := some q, gangTail := [p] }
     s.gangSuspended 0 = false ∧ (s.cluster 0).gangQueued = none ∧ (s.cluster 0).gangRun = some p ∧ p.badAt = none ∧
       (factorPlanOf p.op).isNone ∧ (s.cluster 0).gangTail = [p] ∧ u.gangSuspended 0 = false ∧ (u.cluster 0).gangRun = none ∧
       (u.cluster 0).gangQueued = some q ∧ outOf q.op = none ∧ (u.core 0).folding = 0) := by decide +kernel

/-- A ganged cluster 0 in shape 1 whose 256 cores hold the same NSI.RESID. -/
def WG : State :=
  { base with clusters := [(0, { shape := 1 })], cores := (List.range 256).map fun x =>
      (x, { st := .running, ganged := true, held := some (.nsiResid x none 1 2 0 5), t := [(1, tileAt 0x100 4 4 1), (2, tileAt 0x200 4 4 1)] }) }

/-- A ganged pass of depth 1 from the cluster buffer, whose first word of A is uncorrectable. -/
def badPass : GangPass :=
  { op := .mmaF16 0 none 0 1 2 3 0 true, tiles := [[tileAt 0x100000 64 1 0, tileAt 0x110000 1 64 0, {}]], badAt := some 0 }

def badViews : View × View × Option View :=
  (⟨tileAt 0x100000 64 1 0, ⟨0x100000, cbBase 0, true, true, 0⟩⟩, ⟨tileAt 0x110000 1 64 0, ⟨0x100000, cbBase 0, true, true, 0⟩⟩, none)

theorem witness_GangShapeAndPass :
    Issues W 0 (.gang 0 none 1) ∧ (W.core 0).ganged = false ∧
    (let s := with0 fun c => { c with ganged := true }
     Issues s 0 (.gang 0 none 0) ∧ Issues s 0 (.gang 0 none 3) ∧ (s.core 0).ganged = true ∧ (s.core 0).gangWait = false ∧ 0 = (s.cluster 0).shape ∧
       3 ≠ (s.cluster 0).shape ∧ (s.cluster 0).pending = false ∧ ∃ v, Compares s 0 (.gang 0 none 3) v) ∧
    (let s := with0 fun c => { c with ganged := true, gangWait := true }
     Issues s 0 (.gang 0 none 0) ∧ (s.core 0).ganged = true ∧ (s.core 0).gangWait = true) ∧
    (let s := W.setCluster 0 { shadow := 1, pending := true, gangIssued := (List.range 256).map fun x => (x, .gang 0 none 1) }
     (s.cluster 0).pending = true ∧ (s.cluster 0).gangIssued.length = 256 ∧ (∀ e ∈ (s.cluster 0).gangIssued, e.2 = .gang 0 none 1) ∧
       (∃ e ∈ (s.cluster 0).gangIssued, e.1 = 0) ∧ (s.cluster 0).inFlight = false) ∧
    ((WG.cluster 0).shape ≠ 0 ∧ (WG.cluster 0).passes = [] ∧
      WG.readyGang 0 = some (.nsiResid 0 none 1 2 0 5) ∧ (WG.core 0).target (.nsiResid 0 none 1 2 0 5) = none ∧
      (∀ x ∈ List.range 256, (WG.readyGang x).isSome ∧ (WG.core x).passes = [] ∧ (WG.core x).tapQ = [] ∧ (WG.core x).folding = 0 ∧
        ∀ j ∈ WG.readyGang x, (WG.core x).gangKey j = (WG.core 0).gangKey (.nsiResid 0 none 1 2 0 5) ∧
        WG.gangPartFault x 1 j = none)) ∧
    (let s := WG.setCore 1 { WG.core 1 with held := some (.nsiResid 1 none 1 2 1 5) }
     s.readyGang 1 = some (.nsiResid 1 none 1 2 1 5) ∧ (s.core 1).fault.valid = false ∧
       (s.core 1).gangKey (.nsiResid 1 none 1 2 1 5) ≠ (s.core 0).gangKey (.nsiResid 0 none 1 2 0 5)) ∧
    (let s : State := { (W.setCluster 0 { shape := 1, gangRun := some badPass }) with bad := [cbBase 0] }
     (s.cluster 0).gangRun = some badPass ∧ badPass.badAt = some 0 ∧
       s.mmaViews 0 badPass.shape badPass.op (badPass.tiles.getD 0 []) = some badViews ∧
       s.firstBad badViews 0 = some (0, cbBase 0) ∧ (s.core 0).tapQ = [] ∧ (s.core 0).fault.valid = false) :=
  ⟨issues_of (by decide +kernel), by decide +kernel, ⟨issues_of (by decide +kernel), issues_of (by decide +kernel), by decide +kernel,
      by decide +kernel, by decide +kernel, by decide +kernel, by decide +kernel, compares_of (by decide +kernel) (by decide +kernel)⟩,
    ⟨issues_of (by decide +kernel), by decide +kernel⟩, by decide +kernel, by decide +kernel, by decide +kernel, by decide +kernel⟩

theorem witness_VectorOperations :
    (∀ i ∈ [Instr.vadd 0 none false 0 1 2 7 0 false, .vmul 0 none false 15 1 2 0 0 true, .vfma 0 none false 1 1 1 1 0 0 false,
      .vmin 0 none false 1 1 2 0 0 true, .vmax 0 none false 1 1 2 0 0 false, .vsel 0 none false 1 1 2 0 0 false, .vcmp 0 none 0 1 2 5 true,
      .vadd 0 none true 3 3 3 0 2 false, .vmul 0 none true 4 9 9 0 1 true, .vfma 0 none true 3 3 3 3 0 0 false, .vmin 0 none true 3 3 3 0 0 false,
      .vmax 0 none true 4 9 9 0 0 true, .vsel 0 none true 3 3 3 0 0 false], Issues WT 0 i) ∧
    WT.bad = [] ∧ WT.view 0 (tileAt 0x300 4 4 0) false = .ok ⟨tileAt 0x300 4 4 0, sp0⟩ ∧
    (let v : View := ⟨tileAt 0x300 4 4 0, sp0⟩
     WT.vtileFault false (.ok v) v.t [.ok v, .ok v, .ok v] = none ∧ (WT.core 0).tapQ = [] ∧
       Unblocked WT 0 (.vadd 0 none true 3 3 3 0 2 false) (v.bytes ++ v.bytes ++ v.bytes) v.bytes ∧
       (WT.settleTap 0 (v.bytes ++ v.bytes ++ v.bytes) v.bytes).toOption.isSome) ∧
    (let v : View := ⟨tileAt 0x400 4 4 1, sp0⟩
     let w : View := ⟨tileAt 0x900 4 4 1, sp0⟩
     WT.vtileFault true (.ok v) v.t [.ok w, .ok w, .ok w] = none) :=
  ⟨issues_all (by decide +kernel), by decide +kernel, by decide +kernel, by unfold Unblocked; decide +kernel, by decide +kernel⟩

theorem witness_VectorMemory :
    (let c := W.core 0
     W.local' 0 (c.ar 2 + (0xFFFC : W16).signExtend 32).toNat 32 = .error 2 ∧
     (c.ar 2 + (0xFFFC : W16).signExtend 32).toNat / 32 * 32 = 0xBFE0 ∧ W.local' 0 0xBFE0 32 = .ok (spBase 0 + 0xBFE0, sp0) ∧
     W.bad = [] ∧ c.tapQ = [] ∧ Unblocked W 0 (.vld 0 none 1 2 0 0xFFFC) [(spBase 0 + 0xBFE0, 32)] [] ∧
     Unblocked W 0 (.vst 0 none 1 2 0 0xFFFC) [] [(spBase 0 + 0xBFE0, 32)] ∧
     (W.settleTap 0 [(spBase 0 + 0xBFE0, 32)] []).toOption.isSome ∧ (W.settleTap 0 [] [(spBase 0 + 0xBFE0, 32)]).toOption.isSome ∧
     ({ W with bad := [spBase 0 + 0xBFE8] } : State).badWord (spBase 0 + 0xBFE0) 32 = some (spBase 0 + 0xBFE8)) ∧
    (∀ i ∈ [Instr.vld 0 none 1 2 0 0xFFFC, .vst 0 none 1 2 0 0xFFFC], Issues W 0 i) ∧
    (let s := with0 fun c => c.setSlots 2 { running := some { op := .vsel 0 none false 1 1 2 0 0 false } }
     ((s.core 0).slots' 2).running.isSome ∧ ((s.core 0).slots' 2).queued = none ∧ (s.core 0).suspended = false) :=
  ⟨by unfold Unblocked; decide +kernel, issues_all (by decide +kernel), by decide +kernel⟩

/-- A captured entry: tokens from t1, the slice t10. -/
def anEntry : TapEntry :=
  { tile := tileAt 0x100 4 2 0, side := false, first := 0, wide := false, s := 0, slice := tileAt 0xA00 2 2 1, key := 0, base := 0,
    offA := 0, offB := 0, depth := 2, seed := 0, step := 0 }

/-- WT with that entry in the tap queue. -/
def WQ : State := WT.setCore 0 { (WT.core 0).setT 10 (tileAt 0xA00 2 2 1) with tapQ := [anEntry], tapAuto := some (tileAt 0xA00 2 2 1) }

theorem witness_CurvatureTap :
    (∀ i ∈ [Instr.tapArm 0 none 10 true 7 31, .tapOff 0 none, .tapAuto 0 none 10, .syrkTap 0 none 10, .syrkTap 0 none 1, .tapDrain 0 none 10],
      Issues WQ 0 i) ∧ Issues W 0 (.syrkTap 0 none 10) ∧ Issues W 0 (.tapDrain 0 none 10) ∧
    Unblocked WQ 0 (.syrkTap 0 none 10) (WQ.foldFoot 0 anEntry).reads (WQ.foldFoot 0 anEntry).writes ∧
    (W.core 0).tapQ.length ≤ (W.core 0).folding ∧ (W.core 0).tapQ = [] ∧ (WQ.core 0).unfolded = [anEntry] ∧
    WQ.foldWaits 0 anEntry = false ∧
    (let p : Pass := { op := .vsel 0 none true 1 1 2 0 0 false, foot := WQ.foldFoot 0 anEntry }
     let s := WQ.setCore 0 ((WQ.core 0).setSlots 2 { running := some p })
     s.foldWaits 0 anEntry = true) ∧ (WQ.core 0).tapQ[(WQ.core 0).folding]? = some anEntry ∧
    anEntry.slice = (WQ.core 0).tr 10 ∧ anEntry.slice ≠ (WQ.core 0).tr 1 ∧ (WQ.foldEntry 0 anEntry).toOption.isSome ∧
    (WQ.foldFirst 0 1).toOption.isSome ∧
    ((WQ.core 0).st = .running ∧ WQ.strict = false ∧ ((WQ.core 0).slots' 1).running = none ∧ ((WQ.core 0).slots' 1).queued = none ∧
      (WQ.core 0).folding = 0 ∧ (WQ.cluster 0).shape = 0 ∧ (WQ.core 0).tapAuto = some anEntry.slice ∧ (WQ.core 0).tapQ = [anEntry]) ∧
    (let s := WQ.setCore 0 { WQ.core 0 with folding := 1 }
     (s.core 0).tapQ = [anEntry] ∧ (s.core 0).folding ≠ 0 ∧ (s.core 0).suspended = false ∧ (s.cluster 0).gangQueued = none) :=
  ⟨issues_all (by decide +kernel), issues_of (by decide +kernel), issues_of (by decide +kernel), by unfold Unblocked; decide +kernel⟩

theorem witness_RootIterations :
    (∀ i ∈ [Instr.nsiScale 0 none 4 9 2 0, .nsiScale 0 none 4 9 0 5, .nsiStep 0 none 4 9 11 0, .nsiResid 0 none 4 9 1 5, .updNs 0 none 4 9 12,
      .refine 0 none 4 9 12 13], Issues WT 0 i) ∧ (∀ i, Compares WT 0 i WT) ∧
    ((WT.core 0).gangWait = false ∧ (WT.cluster 0).shape = 0 ∧ WT.bad = [] ∧ (WT.core 0).tapQ = [] ∧
      (let b := View.bytes ⟨tileAt 0x400 4 4 1, sp0⟩
       Unblocked WT 0 (.nsiScale 0 none 4 9 2 0) b (b ++ b) ∧ Unblocked WT 0 (.nsiStep 0 none 4 9 11 0) (b ++ b) (b ++ b ++ b) ∧
       Unblocked WT 0 (.nsiResid 0 none 4 9 1 5) (b ++ b) [] ∧ Unblocked WT 0 (.updNs 0 none 4 9 12) b (b ++ b ++ b) ∧
       Unblocked WT 0 (.refine 0 none 4 9 12 13) (b ++ b ++ b) (b ++ b))) ∧
    (∀ b ∈ [true, false], WT.facTile 0 (tileAt 0x400 4 4 1) 4 4 b = .ok ⟨tileAt 0x400 4 4 1, sp0⟩) ∧
    WT.facTile 0 (tileAt 0x1000 8 4 1) 8 4 true = .ok ⟨tileAt 0x1000 8 4 1, sp0⟩ ∧ 2 * 4 * 4 ≤ (tileAt 0x1000 8 4 1).cr * (tileAt 0x1000 8 4 1).cc ∧
    (tileAt 0x400 4 4 1).fmt ≠ 5 :=
  ⟨issues_all (by decide +kernel), fun _ => compares_same (by decide +kernel), by unfold Unblocked; decide +kernel,
    by decide +kernel, by decide +kernel, by decide +kernel, by decide +kernel⟩

/-- A supernode record of one column and no rows below, its certificate entry and its areas, in core 0's scratchpad. -/
def WS : State :=
  let sp := spBase 0
  (((((((with0 fun c => { c with t := [(1, { base := 0x1000 }), (2, { base := 0x1080 }), (3, { base := 0x2000 }), (4, tileAt 0x1400 1 2 1)] }).wr
    (sp + 0x1004) 2 1).wr (sp + 0x1010) 8 0x1100).wr (sp + 0x1018) 8 0x1200).wr (sp + 0x1020) 8 0x1300).wr (sp + 0x1086) 2 1).wr
    (sp + 0x108C) 4 0x7F800000).wr (sp + 0x1200) 4 0x40800000

/-- The hypotheses on the record, the certificate and the areas hold in a state. -/
def snGood (s : State) : Bool :=
  match s.snRec 0 ((s.core 0).tr 1), s.certOf 0 ((s.core 0).tr 2) with
  | .ok x, .ok _ =>
    match s.snAreas 0 x ((s.core 0).tr 3) with
    | .ok a => (s.parentFault 0 x a).isNone &&
        [Instr.cholSn 0 none 1 2 3, .ldltSn 0 none 1 2 3].all fun i => !s.blocked 0 i { reads := snReads s x a, writes := snWrites s x a }
    | .error _ => false
  | _, _ => false

/-- The hypotheses of the triangular solves hold in a state. -/
def trsvGood (s : State) (p : Nat) : Bool :=
  match s.snRec 0 ((s.core 0).tr 1) with
  | .ok x =>
    match s.facTile 0 ((s.core 0).tr 4) (x.c + x.r) ((s.core 0).tr 4).cols.toNat true with
    | .ok y => decide (x.factor < 2 ^ 63 ∧ x.form ≤ 1 ∧ ((s.core 0).tr 4).cols.toNat ≤ 4096) &&
        (match s.trsvAreas 0 p x y 2 with
        | .ok z => !s.blocked 0 (.trsvSn 0 none 1 4 3 p) { reads := y.bytes ++ trsvReads s z p, writes := y.bytes ++ trsvWrites z p }
        | .error _ => false)
    | .error _ => false
  | .error _ => false

/-- An instance whose solve with tag 1 is frozen. -/
def aCmd (op : Nat) (b : List Byte) : Cmd :=
  { q := 0, inst := 0, id := 7, gen := 0, opcode := op, fence := false, layer := 0, oper := 0, bytes := b, tag := 1 }
def aSolve : SolveRec := { tag := 1, cmd := aCmd 5 (zeros 128), first := 0, count := 1, deadline := 900, started := true, frozen := true }
/-- Core 0 runs that frozen solve's program. -/
def frozenOf (s : State) : State :=
  (s.setInst 0 { s.inst 0 with solves := [aSolve] }).setCore 0 { s.core 0 with prog := some { id := 1, inst := 0, solve := some 1 } }

theorem witness_SupernodeOperations :
    (∀ i ∈ [Instr.cholSn 0 none 1 2 3, .ldltSn 0 none 1 2 3, .trsvSn 0 none 1 4 3 0, .trsvSn 0 none 1 4 3 2], Issues WS 0 i) ∧ (WS.core 0).ganged = false ∧
    (WS.core 0).gangWait = false ∧ (WS.cluster 0).shape = 0 ∧ WS.bad = [] ∧ (WS.core 0).tapQ = [] ∧
    WS.solveFrozen 0 = false ∧ snGood WS = true ∧ trsvGood WS 0 = true ∧ trsvGood WS 1 = true ∧ trsvGood WS 2 = true ∧
    ((frozenOf WS).solveFrozen 0 = true ∧ ((frozenOf WS).snRec 0 (((frozenOf WS).core 0).tr 1)).toOption.isSome) ∧
    (∀ i ∈ [Instr.cholSn 0 none 1 2 3, .ldltSn 0 none 1 2 3], Issues (frozenOf WS) 0 i) ∧
    (let s := with0 fun c => c.setSlots 5 { running := some { op := .cholSn 0 none 1 2 3 } }
     ((s.core 0).slots' 5).running.isSome ∧ ((s.core 0).slots' 1).queued = none ∧ (s.core 0).suspended = false) ∧
    (let p : GangPass := { op := .cholSn 0 none 1 2 3 }
     let s := W.setCluster 0 { shape := 1, gangRun := some p }
     (factorPlanOf p.op).isSome ∧ (s.cluster 0).gangRun = some p ∧ s.gangSuspended 0 = false ∧ (s.cluster 0).gangQueued = none) :=
  ⟨issues_all (by decide +kernel), by decide +kernel, by decide +kernel, by decide +kernel,
    by decide +kernel, by decide +kernel, by decide +kernel, by decide +kernel, by decide +kernel, by decide +kernel, by decide +kernel,
    by decide +kernel, issues_all (by decide +kernel), by decide +kernel, by decide +kernel⟩

/-- The g-register 6 names cluster 17, which instance 0 does not own. -/
theorem witness_SyncSends :
    (∀ i ∈ [Instr.sigCnt 0 none 0 0 5, .sigCnt 0 none 63 1 5, .sigCnt 0 none 5 6 1, .barArrive 0 none 7, .barArrive 0 none 8, .flagSet 0 none 63,
      .flagSet 0 none 64, .flagClr 0 none 0, .hostIrq 0 none 7, .hostIrq 0 none 8, .setCnt 0 none 63 65535],
      Issues (with0 fun c => c.setG 6 17) 0 i) ∧
    (let s := with0 fun c => c.setG 6 17
     s.owns (s.instOf 0) 0 = true ∧ s.owns (s.instOf 0) 7 = true ∧ s.owns (s.instOf 0) 17 = false ∧ s.ownsBar 0 7 = true ∧ s.ownsBar 0 8 = false ∧
       s.ownsFlag 0 63 = true ∧ s.ownsFlag 0 64 = false ∧ s.hasVec 0 7 = true ∧ s.hasVec 0 8 = false ∧ s.waiters = [] ∧ s.hostWaits 0 = []) :=
  ⟨issues_all (by decide +kernel), by simp only [State.hostWaits]; decide +kernel⟩

/-- Whether there is an error. -/
def isError {α : Type} (x : Except Nat α) : Bool := match x with | .error _ => true | .ok _ => false

/-- A core with a signal on its way. -/
def sends (x : Sig) : State := with0 fun c => { c with signals := [{ sig := x }] }

theorem hostWaits_none (s : State) (h : ∀ e ∈ s.insts, e.2.accepted = []) (n : Nat) : s.hostWaits n = [] := by
  have : (s.insts.flatMap fun e => e.2.accepted.filter fun c =>
      decide (c.opcode = Op.wait) && c.started.isSome && decide (c.fld 0x10 1 = n)) = [] := by
    simp only [List.flatMap_eq_nil_iff]
    intro e he
    rw [h e he]; rfl
  simp [State.hostWaits, this]

theorem witness_SignalTakesEffect :
    (W.core 0).signals = [] ∧
    (∀ x ∈ [Sig.cnt 0 0 1, .bar 7, .flag 63, .irq 7], ((sends x).core 0).signals = [{ sig := x }]) ∧
    (let u := (sends (.bar 7)).setReg (R.barCfg 7) 2
     u.waiters = [] ∧ u.barArrived 7 + 1 < u.barMembers 7 ∧ 0 < (u.setReg (R.barArr 7) 1).barMembers 7 ∧
       (u.setReg (R.barArr 7) 1).barMembers 7 ≤ (u.setReg (R.barArr 7) 1).barArrived 7 + 1) ∧
    (let u := (sends (.cnt 0 5 3)).setCore 1 { st := .waiting, wait := some (.cnt 5 3) }
     u.waiters = [1] ∧ clOf 1 = 0 ∧ (u.core 1).wait = some (.cnt 5 3) ∧ (u.core 1).stepOne = false ∧ 3 ≤ u.cnt 0 5 + 3 ∧ u.cnt 0 5 + 3 ≤ 0xFFFF) ∧
    (let x : Signal := { sig := .cnt 0 5 2 }
     let y : Signal := { sig := .cnt 0 5 1 }
     let s := ((W.setCore 2 { st := .running, signals := [x] }).setCore 3 { st := .running, signals := [y] }).setCore 1
       { st := .waiting, wait := some (.cnt 5 3) }
     (s.core 2).signals = [x] ∧ (s.core 3).signals = [y] ∧ s.writesBefore 2 x = false ∧ s.writesBefore 3 y = false ∧ s.waiters = [1] ∧
       (s.core 1).stepOne = false ∧ 3 ≤ s.cnt 0 5 + 2 + 1 ∧ s.cnt 0 5 + 2 + 1 ≤ 0xFFFF) ∧
    (let x : Signal := { sig := .flag 1, seq := 2 }
     let p : Pass := { op := .nop 0 none, seq := 1, foot := { writes := [(spBase 0, 4)] } }
     let s := W.setCore 0 { run with signals := [x], slots := [(3, { running := some p })] }
     (s.core 0).signals = [x] ∧ s.writesBefore 0 x = true) ∧
    (∀ n, (sends (.flag 1)).hostWaits n = []) :=
  ⟨by decide +kernel, by decide +kernel, by decide +kernel, by decide +kernel, by decide +kernel, by decide +kernel,
    hostWaits_none _ (by decide +kernel)⟩

theorem witness_WaitsCompleteOrWait :
    (∀ i ∈ [Instr.waitCnt 0 none 63 0, .waitCnt 0 none 63 1, .barWait 0 none 255, .flagWait 0 none 63, .flagWait 0 none 64, .fence 0 none 0,
      .fence 0 none 62], Issues W 0 i) ∧
    (∀ i ∈ [Instr.waitCnt 0 none 63 0, .barWait 0 none 255, .flagWait 0 none 63], Issues (frozenOf W) 0 i) ∧
    (W.solveFrozen 0 = false ∧ (frozenOf W).solveFrozen 0 = true ∧ W.cnt 0 63 < (1 : W16).toNat ∧ (0 : W16).toNat ≤ W.cnt 0 63 ∧
      W.ownsFlag (W.instOf 0) 63 = true ∧ W.ownsFlag (W.instOf 0) 64 = false ∧ W.flag 63 = false ∧ (W.setFlag 63 true).flag 63 = true ∧
      (∀ e ∈ [1, 2, 3, 4, 5], W.engineBusy 0 e = false)) ∧
    (let s := with0 fun c => { c with barKept := some (255, 1) }
     Issues s 0 (.barWait 0 none 255) ∧ s.barPhase 255 ≠ 1) ∧
    (let s := with0 fun c => c.setSlots 5 { tail := [{ op := .nop 0 none }] }
     Issues s 0 (.fence 0 none 32) ∧ s.engineBusy 0 5 = true ∧ (32 : W32).getLsbD 5 = true) :=
  ⟨issues_all (by decide +kernel), issues_all (by decide +kernel), by decide +kernel, ⟨issues_of (by decide +kernel), by decide +kernel⟩,
    ⟨issues_of (by decide +kernel), by decide +kernel⟩⟩

/-- The target beat is the present one, and one beat ahead. -/
theorem witness_BeatWait :
    Issues W 0 (.beatWait 0 none 1000) ∧ (W.core 0).ba + (1000 : W32).zeroExtend 64 ≤ W.beat ∧ W.solveFrozen 0 = false ∧
    Issues W 0 (.beatWait 0 none 1001) ∧ W.beat < (W.core 0).ba + (1001 : W32).zeroExtend 64 ∧
    Issues (frozenOf W) 0 (.beatWait 0 none 0) ∧ (frozenOf W).solveFrozen 0 = true :=
  ⟨issues_of (by decide +kernel), by decide +kernel, by decide +kernel, issues_of (by decide +kernel), by decide +kernel,
    issues_of (by decide +kernel), by decide +kernel⟩

theorem witness_TimeClass : ∀ i ∈ [Instr.baSet 0 none 0, .baSet 0 none 30, .baAdv 0 none 5, .baNow 0 none 0xFFFFFFFF, .beatRd 0 none 0],
    Issues W 0 i := issues_all (by decide +kernel)

theorem witness_ChecksAndDigests :
    (∀ i ∈ [Instr.tchk 0 none 3 0, .chkRange 0 none 3 5 0, .chkRange 0 none 1 5 0, .chkNf 0 none 3 5, .updNf 0 none 3, .digFold 0 none 0 0,
      .digRd 0 none 30 3, .digClr 0 none 3], Issues WT 0 i) ∧
    (let v : View := ⟨tileAt 0x300 4 4 0, sp0⟩
     WT.view 0 v.t false = .ok v ∧ WT.viewBad v = none ∧ (({ WT with bad := [spBase 0 + 0x300] } : State).viewBad v).isSome ∧
       (WT.core 0).tapQ = [] ∧ Unblocked WT 0 (.tchk 0 none 3 0) v.bytes [] ∧ Unblocked WT 0 (.updNf 0 none 3) v.bytes [] ∧
       (v.indices.any fun p => exceeds 0 (WT.elem v p.1 p.2) 0) = false ∧ v.indices.find? (fun p => nonFinite 0 (WT.elem v p.1 p.2)) = none) ∧
    (let v : View := ⟨tileAt 0x100 4 2 0, sp0⟩
     WT.view 0 v.t false = .ok v ∧ (v.indices.any fun p => exceeds 0 (WT.elem v p.1 p.2) 0) = true) ∧
    (let s := (WT.wr (spBase 0 + 0x302) 2 0x7C00).setCore 0 { WT.core 0 with prog := some { id := 1, inst := 0 } }
     let v : View := ⟨tileAt 0x300 4 4 0, sp0⟩
     Issues s 0 (.updNf 0 none 3) ∧ (v.indices.find? fun p => nonFinite 0 (s.elem v p.1 p.2)).isSome = true ∧ (s.core 0).prog.isSome) :=
  ⟨issues_all (by decide +kernel), by unfold Unblocked; decide +kernel, by decide +kernel, ⟨issues_of (by decide +kernel), by decide +kernel⟩⟩

/-- The last word of a 64-bit field, the first of the others, and the last word of the record. -/
theorem witness_CountersAttributionStatus :
    (let p : GangPass := { op := .mmaF16 0 none 1 1 2 0 1 true }
     let s := W.setCluster 0 { shape := 1, gangRun := some p }
     Issues s 0 (.statRd 0 none 5 3) ∧ (s.cluster 0).adding 1 = true) ∧ (W.cluster 0).adding 1 = false ∧
    ∀ i ∈ [Instr.cntRd 0 none 5 0, .cntRd 0 none 5 153, .cntRd 0 none 5 160, .cntRd 0 none 5 318,
    .attrSet 0 none 0 1, .statRd 0 none 0 0, .statRd 0 none 5 6, .statRd 0 none 5 3, .traceMark 0 none 5], Issues W 0 i :=
  ⟨⟨issues_of (by decide +kernel), by decide +kernel⟩, by decide +kernel, issues_all (by decide +kernel)⟩

theorem witness_HaltEndAndSwap :
    (∀ i ∈ [Instr.nop 0 none, .halt 0 none, .endProg 0 none 0 0 0 0, .endProg 0 none 1 0 63 5, .endProg 0 none 2 0 63 0, .endProg 0 none 2 0 64 0,
      .endProg 0 none 3 0 7 0, .endProg 0 none 3 0 8 0, .bankSwap 0 none], Issues W 0 i) ∧
    W.owns 0 0 = true ∧ W.ownsFlag 0 63 = true ∧ W.ownsFlag 0 64 = false ∧ W.hasVec 0 7 = true ∧ W.hasVec 0 8 = false ∧
    W.foldFirst 0 (W.core 0).unfolded.length = .ok W ∧ (W.core 0).shadowValid = false ∧ (W.core 0).load = none ∧
    (let s := with0 fun c => { c with shadowValid := true }
     Issues s 0 (.bankSwap 0 none) ∧ (s.core 0).shadowValid = true ∧ s.foldFirst 0 (s.core 0).unfolded.length = .ok s ∧ s.quiet 0 = true) ∧
    (let s := with0 fun c => { c with load := some { launch := 1, toActive := false, words := [0xFC10000000000000], entry := 0, ganged := false } }
     Issues s 0 (.bankSwap 0 none) ∧ (s.core 0).shadowValid = false ∧ (s.core 0).load ≠ none ∧ s.foldFirst 0 (s.core 0).unfolded.length = .ok s) ∧
    (let s : State := { (with0 fun c => { c with tapQ := [anEntry] }) with bad := [spBase 0 + 0x100] }
     Issues s 0 (.endProg 0 none 0 0 0 0) ∧ isError (s.foldFirst 0 (s.core 0).unfolded.length) = true) :=
  ⟨issues_all (by decide +kernel), by decide +kernel, by decide +kernel, by decide +kernel, by decide +kernel, by decide +kernel, by decide +kernel,
    by decide +kernel, by decide +kernel, ⟨issues_of (by decide +kernel), by decide +kernel, by decide +kernel, by decide +kernel⟩,
    ⟨issues_of (by decide +kernel), by decide +kernel⟩, issues_of (by decide +kernel), by decide +kernel⟩

theorem witness_CoreFaultsAndDrains :
    ((W.core 0).canFault = true ∧ (W.core 0).fault.valid = false ∧ (W.core 0).ganged = false ∧ (W.core 0).prog = none ∧ (W.core 1).canFault = false) ∧
    ((with0 fun c => { c with fault := { cause := 2, valid := true } }).core 0).canFault = true ∧
    (let s (a : After) := with0 fun c => { c with st := .draining, after := a }
     (∀ a ∈ [After.toHalted, .toFaulted, .toReset, .toFrozen, .toEnd none, .toEnd (some { sig := .flag 5 })], ((s a).core 0).st = .draining ∧ ((s a).core 0).swapPending = false ∧
       ((s a).core 0).after = a ∧ (s a).settledFor 0 = true)) ∧
    (let s := (with0 fun c => { c with st := .draining, after := .toHalted, haltAt := 0, slots := [(1, { tail := [{ op := .nop 0 none }] })] }).setReg
        (R.drainMax 0) 999
     s.settledFor 0 = false ∧ (s.reg (R.drainMax (s.instOf 0))).toNat < (s.beat - (s.core 0).haltAt).toNat) ∧
    (let s := (frozenOf W).setCore 0 { (frozenOf W).core 0 with boundary := true }
     s.solveFrozen 0 = true ∧ (s.core 0).atSupernode = true ∧ s.foldFirst 0 (s.core 0).unfolded.length = .ok s) :=
  ⟨by decide +kernel, by decide +kernel, by decide +kernel, by decide +kernel, by decide +kernel⟩

/-- A load of one END into a bank. -/
def aLoad (toActive : Bool) : Load := { launch := 1, toActive := toActive, words := [0xFC10000000000000], entry := 0, ganged := false }
def aLaunch : LaunchRec := { id := 1, inst := 0, cmd := aCmd 1 (zeros 64), launchBeat := 1000, starts := true, unstarted := [0], left := [0] }

theorem witness_LoadsSwapsAndStarts :
    (∀ b ∈ [true, false], let s := with0 fun c => { c with st := .halted, load := some (aLoad b) }
      (s.core 0).load = some (aLoad b) ∧ (s.core 0).swapPending = false ∧ (s.core 0).resumeDue = false ∧ s.bad = []) ∧
    (∀ st ∈ [CoreSt.idle, .halted, .faulted], let s := with0 fun c => { c with st := st, swapPending := true, shadowValid := true }
     s.atBoundary 0 = true ∧ (s.core 0).st ≠ .running ∧ (s.core 0).swapPending = true ∧ (s.core 0).shadowValid = true ∧ (s.core 0).load = none) ∧
    (W.atBoundary 0 = false ∧ (W.core 0).held = none) ∧
    (let s (b : W64) : State := { with0 fun c => { c with st := .loaded } with beat := b, launches := [aLaunch] }
     let good (b : W64) : Prop := (s b).launches.find? (fun r => r.starts && r.unstarted.contains 0) = some aLaunch ∧ ((s b).core 0).st = .loaded ∧
       ((s b).core 0).activeLoad = false ∧ ((s b).core 0).swapPending = false
     good 999 ∧ (s 999).beat < aLaunch.launchBeat ∧ good 1000 ∧ aLaunch.launchBeat ≤ (s 1000).beat ∧ aLaunch.solve = none) :=
  ⟨by decide +kernel, by decide +kernel, by decide +kernel, by decide +kernel⟩

/-- A block of bytes with some fields filled in: offset, length, value. -/
def block (n : Nat) (l : List (Nat × Nat × Nat)) : List Byte :=
  l.foldl (fun b f => b.take f.1 ++ leBytes f.2.1 f.2.2 ++ b.drop (f.1 + f.2.1)) (zeros n)

/-- A transfer of 2 × 4 FP32 elements between two places of the own scratchpad. -/
def xBytes : List Byte := block 64 [(2, 1, 1), (3, 1, 1), (4, 4, 2), (8, 4, 4), (0x10, 8, 0x400), (0x1C, 4, 4), (0x20, 8, 0x800), (0x2C, 4, 4), (0x30, 1, 1), (0x31, 1, 1)]
/-- A reduction of four FP32 elements over cluster 0 into HBM, with one member. -/
def cBytes : List Byte := block 64 [(1, 1, 7), (3, 1, 1), (4, 4, 4), (8, 8, 0x400), (0x10, 8, 0x200000), (0x18, 1, 1), (0x1C, 2, 1), (0x20, 4, 0x100000)]
/-- An update of one row by rule 0. -/
def uBytes : List Byte := block 64 [(0xC, 4, 1)]
/-- The entry of a shard of one row of four columns. -/
def shBytes : List Byte := block 128 [(7, 1, 0xFF), (0xC, 4, 1), (0x10, 4, 4), (0x14, 4, 1), (0x18, 4, 4), (0x30, 8, 0x210000), (0x38, 8, 0x220000),
  (0x40, 8, 0x230000), (0x48, 8, 0x240000), (0x50, 8, 0x250000)]

/-- An instance with a buffer of one granule at 2 MiB, and descriptors in core 0's scratchpad at 0x100. -/
def posting (b : List Byte) : State :=
  { ((W.write (spBase 0 + 0x100) b).write (cbBase 0) [3]) with buffers := [{ idx := 0, owner := 0, ownerGen := 0, base := 0x200000, granules := 1 }] }

/-- That instance with one shard, its table at 2 MiB. -/
def sharded (b : List Byte) : State :=
  (((posting b).setReg (R.shardBase 0) 0x200000).setReg (R.shardCount 0) 1).write 0x200000 shBytes

/-- Whether the descriptor at a1 passes its checks. -/
def postGood (s : State) (i : Instr) : Bool :=
  let b := s.rbs (spBase 0 + 0x100) 64
  match i with
  | .xferPost .. => match s.checkX 0 (some 0) b with | .ok d => (s.orderConflict 0 (.core 0 0 0 5 none) d).isNone | .error _ => false
  | .collPost .. => match s.checkC 0 (some 0) b with | .ok d => decide (d.1.levels ≠ 0 ∧ 1 ∈ s.contributors d.1) | .error _ => false
  | .updApply .. => (s.checkU 0 0 63 0 5 (0, false) b).toOption.isSome
  | _ => false

theorem witness_PostsToEngines :
    (∀ i ∈ [Instr.xferPost 0 none 1 0 0 5, .xferPost 0 none 2 0 0 5], Issues (posting xBytes) 0 i) ∧ Issues (posting cBytes) 0 (.collPost 0 none 1 63 0 5) ∧
    Issues (sharded uBytes) 0 (.updApply 0 none 1 63 0 5) ∧ postGood (sharded uBytes) (.updApply 0 none 1 63 0 5) = true ∧
    (W.core 0).posts < 16 ∧ 16 ≤ ((with0 fun c => { c with posts := 16 }).core 0).posts ∧
    ((W.core 0).ar 1).toNat % 64 = 0 ∧ ((W.core 0).ar 1).toNat + 64 ≤ 0xC000 ∧ 0xC000 < ((W.core 0).ar 2).toNat + 64 ∧
    W.badWord (spBase 0 + 0x100) 64 = none ∧ W.owns (W.instOf 0) 0 = true ∧ (W.core 0).tapQ = [] ∧
    (W.settleTap 0 [(spBase 0 + 0x100, 64)] []).toOption.isSome ∧ W.coreUndone 0 = false ∧
    (∀ x ∈ [Instr.xferPost 0 none 1 0 0 5, .collPost 0 none 1 63 0 5, .updApply 0 none 1 63 0 5],
      W.blocked 0 x { reads := [(spBase 0 + 0x100, 64)] } = false) ∧
    (({ W with bad := [spBase 0 + 0x100] } : State).badWord (spBase 0 + 0x100) 64).isSome ∧
    isError ((posting (block 64 [(0, 1, 9)])).checkX 0 (some 0) (block 64 [(0, 1, 9)])) = true ∧ W.owns 0 17 = false ∧
    postGood (posting xBytes) (.xferPost 0 none 1 0 0 5) = true ∧ postGood (posting cBytes) (.collPost 0 none 1 63 0 5) = true ∧
    (posting cBytes).colls = [] := by
  refine ⟨issues_all (by decide +kernel), issues_of (by decide +kernel), issues_of (by decide +kernel), ?_⟩
  decide +kernel


/-! ### Witnesses: transfers, messages, updates and queues -/

/-- One row of two FP32 elements from one place of HBM to another, posted by a command. -/
def aXfer : Xfer :=
  { id := 1, inst := 0, gen := 0, poster := .cmd (aCmd 2 (zeros 64)),
    desc := { kind := 0, wm := false, arrival := false, srcSpace := 0, dstSpace := 0, rows := 1, cols := 2, indexAddr := 0, srcAddr := 0x200000,
              srcCoord := 0, srcStride := 2, dstAddr := 0x200100, dstCoord := 0, dstStride := 2, srcFmt := 1, dstFmt := 1, srcSwz := 0, dstSwz := 0,
              scale := 0, rowLimit := 0 } }
def withX (y : Xfer) : State := { base with xfers := [y] }

theorem witness_TransfersMoveAndComplete :
    ((withX aXfer).xfers.find? (fun z => z.id = aXfer.id) = some aXfer ∧ aXfer.done = false ∧ aXfer.awaiting = 0 ∧ aXfer.gen = (withX aXfer).gen 0 ∧
      aXfer.desc.src.remote = false ∧ aXfer.desc.dst.remote = false ∧ aXfer.parts = [(0, 0, 2)] ∧ (withX aXfer).bad = [] ∧
      (withX aXfer).dmaPick aXfer.die = some 0 ∧
      { withX aXfer with dmaTurn := [(aXfer.die, { cur := 1, left := 3 })],
                         xfers := [{ aXfer with id := 2, inst := 1 }, aXfer] }.dmaPick aXfer.die ≠ some 0 ∧
      (let y := { aXfer with awaiting := 1 }
       (withX y).xfers.find? (fun z => z.id = y.id) = some y ∧ y.done = false) ∧
      (0 : Int) ≤ (aXfer.desc.dstAddr : Int) + ((0 : Int) * aXfer.desc.dstStride + 0) * aXfer.desc.dst.size ∧ aXfer.desc.dst.size = 4) ∧
    (let s := (withX aXfer).setReg (R.instGen 0) 1
     s.xfers.find? (fun z => z.id = aXfer.id) = some aXfer ∧ aXfer.gen ≠ s.gen aXfer.inst) ∧
    (let y := { aXfer with done := true }
     let z := { y with poster := .core 0 61 3 7 none }
     (withX y).xfers.find? (fun z => z.id = y.id) = some y ∧ y.gen = (withX y).gen 0 ∧ (withX z).xfers.find? (fun x => x.id = z.id) = some z ∧
       (withX z).waiters = []) ∧
    (∀ n, (withX { aXfer with done := true, poster := .core 0 61 3 7 none }).hostWaits n = []) :=
  ⟨by decide +kernel, by decide +kernel, by decide +kernel, hostWaits_none _ (by decide +kernel)⟩

/-- A message is the only one delivered. -/
def got (m : Message) (s : State) : State := { s with inbox := [m] }
/-- An instance with a buffer of one granule at 2 MiB. -/
def pooled : State := { base with buffers := [{ idx := 0, owner := 0, ownerGen := 0, base := 0x200000, granules := 1 }] }

/-- The last eight bytes of the buffer, and the eight that begin four before its end. -/
theorem witness_RemoteAccess :
    (let m : Message := { typ := 4, attr := 0x3FFFF8, payload := zeros 8 }
     let s := got m pooled
     s.inbox = [m] ∧ s.jobInst m.job = some 0 ∧ m.gen = s.gen 0 ∧ s.undone 0 m = false ∧ s.ownsHbm 0 (m.attr % 2 ^ 48) m.payload.length = true ∧
       m.attr % 2 ^ 48 + m.payload.length ≤ hbmTop ∧ s.bad = []) ∧
    (let m : Message := { typ := 4, job := 3, attr := 0x3FFFF8, payload := zeros 8 }
     (got m pooled).jobInst m.job = none ∧ (got m pooled).staleFor m = none) ∧
    (let m : Message := { typ := 4, step := 1, prov := true, attr := 0x3FFFF8, payload := zeros 8 }
     let s := got m (pooled.setGate 0 { pooled.gate 0 with undo := true })
     s.jobInst m.job = some 0 ∧ m.gen = s.gen 0 ∧ s.undone 0 m = true) ∧
    (let m : Message := { typ := 4, attr := 0x3FFFFC, payload := zeros 8 }
     (got m pooled).ownsHbm 0 (m.attr % 2 ^ 48) m.payload.length = false) ∧
    (let m : Message := { typ := 5, attr := 0x3F0000, payload := leBytes 8 65536 }
     leNat (m.payload.take 8) = 65536 ∧ (got m pooled).ownsHbm 0 (m.attr % 2 ^ 48) 65536 = true ∧
       (got m pooled).ownsHbm 0 ((m.attr + 1) % 2 ^ 48) 65536 = false) ∧
    (let x := { aXfer with awaiting := 1, desc := { aXfer.desc with srcCoord := 0x80000001 } }
     let m : Message := { typ := 6, seq := 1, chunk := 0, payload := zeros 8 }
     let s := got m (withX x)
     (s.consume m).asked 0 m = some x ∧ m.chunk = x.pos % 2 ^ 32 ∧ x.awaiting = 1 ∧
       (s.consume m).xRow x (x.parts.getD 0 (0, 0, 0)).1 = some (0, 0) ∧
       (got { m with typ := 7 } (withX x)).xfers.find? (fun x => decide (x.inst = 0 ∧ x.gen = s.gen 0 ∧ x.id % 2 ^ 32 = m.seq)) = some x) :=
  ⟨by decide +kernel, by decide +kernel, by decide +kernel, by decide +kernel, by decide +kernel, by decide +kernel⟩

/-- An integer sum of one element along axis 0, formed, at this module's turn, with a chunk kept for resending. -/
def aSum : CDesc :=
  { kind := 0, levels := 1, cuts := 0, fmt := 0, elems := 1, dst := 0x200000, dstFmt := 0, vc := 1, first := 0, count := 1, peer := 0, mask := 0,
    seq := 5, tokens := 0 }
def aColl (kept : List (Message × Nat)) : Coll :=
  { id := 1, inst := 0, gen := 0, desc := aSum, formed := true, axes := [0], vec := [7], since := 500, kept := kept }
def withC (c : Coll) : State := { (pooled.setReg (R.collJext 0) 1) with colls := [c] }

theorem witness_CollectiveChunks :
    (let m : Message := { typ := 1, seq := 5, chunk := 1, payload := zeros 8, crc := crc32c (zeros 8) }
     let s := got m (withC (aColl []))
     crc32c m.payload = m.crc ∧ s.inbox = [m] ∧ s.jobInst m.job = some 0 ∧ m.gen = s.gen 0 ∧ s.undone 0 m = false ∧ s.chunkColl 0 m = some (aColl []) ∧
       m.attr / 2 ^ 13 % 2 = 0 ∧ (aColl []).desc.kind ≤ 1 ∧ m.chunk % ((s.consume m).answer 0 m 2 []).jobExt 0 0 ≠ ((s.consume m).answer 0 m 2 []).myPos 0 0 ∧
       crc32c m.payload ≠ m.crc + 1 ∧ (got { m with crc := m.crc + 1 } (withC (aColl []))).chunkColl 0 { m with crc := m.crc + 1 } = some (aColl [])) ∧
    (let e : Message := { typ := 1, dst := 1, seq := 5, chunk := 0 }
     let m (typ : Nat) : Message := { typ := typ, src := 1, seq := 5, chunk := 0 }
     (∀ t ∈ [2, 3], ∀ n ∈ [0, 2, 3], ((got (m t) (withC (aColl [(e, n)]))).consume (m t)).keeper 0 (m t) = some (aColl [(e, n)], e, n)) ∧
       (aColl []).desc.kind ≠ 4) ∧
    (let s := (withC (aColl [])).setReg (R.chunkTimeout 0) 501
     s.colls.find? (fun c => decide (c.inst = 0 ∧ c.gen = s.gen 0 ∧ c.desc.seq = 5 ∧ c.formed ∧ ¬c.done ∧ c.desc.kind ≠ 4)) = some (aColl []) ∧
       (s.beat - (aColl []).since).toNat < (s.reg (R.chunkTimeout 0)).toNat ∧
       ((s.setReg (R.chunkTimeout 0) 500).reg (R.chunkTimeout 0)).toNat ≤ (s.beat - (aColl []).since).toNat) ∧
    (let c := { aColl [] with done := true, posters := [(.cmd (aCmd 3 (zeros 64)), 0, false)] }
     (withC c).colls.find? (fun c => decide (c.inst = 0 ∧ c.desc.seq = 5 ∧ (c.gen ≠ (withC c).gen 0 ∨ (c.done ∧ ¬c.posters.isEmpty)))) = some c ∧
       c.gen = (withC c).gen 0) :=
  ⟨by decide +kernel, by decide +kernel, by decide +kernel, by decide +kernel⟩

/-- A post of one row of shard 0 by rule 0, in step 0. -/
def aPost : UpdPost := { core := 0, cnt := 63, cl := 0, val := 5, op := 0, rule := 0, shard := 0, rowFirst := 0, rows := 1, dir := 0, step := 0 }
def withPost (p : UpdPost) (s : State) : State := s.setInst 0 { s.inst 0 with gate := { posts := [p] } }
def postOk (p : UpdPost) (s : State) : Bool :=
  let t := withPost p s
  decide ((t.gate 0).posts.find? (fun p => !t.postHeld 0 p) = some p ∧ (t.inst 0).exports = [] ∧ t.ckpt.src = none)
/-- The instance after its post has been taken, and the shard's entry. -/
def taken (p : UpdPost) (s : State) : State := (withPost p s).setGate 0 { (withPost p s).gate 0 with posts := [] }

theorem witness_UpdatePosts :
    ((sharded []).gate 0).posts = [] ∧
    (∀ p ∈ [aPost, { aPost with discard := true }, { aPost with rule := 1 }], postOk p (sharded []) = true) ∧
    (postOk { aPost with gen := 1 } (sharded []) = true ∧ (1 : Nat) ≠ (withPost { aPost with gen := 1 } (sharded [])).gen 0) ∧
    (let u := taken aPost (sharded [])
     let h := u.shard 0 0
     aPost.gen = (withPost aPost (sharded [])).gen 0 ∧ u.badWord h.at_ 128 = none ∧ u.bad = [] ∧ u.inTurn 0 aPost = true ∧ h.frozen = false ∧
       (({ u with bad := [h.at_ + 8] } : State).badWord h.at_ 128).isSome ∧ u.badShard 0 h (u.selected 0 h) = false ∧
       u.selected 0 h = 0 ∧ opAllowed 0 0 = true) ∧
    (let s := (sharded []).wr 0x200007 1 0xFE
     let u := taken aPost s
     postOk aPost s = true ∧ u.badShard 0 (u.shard 0 0) (u.selected 0 (u.shard 0 0)) = true) ∧
    (let p := { aPost with op := 1 }
     let u := taken p (sharded [])
     postOk p (sharded []) = true ∧ opAllowed (u.selected 0 (u.shard 0 0)) 1 = false) ∧
    (let s := (sharded []).wr 0x200008 1 1
     let u := taken aPost s
     postOk aPost s = true ∧ (u.shard 0 0).frozen = true ∧ u.badShard 0 (u.shard 0 0) (u.selected 0 (u.shard 0 0)) = false) :=
  ⟨by decide +kernel, by decide +kernel, by decide +kernel, by decide +kernel, by decide +kernel, by decide +kernel, by decide +kernel⟩

/-- Queue 0 enabled, with rings of two entries in host memory at 0x1000 and 0x2000, and one command submitted. -/
def queued (b : List Byte) : State :=
  ((((base.setReg (R.qCfg 0) 0x211).setReg (R.qSqBase 0) 0x1000).setReg (R.qCqBase 0) 0x2000).write (hostBase + 0x1000) b).setQueue 0
    { sqTail := 1 }
/-- A WAIT command for flag 5, one with a reserved byte set, and one with generation 1. -/
def waitBytes : List Byte := block 64 [(0, 1, 9), (2, 2, 7), (0x10, 1, 1), (0x12, 2, 5)]

theorem witness_QueuesAndDoorbells :
    (let s := queued waitBytes
     s.fnQueue 0 0 = true ∧ s.fnQueue 5 0 = false ∧ s.qEnabled 0 = true ∧ s.sqSize 0 = 2 ∧ s.cqSize 0 = 2 ∧ 1 % 65536 < s.sqSize 0 ∧
       s.sqSize 0 ≤ 2 % 65536 ∧ s.ownsFlag (s.qOwner 0) 63 = true ∧ s.waiters = []) ∧
    (∀ n, (queued waitBytes).hostWaits n = []) ∧
    (let s := queued waitBytes
     s.hasCommand 0 = true ∧ base.hasCommand 0 = false ∧ base.turnQueue ≠ some 0 ∧ s.served = [0] ∧ (∃ e ∈ s.insts, e.1 = s.qOwner 0) ∧
       s.turnQueue = some 0 ∧ s.cqFull 0 = false ∧ s.bad = [] ∧ s.rd (s.sqAt 0 0) 1 = 9 ∧ s.rd (s.sqAt 0 0 + 4) 1 % 16 = s.gen (s.qOwner 0) ∧
       wellFormedCmd (s.rbs (s.sqAt 0 0) 64) = true) ∧
    (let s := queued (block 64 [(0, 1, 9), (5, 1, 1)])
     s.rd (s.sqAt 0 0 + 4) 1 % 16 = s.gen (s.qOwner 0) ∧ wellFormedCmd (s.rbs (s.sqAt 0 0) 64) = false) ∧
    (let s := queued (block 64 [(0, 1, 9), (4, 1, 1)])
     s.rd (s.sqAt 0 0 + 4) 1 % 16 ≠ s.gen (s.qOwner 0)) ∧
    (let s := (queued waitBytes).setQueue 0 { sqTail := 1, cqTail := 1, cqHead := 0 }
     s.hasCommand 0 = true ∧ s.cqFull 0 = true) ∧
    (let u : State := { queued waitBytes with qTurn := { cur := 0, left := 1 } }
     let s := u.setInst 0 { u.inst 0 with qTurn := { cur := 0, left := 1 } }
     0 ∈ s.served ∧ s.qTurn.cur = s.qOwner 0 ∧ s.qTurn.left ≠ 0 ∧ (s.inst 0).qTurn.cur = 0 ∧ (s.inst 0).qTurn.left ≠ 0) ∧
    (let s := (queued waitBytes).setQueue 0 { waiting := [{ id := 7, gen := 0, status := 0, opcode := 9 }], cqTail := 1, cqHead := 1 }
     (s.queue 0).waiting ≠ [] ∧ s.bad = [] ∧ s.cqFull 0 = false ∧ ((s.queue 0).cqTail + 1) % s.cqSize 0 = 0) :=
  ⟨by decide +kernel, hostWaits_none _ (by decide +kernel), by decide +kernel, by decide +kernel, by decide +kernel, by decide +kernel,
    by decide +kernel, by decide +kernel⟩

/-- The instance with a command of some bytes accepted. -/
def cmdState (op : Nat) (b : List Byte) : State := pooled.setInst 0 { st := .active, accepted := [aCmd op b] }
/-- SIGNAL and WAIT commands: a counter with 3, an owned flag, one that is not owned, an owned barrier. -/
def sigCnt : List Byte := block 64 [(0x12, 2, 5), (0x14, 2, 0), (0x16, 2, 3)]
def sigObj (kind idx : Nat) : List Byte := block 64 [(0x10, 1, kind), (0x12, 2, idx)]

theorem witness_HostSignalsAndWaits :
    ((cmdState 8 sigCnt).nextOf 0 8 (fun d => decide (d.fld 0x10 1 = 0 ∨ 3 < d.fld 0x10 1)) = some (aCmd 8 sigCnt) ∧ (aCmd 8 sigCnt).fld 0x10 1 = 0 ∧
      ((cmdState 8 sigCnt).startCmd (aCmd 8 sigCnt)).ownsObj (aCmd 8 sigCnt) = true) ∧
    (let b := block 64 [(0x12, 2, 64)]
     ((cmdState 8 b).startCmd (aCmd 8 b)).ownsObj (aCmd 8 b) = false) ∧
    (let good (op kind idx : Nat) (own : Bool) : Prop := (cmdState op (sigObj kind idx)).nextOf 0 op (fun d => decide (d.fld 0x10 1 = kind)) =
       some (aCmd op (sigObj kind idx)) ∧ ((cmdState op (sigObj kind idx)).startCmd (aCmd op (sigObj kind idx))).ownsObj (aCmd op (sigObj kind idx)) = own
     good 8 1 63 true ∧ good 8 1 64 false ∧ good 8 2 63 true ∧ good 8 2 64 false ∧ good 8 3 7 true ∧ good 8 3 8 false ∧ good 9 1 63 true ∧
       good 9 1 64 false ∧ good 9 2 7 true ∧ good 9 2 8 false ∧ good 9 3 0 true) ∧
    (let s := cmdState 9 sigCnt
     let u := s.startCmd (aCmd 9 sigCnt)
     s.nextOf 0 9 (fun d => decide (d.fld 0x10 1 = 0 ∨ 3 < d.fld 0x10 1)) = some (aCmd 9 sigCnt) ∧ u.ownsObj (aCmd 9 sigCnt) = true ∧
       u.cnt 0 5 < (aCmd 9 sigCnt).fld 0x16 2 ∧ (aCmd 9 sigCnt).fld 0x16 2 ≤ (u.setCnt 0 5 3).cnt 0 5) ∧
    (let c (t : Nat) := { aCmd 9 (block 64 [(0x10, 1, 1), (0x20, 4, t)]) with started := some 900 }
     let s (t : Nat) := base.setInst 0 { st := .active, accepted := [c t] }
     (∀ t ∈ [0, 100, 101], ((s t).acceptedOf 0).find? (fun d => decide (d.opcode = 9) && d.started.isSome) = some (c t)) ∧
       (base.beat - 900).toNat = 100 ∧ (c 100).fld 0x20 4 = 100) ∧
    base.nextCmd 0 = none :=
  ⟨by decide +kernel, by decide +kernel, by decide +kernel, by decide +kernel, by decide +kernel, by decide +kernel⟩

theorem witness_CommandsComplete :
    ((cmdState 9 sigCnt).inst (aCmd 9 sigCnt).inst).accepted.find? (fun d => decide (d.tag = (aCmd 9 sigCnt).tag)) = some (aCmd 9 sigCnt) ∧
    (aCmd 9 sigCnt).undone = false ∧ (base.inst 0).accepted.find? (fun d => decide (d.tag = (aCmd 9 sigCnt).tag)) = none := by decide +kernel

/-- A command of 64 bytes of HBM at the last place of the buffer, and one past it. -/
def hbmCmd (op a : Nat) (b : List Byte) : State := (cmdState op (block 64 [(0x10, 8, a)])).write a b
/-- A transfer of 2 × 4 FP32 elements within HBM. -/
def hbmX : List Byte := block 64 [(4, 4, 2), (8, 4, 4), (0x10, 8, 0x200400), (0x1C, 4, 4), (0x20, 8, 0x200800), (0x2C, 4, 4), (0x30, 1, 1), (0x31, 1, 1)]
def hbmC : List Byte := block 64 [(3, 1, 1), (4, 4, 4), (8, 8, 0x8000000000200400), (0x10, 8, 0x200000), (0x18, 1, 1)]

theorem witness_HostTransfersAndBuffers :
    (let a := 0x3FFFC0
     let c := aCmd 2 (block 64 [(0x10, 8, a)])
     let s := hbmCmd 2 a hbmX
     s.nextOf 0 2 (fun _ => true) = some c ∧ a % 64 = 0 ∧ (s.startCmd c).ownsHbm 0 a 64 = true ∧ (s.startCmd c).ownsHbm 0 (a + 64) 64 = false ∧
       s.bad = [] ∧ ((s.startCmd c).checkX 0 none ((s.startCmd c).rbs a 64)).toOption.isSome) ∧
    (let a := 0x3FFFC0
     let c := aCmd 3 (block 64 [(0x10, 8, a)])
     let s := hbmCmd 3 a hbmC
     s.nextOf 0 3 (fun _ => true) = some c ∧ ((s.startCmd c).checkC 0 none ((s.startCmd c).rbs a 64)).toOption.isSome) ∧
    (let c (n : Nat) := aCmd 10 (block 64 [(0x10, 4, n)])
     let s (n : Nat) : State := { ((cmdState 10 (block 64 [(0x10, 4, n)])).setReg (R.instQuota 0) 0x30000) with buffers := [] }
     (∀ n ∈ [0, 1, 0x30000], (s n).nextOf 0 10 (fun _ => true) = some (c n)) ∧ ((s 1).startCmd (c 1)).freeIndex = some 0 ∧
       ((s 0x30000).startCmd (c 0x30000)).freeRun 0x30000 = some 0 ∧ ((s 0x30001).startCmd (c 0x30001)).freeRun 0x30001 = none ∧
       ((s 0x30000).startCmd (c 0x30000)).heldGranules 0 + 0x30000 ≤ ((s 0x30000).startCmd (c 0x30000)).fld (R.instQuota 0) 0 18) ∧
    (let c (n : Nat) := aCmd 11 (block 64 [(0x10, 4, n)])
     let s (n : Nat) := cmdState 11 (block 64 [(0x10, 4, n)])
     (s 0).nextOf 0 11 (fun _ => true) = some (c 0) ∧ ((s 1).startCmd (c 1)).buffers.find? (fun b => b.idx = 1) = none ∧
       (((s 0).startCmd (c 0)).buffers.find? fun b => b.idx = 0).isSome ∧ (c 0).fld 0x10 4 / 65536 % 16 = sget (fun _ => 0) ((s 0).startCmd (c 0)).bufGen 0) ∧
    (let b : Buffer := { idx := 0, owner := 0, ownerGen := 0, base := 0x200000, granules := 1, freeing := true, freer := some (aCmd 11 (zeros 64)) }
     let s : State := { base with buffers := [b] }
     s.buffers.find? (fun x => x.idx = b.idx) = some b ∧ s.inFlight b = false ∧ ({ s with xfers := [aXfer] } : State).inFlight b = true) :=
  ⟨by decide +kernel, by decide +kernel, by decide +kernel, by decide +kernel, by decide +kernel⟩

theorem witness_SnapshotsAndExports :
    (let c (first count : Nat) := aCmd 12 (block 64 [(0x10, 2, first), (0x12, 2, count), (0x14, 1, 2), (0x18, 8, 0x1000), (0x20, 8, 263168)])
     let s (first count : Nat) := cmdState 12 (c first count).bytes
     (s 15 1).bad = [] ∧ (s 15 1).nextOf 0 12 (fun _ => true) = some (c 15 1) ∧ ((s 15 1).startCmd (c 15 1)).owns 0 15 = true ∧
       ((s 15 1).startCmd (c 15 1)).destCode 0 2 ((c 15 1).fld 0x18 8) ((c 15 1).fld 0x20 8) 263168 = 0 ∧
       ((s 15 2).startCmd (c 15 2)).owns 0 16 = false) ∧
    (let c (n : Nat) := aCmd 13 (block 64 [(0x10, 4, n), (0x14, 1, 2), (0x18, 8, 0x1000), (0x20, 8, 4096)])
     let s (n : Nat) := (sharded []).setInst 0 { st := .active, accepted := [c n] }
     (s 0).nextOf 0 13 (fun _ => true) = some (c 0) ∧ (s 1).nextOf 0 13 (fun _ => true) = some (c 1) ∧ ((s 1).startCmd (c 1)).shards 0 = 1 ∧
       ((s 0).startCmd (c 0)).destCode 0 2 ((c 0).fld 0x18 8) ((c 0).fld 0x20 8) (((s 0).startCmd (c 0)).shard 0 0).exportLen = 0) ∧
    (let e : Export := { cmd := aCmd 13 (block 64 [(0x14, 1, 2), (0x18, 8, 0x1000), (0x20, 8, 4096)]), shard := 0, slot := 0 }
     ((sharded []).setInst 0 { st := .active, exports := [e] }).bad = []) :=
  ⟨by decide +kernel, by decide +kernel, by decide +kernel⟩

/-- Instance 0 in a state. -/
def inSt (st : InstSt) : State := base.setInst 0 { st := st }

theorem witness_InstanceLifeCycle :
    (∀ st ∈ [InstSt.absent, .configured, .active, .quiescing, .resetting, .failed], ((inSt st).inst 0).st = st) ∧
    (fnPhysical 0 = true ∧ fnPhysical 1 = false) ∧
    (inSt .absent).instOverlap 0 = false ∧ ((inSt .absent).quota 0 + (((inSt .absent).otherInsts 0).map (inSt .absent).quota).sum ≤ (inSt .absent).poolGranules) ∧
    (inSt .quiescing).instQuiet 0 = true ∧ ((inSt .quiescing).inst 0).saveCtx = false ∧
    (inSt .configured).ctxBad 0 = false ∧ (inSt .configured).bad = [] ∧ ((inSt .configured).setReg (R.instCtx 0) 0x6000000000).ctxBad 0 = true ∧
    (inSt .active).insts.map (·.1) = [0] ∧
    (let s : State := { inSt .resetting with beat := 0x2000000 }
     s.reg (R.instOrphans 0) = 0 ∧ 2 ^ 19 ≤ (s.beat - (s.inst 0).resetAt).toNat ∧
       (s.coresOf 0).all (fun k => decide ((s.core k).st = .idle)) = true ∧ (s.reg (R.resetTimeout 0)).toNat ≤ (s.beat - (s.inst 0).resetAt).toNat) := by
  decide +kernel

/-! ### Witnesses: sync, programs, steps, roots and solves -/

theorem witness_BarriersAndDeadlock :
    (fnPhysical 0 || base.ownsBar 0 7) = true ∧ (fnPhysical 5 || base.ownsBar 5 7) = false ∧ base.waiters = [] ∧
    (let s := base.setReg (R.barArr 7) 3
     s.barArrived 7 = 3 ∧ ((3 : W32).toNat % 2 ^ 21 ≠ 0 ∧ (3 : W32).toNat % 2 ^ 21 ≤ s.barArrived 7) ∧ ¬((4 : W32).toNat % 2 ^ 21 ≤ s.barArrived 7)) ∧
    (let s := ((((with0 fun c => { c with st := .waiting, wait := some (.cnt 5 3) }).setInst 0 { st := .active, dlSince := some 900 }).setReg R.dlTimeout
        100).setReg R.dlCfg 1)
     (s.inst 0).dlSince = some 900 ∧ s.bit R.dlCfg 0 = true ∧ (s.inst 0).dlArmed = true ∧ s.dlCond 0 = true ∧ s.bit R.dlStat 0 = false ∧
       (s.reg R.dlTimeout).toNat ≤ (s.beat - 900).toNat ∧ (s.beat - 900).toNat < ((s.setReg R.dlTimeout 101).reg R.dlTimeout).toNat ∧
       (s.setReg R.dlCfg 0).bit R.dlCfg 0 = false ∧
       (let u := ((((s.raise 1 0x41 .sync 0 pcieUid 0).dlGraph 0).dlWaits 0).dlSolves 0)
        (u.setInst 0 { u.inst 0 with dlArmed := false }).bit R.dlCfg 1 = false)) := by decide +kernel

theorem witness_BarriersAndDeadlock_halts :
    let s := ((((with0 fun c => { c with st := .waiting, wait := some (.cnt 5 3) }).setInst 0 { st := .active, dlSince := some 900 }).setReg R.dlTimeout
        100).setReg R.dlCfg 3)
    let u := ((((s.raise 1 0x41 .sync 0 pcieUid 0).dlGraph 0).dlWaits 0).dlSolves 0)
    s.bit R.dlCfg 0 = true ∧ s.dlCond 0 = true ∧ (u.setInst 0 { u.inst 0 with dlArmed := false }).bit R.dlCfg 1 = true := by decide +kernel

/-- An image of one ganged cluster with a stream of one END and a certificate of one entry; its digest field filled in. -/
def bareImage : List Byte :=
  block 0xA8 [(0, 4, 0x49504657), (4, 2, 1), (0x50, 4, 1), (0x54, 4, 1), (0x58, 8, 0x90), (0x60, 8, 0x80), (0x68, 8, 0xA8), (0x70, 8, 48),
    (0x78, 8, 0xD8), (0x80, 8, 0xA0), (0x88, 2, 1), (0x92, 1, 1), (0xA0, 8, 0xFC10000000000000)] ++
  block 48 [(0, 4, 0x43524657), (4, 2, 1), (8, 4, 1), (0xC, 4, 1), (0x26, 2, 1), (0x28, 4, 0x3F800000)]
def anImage : List Byte := bareImage.take 0x10 ++ sha256 bareImage ++ bareImage.drop 0x30
/-- That image in HBM at 4 MiB, and a command of 64 or 128 bytes accepted. -/
def imaged (op : Nat) (b : List Byte) : State :=
  { cmdState op b with mem := (((List.range 0xD8).map (0x400000 + ·)).zip anImage).filter fun e => decide (e.2 ≠ 0) }
def launchBytes (first count flags a : Nat) : List Byte := block 64 [(0x10, 2, first), (0x12, 2, count), (0x14, 1, flags), (0x18, 8, a)]

/-- Whether reading an image gives one with a property. -/
def imageIs (r : ImageRead) (p : Image → Bool) : Bool := match r with | .ok x => p x | _ => false
def imageBad (r : ImageRead) : Bool := match r with | .bad => true | _ => false

/-- LAUNCH with LOAD, ACTIVE and START of cluster 15, accepted and started. -/
def loadCmd : Cmd := aCmd 1 (launchBytes 15 1 11 0x400000)
def aLaunched : State := (imaged 1 loadCmd.bytes).startCmd loadCmd

theorem witness_LaunchCommand :
    base.nextOf 0 1 (fun _ => true) = none ∧
    (∀ n ∈ [0, 1, 4096, 4097], (cmdState 1 (launchBytes 15 n 9 0x400000)).nextOf 0 1 (fun _ => true) = some (aCmd 1 (launchBytes 15 n 9 0x400000)) ∧
      (aCmd 1 (launchBytes 15 n 9 0x400000)).fld 0x12 2 = n) ∧
    (let c := aCmd 1 (launchBytes 15 2 9 0x400000)
     ((cmdState 1 c.bytes).startCmd c).ownsSet 0 15 2 = false) ∧
    (let c := aCmd 1 (launchBytes 15 1 9 0x6000000000)
     let u := (imaged 1 c.bytes).startCmd c
     u.ownsSet 0 15 1 = true ∧ (lflags c).load = true ∧ imageBad (u.readImage (c.fld 0x18 8) 15 1) = true) ∧
    (match ({ aLaunched with bad := [0x400000] } : State).readImage 0x400000 15 1 with | .memory w => decide (w = 0x400000) | _ => false) = true ∧
    (({ swapPending := true } : Core).loadRefused false = true ∧ ({ st := .running } : Core).loadRefused true = true ∧
      ({} : Core).willLoad { (lflags loadCmd) with load := false } = false ∧ ({ st := .loaded } : Core).willLoad (lflags loadCmd) = true) ∧
    (let s := aLaunched.setCore 3840 { st := .loaded, activeValid := true }
     s.placedNow 0 15 1 false = [3840] ∧ (s.core 3840).st = .loaded) ∧
    imageIs (aLaunched.readImage 0x400000 15 1) (fun x => decide (x.placed.map (·.core) = (List.range 256).map (3840 + ·))) = true ∧
    ((List.range 256).map (3840 + ·)).Nodup ∧ (lflags loadCmd).clear = false ∧
    (∀ k, (aLaunched.core k).loadRefused (lflags loadCmd).active = false ∧ (aLaunched.core k).willLoad (lflags loadCmd) = true) := by
  refine ⟨by decide +kernel, by decide +kernel, by decide +kernel, by decide +kernel, by decide +kernel, by decide +kernel, by decide +kernel,
    by decide +kernel, List.nodup_range.map fun _ _ h => by simpa using h, by decide +kernel, fun k => ?_⟩
  have h : aLaunched.cores = [] := by decide +kernel
  have e : aLaunched.core k = {} := by simp [State.core, h, sget]
  rw [e]
  decide +kernel

/-- The window open on instance 0, with a gate, after some commands were accepted. -/
def gated (g : Gate) (l : List Cmd) : State := (base.setInst 0 { st := .active, gate := g, accepted := l }).setReg (R.updCfg 0) 1
def commitCmd (n f : Nat) : Cmd := aCmd 4 (block 64 [(0x10, 8, n), (0x18, 1, f)])

theorem witness_StepWindow :
    (let s (g : Gate) (n f : Nat) := gated g [commitCmd n f]
     (∀ n ∈ [0, 1], (s {} n 0).nextOf 0 4 (fun c => !c.replayDone) = some (commitCmd n 0)) ∧ ((s {} 0 0).startCmd (commitCmd 0 0)).gateOn 0 = true ∧
       (commitCmd 0 0).fld 0x10 8 = (((s {} 0 0).startCmd (commitCmd 0 0)).s0 0).toNat ∧ (commitCmd 1 0).fld 0x10 8 ≠ (((s {} 1 0).startCmd (commitCmd 1 0)).s0 0).toNat ∧
       (∀ g ∈ [({ st := .replaying } : Gate), {}], (s g 0 1).nextOf 0 4 Cmd.replayDone = some (commitCmd 0 1)) ∧
       (((s { st := .replaying } 0 1).startCmd (commitCmd 0 1)).gate 0).st = .replaying ∧
       (((s { tainted := true } 0 0).startCmd (commitCmd 0 0)).gate 0).st = .open_ ∧ (((s { failed := true } 0 0).startCmd (commitCmd 0 0)).gate 0).failed = true) ∧
    (fnMay 5 0 = false ∧ fnMay 0 0 = true ∧ base.gateOn 0 = false ∧ (base.gate 0).commitCmd = none ∧ (1 : W32).getLsbD 0 = true) ∧
    (let g : Gate := { st := .computed, computedAt := 500, commitCmd := some (commitCmd 0 0) }
     let s := gated g []
     s.gateOn 0 = true ∧ g.sent = false ∧ s.stepBusy 0 = false ∧ s.parent 0 = none ∧ s.children 0 = [] ∧ g.upNf = false ∧ g.upFail = false ∧
       g.replayed = false ∧ g.tainted = false ∧ g.cloveSent = false ∧ g.forwarded = false ∧ g.nf = false ∧ g.failed = false ∧ g.commitCmd.isSome ∧
       g.combined = false ∧ (s.beat - g.computedAt).toNat = 500 ∧ ((s.setReg (R.gateTimeout 0) 500).reg (R.gateTimeout 0)).toNat = 500 ∧
       ((s.setReg (R.gateTimeout 0) 501).reg (R.gateTimeout 0)).toNat = 501) ∧
    (let m : Message := { typ := 8, src := 1, payload := zeros 16 }
     let s := got m (gated { st := .computed } [])
     s.inbox = [m] ∧ s.jobInst m.job = some 0 ∧ m.gen = s.gen 0 ∧ s.verdictOk 0 m = true ∧ m.step = (s.s0 0).toNat % 4 ∧ some m.src ≠ s.parent 0) ∧
    (let m : Message := { typ := 9, src := 1 }
     let n : Message := { typ := 9, src := 1, step := 1 }
     m.step = ((got m (gated {} [])).s0 0).toNat % 4 ∧ n.step ≠ ((got n (gated {} [])).s0 0).toNat % 4 ∧ n.step = ((got n (gated {} [])).s0 0 + 1).toNat % 4) := by
  decide +kernel

/-- This module is at position 1 of 2 on axis 0: its parent is the module before it. -/
theorem witness_StepWindow_parent :
    let m : Message := { typ := 8, src := 0, payload := zeros 16 }
    let s := got m ((((gated { st := .computed, sent := true } []).setReg (R.collJext 0) 1).setReg R.collExt 1).setReg R.collCoord 1)
    s.jobInst m.job = some 0 ∧ s.verdictOk 0 m = true ∧ m.step = (s.s0 0).toNat % 4 ∧ some m.src = s.parent 0 ∧ s.children 0 = [] := by decide +kernel

/-- An audit record for a commit, and a ring of 16 entries at the start of the buffer. -/
def anAudit : AuditJob :=
  { kind := 1, status := 0, id := 1, detail := 0, beat := 900, state := zeros 32, out := 0, program := zeros 32, badInputs := false, inputs := zeros 32,
    tuned := false, noWeights := true, cert := [] }
def audited (used : Nat) : State :=
  (((pooled.setInst 0 { st := .active, audits := [anAudit], auditUsed := used }).setReg (R.audRing 0) 0x200000).setReg (R.audSize 0) 16).setReg (R.audPtr 0)
    0x10000

theorem witness_CommitsAndUndo :
    (let s := (((audited 16).setInst 0 { (audited 16).inst 0 with gate := { st := .checked, commitAt := some 1000 } }).setReg (R.updCfg 0) 1).setReg
        (R.audCfg 0) 0x10000
     s.gateOn 0 = true ∧ s.rootsMissing 0 (s.reg (R.updCommits 0) + 1) = [] ∧ (s.commitHeld 0).isSome = true ∧
       (s.auditDue 0 (s.reg (R.updCommits 0) + 1) && s.auditFull 0) = true) ∧
    (let g : Gate := { st := .checked, commitAt := some 1000 }
     let s := gated g []
     s.gateOn 0 = true ∧ (s.gate 0).commitAt = some 1000 ∧ (1000 : W64) ≤ s.beat ∧ s.rootsMissing 0 (s.reg (R.updCommits 0) + 1) = [] ∧ s.commitHeld 0 = none ∧
       s.beat < (1001 : W64)) ∧
    (let s := (gated { st := .checked, commitAt := some 1000, holdRoots := some 900 } []).setReg (R.lateMax 0) 100
     (s.gate 0).holdRoots = some 900 ∧ (s.reg (R.lateMax 0)).toNat ≤ (s.beat - 900).toNat ∧ s.commitHeld 0 = none ∧
       (s.beat - 900).toNat < ((s.setReg (R.lateMax 0) 101).reg (R.lateMax 0)).toNat) ∧
    (let s := gated { st := .skipped, undo := true } []
     s.gateOn 0 = true ∧ s.undoBusy 0 = false ∧ (s.gate 0).st = .skipped ∧ (s.gate 0).taintedNext = false ∧ (s.gate 0).failedNext = false ∧ ({ s with xfers := [{ aXfer with abandon := true }] } : State).undoBusy 0 = true) ∧
    (let j : AuditJob := { kind := 1, status := 0, id := 0, detail := 0, beat := 0, state := [], out := 0, shardsLeft := [0], program := [], badInputs := false,
                           inputs := [], tuned := false, noWeights := false, cert := [] }
     let s := (sharded []).setInst 0 { st := .active, audits := [j] }
     (s.gate 0).st ≠ .checked ∧ (s.inst 0).audits.find? (fun j => !j.shardsLeft.isEmpty) = some j) := by decide +kernel

/-- A commit waits for a root of layer 0 that is due and not valid. -/
theorem witness_RootDispatch :
    (let s := (base.setInst 0 { st := .active, jobs := [{ layer := 0, block := 0 }] }).setReg (R.curvDispatch 0) 0x100F
     (s.inst 0).jobs.mergeSort RootJob.le = [{ layer := 0, block := 0 }] ∧ s.rootCluster 0 = some 15 ∧ s.bad = [] ∧ s.waiters = []) ∧
    (let s := (base.setInst 0 { st := .active, jobs := [{ layer := 0, block := 0 }] }).setReg (R.curvDispatch 0) 0x1010
     s.rootCluster 0 = none) ∧ (∀ n, ((base.setInst 0 { st := .active, jobs := [{ layer := 0, block := 0 }] }).setReg (R.curvDispatch 0) 0x100F).hostWaits n = []) :=
  ⟨by decide +kernel, by decide +kernel, hostWaits_none _ (by decide +kernel)⟩

/-- The SOLVE of cluster 15 with that image; the instance with one solve. -/
def solveBytes (first iter : Nat) : List Byte := block 128 [(0x10, 2, first), (0x12, 2, 1), (0x15, 1, iter), (0x18, 8, 0x400000), (0x40, 1, 0x7F)]
def solveCmd (first iter : Nat) : Cmd := aCmd 5 (solveBytes first iter)
def solving (r : SolveRec) : State := base.setInst 0 { st := .active, solves := [r] }
def freshSolve : SolveRec := { tag := 1, cmd := solveCmd 15 1, first := 15, count := 1, deadline := 1001 }

theorem witness_DeadlineSolves :
    (let s (first iter cfg : Nat) := (imaged 5 (solveBytes first iter)).setReg (R.solvCfg 0) (BitVec.ofNat 64 cfg)
     let u (first iter cfg : Nat) := (s first iter cfg).startCmd (solveCmd first iter)
     (s 15 1 0).nextOf 0 5 (fun _ => true) = some (solveCmd 15 1) ∧ (s 15 1 1).nextOf 0 5 (fun _ => true) = some (solveCmd 15 1) ∧
       (u 15 1 0).bit (R.solvCfg 0) 0 = false ∧ (u 15 1 1).bit (R.solvCfg 0) 0 = true ∧ (u 16 1 1).ownsSet 0 16 1 = false ∧ (u 15 1 1).ownsSet 0 15 1 = true ∧
       imageIs ((u 15 1 1).readImage ((solveCmd 15 1).fld 0x18 8) 15 1) (fun x => x.certOk && !solveFieldsBad (solveCmd 15 1)) = true ∧
       solveFieldsBad (solveCmd 15 0) = true ∧ imageBad ((u 15 1 1).readImage 0x6000000000 15 1) = true) ∧
    (((solving freshSolve).purgeSolves 0).inst 0).solves.find? (((solving freshSolve).purgeSolves 0).solveCan 0) = some freshSolve ∧
    (((solving { freshSolve with started := true }).purgeSolves 0).inst 0).solves.find?
      (((solving { freshSolve with started := true }).purgeSolves 0).solveCan 0) = none ∧
    (let find (r : SolveRec) : Prop := ((solving r).inst 0).solves.find? (fun r => decide (r.tag = 1)) = some r
     let r := { freshSolve with started := true }
     find r ∧ r.final = false ∧ r.frozen = false ∧ (solving r).beat < r.deadline ∧ ((solving r).setCnt 15 61 1).cnt r.first 61 ≠ 0 ∧
       find { r with deadline := 1000 } ∧ (1000 : W64) ≤ (solving r).beat ∧ find { r with frozen := true, endBeat := 900 } ∧
       (let s : State := { (solving { r with frozen := true, endBeat := 900 }).setReg (R.abandonMax 0) 100 with launches :=
          [{ aLaunch with solve := some 1, unstarted := [], left := [15 * 256] }] }
        r.slow = false ∧ (s.dropUnstarted 0 1).solveRuns 0 1 = true ∧ (s.reg (R.abandonMax 0)).toNat ≤ (s.beat - 900).toNat) ∧
       r.posted = false ∧ ((solving r).inst 0).audits.any (fun j => decide (j.tag = some 1)) = false ∧
       find { r with final := true, status := some 0 } ∧ find { r with final := true } ∧ (solving { r with final := true }).auditSolves 0 = false) :=
  ⟨by decide +kernel, by decide +kernel, by decide +kernel, by decide +kernel⟩

/-! ### Witnesses: records, replay, registers, the beat and the ports -/

/-- A class C record of the module, with the module queue in host memory at 0x3000. -/
def anError : ErrRec := { cls := 3, code := 0x51, block := 0, detail := 0, uid := 0, beat := 5, lastUid := 0 }
def erring : State := ({ base with err := { raised := [anError] } }.setReg (R.eqCfg 64) 0x101).setReg (R.eqBase 64) 0x3000
def windowed (w : Window) : State := { base with err := { windows := [(2, some w)] } }

theorem witness_AuditErrorsAndScrub :
    ((audited 15).bad = [] ∧ ((audited 15).inst 0).audits.find? (fun j => j.shardsLeft.isEmpty) = some anAudit ∧ (audited 15).fld (R.audSize 0) 0 16 = 16 ∧
      ((audited 15).inst 0).auditUsed = 15 ∧ ((audited 16).inst 0).auditUsed = 16 ∧ ((audited 15).reg (R.audRing 0)).toNat = 0x200000 ∧
      (audited 15).fld (R.audPtr 0) 16 16 = 1 ∧ anAudit.tag = none ∧
      (((audited 16).setInst 0 { st := .active, audits := [{ anAudit with tag := some 1 }], auditUsed := 16 }).inst 0).audits.find?
        (fun j => j.shardsLeft.isEmpty) = some { anAudit with tag := some 1 }) ∧
    ((audited 15).auditBytes 0 anAudit 1 []).length = 256 ∧
    (erring.err.raised = [anError] ∧ erring.bad = [] ∧ 64 ≤ anError.inst ∧ erring.eqOn 64 = true ∧ erring.bit (R.eqCfg 64) 1 = false ∧
      erring.fld (R.eqCfg 64) 8 16 ≤ erring.eqFree 64 ∧ 0 < erring.eqFree 64) ∧
    (let r : ErrRec := { anError with cls := 1 }
     let s : State := { base with err := { raised := [r] } }
     s.eqOn 64 = false ∧ 64 ≤ r.inst ∧ r.isEscalate = false ∧ s.slotOf (s.domainOf r) = none ∧ s.err.waiting = [] ∧ s.windowAt 0 = none) ∧
    (base.inModule (0x5FFFFFFFFF / 8 * 8) = true ∧ base.inModule (0x6000000000 / 8 * 8) = false ∧ 0x5FFFFFFFF8 ∉ base.bad) ∧
    (let w : Window := { domain := 3, rung := 1, since := 500 }
     let s := (windowed w).setReg R.errWindow 500
     s.windowAt 2 = some w ∧ w.begun = false ∧ (s.reg R.errWindow).toNat ≤ (s.beat - w.since).toNat ∧ s.err.waiting = [] ∧
       (s.beat - w.since).toNat < ((s.setReg R.errWindow 501).reg R.errWindow).toNat) ∧
    (let p : Compare := { c := 1, since := 500, own := 7 }
     let s := (base.setInst 0 { st := .active, cmp := some p }).setReg (R.cmpTimeout 0) 500
     (s.inst 0).cmp = some p ∧ (s.reg (R.cmpTimeout 0)).toNat ≤ (s.beat - p.since).toNat ∧
       (s.beat - p.since).toNat < ((s.setReg (R.cmpTimeout 0) 501).reg (R.cmpTimeout 0)).toNat) :=
  ⟨by decide +kernel, by decide +kernel, by decide +kernel, by decide +kernel, by decide +kernel, by decide +kernel, by decide +kernel⟩

/-- A receive area of 16 bytes at the start of the buffer, and a message that fills some of it. -/
def receiving : State := (pooled.setReg (R.rpRecv 0) 0x200000).setReg (R.rpLen 0) 16
def rpMsg (op n off : Nat) : Message := { typ := 11, src := 1, payload := leBytes 4 op ++ leBytes 4 n ++ leBytes 8 off ++ leBytes n 0x0807060504030201 }

theorem witness_ReplayTraffic :
    (∀ p ∈ [(7, 8), (8, 8), (9, 8)], let m := rpMsg 1 p.2 p.1
      let s := got m receiving
      s.inbox = [m] ∧ s.jobInst m.job = some 0 ∧ m.gen = s.gen 0 ∧ s.bad = [] ∧ fieldAt m.payload 0 1 = 1 ∧ fieldAt m.payload 4 4 = p.2 ∧
        fieldAt m.payload 8 8 = p.1 ∧ (s.reg (R.rpLen 0)).toNat = 16) ∧
    fieldAt (rpMsg 2 8 0).payload 0 1 = 2 ∧ receiving.ownsHbm 0 0x200000 16 = true ∧ receiving.fld (R.updCfg 0) 16 12 = 0 ∧
    (let p : Compare := { c := 1, since := 500, own := 7 }
     fieldAt (rpMsg 3 8 1).payload 0 1 = 3 ∧ ((got (rpMsg 3 8 1) receiving).inst 0).cmp = none ∧
       ((got (rpMsg 3 8 1) receiving).setInst 0 { st := .active, cmp := some p }).inst 0 = { st := .active, cmp := some p } ∧
       (1 : W64) = BitVec.ofNat 64 (fieldAt (rpMsg 3 8 1).payload 8 8) ∧ (1 : W64) ≠ BitVec.ofNat 64 (fieldAt (rpMsg 3 8 2).payload 8 8)) ∧
    ((base.setInst 0 { st := .active, replayFrom := some 1 }).inst 0).replayFrom = some 1 ∧ (base.inst 0).replayFrom = none ∧ fnMay 0 0 = true :=
  ⟨by decide +kernel, by decide +kernel, by decide +kernel, by decide +kernel, by decide +kernel, by decide +kernel, by decide +kernel, by decide +kernel⟩

theorem witness_RegisterAccess :
    (mapOff 0 (R.audRing 5) = some (R.audRing 5) ∧ isWide (R.audRing 5) = true ∧ (base.setLatch 0 (R.audRing 5) (some 7)).latch 0 (R.audRing 5) = some 7 ∧
      (base.setHeld 0 (R.audRing 5) (some 7)).heldHalf 0 (R.audRing 5) = some 7) ∧ (∀ i, R.audRing 5 ≠ R.accData i) ∧
    (mapOff 0 (R.solvCfg 63) = some (R.solvCfg 63) ∧ R.solvCfg 63 % 4 = 0 ∧ (blockAt (R.solvCfg 63)).isSome ∧
      fnMay 0 ((R.solvCfg 63 - 0xE00000) / 0x1000) = true ∧ ¬(R.solvCfg 63 % 8 = 4 ∧ isWide (R.solvCfg 63 - 4) = true)) ∧
    (blockAt (R.solvCfg 63)).map (fun e => e.2) = some 0xE00000 ∧ (∃ r, regInfo (R.solvCfg 63) = some r ∧ r.wide = false) ∧ mapOff 99 0 = none ∧
    (accessOk 4 32 true = true ∧ accessOk 2 32 true = false ∧ accessOk 0x1000 8 false = true ∧ accessOk 0x2000 8 false = false) ∧
    ((queued waitBytes).fnQueue 0 0 = true ∧ (queued waitBytes).fnQueue 5 0 = false ∧ nfield (0xA00 : W32).toNat 8 6 + 20 = 30 ∧
      nfield (0x1300 : W32).toNat 8 6 + 20 = 39 ∧ nfield (0x1400 : W32).toNat 8 6 + 20 = 40 ∧
      (queued waitBytes).cfgRetry = false ∧ ({ base with power := { standby := true, step := 8 } } : State).cfgRetry = true) ∧
    (min hbmTop (2 ^ base.bar4Log2 0) = hbmTop ∧ 0x5FFFFFFFF8 + 8 ≤ hbmTop ∧ base.bar4Ok 0 0x5FFFFFFFF8 8 = true ∧ base.bar4Ok 5 0 8 = false) ∧
    ((State.reset.insts.any fun e => decide (e.2.st ≠ .absent)) = false ∧ (base.insts.any fun e => decide (e.2.st ≠ .absent)) = true) ∧
    (cutsOk 0x0FFF = false ∧ cutsOk 0x4FFF = true ∧ (base.inst 5).st ≠ .active ∧ (base.inst 0).st = .active) := by
  refine ⟨by decide +kernel, fun i => ?_, by decide +kernel, by decide +kernel, ⟨_, rfl, by decide +kernel⟩, by decide +kernel, by decide +kernel,
    by decide +kernel, by decide +kernel, by decide +kernel, by decide +kernel⟩
  unfold R.audRing R.accData
  omega

/-- A state of the alignment machine. -/
def aligned (cfg stat : W64) : State := (base.setReg R.alignCfg cfg).setReg R.alignStat stat

theorem witness_BeatsAndAlignment :
    (base.bit R.beatStat 0 = false ∧ (base.setReg R.beatStat 1).bit R.beatStat 0 = true ∧ (base.setReg R.beatStat 1).bit R.beatStat 2 = false ∧
      (base.setReg R.beatStat 5).bit R.beatStat 2 = true) ∧
    (0x31F ≤ 0x4B8 ∧ ({ base with power := { fusesLoaded := true } } : State).power.fusesLoaded = true) ∧
    (State.reset.bit R.alignCfg 0 = false ∧ State.reset.anyActive = false ∧ base.anyActive = true ∧ (State.reset.setReg R.alignCfg 1).bit R.alignCfg 0 = true ∧
      (3 : W32).getLsbD 1 = true ∧ (1 : W32).getLsbD 1 = false) ∧
    (let s (n : Nat) : State := { aligned 1 1 with alignRun := n }
     (s 4096).alignSt = 1 ∧ (s 4095).alignRun < 4096 ∧ (s 4096).stepDue = false) ∧
    (let s := aligned 1 2
     s.alignSt = 2 ∧ s.isRoot = false ∧ s.fld (R.linkStat s.parentPort) 0 2 ≠ 2 ∧ s.bit R.alignCfg 5 = false ∧ (aligned 0x21 2).bit R.alignCfg 5 = true ∧
       (aligned 0x21 2).parentDown = false) ∧
    (let s : State := { aligned 1 3 with beat := 500000 }
     s.alignSt = 3 ∧ s.bit R.alignStat 2 = false ∧ 500000 ≤ (s.beat - s.holdoverAt).toNat) ∧
    (let s := (aligned 1 3).setReg (R.linkStat 0) 2
     s.alignSt = 3 ∧ s.fld (R.linkStat 0) 0 2 = 2 ∧ 0 = s.fld R.alignCfg 2 3) := by decide +kernel

/-- Port 7 in a state of its own, since beat 0. -/
def port (st : W64) (l : LinkSt) : State := { (base.setReg (R.linkStat 7) st) with links := [(7, l)], beat := 25000000 }

/-- A frame with one telemetry message of no payload in its first slot, and nothing in the others. -/
def aBody : FrameBody :=
  { slots := (0, true) :: List.replicate 39 (0, false), area := (({ typ := 12 } : Message).bytes ++ zeros 10204) }
def aFrame : Frame := aBody.frame 0 false none

theorem aBody_area : aBody.area.length = 10240 := by
  rw [show aBody.area = ({ typ := 12 } : Message).bytes ++ zeros 10204 from rfl]
  simp only [Message.bytes, Message.header, List.length_append, leBytes_length, zeros, List.length_replicate, List.length_nil]

theorem witness_PortsAndFrames :
    (let s := port 0 {}
     s.portSt 7 = 0 ∧ s.bit (R.linkCfg 7) 0 = false ∧ s.power.stopped = false ∧ ((List.range 8).map (s.vcBuf 7)).sum ≤ 2048) ∧
    (let s := port 1 {}
     s.portSt 7 = 1 ∧ s.bit (R.linkCfg 7) 1 = true ∧ 25000000 ≤ (s.beat - (s.link 7).since).toNat ∧ 0 = s.fld (R.linkExpect 7) 0 24 ∧ 3 = (7 + 4) % 8 ∧
       (s.setReg (R.linkCfg 7) 0).bit (R.linkCfg 7) 1 = false) ∧
    (let s := port 2 {}
     s.portSt 7 = 2 ∧ 500 ≤ (s.beat - (s.link 7).since).toNat ∧ (s.link 7).resend = [] ∧ (port 2 { resend := [{}] }).link 7 = { resend := [{}] }) ∧
    (let full := (((port 0 {}).setReg (R.vcBuf 7 0) 0xFFFFFFFF).setReg (R.vcBuf 7 1) 0xFFFFFFFF)
     2048 < ((List.range 8).map (full.vcBuf 7)).sum ∧ (0 : W32).getLsbD 0 = false) := by decide +kernel

theorem witness_PortsAndFrames_frames :
    aFrame.good = true ∧ aFrame.nack = false ∧ aFrame.mark = none ∧ aFrame.fseq = ((port 2 {}).link 7).rxNext ∧
    aFrame.fseq ≠ ((port 2 { rxNext := 5 }).link 7).rxNext ∧ ({ aFrame with uncorr := 1 } : Frame).good = false := by
  have f (o n : Nat) (h : o + n ≤ 36) : aFrame.field o n = leNat (((aBody.head 0 false none).drop o).take n) :=
    aBody.frame_field 0 false none o n h
  refine ⟨aBody.frame_good 0 false none aBody_area, ?_, ?_, ?_, ?_, by simp [Frame.good]⟩ <;>
    simp only [Frame.nack, Frame.mark, Frame.fseq] <;> rw [f _ _ (by decide)] <;> decide +kernel

/-- That frame holds one message, and one that continues no message holds none. -/
theorem witness_PortsAndFrames_messages :
    (match (({ parts := [], hit := [] } : Inflow).frame aFrame false).whole with
      | [m] => decide (m.typ = 12) && (base.routePort m.dst).isNone
      | _ => false) = true ∧
    (({ parts := [], hit := [] } : Inflow).frame (({ aBody with slots := List.replicate 40 (0, false) } : FrameBody).frame 0 false none) false).whole = [] := by
  have go (b : FrameBody) (h : b.area = aBody.area) (n : Nat) (e : leNat (((b.head 0 false none).drop 8).take 20) = n) (x : Inflow) :
      x.frame (b.frame 0 false none) false = (List.range 40).foldl (fun x j => x.take (nfield n (4 * j) 4 % 8) (nbit (nfield n (4 * j) 4) 3)
        ((aBody.area.drop (256 * j)).take 256) false) x := by
    simp only [Inflow.frame, Frame.slot, Frame.flit, b.frame_field 0 false none 8 20 (by decide), e,
      b.frame_area 0 false none (by rw [h]; exact aBody_area), h]
  constructor
  · rw [aFrame, go aBody rfl 8 (by decide +kernel)]
    decide +kernel
  · have e := go { aBody with slots := List.replicate 40 (0, false) } rfl 0 (by decide +kernel) { parts := [], hit := [] }
    rw [e]
    decide +kernel

/-! ### Witnesses: checkpoints, debug, island and power -/

/-- Checkpoints of instance 0 to the next of two modules on axis 0, with slots of 512 MiB. -/
def saving : State :=
  (((((pooled.setReg (R.collJext 0) 1).setReg R.collExt 1).setReg R.buddyAxis 0).setReg R.buddyCfg 1).setReg R.ckptCfg 1).setReg (R.updCfg 0) 1
def ckptCmd (kind len : Nat) : Cmd := aCmd 6 (block 64 [(0x10, 1, kind), (0x18, 8, 0x1000), (0x20, 8, len)])
def withCmd (s : State) (c : Cmd) : State := s.setInst 0 { st := .active, accepted := [c] }
/-- The header of an image of no block and no region. -/
def aHead : List Byte := block 64 [(0, 4, 0x4B434657), (4, 2, 1)]
def ckptMsg (op seq : Nat) (body : List Byte) : Message := { typ := 10, src := 1, payload := leBytes 4 op ++ leBytes 4 seq ++ body }
def anIn (blocks : Nat) : CkptIn := { seq := 5, slot := 0, full := true, blocks := blocks, dataOff := 65536, digestOff := 64, last := 500 }
def incoming (blocks : Nat) : State := { saving with ckpt := { inc := some (anIn blocks) } }
def aSrc : CkptSrc := { seq := 5, full := true, regions := [(0x200000, 0x20000, none)], next := 0, blocks := 2, c := 3, s := 4, beat := 900, e := 0, clean := 0 }

theorem witness_CheckpointCopies :
    (∀ k ∈ [0, 2], (withCmd saving (ckptCmd k 0)).nextOf 0 6 (fun c => decide (c.kind ≠ 1)) = some (ckptCmd k 0)) ∧
    ((withCmd saving (ckptCmd 0 0)).ckptIllegal = false ∧ (ckptCmd 0 0).inst = (withCmd saving (ckptCmd 0 0)).ckptInst ∧
      (withCmd pooled (ckptCmd 0 0)).ckptIllegal = true ∧
      (ckptCmd 0 0).inst ≠ (withCmd ((saving.setReg R.ckptCfg 0x101).setReg (R.updCfg 1) 1) (ckptCmd 0 0)).ckptInst) ∧
    (let s : State := { saving with ckpt := { src := some aSrc } }
     s.ckpt.src = some aSrc ∧ aSrc.ended = false ∧ aSrc.next + 1 < aSrc.blocks ∧ s.areaBad aSrc.regions 0 = none ∧ s.bad = [] ∧
       (s.gate s.ckptInst).st ≠ .checked) ∧
    (let m := ckptMsg 1 5 aHead
     let s := got m saving
     s.inbox = [m] ∧ s.jobInst m.job = some 0 ∧ m.gen = s.gen 0 ∧ opOf m = 1 ∧ s.slotLen ≠ 0 ∧ s.drains s.incomingSlot = false ∧
       ({ s with ckpt := { drain := some (ckptCmd 1 0, 0) } } : State).drains s.incomingSlot = true ∧ s.ckpt.inc = none ∧
       (match headOf fun o k => fieldAt (bodyOf m) o k with
        | some h => decide (64 + h.dataOff + 65536 * h.blocks ≤ s.slotLen ∧ (got m pooled).slotLen < 64 + h.dataOff + 65536 * h.blocks)
        | none => false) = true) ∧
    (let m := ckptMsg 2 5 (leBytes 4 0 ++ leBytes 4 1 ++ [0xFF])
     let s := got m (incoming 1)
     s.ckpt.inc = some (anIn 1) ∧ (anIn 1).seq = seqOf m ∧ opOf m = 2 ∧
       ((blockRecs (bodyOf m).length (bodyOf m)).filter fun r => decide (r.1 < (anIn 1).blocks)) = [(0, [0xFF])]) ∧
    (let m := ckptMsg 3 5 (leBytes 4 0 ++ leBytes 8 77)
     opOf m = 3 ∧ (got m (incoming 1)).ckpt.inc = some (anIn 1) ∧ seqOf m = 5) ∧
    (let m := ckptMsg 4 5 []
     let s := got m (incoming 0)
     let a := s.slotAt 0
     opOf m = 4 ∧ (crc64 0 (s.rbs (a + 64 + 64) (8 * 0))).toNat = s.rd (a + 64 + 0x30) 8 ∧
       (crc64 0 (s.rbs (a + 64 + 64) (8 * 0))).toNat ≠ (s.wr (a + 64 + 0x30) 8 1).rd (a + 64 + 0x30) 8) ∧
    (let s : State := { saving with ckpt := { src := some { aSrc with ended := true } } }
     opOf (ckptMsg 5 5 []) = 5 ∧ seqOf (ckptMsg 5 5 []) = aSrc.seq ∧ opOf (ckptMsg 6 5 [1]) = 6 ∧ s.buddyCoord = 1) ∧
    (let s := (incoming 1).setReg R.copyTimeout 500
     s.ckpt.inc = some (anIn 1) ∧ (s.reg R.copyTimeout).toNat ≤ (s.beat - (anIn 1).last).toNat ∧
       (s.beat - (anIn 1).last).toNat < ((s.setReg R.copyTimeout 501).reg R.copyTimeout).toNat) :=
  ⟨by decide +kernel, by decide +kernel, by decide +kernel, by decide +kernel, by decide +kernel, by decide +kernel, by decide +kernel,
    by decide +kernel, by decide +kernel⟩

/-- Slot 0 holds a complete image of no block. -/
def kept : State := ((saving.wr (saving.slotAt 0) 4 0x4D434657).wr (saving.slotAt 0 + 4) 4 5).write (saving.slotAt 0 + 64) aHead
def restoreCmd (src : Nat) (len c : Nat) : Cmd := aCmd 7 (block 64 [(0x10, 1, src), (0x18, 8, 0x1000), (0x20, 8, len), (0x28, 8, c)])
/-- The gate off, as RESTORE asks. -/
def restoring : State := kept.setReg (R.updCfg 0) 0
def aRestore (got_ len : Nat) : Restore :=
  { cmd := restoreCmd 0 0 0, host := false, reshape := false, image := sputs (fun _ => 0) [] 0 aHead, len := len, got := got_ }

theorem witness_DrainsAndRestores :
    (let s (len : Nat) := withCmd kept (ckptCmd 1 len)
     (s 65536).nextOf 0 6 (fun c => decide (c.kind = 1)) = some (ckptCmd 1 65536) ∧ (s 65536).ckpt.drain = none ∧ (s 65536).newerSlot = some 0 ∧
       (s 65536).ckptIllegal = false ∧ (ckptCmd 1 65536).inst = (s 65536).ckptInst ∧ (s 65536).slotImageLen 0 = 65536 ∧ (ckptCmd 1 65536).fld 0x20 8 = 65536 ∧
       (ckptCmd 1 65535).fld 0x20 8 = 65535 ∧ (withCmd saving (ckptCmd 1 0)).newerSlot = none) ∧
    (let s : State := { kept with ckpt := { drain := some (ckptCmd 1 65536, 0) } }
     s.ckpt.drain = some (ckptCmd 1 65536, 0) ∧ s.bad = []) ∧
    (∀ src ∈ [0, 2], let c := restoreCmd src 0 0
      let s := withCmd restoring c
      s.nextOf 0 7 (fun c => decide (c.kind ≠ 1)) = some c ∧ s.ckpt.restore = none ∧ c.inst = s.ckptInst ∧ s.restoreIllegal c.inst = false ∧ s.ckptAxis ≤ 3 ∧
        s.routeFailed s.buddyCoord = false ∧ nbit (c.fld 0x11 1) 0 = false ∧ (withCmd kept c).restoreIllegal 0 = true ∧
        (withCmd (restoring.setReg R.ckptCfg 0x101) c).ckptInst = 1) ∧
    (let c (len v : Nat) := restoreCmd 1 len v
     let s (len v : Nat) := (withCmd restoring (c len v)).write (hostBase + 0x1000) aHead
     (s 65536 0).nextOf 0 7 (fun c => decide (c.kind = 1)) = some (c 65536 0) ∧
       (match headOf fun o k => (s 65536 0).rd (hostBase + 0x1000 + o) k with
        | some h => decide (h.dataOff + 65536 * h.blocks = 65536) && (s 65536 0).imageFits 0 h
        | none => false) = true ∧
       (c 65535 0).fld 0x20 8 = 65535 ∧ headOf (fun o k => (withCmd restoring (c 65536 0)).rd (hostBase + 0x1000 + o) k) = none) ∧
    (let m (op : Nat) (b : List Byte) := ckptMsg op 0 b
     opOf (m 7 (zeros 8)) = 7 ∧ fieldAt (bodyOf (m 7 (zeros 8))) 0 8 = 0 ∧ (got (m 7 (zeros 8)) saving).newerSlot = none ∧ opOf (m 8 (zeros 9)) = 8) ∧
    (let s (g n : Nat) : State := { restoring with ckpt := { restore := some (aRestore g n) } }
     (s 65536 65536).ckpt.restore = some (aRestore 65536 65536) ∧ (s 65535 65536).ckpt.restore = some (aRestore 65535 65536) ∧
       (match headOf (aRestore 65536 65536).rd with
        | some h => (s 65536 65536).imageFits 0 h && decide (h.blocks = 0) &&
          decide (crc64 0 ((aRestore 65536 65536).bytesAt (digestOff h.regions.length) 0) = h.digest)
        | none => false) = true) ∧
    headOf ({ aRestore 65536 65536 with image := [] } : Restore).rd = none :=
  ⟨by decide +kernel, by decide +kernel, by decide +kernel, by decide +kernel, by decide +kernel, by decide +kernel, by decide +kernel⟩

/-- A debug session on page 0 until beat 2000, and core 0 in a state. -/
def debugging (st : CoreSt) : State :=
  ((with0 fun c => { c with st := st }).setReg (R.authStat 0) 1).setReg (R.authExp 0) 2000
/-- A comparator of core 0 on pc 3 whose second match counts, at core scope. -/
def aCmp (seen : Nat) : Comparator := { cfg := 0x41, lo := 3, seen := seen }
def aDone : LaunchRec := { id := 1, inst := 0, cmd := aCmd 1 (zeros 64), starts := true, done := true }
/-- A ring of 16 command records at the start of the buffer, with some used. -/
def recording (used : Nat) : State :=
  { ((((pooled.setInst 0 { st := .active, cmdUsed := used }).setReg (R.cntCfg 0) 1).setReg (R.cmdRing 0) 0x200000).setReg (R.cmdSize 0) 16).setReg
      (R.telem 0) 0 with launches := [aDone] }

theorem witness_DebugSessionsAndAccess :
    (fnMay 5 0 = false ∧ fnMay 0 0 = true ∧ base.session 0 = false ∧ (debugging .running).session 0 = true ∧ (debugging .running).dbgReach 0 0 = true ∧
      (∀ st ∈ [CoreSt.running, .waiting, .halted], ((debugging st).core (256 * 0 + 0 % 256)).st = st)) ∧
    (∀ n ∈ [0, 1], let s := with0 fun c => c.setCmp 3 (aCmp n)
      let x := (s.core 0).cmp 3
      (s.core 0).st = .running ∧ x.on = true ∧ x.matches (s.core 0).pc 0 0 0 s.beat = true ∧ x.count = 2 ∧ x.seen = n ∧ x.scope = 0 ∧
        (s.core 0).ganged = false ∧ s.halting (s.instOf 0) = false ∧ x.matches 4 0 0 0 s.beat = false) ∧
    ((debugging .running).dbgReach 0 (clOf ((debugging .running).bpAt 0).1) = true ∧ nfield (0 : W32).toNat 3 2 ≠ 3 ∧
      nfield (0x18 : W32).toNat 3 2 = 3 ∧ (debugging .running).modSession = false ∧
      ({ debugging .running with moduleSession := some 2000 } : State).modSession = true) ∧
    (let s := (debugging .halted).setCore 0 { (debugging .halted).core 0 with load := some (aLoad true) }
     (s.core 0).st = .halted ∧ (s.core 0).activeLoad = true ∧ ((debugging .halted).core 0).activeLoad = false) ∧
    (∀ st ∈ [CoreSt.running, .halted], let s := ((debugging st).setReg (R.accUid 0) 0).setReg (R.accOff 0) 0xBFF8
      s.session 0 = true ∧ s.accTarget 0 = .core 0 0xBFF8 ∧ s.bad = [] ∧ (s.core 0).stopped = decide (st = .halted)) ∧
    (let s := debugging .running
     s.bit (R.authStat 0) 0 = true ∧ ({ s with beat := 2000 } : State).reg (R.authExp 0) ≤ ({ s with beat := 2000 } : State).beat ∧
       s.beat < s.reg (R.authExp 0) ∧ s.moduleSession = none) ∧
    (let s := recording 15
     s.launches.find? (fun l => decide (l.inst = 0) && s.recordDue l) = some aDone ∧ s.bit (R.cntCfg 0) 0 = true ∧ s.bit (R.telem 0) 31 = false ∧ s.bad = [] ∧
       (s.inst 0).cmdUsed = 15 ∧ ((recording 16).inst 0).cmdUsed = 16 ∧ s.fld (R.cmdSize 0) 0 16 = 16 ∧
       base.launches.find? (fun l => decide (l.inst = 0) && base.recordDue l) = none) ∧
    (let m : Message := { typ := 12, payload := leBytes 8 1 ++ zeros 256 }
     let s := got m (recording 15)
     s.jobInst m.job = some 0 ∧ m.gen = s.gen 0 ∧ fieldAt m.payload 0 1 = 1 ∧ ((m.payload.drop 8).take 256).length = 256) :=
  ⟨by decide +kernel, by decide +kernel, by decide +kernel, by decide +kernel, by decide +kernel, by decide +kernel, by decide +kernel,
    by decide +kernel⟩

/-- The nonce of a page is its own challenge. -/
theorem witness_DebugSessionsAndAccess_unlock (s : State) : ∃ c, c = s.nonce 0 := ⟨_, rfl⟩

/-- The island powered, in a state of its own. -/
def powered (x : Island) : State := { base with power := { standby := true }, island := x }
def aLog : LogEntry := { seq := 1, kind := 1, param := 0, old := 0, new := 0, stamp := [], sealCount := 0 }

theorem witness_IslandClockAndRecords :
    (base.power.standby = false ∧ (powered {}).power.standby = true) ∧
    (let s := powered { tai := 900000000000, boundary := 0 }
     (s.island.pass {}).boundary < (s.island.pass {}).tai / (s.island.pass {}).intervalNs ∧
       (let t := powered { tai := 899999999999, boundary := 0 }
        (t.island.pass {}).tai / (t.island.pass {}).intervalNs ≤ (t.island.pass {}).boundary)) ∧
    ((powered {}).island.stepped = false ∧ (powered { stepped := true, offsets := List.replicate 15 4 }).island.offsets.length = 15 ∧
      (((List.replicate 15 (4 : Int) ++ [4]).foldl (· + ·) 0).tdiv 16).natAbs ≤ (powered { stepped := true }).island.stepNs) ∧
    ((powered {}).island.sealOpen = false ∧ (powered { sealOpen := true }).island.sealOpen = true ∧ (powered {}).island.log.length < 1024 ∧
      1024 ≤ (powered { log := List.replicate 1024 aLog }).island.log.length ∧ paramOk 1 60 = true ∧ paramOk 1 61 = false ∧
      (powered { sealOpen := true, changes := [(1, 5)] }).island.changes = [(1, 5)] ∧
      (powered { calRow := 14 }).island.calRow + 1 < 16 ∧ ¬(powered { calRow := 15 }).island.calRow + 1 < 16) := by decide +kernel

/-- Start-up at a step, everything as it should be, or changed by f. -/
def starting (n : Nat) (f : Power → Power) : State := { State.reset with power := f { standby := true, step := n, perst := false } }

theorem witness_StartupAndSupplies :
    (State.reset.power.standby = false ∧ (starting 1 id).power.standby = true) ∧
    (let s : State := { starting 3 id with island := { ready := true } }
     s.power.step = 3 ∧ s.island.ready = true ∧ s.power.tripped = false ∧ s.power.fwOnly = false ∧ s.power.stopped = false) ∧
    (∀ n ∈ [1, 2, 3, 4, 5, 6, 7, 8, 9], (starting n id).power.done = false ∧ (starting n id).power.stopped = false ∧ (starting n id).power.tripped = false ∧
      (starting n id).power.step = n) ∧
    ((if (starting 2 id).power.mcAlt then (starting 2 id).power.fwGood1 else (starting 2 id).power.fwGood0) = true ∧
      (starting 2 fun p => { p with mcAlt := true, fwGood1 := false }).power.mcAlt = true ∧
      (starting 2 fun p => { p with mcAlt := true, fwGood1 := false }).power.fwGood1 = false ∧
      (starting 2 fun p => { p with fwGood0 := false }).power.fwGood0 = false) ∧
    ((starting 3 fun p => { p with regulators := true }).power.regulators = true ∧ (starting 3 id).power.regulators = false) ∧
    ((starting 4 id).fuses.agree = true ∧ ({ starting 4 id with fuses := { binV := true } } : State).fuses.agree = false) ∧
    ((starting 5 id).power.keptHbm = false ∧ (starting 7 id).power.perst = false ∧ (starting 7 id).power.board = none ∧
      (starting 7 fun p => { p with perst := true }).power.perst = true ∧ (∀ n < 8, (starting 8 id).portSt n = 0 ∨ (starting 8 id).portSt n = 2)) :=
  ⟨by decide +kernel, by decide +kernel, by decide +kernel, by decide +kernel, by decide +kernel, by decide +kernel, by decide +kernel⟩

/-- Running with power at a set point and limits. -/
def supplied (f : Power → Power) (vset : W64) : State :=
  { (base.setReg R.devPwrStat vset).setReg R.devPwrCfg 0x232C8 with power := f { standby := true, step := 9, done := true, regulators := true } }

theorem witness_ResetsAndPowerControl :
    (fnPhysical 0 = true ∧ fnPhysical 1 = false ∧ (supplied id 2).power.regulators = true ∧ base.power.regulators = false) ∧
    ((supplied id 2).inst 0).st ≠ .absent ∧
    ((supplied id 2).power.standby = true ∧ (supplied (fun p => { p with tripped := true }) 2).power.tripped = true ∧
      (supplied id 2).power.needsPldm = false ∧ (supplied (fun p => { p with needsPldm := true }) 2).power.needsPldm = true ∧ 3 ≤ (supplied id 2).power.step ∧
      (((supplied (fun p => { p with restarts := [5, 6, 7] }) 2).power.restarts.filter fun t => decide (3604 < t + 3600)).length = 3) ∧
      (((supplied (fun p => { p with restarts := [5, 6, 7] }) 2).power.restarts.filter fun t => decide (3605 < t + 3600)).length < 3)) ∧
    ((supplied id 2).fld R.devPwrCfg 0 16 = 13000 ∧ 13000 < 14001 ∧ (99 : Nat) ≤ (supplied (fun p => { p with tripTicks := 99 }) 2).power.tripTicks ∧
      (supplied (fun p => { p with tripTicks := 98 }) 2).power.tripTicks < 99 ∧ (supplied id 2).vset = 2 ∧ (supplied id 0).vset = 0 ∧
      (supplied (fun p => { p with overTicks := 99 }) 0).power.overTicks = 99 ∧ (supplied (fun p => { p with underTicks := 99 }) 1).power.underTicks = 99 ∧
      (supplied id 1).vset < (supplied id 1).fld R.devPwrCfg 16 2 ∧ 10 * 11699 < 9 * 13000 ∧ (supplied id 2).power.thermalHold = false) := by
  decide +kernel

/-- Instance 63 is the last one. -/
theorem witness_ResetLeaves : (63 : Nat) < 64 := by decide

theorem witness_InstructionWordsRoundTrip :
    coreOf (.add 3 (some 127) 1 2 3) = some 3 ∧ (Instr.add 3 (some 127) 1 2 3).wf = true ∧
    decodeWord 3 0xFC10000000000000 = some (.endProg 3 none 0 0 0 0) := by decide +kernel

theorem witness_MemoryStaysCanonical : Memory.wf ({ W with pending := [.stw 0 none 1 1 0] } : State).mem = true ∧
    (match step { W with pending := [.stw 0 none 1 1 0] } with | .next _ => true | _ => false) = true := by decide +kernel

/-- R88: two loops whose bodies end with the instruction at 5. The inner one closes, and the outer one counts down and jumps. -/
theorem test_nested_loop_end :
    (let c : Core := { pc := 5, loops := [⟨1, 4, 5⟩, ⟨0, 3, 5⟩], lc := [(0, 2), (1, 1)] }
     (c.advance.pc, c.advance.loops, c.advance.lcr 0, c.advance.lcr 1)) = (3, [⟨0, 3, 5⟩], 1, 0) := by decide +kernel
end

end Sys2Proof.Tests
end

section
/-! PROOFS. One step takes the front of the queue (O1). -/

namespace Sys2Proof.Machine

/-- Settles O1: `step` is defined by the two cases of the queue. -/
theorem stepRunsFront : Obligations.StepRunsFront := by
  refine ⟨fun c rest s => rfl, fun s h => ?_⟩
  rw [step, h]

end Sys2Proof.Machine
end

section
/-! PROOFS. Every operation that leaves memory as it was: one `_mem` lemma per operation, in the model's order. -/

namespace Sys2Proof.Machine

/-- Every item of a run leaves memory as it was. -/
def LeavesMem {α : Type} (f : State → α → State) : Prop := ∀ s x, (f s x).mem = s.mem

@[simp] theorem leavesMem_iff {α : Type} (f : State → α → State) : LeavesMem f ↔ ∀ s x, (f s x).mem = s.mem := Iff.rfl

/-- A run over a list leaves memory as it was where every item does. -/
@[simp] theorem forEach_mem {α : Type} (l : List α) (s : State) (f : State → α → State) (hf : LeavesMem f) :
    (forEach l s f).mem = s.mem :=
  forEach_keeps (fun t => t.mem = s.mem) l s f (fun t x h => (hf t x).trans h) rfl

section
variable (s : State)

/-! ### Registers -/

@[simp] theorem State.setFld_mem (off lo w v : Nat) : (s.setFld off lo w v).mem = s.mem := rfl

@[simp] theorem State.setBit_mem (off lo : Nat) (b : Bool) : (s.setBit off lo b).mem = s.mem := rfl

@[simp] theorem State.incReg_mem (off by_ : Nat) : (s.incReg off by_).mem = s.mem := rfl

@[simp] theorem State.rawWrite_mem (off : Nat) (v : W64) : (s.rawWrite off v).mem = s.mem := by
  unfold State.rawWrite
  split <;> rfl

@[simp] theorem State.resetRange_mem (lo hi : Nat) : (s.resetRange lo hi).mem = s.mem := rfl

@[simp] theorem State.dropHeld_mem (off : Nat) : (s.dropHeld off).mem = s.mem := rfl

/-! ### Records, interrupts and gate -/

@[simp] theorem State.setGate_mem (i : Nat) (g : Gate) : (s.setGate i g).mem = s.mem := rfl

@[simp] theorem State.raiseRec_mem (r : ErrRec) : (s.raiseRec r).mem = s.mem := by
  simp only [State.raiseRec]
  repeat' split
  all_goals simp

@[simp] theorem State.raise_mem (cls code : Nat) (b : Block) (detail : Nat) (uid : W32) (inst cmd : Nat) (lastUid : W32)
    (ctx : List Byte) (flags : Nat) : (s.raise cls code b detail uid inst cmd lastUid ctx flags).mem = s.mem := by simp [State.raise]

@[simp] theorem State.irq_mem (fn vec : Nat) : (s.irq fn vec).mem = s.mem := rfl

/-! ### The Saffron island -/

@[simp] theorem intervalRecord_mem (m : Meter) (meanMv peakW : Nat) : (intervalRecord m meanMv peakW s).mem = s.mem := by
  simp only [intervalRecord]
  repeat' split
  all_goals simp

@[simp] theorem timeDisciplineMessage_mem (m : Meter) (wellFormed : Bool) (ptp : Int) (sync : Bool) (utc : Int) (bt : W64) :
    (timeDisciplineMessage m wellFormed ptp sync utc bt s).mem = s.mem := by
  unfold timeDisciplineMessage
  repeat' split
  all_goals rfl

@[simp] theorem readRequest_mem (wellFormed : Bool) (kind first : Nat) : (readRequest wellFormed kind first s).mem = s.mem := by
  unfold readRequest
  repeat' split
  all_goals rfl

@[simp] theorem sealBreak_mem (m : Meter) : (sealBreak m s).mem = s.mem := by
  unfold sealBreak
  split <;> rfl

@[simp] theorem serviceChange_mem (m : Meter) (calibration : Bool) (param value : Nat) :
    (serviceChange m calibration param value s).mem = s.mem := by
  simp only [serviceChange]
  repeat' split
  all_goals simp

@[simp] theorem sealBreakEnd_mem : (sealBreakEnd s).mem = s.mem := by
  simp only [sealBreakEnd]
  repeat' split
  all_goals simp

@[simp] theorem vbatLow_mem : (vbatLow s).mem = s.mem := rfl

@[simp] theorem calendarLost_mem : (calendarLost s).mem = s.mem := by
  unfold calendarLost
  split <;> rfl

@[simp] theorem reverseCurrent_mem : (reverseCurrent s).mem = s.mem := by
  unfold reverseCurrent
  split <;> rfl

@[simp] theorem State.islandStart_mem (m : Meter) : (s.islandStart m).mem = s.mem := by
  simp only [State.islandStart]
  repeat' split
  all_goals simp

@[simp] theorem mirrorRefresh_mem (m : Meter) (mv ma mw : Nat) : (mirrorRefresh m mv ma mw s).mem = s.mem := by
  unfold mirrorRefresh
  split
  · rfl
  · simp

/-! ### What a step window undoes -/

@[simp] theorem State.undoWork_mem (i : Nat) : (s.undoWork i).mem = s.mem := rfl

@[simp] theorem State.undoTaps_mem (i : Nat) : (s.undoTaps i).mem = s.mem := by
  refine forEach_mem _ s _ fun s k => ?_
  dsimp only
  split <;> rfl

/-! ### Messages and routes -/

@[simp] theorem State.relay_mem (m : Message) (out : Option Nat) : (s.relay m out).mem = s.mem := by
  unfold State.relay
  split <;> rfl

@[simp] theorem State.sendBy_mem (out : Option Nat) (m : Message) : (s.sendBy out m).mem = s.mem := by simp [State.sendBy]

@[simp] theorem State.send_mem (m : Message) : (s.send m).mem = s.mem := by simp [State.send]

@[simp] theorem State.sticky_mem (b : Block) (off bit code inst : Nat) (uid : W32) (cmd : Nat) :
    (s.sticky b off bit code inst uid cmd).mem = s.mem := by simp [State.sticky]

@[simp] theorem State.stale_mem (i : Nat) : (s.stale i).mem = s.mem := by simp [State.stale]

@[simp] theorem State.gateEvent_mem (i coord b : Nat) : (s.gateEvent i coord b).mem = s.mem := rfl

@[simp] theorem State.sendClove_mem (i : Nat) (step : W64) (first last : Nat) : (s.sendClove i step first last).mem = s.mem :=
    by simp [State.sendClove]

/-! ### Inputs of instructions -/

@[simp] theorem State.hashRanges_mem (i : Nat) (l : List (Nat × Nat)) (f : Unit → List Byte) :
    (s.hashRanges i l f).1.mem = s.mem := by
  unfold State.hashRanges
  split <;> simp

@[simp] theorem State.hashInputs_mem (i : Nat) : (s.hashInputs i).1.mem = s.mem := by
  simp only [State.hashInputs]
  repeat' split
  all_goals simp

@[simp] theorem State.solveInputs_mem (i : Nat) : (s.solveInputs i).1.mem = s.mem := by
  unfold State.solveInputs
  split <;> simp

/-! ### Issue and completion of instructions -/

@[simp] theorem State.trace_mem (k kind word slip cause : Nat) : (s.trace k kind word slip cause).mem = s.mem := by
  simp only [State.trace]
  repeat' split
  all_goals simp

@[simp] theorem State.dlBreak_mem (i : Nat) : (s.dlBreak i).mem = s.mem := by
  simp only [State.dlBreak]
  repeat' split
  all_goals simp

@[simp] theorem State.rearm_mem (k : Nat) : (s.rearm k).mem = s.mem := by
  unfold State.rearm
  split <;> rfl

@[simp] theorem State.unbind_mem (k : Nat) (st : CoreSt) : (s.unbind k st).mem = s.mem := by
  unfold State.unbind
  repeat' split
  all_goals simp

@[simp] theorem State.setSt_mem (k : Nat) (st : CoreSt) : (s.setSt k st).mem = s.mem := by
  unfold State.setSt
  repeat' split
  all_goals simp

@[simp] theorem State.modLaunch_mem (id : Nat) (f : LaunchRec → LaunchRec) : (s.modLaunch id f).mem = s.mem := rfl

@[simp] theorem State.slip_mem (k e : Nat) (i : Instr) (target : W64) (tag : Tag) (held : Bool) :
    (s.slip k e i target tag held).mem = s.mem := by
  simp only [State.slip]
  repeat' split
  all_goals simp

@[simp] theorem State.startPass_mem (k e : Nat) (p : Pass) (held : Bool) : (s.startPass k e p held).mem = s.mem := by
  simp only [State.startPass]
  repeat' split
  all_goals simp

@[simp] theorem State.enterSlot_mem (k e : Nat) (i : Instr) (target : Option W64) (late : Late) (foot : Foot) :
    (s.enterSlot k e i target late foot).mem = s.mem := by
  simp only [State.enterSlot]
  repeat' split
  all_goals simp

@[simp] theorem State.promote_mem (k e : Nat) : (s.promote k e).mem = s.mem := by
  simp only [State.promote]
  repeat' split
  all_goals simp

@[simp] theorem State.goOn_mem (k : Nat) : (s.goOn k).mem = s.mem := by simp [State.goOn]

@[simp] theorem State.inputDone_mem (k e : Nat) (foot : Foot) (tag : Tag) : (s.inputDone k e foot tag).mem = s.mem := rfl

@[simp] theorem State.countIssue_mem (k : Nat) (i : Instr) : (s.countIssue k i).mem = s.mem := by simp [State.countIssue]

@[simp] theorem State.place_mem (k : Nat) (i : Instr) (target : Option W64) (late : Late) (foot : Foot) :
    (s.place k i target late foot).mem = s.mem := by
  unfold State.place
  repeat' split
  all_goals simp

@[simp] theorem State.moveOn_mem (k : Nat) (jumped : Bool) : (s.moveOn k jumped).mem = s.mem := by
  simp only [State.moveOn]
  repeat' split
  all_goals simp

@[simp] theorem State.finish_mem (k : Nat) (i : Instr) (target : Option W64) (late : Late) (jumped : Bool) :
    (s.finish k i target late jumped).mem = s.mem := by simp [State.finish]

/-! ### Queues and completions -/

@[simp] theorem State.startCmd_mem (c : Cmd) : (s.startCmd c).mem = s.mem := rfl

@[simp] theorem State.completeWith_mem (c : Cmd) (status resultLo : Nat) (result : W64) (l : Option LaunchRec) :
    (s.completeWith c status resultLo result l).mem = s.mem := by
  simp only [State.completeWith]
  repeat' split
  all_goals simp

@[simp] theorem State.complete_mem (c : Cmd) (status : Nat) : (s.complete c status).mem = s.mem := by simp [State.complete]

@[simp] theorem State.settleLaunch_mem (id : Nat) : (s.settleLaunch id).mem = s.mem := by
  unfold State.settleLaunch
  repeat' split
  all_goals simp

@[simp] theorem State.settleLaunches_mem : s.settleLaunches.mem = s.mem := by simp [State.settleLaunches]

@[simp] theorem State.swapDone_mem (k : Nat) : (s.swapDone k).mem = s.mem := by simp [State.swapDone]

/-! ### Counters, barriers and flags -/

@[simp] theorem State.setCnt_mem (cl idx v : Nat) : (s.setCnt cl idx v).mem = s.mem := rfl

@[simp] theorem State.setCntTags_mem (cl idx : Nat) (l : List (Nat × W64 × Tag)) : (s.setCntTags cl idx l).mem = s.mem := rfl

@[simp] theorem State.takeCnt_mem (cl idx v : Nat) : (s.takeCnt cl idx v).mem = s.mem := rfl

@[simp] theorem State.resume_mem (k : Nat) (w : Wait) (tag : Tag) : (s.resume k w tag).mem = s.mem := by simp [State.resume]

@[simp] theorem State.finishWait_mem (c : Cmd) : (s.finishWait c).mem = s.mem := by
  unfold State.finishWait
  split <;> simp

@[simp] theorem State.wakeHost_mem (kind : Nat) : (s.wakeHost kind).mem = s.mem := by
  refine forEach_mem _ s _ fun s c => ?_
  split <;> simp

@[simp] theorem State.wakeCnt_mem (cl idx : Nat) : (s.wakeCnt cl idx).mem = s.mem := by
  rw [State.wakeCnt, State.wakeHost_mem]
  refine forEach_mem _ s _ fun s k => ?_
  repeat' split
  all_goals simp

@[simp] theorem State.rootDone_mem (cl : Nat) : (s.rootDone cl).mem = s.mem := by
  simp only [State.rootDone]
  repeat' split
  all_goals simp

@[simp] theorem State.bumpCnt_mem (cl idx val : Nat) (who : W32) (tag : Tag) : (s.bumpCnt cl idx val who tag).mem = s.mem := by
  simp only [State.bumpCnt]
  repeat' split
  all_goals simp

@[simp] theorem State.addCnt_mem (cl idx val : Nat) (who : W32) (cause : Nat) (prop : Bool) :
    (s.addCnt cl idx val who cause prop).mem = s.mem := by simp [State.addCnt]

@[simp] theorem State.putCnt_mem (cl idx val : Nat) : (s.putCnt cl idx val).mem = s.mem := by simp [State.putCnt]

@[simp] theorem State.completePhase_mem (n cause : Nat) (prop : Bool) : (s.completePhase n cause prop).mem = s.mem := by
  rw [State.completePhase, State.wakeHost_mem]
  refine (forEach_mem _ _ _ fun s k => ?_).trans (by simp)
  repeat' split
  all_goals simp

@[simp] theorem State.arrive_mem (n : Nat) (who : W32) (inst cause : Nat) (prop : Bool) :
    (s.arrive n who inst cause prop).mem = s.mem := by
  simp only [State.arrive]
  repeat' split
  all_goals simp

@[simp] theorem State.wakeSig_mem (x : Signal) : (s.wakeSig x).mem = s.mem := by
  unfold State.wakeSig
  split <;> simp

/-! ### Core faults and issue -/

@[simp] theorem State.markLaunch_mem (i id : Nat) : (s.markLaunch i id).mem = s.mem := by
  unfold State.markLaunch
  split <;> rfl

@[simp] theorem State.solvEvent_mem (i tag b code : Nat) : (s.solvEvent i tag b code).mem = s.mem := by simp [State.solvEvent]

@[simp] theorem State.freezeByFault_mem (i cl code : Nat) : (s.freezeByFault i cl code).mem = s.mem := by
  simp only [State.freezeByFault]
  repeat' split
  all_goals simp

@[simp] theorem State.haltCore_mem (k : Nat) : (s.haltCore k).mem = s.mem := by
  simp only [State.haltCore]
  repeat' split
  all_goals simp

@[simp] theorem State.scopeHalts_mem (k : Nat) : (s.scopeHalts k).mem = s.mem := by
  unfold State.scopeHalts
  split <;> simp

@[simp] theorem State.hold_mem (k : Nat) (i : Instr) : (s.hold k i).mem = s.mem := rfl

/-! ### Curvature folds -/

@[simp] theorem State.note_mem (k : Nat) (reads writes : List (Nat × Nat)) : (s.note k reads writes).mem = s.mem := rfl

/-! ### Tile moves -/

@[simp] theorem State.countExtra_mem (k e : Nat) : (s.countExtra k e).mem = s.mem := rfl

@[simp] theorem State.completed_mem (k e : Nat) (p : Pass) (counts : Bool) : (s.completed k e p counts).mem = s.mem := by
  unfold State.completed
  split <;> simp

@[simp] theorem State.passDone_mem (k e : Nat) (counts : Bool) : (s.passDone k e counts).mem = s.mem := by
  simp only [State.passDone]
  repeat' split
  all_goals simp

@[simp] theorem movePassComplete_mem (k : Nat) : (movePassComplete k s).mem = s.mem := by simp [movePassComplete]

/-! ### Matrix passes -/

@[simp] theorem State.capture_mem (k : Nat) (ta tb : Tile) (wide : Bool) (sh : Share) :
    (s.capture k ta tb wide sh).mem = s.mem := by
  simp only [State.capture]
  repeat' split
  all_goals simp

@[simp] theorem State.entryEnd_mem (k : Nat) : (s.entryEnd k).mem = s.mem := by
  simp only [State.entryEnd]
  repeat' split
  all_goals simp

@[simp] theorem State.passEnd_mem (k : Nat) : (s.passEnd k).mem = s.mem := by
  simp only [State.passEnd]
  repeat' split
  all_goals simp

/-! ### The curvature tap -/

@[simp] theorem State.autoFoldDone_mem (k : Nat) : (s.autoFoldDone k).mem = s.mem := rfl

/-! ### Reports of a factorization -/

@[simp] theorem State.putSolve_mem (i : Nat) (r : SolveRec) : (s.putSolve i r).mem = s.mem := rfl

/-! ### Factor plans -/

@[simp] theorem State.putGs_mem (k : Nat) (gs : GReg) (v : Option W32) : (s.putGs k gs v).mem = s.mem := by
  unfold State.putGs
  split <;> rfl

/-! ### Ganged passes -/

@[simp] theorem State.gangCapture_mem (cl shape : Nat) (i : Instr) : (s.gangCapture cl shape i).mem = s.mem := by
  unfold State.gangCapture
  repeat' split
  all_goals simp

@[simp] theorem State.gangSlip_mem (cl : Nat) (i : Instr) (target : W64) (tag : Tag) (held : Bool) :
    (s.gangSlip cl i target tag held).mem = s.mem := by
  simp only [State.gangSlip]
  split <;> (try split) <;> simp

@[simp] theorem State.markBoundary_mem (k : Nat) : (s.markBoundary k).mem = s.mem := by
  unfold State.markBoundary
  split <;> rfl

/-! ### Checks -/

@[simp] theorem State.setNf_mem (i : Nat) (st : W64) : (s.setNf i st).mem = s.mem := by
  unfold State.setNf
  split <;> rfl

/-! ### Transfers -/

@[simp] theorem State.putX_mem (x : Xfer) : (s.putX x).mem = s.mem := rfl

@[simp] theorem State.postUncorrectable_mem (n : Poster) : (s.postUncorrectable n).mem = s.mem := by
  unfold State.postUncorrectable
  split <;> rfl

@[simp] theorem State.xMessage_mem (x : Xfer) (typ : Nat) (coord : W32) (addr : Nat) (payload : List Byte) :
    (s.xMessage x typ coord addr payload).mem = s.mem := by simp [State.xMessage]

@[simp] theorem State.takeDma_mem (x : Xfer) : (s.takeDma x).mem = s.mem := rfl

@[simp] theorem State.orphanGone_mem (i : Nat) : (s.orphanGone i).mem = s.mem := rfl

@[simp] theorem State.postDone_mem (k cnt cl val cause : Nat) (prop : Bool) :
    (s.postDone k cnt cl val cause prop).mem = s.mem := by simp [State.postDone]

@[simp] theorem transferComplete_mem (x : Nat) : (transferComplete x s).mem = s.mem := by
  simp only [transferComplete]
  repeat' split
  all_goals simp

/-! ### Update posts -/

/-! ### Audit -/

@[simp] theorem State.stepDigest_mem (i : Nat) : (s.stepDigest i).1.mem = s.mem := by
  simp only [State.stepDigest]
  repeat' split
  all_goals simp

@[simp] theorem State.shardDigest_mem (i n : Nat) : (s.shardDigest i n).1.mem = s.mem := by simp [State.shardDigest]

@[simp] theorem State.ringFull_mem (i : Nat) : (s.ringFull i).mem = s.mem := by simp [State.ringFull]

@[simp] theorem State.holdSolve_mem (i tag : Nat) : (s.holdSolve i tag).mem = s.mem := by
  simp only [State.holdSolve]
  repeat' split
  all_goals simp

@[simp] theorem State.newAudit_mem (i : Nat) (j : AuditJob) : (s.newAudit i j).mem = s.mem := by
  simp only [State.newAudit]
  repeat' split
  all_goals simp

@[simp] theorem State.auditStep_mem (i st : Nat) (c s0 : W64) : (s.auditStep i st c s0).mem = s.mem := by simp [State.auditStep]

@[simp] theorem State.shardDone_mem (i : Nat) : (s.shardDone i).mem = s.mem := by
  simp only [State.shardDone]
  repeat' split
  all_goals simp

/-! ### Collectives -/

@[simp] theorem State.putColl_mem (c : Coll) : (s.putColl c).mem = s.mem := rfl

@[simp] theorem State.collUncorrectable_mem (c : Coll) : (s.collUncorrectable c).mem = s.mem := by simp [State.collUncorrectable]

@[simp] theorem State.chunkLeft_mem (i : Nat) (step : W64) (seq : Nat) : (s.chunkLeft i step seq).mem = s.mem := by
  unfold State.chunkLeft
  repeat' split
  all_goals rfl

@[simp] theorem State.linkFailed_mem (c : Coll) : (s.linkFailed c).mem = s.mem := by simp [State.linkFailed]

@[simp] theorem State.sendChunk_mem (c : Coll) (ax x : Nat) (down : Bool) (k : Int) (bytes : List Byte) (rel : Nat) :
    (s.sendChunk c ax x down k bytes rel).1.mem = s.mem := by
  simp only [State.sendChunk]
  repeat' split
  all_goals simp

/-- A fold that carries a collective leaves memory as each of its steps does. -/
theorem foldl_coll_mem (l : List Nat) (a : State × Coll) (f : State × Coll → Nat → State × Coll)
    (hf : ∀ a x, (f a x).1.mem = a.1.mem) : (l.foldl f a).1.mem = a.1.mem := by
  induction l generalizing a with
  | nil => rfl
  | cons x l ih => rw [List.foldl_cons, ih, hf]

@[simp] theorem State.startAxis_mem (c : Coll) (ax K chunks : Nat) : (s.startAxis c ax K chunks).1.mem = s.mem := by
  simp only [State.startAxis]
  repeat' split
  all_goals simp only [foldl_coll_mem, State.sendChunk_mem, implies_true]

@[simp] theorem State.freeFlits_mem (m : Message) : (s.freeFlits m).mem = s.mem := by
  unfold State.freeFlits
  split <;> rfl

@[simp] theorem State.consume_mem (m : Message) : (s.consume m).mem = s.mem := by simp [State.consume]

/-- What taking a message answers leaves memory as it was. -/
def Taken.KeepsMem (s : State) : Taken → Prop
  | .none => True
  | .dropped t | .got _ _ t => t.mem = s.mem

theorem Taken.mem_of_dropped {s t : State} {x : Taken} (hx : x.KeepsMem s) (h : x = .dropped t) : t.mem = s.mem := by
  simpa [h, Taken.KeepsMem] using hx

theorem Taken.mem_of_got {s t : State} {x : Taken} {m : Message} {i : Nat} (hx : x.KeepsMem s) (h : x = .got m i t) :
    t.mem = s.mem := by
  simpa [h, Taken.KeepsMem] using hx

theorem State.deliverTo_mem (m : Message) : (s.deliverTo m).KeepsMem s := by
  unfold State.deliverTo
  repeat' split
  all_goals simp [Taken.KeepsMem]

theorem State.take_mem (typ : Nat) (ok : Nat → Message → Bool) : (s.take typ ok).KeepsMem s := by
  simp only [State.take]
  split
  · trivial
  · exact s.deliverTo_mem _

@[simp] theorem State.answer_mem (i : Nat) (m : Message) (typ : Nat) (payload : List Byte) :
    (s.answer i m typ payload).mem = s.mem := by simp [State.answer]

@[simp] theorem State.reduceChunk_mem (c : Coll) (ax x : Nat) (l : List W64) : (s.reduceChunk c ax x l).1.mem = s.mem := by
  simp only [State.reduceChunk]
  repeat' split
  all_goals simp

@[simp] theorem State.passChunk_mem (c : Coll) (ax x : Nat) (m : Message) (l : List W64) :
    (s.passChunk c ax x m l).1.mem = s.mem := by
  simp only [State.passChunk]
  repeat' split
  all_goals simp

@[simp] theorem State.reap_mem : s.reap.mem = s.mem := rfl

@[simp] theorem chunkNack_mem : (chunkNack s).mem = s.mem := by
  unfold chunkNack
  split
  · rfl
  · next h => exact Taken.mem_of_dropped (State.take_mem ..) h
  · next h =>
    refine Eq.trans ?_ (Taken.mem_of_got (State.take_mem ..) h)
    repeat' split
    all_goals simp

@[simp] theorem collChunkTimeout_mem (i seq : Nat) : (collChunkTimeout i seq s).mem = s.mem := by
  unfold collChunkTimeout
  repeat' split
  all_goals simp

@[simp] theorem State.failColls_mem (p : Nat) : (s.failColls p).mem = s.mem := by
  refine forEach_mem _ s _ fun s c => ?_
  split <;> simp

@[simp] theorem collectiveComplete_mem (i : Nat) (seq : Delayed) : (collectiveComplete i seq s).mem = s.mem := by
  unfold collectiveComplete
  split
  · rfl
  · dsimp only
    split
    · simp
    · rw [State.reap_mem]
      refine (forEach_mem _ _ _ fun s p => ?_).trans (by simp)
      split <;> simp

/-! ### Vector unit -/

@[simp] theorem vectorPassComplete_mem (k : Nat) : (vectorPassComplete k s).mem = s.mem := by simp [vectorPassComplete]

/-! ### Launches and loads -/

@[simp] theorem State.latchCounters_mem (k : Nat) (others : List Nat) : (s.latchCounters k others).mem = s.mem := by
  simp only [State.latchCounters]
  repeat' split
  all_goals simp

@[simp] theorem State.leaveProgram_mem (k : Nat) (bad : Bool) : (s.leaveProgram k bad).mem = s.mem := by
  simp only [State.leaveProgram]
  repeat' split
  all_goals simp

@[simp] theorem State.trySwap_mem (k : Nat) : (s.trySwap k).mem = s.mem := by
  simp only [State.trySwap]
  repeat' split
  all_goals simp

@[simp] theorem State.resumeCore_mem (k : Nat) (one : Bool) : (s.resumeCore k one).mem = s.mem := by
  simp only [State.resumeCore]
  repeat' split
  all_goals simp

@[simp] theorem coreStart_mem (k : Nat) : (coreStart k s).mem = s.mem := by
  simp only [coreStart]
  repeat' split
  all_goals simp

@[simp] theorem State.endCore_mem (k : Nat) (sig : Option Signal) (bad : Bool) : (s.endCore k sig bad).mem = s.mem :=
    by simp [State.endCore]

@[simp] theorem State.drained_mem (k : Nat) : (s.drained k).mem = s.mem := by
  simp only [State.drained]
  repeat' split
  all_goals simp

@[simp] theorem drainComplete_mem (k : Nat) : (drainComplete k s).mem = s.mem := by
  simp only [drainComplete]
  repeat' split
  all_goals simp

@[simp] theorem State.clearFaults_mem (first count : Nat) : (s.clearFaults first count).mem = s.mem := by
  unfold State.clearFaults
  rw [forEach_mem _ _ _ fun _ _ => State.setCluster_mem _ _ _]
  refine forEach_mem _ s _ fun s k => ?_
  dsimp only
  split <;> simp

@[simp] theorem State.beginLoad_mem (id : Nat) (f : LFlags) (p : Placed) : (s.beginLoad id f p).mem = s.mem := rfl

@[simp] theorem State.noteImage_mem (c : Cmd) (x : Image) : (s.noteImage c x).mem = s.mem := rfl

@[simp] theorem State.doLaunch_mem (c : Cmd) (img : Option Image) : (s.doLaunch c img).mem = s.mem := by
  simp only [State.doLaunch]
  repeat' split
  all_goals simp

/-! ### Command fetch and doorbells -/

@[simp] theorem State.badDoorbell_mem (q : Nat) : (s.badDoorbell q).mem = s.mem := by simp [State.badDoorbell]

@[simp] theorem sqTailDoorbell_mem (fn q v : Nat) : (sqTailDoorbell fn q v s).mem = s.mem := by
  simp only [sqTailDoorbell]
  repeat' split
  all_goals simp

@[simp] theorem cqHeadDoorbell_mem (fn q v : Nat) : (cqHeadDoorbell fn q v s).mem = s.mem := by
  simp only [cqHeadDoorbell]
  repeat' split
  all_goals simp

@[simp] theorem State.refuseCmd_mem (c : Cmd) (status : Nat) : (s.refuseCmd c status).mem = s.mem := rfl

@[simp] theorem State.takeTurn_mem (q : Nat) : (s.takeTurn q).mem = s.mem := rfl

@[simp] theorem State.cqStall_mem (q : Nat) : (s.cqStall q).mem = s.mem := by
  unfold State.cqStall
  split <;> simp

@[simp] theorem commandFetch_mem (q : Nat) : (commandFetch q s).mem = s.mem := by
  simp only [commandFetch]
  repeat' split
  all_goals simp

@[simp] theorem queueResume_mem (fn q : Nat) (v : W32) : (queueResume fn q v s).mem = s.mem := by
  unfold queueResume
  split <;> rfl

@[simp] theorem barrierMembersWrite_mem (fn n : Nat) (v : W32) : (barrierMembersWrite fn n v s).mem = s.mem := by
  simp only [barrierMembersWrite]
  repeat' split
  all_goals simp

/-! ### Debugging -/

@[simp] theorem State.sendTelemetry_mem (i : Nat) (b : List Byte) (step : W64) : (s.sendTelemetry i b step).mem = s.mem := by
  simp only [State.sendTelemetry]
  repeat' split
  all_goals simp

@[simp] theorem State.denied_mem (i : Nat) : (s.denied i).mem = s.mem := by simp [State.denied]

@[simp] theorem debugUnlock_mem (i : Nat) (module : Bool) (expiry : W64) (challenge : BitVec 128) (sig : List Byte) :
    (debugUnlock i module expiry challenge sig s).mem = s.mem := by
  simp only [debugUnlock]
  repeat' split
  all_goals simp

@[simp] theorem debugLock_mem (fn i : Nat) : (debugLock fn i s).mem = s.mem := by
  unfold debugLock
  repeat' split
  all_goals rfl

@[simp] theorem debugSessionExpire_mem (i : Nat) : (debugSessionExpire i s).mem = s.mem := by
  simp only [debugSessionExpire]
  repeat' split
  all_goals simp

@[simp] theorem State.recordHit_mem (i k : Nat) (was : Bool) : (s.recordHit i k was).mem = s.mem := by
  simp only [State.recordHit]
  repeat' split
  all_goals simp

@[simp] theorem breakpointHit_mem (k comp clsop lo hi : Nat) : (breakpointHit k comp clsop lo hi s).mem = s.mem := by
  simp only [breakpointHit]
  repeat' split
  all_goals simp

@[simp] theorem drainTimeout_mem (k : Nat) : (drainTimeout k s).mem = s.mem := by
  simp only [drainTimeout]
  repeat' split
  all_goals simp

@[simp] theorem State.dbgCtrl_mem (fn i op scope cl core : Nat) : (s.dbgCtrl fn i op scope cl core).mem = s.mem := by
  unfold State.dbgCtrl
  repeat' split
  all_goals simp

@[simp] theorem State.bpWrite_mem (fn i off : Nat) (v : W64) : (s.bpWrite fn i off v).mem = s.mem := by
  simp only [State.bpWrite]
  repeat' split
  all_goals simp

@[simp] theorem State.accRefused_mem (i : Nat) : (s.accRefused i).mem = s.mem := by simp [State.accRefused]

@[simp] theorem State.accRead_mem (i : Nat) : (s.accRead i).1.mem = s.mem := by
  simp only [State.accRead]
  repeat' split
  all_goals simp

@[simp] theorem debugAccessRead_mem (fn i : Nat) : (debugAccessRead fn i s).mem = s.mem := by
  simp only [debugAccessRead]
  repeat' split
  all_goals simp

/-! ### Curvature roots -/

@[simp] theorem State.curvEvent_mem (i l g b ev : Nat) : (s.curvEvent i l g b ev).mem = s.mem := rfl

@[simp] theorem State.keepLayers_mem (i : Nat) : (s.keepLayers i).mem = s.mem := rfl

@[simp] theorem State.checkLayers_mem (i : Nat) : (s.checkLayers i).mem = s.mem := by
  refine forEach_mem _ s _ fun s l => ?_
  split <;> simp

@[simp] theorem State.lateRoot_mem (i l g : Nat) : (s.lateRoot i l g).mem = s.mem := by simp [State.lateRoot]

@[simp] theorem State.curvMemory_mem (i w : Nat) : (s.curvMemory i w).mem = s.mem := by simp [State.curvMemory]

/-! ### Host commands -/

@[simp] theorem State.refuse_mem (c : Cmd) (e : Nat × Option Nat) : (s.refuse c e).mem = s.mem := by
  unfold State.refuse
  split <;> simp

@[simp] theorem signalCmd_mem (q : Nat) (p : Nat → Bool) (go : State → Cmd → State) (hgo : ∀ s c, (go s c).mem = s.mem) :
    (signalCmd q p go s).mem = s.mem := by
  simp only [signalCmd]
  repeat' split
  all_goals simp [hgo]

@[simp] theorem signalCounter_mem (q : Nat) : (signalCounter q s).mem = s.mem := by simp [signalCounter]

@[simp] theorem signalBarrier_mem (q : Nat) : (signalBarrier q s).mem = s.mem := by simp [signalBarrier]

@[simp] theorem waitCmd_mem (q : Nat) (p : Nat → Bool) : (waitCmd q p s).mem = s.mem := by
  simp only [waitCmd]
  repeat' split
  all_goals simp

@[simp] theorem waitCounter_mem (q : Nat) : (waitCounter q s).mem = s.mem := by simp [waitCounter]

@[simp] theorem waitFlag_mem (q : Nat) : (waitFlag q s).mem = s.mem := by simp [waitFlag]

@[simp] theorem waitBarrier_mem (q : Nat) : (waitBarrier q s).mem = s.mem := by simp [waitBarrier]

@[simp] theorem waitBeat_mem (q : Nat) : (waitBeat q s).mem = s.mem := by simp [waitBeat]

@[simp] theorem waitTimeout_mem (q : Nat) : (waitTimeout q s).mem = s.mem := by
  simp only [waitTimeout]
  repeat' split
  all_goals simp

@[simp] theorem State.noSpace_mem (c : Cmd) : (s.noSpace c).mem = s.mem := by simp [State.noSpace]

@[simp] theorem alloc_mem (q : Nat) : (alloc q s).mem = s.mem := by
  simp only [alloc]
  repeat' split
  all_goals simp

@[simp] theorem State.refuseFree_mem (c : Cmd) (bit code owner idx : Nat) : (s.refuseFree c bit code owner idx).mem = s.mem :=
    by simp [State.refuseFree]

@[simp] theorem free_mem (q : Nat) : (free q s).mem = s.mem := by
  simp only [free]
  repeat' split
  all_goals simp

@[simp] theorem State.dropBuffer_mem (b : Buffer) : (s.dropBuffer b).mem = s.mem := rfl

@[simp] theorem freeComplete_mem (idx : Nat) : (freeComplete idx s).mem = s.mem := by
  unfold freeComplete
  repeat' split
  all_goals simp

@[simp] theorem exportShard_mem (q : Nat) : (exportShard q s).mem = s.mem := by
  simp only [exportShard]
  repeat' split
  all_goals simp

/-! ### Checkpoints -/

@[simp] theorem State.readSlots_mem : s.readSlots.mem = s.mem := rfl

@[simp] theorem State.ckptSend_mem (dst op seq : Nat) (body : List Byte) : (s.ckptSend dst op seq body).mem = s.mem :=
    by simp [State.ckptSend]

theorem State.takeCkpt_mem (ops : List Nat) (op : Nat) (anyJob : Bool) (ok : Message → Bool) :
    (s.takeCkpt ops op anyJob ok).KeepsMem s := by
  unfold State.takeCkpt
  split
  · trivial
  · next m _ =>
    have d := s.deliverTo_mem m
    repeat' split
    all_goals simp_all [Taken.KeepsMem]

@[simp] theorem State.ckptFail_mem (cmds : List Cmd) (n : W64) (code : Nat) : (s.ckptFail cmds n code).mem = s.mem :=
    by simp [State.ckptFail]

@[simp] theorem State.ckptStart_mem (i : Nat) (commitBeat : W64) : (s.ckptStart i commitBeat).mem = s.mem := by
  simp only [State.ckptStart]
  repeat' split
  all_goals simp

@[simp] theorem State.ckptFinish_mem (c : CkptSrc) : (s.ckptFinish c).mem = s.mem := by simp [State.ckptFinish]

@[simp] theorem ckptAck_mem : (ckptAck s).mem = s.mem := by
  unfold ckptAck
  split
  · rfl
  · next h => exact Taken.mem_of_dropped (State.takeCkpt_mem ..) h
  · next h =>
    refine Eq.trans ?_ (Taken.mem_of_got (State.takeCkpt_mem ..) h)
    repeat' split
    all_goals simp

@[simp] theorem State.ckptDiscard_mem : s.ckptDiscard.mem = s.mem := by
  unfold State.ckptDiscard
  split <;> simp

@[simp] theorem State.restoreLost_mem (code : Nat) : (s.restoreLost code).mem = s.mem := by
  unfold State.restoreLost
  split <;> simp

@[simp] theorem ckptAbort_mem : (ckptAbort s).mem = s.mem := by
  unfold ckptAbort
  split
  · rfl
  · next h => exact Taken.mem_of_dropped (State.takeCkpt_mem ..) h
  · next h =>
    refine Eq.trans ?_ (Taken.mem_of_got (State.takeCkpt_mem ..) h)
    dsimp only
    split <;> (repeat' split) <;> simp

@[simp] theorem ckptCopyTimeout_mem : (ckptCopyTimeout s).mem = s.mem := by
  unfold ckptCopyTimeout
  repeat' split
  all_goals simp

@[simp] theorem State.ckptPortFail_mem (p : Nat) : (s.ckptPortFail p).mem = s.mem := by
  simp only [State.ckptPortFail]
  repeat' split
  all_goals simp

@[simp] theorem checkpointRequest_mem (q : Nat) : (checkpointRequest q s).mem = s.mem := by
  simp only [checkpointRequest]
  repeat' split
  all_goals simp

@[simp] theorem checkpointDrain_mem (q : Nat) : (checkpointDrain q s).mem = s.mem := by
  simp only [checkpointDrain]
  repeat' split
  all_goals simp

@[simp] theorem restoreBuddy_mem (q : Nat) : (restoreBuddy q s).mem = s.mem := by
  simp only [restoreBuddy]
  repeat' split
  all_goals simp

@[simp] theorem restoreHost_mem (q : Nat) : (restoreHost q s).mem = s.mem := by
  simp only [restoreHost]
  repeat' split
  all_goals simp

@[simp] theorem restoreReq_mem : (restoreReq s).mem = s.mem := by
  unfold restoreReq
  split
  · rfl
  · next h => exact Taken.mem_of_dropped (State.takeCkpt_mem ..) h
  · next h =>
    refine Eq.trans ?_ (Taken.mem_of_got (State.takeCkpt_mem ..) h)
    dsimp only
    split
    · simp
    · split <;> simp

/-! ### Replay and comparison -/

@[simp] theorem State.replaySendOne_mem (i dst op off : Nat) (step : W64) (data : List Byte) :
    (s.replaySendOne i dst op off step data).mem = s.mem := by simp [State.replaySendOne]

@[simp] theorem State.cmpAlarm_mem (i bit : Nat) : (s.cmpAlarm i bit).mem = s.mem := by simp [State.cmpAlarm]

theorem State.takeReplay_mem (op : Nat) : (s.takeReplay op).KeepsMem s := by
  unfold State.takeReplay
  split
  · trivial
  · exact s.deliverTo_mem _

@[simp] theorem State.sendArea_mem (i dst op base : Nat) (step : W64) : (s.sendArea i dst op base step).mem = s.mem := by
  simp only [State.sendArea]
  repeat' split
  all_goals simp

@[simp] theorem State.sendHold_mem (i : Nat) : (s.sendHold i).mem = s.mem := by
  unfold State.sendHold
  split <;> simp

@[simp] theorem State.replayCompare_mem (i : Nat) : (s.replayCompare i).mem = s.mem := by
  simp only [State.replayCompare]
  repeat' split
  all_goals simp

@[simp] theorem replaySend_mem (fn i : Nat) : (replaySend fn i s).mem = s.mem := by
  unfold replaySend
  repeat' split
  all_goals simp

/-! ### The commit gate -/

@[simp] theorem State.openGate_mem (i : Nat) : (s.openGate i).mem = s.mem := by
  simp only [State.openGate]
  repeat' split
  all_goals simp

@[simp] theorem State.updCfgWrite_mem (i : Nat) (v : W32) : (s.updCfgWrite i v).mem = s.mem := by
  simp only [State.updCfgWrite]
  repeat' split
  all_goals simp

@[simp] theorem updEnableWrite_mem (fn i : Nat) (v : W32) : (updEnableWrite fn i v s).mem = s.mem := by
  unfold updEnableWrite
  split <;> simp

@[simp] theorem State.completeCommit_mem (cmd : Option Cmd) (code cause late : Nat) :
    (s.completeCommit cmd code cause late).mem = s.mem := by
  unfold State.completeCommit
  split <;> simp

@[simp] theorem State.clearProv_mem (i : Nat) : (s.clearProv i).mem = s.mem := rfl

@[simp] theorem State.nextStep_mem (i code : Nat) : (s.nextStep i code).mem = s.mem := rfl

@[simp] theorem stepCommitReplayDone_mem (q : Nat) : (stepCommitReplayDone q s).mem = s.mem := by
  simp only [stepCommitReplayDone]
  repeat' split
  all_goals simp

@[simp] theorem State.verdictTo_mem (i dst : Nat) (nf fail ckpt : Bool) (at_ : W64) :
    (s.verdictTo i dst nf fail ckpt at_).mem = s.mem := by simp [State.verdictTo]

@[simp] theorem State.countCommit_mem (i : Nat) : (s.countCommit i).mem = s.mem := rfl

/-! ### Solves -/

@[simp] theorem State.purgeSolves_mem (i : Nat) : (s.purgeSolves i).mem = s.mem := rfl

@[simp] theorem State.auditSolve_mem (i : Nat) (r : SolveRec) (st : Nat) : (s.auditSolve i r st).mem = s.mem := by
  unfold State.auditSolve
  repeat' split
  all_goals simp

@[simp] theorem State.dropUnstarted_mem (i tag : Nat) : (s.dropUnstarted i tag).mem = s.mem := rfl

@[simp] theorem solveAnnounce_mem (i tag : Nat) : (solveAnnounce i tag s).mem = s.mem := by
  simp only [solveAnnounce]
  repeat' split
  all_goals simp

@[simp] theorem State.freezeSolve_mem (i tag : Nat) (forced : Option Nat) : (s.freezeSolve i tag forced).mem = s.mem :=
    by simp [State.freezeSolve]

@[simp] theorem solveFreeze_mem (i tag : Nat) : (solveFreeze i tag s).mem = s.mem := by
  unfold solveFreeze
  repeat' split
  all_goals simp

@[simp] theorem solveAbandonTimeout_mem (i tag : Nat) : (solveAbandonTimeout i tag s).mem = s.mem := by
  simp only [solveAbandonTimeout]
  repeat' split
  all_goals simp

/-! ### Deadlock -/

@[simp] theorem State.dlTick_mem : s.dlTick.mem = s.mem := by
  refine forEach_mem _ s _ fun s i => ?_
  dsimp only
  split <;> (try split) <;> rfl

@[simp] theorem State.dlGraph_mem (i : Nat) : (s.dlGraph i).mem = s.mem := by
  unfold State.dlGraph
  split <;> simp

@[simp] theorem State.dlWaits_mem (i : Nat) : (s.dlWaits i).mem = s.mem := by simp [State.dlWaits]

@[simp] theorem State.dlSolves_mem (i : Nat) : (s.dlSolves i).mem = s.mem := by simp [State.dlSolves]

@[simp] theorem deadlock_mem (i : Nat) : (deadlock i s).mem = s.mem := by
  simp only [deadlock]
  repeat' split
  all_goals simp

/-! ### The beat -/

@[simp] theorem beatTick_mem (obs : List StallObs) : (beatTick obs s).mem = s.mem := by
  unfold beatTick
  split <;> simp

@[simp] theorem refclkLoss_mem : (refclkLoss s).mem = s.mem := by
  unfold refclkLoss
  split <;> simp

@[simp] theorem refclkReturn_mem : (refclkReturn s).mem = s.mem := rfl

@[simp] theorem rateChange_mem (die rate : Nat) : (rateChange die rate s).mem = s.mem := by
  unfold rateChange
  split <;> rfl

@[simp] theorem rateMonitorRefresh_mem (die : Nat) : (rateMonitorRefresh die s).mem = s.mem := by
  unfold rateMonitorRefresh
  split <;> rfl

@[simp] theorem beatSample_mem (time : Nat) (sync : Bool) : (beatSample time sync s).mem = s.mem := rfl

@[simp] theorem State.setAlign_mem (n : Nat) : (s.setAlign n).mem = s.mem := rfl

@[simp] theorem State.showPort_mem : s.showPort.mem = s.mem := rfl

@[simp] theorem State.alignFields_mem (v : W64) : (s.alignFields v).mem = s.mem := by
  simp only [State.alignFields]
  repeat' split
  all_goals simp

@[simp] theorem State.alignOn_mem (parent : Option W64) : (s.alignOn parent).mem = s.mem := by
  simp only [State.alignOn]
  repeat' split
  all_goals simp

@[simp] theorem State.alignOff_mem : s.alignOff.mem = s.mem := by
  unfold State.alignOff
  split <;> rfl

@[simp] theorem alignEnable_mem (fn : Nat) (v : W32) (parent : W64) : (alignEnable fn v parent s).mem = s.mem := by
  unfold alignEnable
  repeat' split
  all_goals simp

@[simp] theorem alignDisable_mem (fn : Nat) (v : W32) : (alignDisable fn v s).mem = s.mem := by
  unfold alignDisable
  repeat' split
  all_goals simp

@[simp] theorem alignCfgWrite_mem (fn : Nat) (v : W32) : (alignCfgWrite fn v s).mem = s.mem := by
  unfold alignCfgWrite
  split <;> simp

@[simp] theorem alignLock_mem : (alignLock s).mem = s.mem := by
  unfold alignLock
  split <;> rfl

@[simp] theorem parentPortFail_mem : (parentPortFail s).mem = s.mem := by
  unfold parentPortFail
  repeat' split
  all_goals rfl

@[simp] theorem holdoverTimeout_mem : (holdoverTimeout s).mem = s.mem := by
  unfold holdoverTimeout
  split <;> simp

@[simp] theorem parentPortRecover_mem (port : Nat) : (parentPortRecover port s).mem = s.mem := by
  unfold parentPortRecover
  repeat' split
  all_goals rfl

/-! ### Windows -/

@[simp] theorem State.setErrQ_mem (k : Nat) (q : ErrQ) : (s.setErrQ k q).mem = s.mem := rfl

@[simp] theorem State.setWindow_mem (slot : Nat) (w : Option Window) : (s.setWindow slot w).mem = s.mem := rfl

@[simp] theorem State.freeSlot_mem (slot : Nat) : (s.freeSlot slot).mem = s.mem := by
  unfold State.freeSlot
  split <;> rfl

@[simp] theorem State.closeWindow_mem (d : Nat) : (s.closeWindow d).mem = s.mem := by
  unfold State.closeWindow
  split <;> simp

@[simp] theorem State.beginWindow_mem (d : Nat) : (s.beginWindow d).mem = s.mem := by
  unfold State.beginWindow
  split <;> rfl

/-! ### Links -/

@[simp] theorem State.setPortSt_mem (p n : Nat) : (s.setPortSt p n).mem = s.mem := by
  unfold State.setPortSt
  split <;> rfl

@[simp] theorem State.portFail_mem (p : Nat) : (s.portFail p).mem = s.mem := by simp [State.portFail]

@[simp] theorem State.linkCfgWrite_mem (p : Nat) (v : W32) : (s.linkCfgWrite p v).mem = s.mem := by
  simp only [State.linkCfgWrite]
  repeat' split
  all_goals simp

@[simp] theorem linkEnable_mem (fn p : Nat) (v : W32) : (linkEnable fn p v s).mem = s.mem := by
  unfold linkEnable
  split <;> simp

@[simp] theorem linkDisable_mem (fn p : Nat) (v : W32) : (linkDisable fn p v s).mem = s.mem := by
  unfold linkDisable
  split <;> simp

@[simp] theorem linkTrainingComplete_mem (p coord peer : Nat) : (linkTrainingComplete p coord peer s).mem = s.mem := by
  simp only [linkTrainingComplete]
  repeat' split
  all_goals simp

@[simp] theorem linkTrainingTimeout_mem (p : Nat) : (linkTrainingTimeout p s).mem = s.mem := by
  unfold linkTrainingTimeout
  split <;> simp

@[simp] theorem State.emit_mem (p : Nat) (l : LinkSt) (b : FrameBody) (again : Bool) : (s.emit p l b again).mem = s.mem := rfl

@[simp] theorem State.frameAgain_mem (p : Nat) : (s.frameAgain p).mem = s.mem := by simp [State.frameAgain]

@[simp] theorem frameSend_mem (p : Nat) : (frameSend p s).mem = s.mem := by
  simp only [frameSend]
  repeat' split
  all_goals simp

@[simp] theorem State.landed_mem (p : Nat) (m : Message) : (s.landed p m).mem = s.mem := by
  simp only [State.landed]
  repeat' split
  all_goals simp

@[simp] theorem State.answered_mem (p : Nat) (f : Frame) : (s.answered p f).mem = s.mem := by
  simp only [State.answered]
  repeat' split
  all_goals simp

/-- The mark and the delay of a frame are held as variables, since the kernel would otherwise evaluate both on the bits
of a frame that is itself a variable. -/
theorem State.steer_leavesMem : ∀ F, F = State.steer → ∀ (s : State) (p : Nat) (f : Frame), (F s p f).mem = s.mem := by
  delta State.steer
  obtain ⟨mark, hm⟩ : ∃ m, m = Frame.mark := ⟨_, rfl⟩
  obtain ⟨delay, hd⟩ : ∃ d, d = Frame.delay := ⟨_, rfl⟩
  rw [← hm, ← hd]
  rintro _ rfl s p f
  beta_reduce
  cases mark f with
  | none => rfl
  | some m => cases delay f <;> dsimp only <;> (repeat' split) <;> rfl

@[simp] theorem State.steer_mem (p : Nat) (f : Frame) : (s.steer p f).mem = s.mem := State.steer_leavesMem _ rfl s p f

/-- The sequence number of a frame is held as a variable, as in `State.steer_leavesMem`. -/
@[simp] theorem frameReceive_mem (p : Nat) (f : Frame) : (frameReceive p f s).mem = s.mem := by
  unfold frameReceive
  obtain ⟨fseq, hq⟩ : ∃ q, q = Frame.fseq := ⟨_, rfl⟩
  rw [← hq]
  dsimp only
  split
  · rfl
  · split
    · rw [State.setLink_mem, State.incReg_mem, State.incReg_mem]
    · split
      · rw [State.answered_mem, State.setLink_mem, State.incReg_mem, State.incReg_mem]
      · split
        · rw [State.setLink_mem, State.answered_mem, State.setLink_mem, State.incReg_mem, State.incReg_mem]
        · rw [forEach_mem _ _ _ fun s m => s.landed_mem _ _, State.steer_mem, State.setLink_mem, State.answered_mem,
            State.setLink_mem, State.incReg_mem, State.incReg_mem]

@[simp] theorem laneLockLoss_mem (p : Nat) : (laneLockLoss p s).mem = s.mem := by
  unfold laneLockLoss
  split <;> simp

@[simp] theorem frameCheckTimeout_mem (p : Nat) : (frameCheckTimeout p s).mem = s.mem := by
  unfold frameCheckTimeout
  split <;> simp

/-! ### Error queues -/

@[simp] theorem State.eqDrop_mem (k : Nat) (c : Bool) : (s.eqDrop k c).mem = s.mem := rfl

@[simp] theorem State.toMgmt_mem (r : ErrRec) : (s.toMgmt r).mem = s.mem := rfl

@[simp] theorem State.firstFault_mem (r : ErrRec) : (s.firstFault r).1.mem = s.mem := by
  unfold State.firstFault
  split <;> simp

@[simp] theorem State.escalate_mem (n d : Nat) (r : ErrRec) : (s.escalate n d r).mem = s.mem := by
  simp only [State.escalate]
  repeat' split
  all_goals simp

@[simp] theorem State.windows_mem (r : ErrRec) : (s.windows r).mem = s.mem := by
  simp only [State.windows]
  repeat' split
  all_goals simp

@[simp] theorem recoveryWindowTimeout_mem (slot : Nat) : (recoveryWindowTimeout slot s).mem = s.mem := by
  unfold recoveryWindowTimeout
  repeat' split
  all_goals simp

@[simp] theorem State.noteCorrected_mem (d : Nat) : (s.noteCorrected d).mem = s.mem := by
  simp only [State.noteCorrected]
  repeat' split
  all_goals simp

@[simp] theorem patrolScrub_mem (addr : Nat) (corrected : Bool) : (patrolScrub addr corrected s).mem = s.mem := by
  simp only [patrolScrub]
  repeat' split
  all_goals simp

/-! ### Instances -/

@[simp] theorem State.instRefuse_mem (i code : Nat) : (s.instRefuse i code).mem = s.mem := rfl

@[simp] theorem State.setInstSt_mem (i : Nat) (st : InstSt) : (s.setInstSt i st).mem = s.mem := rfl

@[simp] theorem State.setBar_mem (n arr ph : Nat) : (s.setBar n arr ph).mem = s.mem := rfl

@[simp] theorem State.opConfigure_mem (i : Nat) : (s.opConfigure i).mem = s.mem := by
  unfold State.opConfigure
  repeat' split
  all_goals rfl

@[simp] theorem configure_mem (fn i : Nat) : (configure fn i s).mem = s.mem := by
  unfold configure
  split <;> simp

@[simp] theorem State.opQuiesce_mem (i : Nat) (save : Bool) : (s.opQuiesce i save).mem = s.mem := by
  unfold State.opQuiesce
  repeat' split
  all_goals rfl

@[simp] theorem quiesce_mem (fn i : Nat) (save : Bool) : (quiesce fn i save s).mem = s.mem := by
  unfold quiesce
  split <;> simp

@[simp] theorem State.resetCore_mem (i k : Nat) : (s.resetCore i k).mem = s.mem := by
  simp only [State.resetCore]
  repeat' split
  all_goals simp

@[simp] theorem State.resetPages_mem (i : Nat) : (s.resetPages i).mem = s.mem :=
    by rw [State.resetPages, State.setReg_mem, State.resetRange_mem, forEach_mem _ _ _ fun s o => s.resetRange_mem _ _]

@[simp] theorem State.resetCkpt_mem (i : Nat) : (s.resetCkpt i).mem = s.mem := by
  simp only [State.resetCkpt]
  repeat' split
  all_goals simp

@[simp] theorem State.resetGangs_mem (i : Nat) : (s.resetGangs i).mem = s.mem := forEach_mem _ s _ fun _ _ => rfl

@[simp] theorem State.freeAll_mem (i : Nat) : (s.freeAll i).mem = s.mem := by
  refine forEach_mem _ s _ fun s b => ?_
  split <;> simp

@[simp] theorem instanceResetTimeout_mem (i : Nat) : (instanceResetTimeout i s).mem = s.mem := by
  simp only [instanceResetTimeout]
  repeat' split
  all_goals simp

/-! ### Power -/

@[simp] theorem State.mgmtAlarm_mem (code : Nat) (b : Block) (detail : Nat) (uid : W32) :
    (s.mgmtAlarm code b detail uid).mem = s.mem := rfl

@[simp] theorem tripRestart_mem (now : Nat) : (tripRestart now s).mem = s.mem := by
  simp only [tripRestart]
  repeat' split
  all_goals simp

@[simp] theorem regulatorRamp_mem : (regulatorRamp s).mem = s.mem := by
  simp only [regulatorRamp]
  repeat' split
  all_goals simp

@[simp] theorem standbyPowerOn_mem (m : Meter) : (standbyPowerOn m s).mem = s.mem := by
  unfold standbyPowerOn
  split <;> simp

@[simp] theorem State.sampleStrap_mem : s.sampleStrap.mem = s.mem := by
  unfold State.sampleStrap
  split <;> rfl

@[simp] theorem perstDeassert_mem : (perstDeassert s).mem = s.mem := by simp [perstDeassert]

@[simp] theorem State.loadFuses_mem : s.loadFuses.mem = s.mem := by
  rw [State.loadFuses, State.setPower_mem, State.setReg_mem, forEach_mem _ _ _ fun s d => s.setReg_mem _ _,
    State.setReg_mem, forEach_mem _ _ _ fun s n => s.setReg_mem _ _]

@[simp] theorem State.applyBoard_mem : s.applyBoard.mem = s.mem := by
  unfold State.applyBoard
  repeat' split
  all_goals simp

@[simp] theorem State.toStep_mem (n : Nat) : (s.toStep n).mem = s.mem := by
  unfold State.toStep
  split <;> simp

@[simp] theorem State.stepFails_mem (code : Nat) (stop : Bool) : (s.stepFails code stop).mem = s.mem := rfl

@[simp] theorem State.bootFails_mem : s.bootFails.mem = s.mem := by
  simp only [State.bootFails]
  repeat' split
  all_goals simp

@[simp] theorem startupStepComplete_mem : (startupStepComplete s).mem = s.mem := by
  simp only [startupStepComplete]
  repeat' split
  all_goals simp

@[simp] theorem firmwareUpdate_mem (good : Bool) (slot : Nat) (ver : W32) : (firmwareUpdate good slot ver s).mem = s.mem := by
  simp only [firmwareUpdate]
  repeat' split
  all_goals simp

@[simp] theorem boardRecordWrite_mem (cfg expect : List W32) (coord ext align : W32) :
    (boardRecordWrite cfg expect coord ext align s).mem = s.mem := by
  unfold boardRecordWrite
  split <;> rfl

@[simp] theorem junctionOverTemp_mem (tj : Nat) : (junctionOverTemp tj s).mem = s.mem := by
  simp only [junctionOverTemp]
  repeat' split
  all_goals simp

@[simp] theorem State.pwrCfgWrite_mem (v : W64) : (s.pwrCfgWrite v).mem = s.mem := by
  simp only [State.pwrCfgWrite]
  repeat' split
  all_goals simp

@[simp] theorem powerConfigWrite_mem (fn : Nat) (v : W32) : (powerConfigWrite fn v s).mem = s.mem := by
  unfold powerConfigWrite
  split <;> simp

/-! ### Register reads -/

@[simp] theorem State.readReg_mem (fn off : Nat) : (s.readReg fn off).1.mem = s.mem := by
  simp only [State.readReg]
  repeat' split
  all_goals simp

/-! ### Management -/

@[simp] theorem State.tapRead_mem (off : Nat) : (s.tapRead off).mem = s.mem := by
  unfold State.tapRead
  split <;> rfl

@[simp] theorem State.tapWrite_mem (off : Nat) (v : W32) : (s.tapWrite off v).mem = s.mem := by
  simp only [State.tapWrite]
  repeat' split
  all_goals simp

/-! ### Register writes -/

@[simp] theorem State.modeWrite_mem (v : W64) : (s.modeWrite v).mem = s.mem := by
  unfold State.modeWrite
  split <;> rfl

@[simp] theorem State.auditWrite_mem (off : Nat) (v : W64) : (s.auditWrite off v).mem = s.mem := by
  simp only [State.auditWrite]
  repeat' split
  all_goals simp

@[simp] theorem State.writeDev_mem (fn off : Nat) (v : W64) : (s.writeDev fn off v).mem = s.mem := by
  unfold State.writeDev
  repeat' split
  all_goals simp

@[simp] theorem State.writeBeat_mem (fn off : Nat) (v : W64) : (s.writeBeat fn off v).mem = s.mem := by
  unfold State.writeBeat
  repeat' split
  all_goals simp

@[simp] theorem State.writeQctl_mem (fn off : Nat) (v : W64) : (s.writeQctl fn off v).mem = s.mem := by
  simp only [State.writeQctl]
  repeat' split
  all_goals simp

@[simp] theorem State.writeSync_mem (fn off : Nat) (v : W64) : (s.writeSync fn off v).mem = s.mem := by
  simp only [State.writeSync]
  repeat' split
  all_goals simp

@[simp] theorem State.writeCnt_mem (i off : Nat) (v : W64) : (s.writeCnt i off v).mem = s.mem := by
  unfold State.writeCnt
  split <;> simp

@[simp] theorem State.writeUpd_mem (i off : Nat) (v : W64) : (s.writeUpd i off v).mem = s.mem := by
  simp only [State.writeUpd]
  repeat' split
  all_goals simp

@[simp] theorem State.writeCurv_mem (i off : Nat) (v : W64) : (s.writeCurv i off v).mem = s.mem := by
  unfold State.writeCurv
  repeat' split
  all_goals simp

@[simp] theorem State.writeColl_mem (fn off : Nat) (v : W64) : (s.writeColl fn off v).mem = s.mem := by
  simp only [State.writeColl]
  repeat' split
  all_goals simp

@[simp] theorem State.writeCkpt_mem (fn off : Nat) (v : W64) : (s.writeCkpt fn off v).mem = s.mem := by
  simp only [State.writeCkpt]
  repeat' split
  all_goals simp

@[simp] theorem State.writeMem_mem (fn off : Nat) (v : W64) : (s.writeMem fn off v).mem = s.mem := by
  unfold State.writeMem
  repeat' split
  all_goals simp

@[simp] theorem State.writeLink_mem (fn off : Nat) (v : W64) : (s.writeLink fn off v).mem = s.mem := by
  simp only [State.writeLink]
  repeat' split
  all_goals simp

@[simp] theorem State.setLatch_mem (fn off : Nat) (v : Option W32) : (s.setLatch fn off v).mem = s.mem := rfl

@[simp] theorem State.setHeld_mem (fn off : Nat) (v : Option W32) : (s.setHeld fn off v).mem = s.mem := rfl

@[simp] theorem State.readLow_mem (fn off : Nat) : (s.readLow fn off).mem = s.mem := by
  unfold State.readLow
  split <;> simp

@[simp] theorem State.readHigh_mem (fn off : Nat) : (s.readHigh fn off).mem = s.mem := by
  unfold State.readHigh
  repeat' split
  all_goals simp

@[simp] theorem State.read32_mem (fn p : Nat) : (s.read32 fn p).mem = s.mem := by
  unfold State.read32
  split <;> simp

@[simp] theorem State.readWide_mem (fn p : Nat) : (s.readWide fn p).mem = s.mem := by
  unfold State.readWide
  split <;> simp

@[simp] theorem State.readByte_mem (fn p : Nat) : (s.readByte fn p).mem = s.mem := by simp [State.readByte]

@[simp] theorem State.readOther_mem (fn off : Nat) : (s.readOther fn off).mem = s.mem := by
  unfold State.readOther
  repeat' split
  all_goals simp

@[simp] theorem State.badAccess_mem (off : Nat) : (s.badAccess off).mem = s.mem := by simp [State.badAccess]

@[simp] theorem State.badRead_mem (fn off : Nat) : (s.badRead fn off).mem = s.mem := by simp [State.badRead]

@[simp] theorem lowerHalfRead_mem (fn off : Nat) : (lowerHalfRead fn off s).mem = s.mem := by
  unfold lowerHalfRead
  repeat' split
  all_goals simp

@[simp] theorem upperHalfRead_mem (fn off : Nat) : (upperHalfRead fn off s).mem = s.mem := by
  unfold upperHalfRead
  repeat' split
  all_goals simp

@[simp] theorem State.readAny_mem (fn off width : Nat) : (s.readAny fn off width).mem = s.mem := by
  unfold State.readAny
  repeat' split
  all_goals simp

@[simp] theorem badAccessWidth_mem (fn off width : Nat) (write : Bool) : (badAccessWidth fn off width write s).mem = s.mem := by
  unfold badAccessWidth
  repeat' split
  all_goals simp

@[simp] theorem devModeWrite_mem (fn : Nat) (v : W32) : (devModeWrite fn v s).mem = s.mem := by
  unfold devModeWrite
  split <;> simp

@[simp] theorem State.bar4Refuse_mem (fn : Nat) : (s.bar4Refuse fn).mem = s.mem := by simp [State.bar4Refuse]

@[simp] theorem State.bar4Bad_mem (w : Nat) : (s.bar4Bad w).mem = s.mem := by simp [State.bar4Bad]

@[simp] theorem bar4Read_mem (fn addr len : Nat) : (bar4Read fn addr len s).mem = s.mem := by
  simp only [bar4Read]
  repeat' split
  all_goals simp

end

end Sys2Proof.Machine
end

section
/-! PROOFS. Every operation that writes memory keeps its canonical form: one `wf_` lemma per operation, in the model's order. -/

namespace Sys2Proof.Machine

theorem wf_of_mem {s t : State} (h : t.mem = s.mem) (hs : Memory.wf s.mem = true) : Memory.wf t.mem = true := h ▸ hs

theorem wf_ite {c : Prop} [Decidable c] {s t : State} (hs : Memory.wf s.mem = true) (ht : Memory.wf t.mem = true) :
    Memory.wf (if c then s else t).mem = true := by
  split
  · exact hs
  · exact ht

/-- Every item of a run keeps the canonical form. -/
def KeepsWf {α : Type} (f : State → α → State) : Prop := ∀ s x, Memory.wf s.mem = true → Memory.wf (f s x).mem = true

/-- A run over a list keeps the canonical form where every item does. -/
theorem wf_forEach {α : Type} {s : State} (hs : Memory.wf s.mem = true) (l : List α) (f : State → α → State) (hf : KeepsWf f) :
    Memory.wf (forEach l s f).mem = true :=
  forEach_keeps (fun t => Memory.wf t.mem = true) l s f hf hs

section
variable {s : State} (hs : Memory.wf s.mem = true)
include hs

/-! ### Records, interrupts and gate -/

@[simp] theorem wf_setFlag (n : Nat) (v : Bool) : Memory.wf (s.setFlag n v).mem = true := by
  simp only [State.setFlag]
  repeat' split
  all_goals simp [hs, wf_wr]

/-! ### What a step window undoes -/

@[simp] theorem wf_putShardBit (a b v : Nat) : Memory.wf (s.putShardBit a b v).mem = true := by simp [State.putShardBit, hs, wf_wr]

@[simp] theorem wf_newestIsActive (i : Nat) : Memory.wf (s.newestIsActive i).mem = true := by
  refine wf_forEach hs _ _ fun s n hs => ?_
  dsimp only
  split <;> simp [hs]

@[simp] theorem wf_beginUndo (i : Nat) : Memory.wf (s.beginUndo i).mem = true := by simp [State.beginUndo, hs]

@[simp] theorem wf_beginSkip (i code : Nat) : Memory.wf (s.beginSkip i code).mem = true := by
  simp only [State.beginSkip]
  repeat' split
  all_goals simp [hs]

@[simp] theorem wf_beginTaint (i : Nat) : Memory.wf (s.beginTaint i).mem = true := by simp [State.beginTaint, hs]

/-! ### Messages and routes -/

@[simp] theorem wf_failContribution (i : Nat) (st : W64) (unit : W32) : Memory.wf (s.failContribution i st unit).mem = true := by
  simp only [State.failContribution]
  repeat' split
  all_goals simp [hs]

/-! ### Counters, barriers and flags -/

@[simp] theorem wf_putFlag (n : Nat) (v : Bool) (cause : Nat) (prop : Bool) :
    Memory.wf (s.putFlag n v cause prop).mem = true := by
  unfold State.putFlag
  extract_lets news s₁ s₂
  have h₂ : Memory.wf s₂.mem = true := by
    unfold s₂
    split <;> exact wf_setFlag hs n v
  split
  · refine wf_of_mem ((State.wakeHost_mem ..).trans (forEach_mem _ s₂ _ fun s k => ?_)) h₂
    repeat' split
    all_goals simp
  · exact h₂

@[simp] theorem wf_applySig (k : Nat) (x : Signal) : Memory.wf (s.applySig k x).mem = true := by
  unfold State.applySig
  split <;> simp [hs]

/-! ### Core faults and issue -/

@[simp] theorem wf_failProg (p : Prog) (unit : W32) : Memory.wf (s.failProg p unit).mem = true := by simp [State.failProg, hs]

@[simp] theorem wf_failCore (k : Nat) (unit : W32) : Memory.wf (s.failCore k unit).mem = true := by
  unfold State.failCore
  split <;> simp [hs]

@[simp] theorem wf_faultOne (k fault eng : Nat) : Memory.wf (s.faultOne k fault eng).mem = true := by
  simp only [State.faultOne]
  repeat' split
  all_goals simp [hs]

@[simp] theorem wf_peerFaults (cl : Nat) : Memory.wf (s.peerFaults cl).mem = true := by
  refine wf_forEach hs _ _ fun s j hs => ?_
  split <;> simp [hs]

@[simp] theorem wf_fault (k cause eng : Nat) : Memory.wf (s.fault k cause eng).mem = true := by
  simp only [State.fault]
  repeat' split
  all_goals simp [hs]

@[simp] theorem wf_faultMany (cl : Nat) (l : List (Nat × Nat × Nat)) : Memory.wf (s.faultMany cl l).mem = true := by
  refine wf_of_mem (forEach_mem _ _ _ fun s f => s.scopeHalts_mem _) (wf_peerFaults ?_ cl)
  exact wf_forEach hs _ _ fun s f hs => wf_faultOne hs ..

/-- Every state that an act carries has its memory in canonical form. -/
def Act.Wf : Act → Prop
  | .next t | .jump t | .holdWith t | .wait t _ | .faultIn t _ | .stop t => Memory.wf t.mem = true
  | .hold | .fault _ => True

theorem wf_settle (k : Nat) (i : Instr) {a : Act} (ha : a.Wf) (target : Option W64) (late : Late) :
    Memory.wf (s.settle k i a target late).mem = true := by
  cases a with
  | next t =>
    dsimp only [State.settle]
    split
    · exact hs
    · exact wf_of_mem (State.finish_mem ..) ha
  | jump t => exact wf_of_mem (State.finish_mem ..) ha
  | hold => exact hs
  | holdWith t => exact ha
  | wait t w => exact wf_of_mem (State.setSt_mem ..) ha
  | fault c => exact wf_fault hs ..
  | faultIn t c => exact wf_fault ha ..
  | stop t => exact ha

theorem wf_begin (k : Nat) (i : Instr) {act : Tag → State → Act} (hact : ∀ tag, (act tag s).Wf) (inp : InputTag) :
    Memory.wf (s.begin k i act inp).mem = true := by
  unfold State.begin
  dsimp only
  split
  · exact hs
  · exact wf_settle hs k i (hact _) _ _

/-- An instruction reaches the sequencer: what it does to memory is what its act does (R39). -/
theorem wf_issue (k : Nat) (i : Instr) {act : Tag → State → Act} (hact : ∀ tag, (act tag s).Wf) :
    Memory.wf (s.issue k i act).mem = true := by
  unfold State.issue
  dsimp only
  split
  · exact hs
  · split
    · exact wf_fault hs ..
    · split
      · exact hs
      · exact wf_begin hs k i hact _

/-! ### Operands -/

@[simp] theorem wf_putElem (v : View) (i j raw : Nat) : Memory.wf (s.putElem v i j raw).mem = true := by
  unfold State.putElem
  split <;> simp [hs, wf_wr]

/-! ### Curvature folds -/

theorem wf_foldEntry {k : Nat} {e : TapEntry} {t : State} (h : s.foldEntry k e = .ok t) : Memory.wf t.mem = true := by
  unfold State.foldEntry at h
  split at h
  · cases h
  · cases h
  · dsimp only at h
    split at h
    · cases h
    · split at h
      · cases h
      · obtain rfl := Except.ok.inj h
        split
        · exact hs
        · exact wf_forEach hs _ _ fun s x hs => wf_putElem hs ..

omit hs in
theorem wf_foldFirst (hs : Memory.wf s.mem = true) {k n : Nat} {auto : Bool} {t : State} (h : s.foldFirst k n auto = .ok t) :
    Memory.wf t.mem = true := by
  induction n generalizing s with
  | zero => exact Except.ok.inj h ▸ hs
  | succ n ih =>
    dsimp only [State.foldFirst] at h
    split at h
    · exact Except.ok.inj h ▸ hs
    · split at h
      · cases h
      · next hu => exact ih (wf_of_mem (State.setCore_mem ..) (wf_foldEntry hs hu)) h

theorem wf_settleFolds {k : Nat} {reads writes : List (Nat × Nat)} {t : State} (h : s.settleFolds k reads writes = .ok t) :
    Memory.wf t.mem = true := by
  unfold State.settleFolds at h
  dsimp only at h
  split at h
  · exact Except.ok.inj h ▸ hs
  · exact wf_foldFirst hs h

theorem wf_settleTap {k : Nat} {reads writes : List (Nat × Nat)} {t : State} (h : s.settleTap k reads writes = .ok t) :
    Memory.wf t.mem = true := by
  unfold State.settleTap at h
  split at h
  · cases h
  · next hu => exact Except.ok.inj h ▸ wf_of_mem (State.note_mem ..) (wf_settleFolds hs hu)

/-! ### Matrix passes -/

@[simp] theorem wf_spillOne (intg : Bool) (vc : View) (a : AccSet) (n : Nat) :
    Memory.wf (s.spillOne intg vc a n).1.mem = true := by simp [State.spillOne, hs]

omit hs in
/-- A fold that carries a value beside the state keeps the canonical form as each of its steps does. -/
theorem wf_foldl {α β : Type} (l : List α) (a : State × β) (f : State × β → α → State × β)
    (hf : ∀ a x, Memory.wf a.1.mem = true → Memory.wf (f a x).1.mem = true) (h : Memory.wf a.1.mem = true) :
    Memory.wf (l.foldl f a).1.mem = true := by
  induction l generalizing a with
  | nil => exact h
  | cons x l ih => exact ih _ (hf a x h)

theorem wf_spillAll (intg : Bool) (vc : View) (a : AccSet) : Memory.wf (s.spillAll intg vc a).1.mem = true :=
  wf_foldl _ _ _ (fun x n h => wf_spillOne h intg vc x.2 n) hs

@[simp] theorem wf_runPass (kind : PassKind) (va vb : View) (vc : Option View) (n m : Nat) (sh : Share) (a : AccSet) :
    Memory.wf (s.runPass kind va vb vc n m sh a).1.mem = true := by
  refine wf_foldl _ _ _ (fun x q h => ?_) hs
  dsimp only
  repeat' split
  · exact wf_spillAll h ..
  · exact h
  · exact h

theorem wf_makeRoom (k : Nat) : (s.makeRoom k).Wf := by
  unfold State.makeRoom
  split
  · split
    · next hu => exact wf_foldFirst hs hu
    · trivial
  · trivial

theorem wf_applyMma {k ac : Nat} {kind : PassKind} {v : View × View × Option View} {n m : Nat} {sh : Share} {t : State}
    (h : s.applyMma k ac kind v n m sh = .ok t) : Memory.wf t.mem = true := by
  unfold State.applyMma at h
  split at h
  · cases h
  · next hu => exact Except.ok.inj h ▸ wf_runPass (wf_settleFolds hs hu) ..

@[simp] theorem wf_outStore (k ac : Nat) (vo : View) (vc : Option View) (sh : Share) (r : OutRes) :
    Memory.wf (s.outStore k ac vo vc sh r).mem = true := by
  refine wf_forEach ?_ _ _ fun s x hs => wf_putElem hs ..
  split
  · exact hs
  · exact wf_forEach hs _ _ fun s x hs => wf_putElem hs ..

/-! ### Ganged instructions compared -/

theorem wf_gangCompare (k : Nat) (key : GangKey) {go : State → Act}
    (hgo : ∀ t : State, Memory.wf t.mem = true → (go t).Wf) : (s.gangCompare k key go).Wf := by
  unfold State.gangCompare
  dsimp only
  split
  · split
    · exact hgo _ hs
    · exact wf_faultMany (by exact hs) ..
  · split
    · split
      · exact hgo _ hs
      · trivial
    · exact hgo _ hs

/-! ### The curvature tap -/

@[simp] theorem wf_tapAutoFold (k : Nat) : Memory.wf (tapAutoFold k s).mem = true := by
  unfold tapAutoFold
  dsimp only
  split
  · split
    · split
      · split
        · next hu => exact wf_foldFirst hs hu
        · exact wf_fault hs ..
      · exact hs
    · exact hs
  · exact hs

/-! ### Reports of a factorization -/

@[simp] theorem wf_putMat (v : View) (r c : Nat) (m : Mat) : Memory.wf (s.putMat v r c m).mem = true :=
    wf_forEach hs _ _ fun _ _ hs => wf_putElem hs ..

@[simp] theorem wf_scribble (a n : Nat) : Memory.wf (s.scribble a n).mem = true := by simp [State.scribble, hs, wf_write]

@[simp] theorem wf_solveCounts (r : SolveRec) : Memory.wf (s.solveCounts r).mem = true := by simp [State.solveCounts, hs, wf_wr]

@[simp] theorem wf_reportReg (k col : Nat) (pv : W32) : Memory.wf (s.reportReg k col pv).mem = true := by
  unfold State.reportReg
  split
  · exact hs
  · exact wf_of_mem ((State.incReg_mem ..).trans (State.solvEvent_mem ..)) (wf_solveCounts (wf_of_mem (State.putSolve_mem ..) hs) _)

@[simp] theorem wf_reportViol (k col : Nat) : Memory.wf (s.reportViol k col).mem = true := by
  unfold State.reportViol
  split
  · exact hs
  · exact wf_of_mem ((State.incReg_mem ..).trans (State.solvEvent_mem ..)) (wf_solveCounts (wf_of_mem (State.putSolve_mem ..) hs) _)

@[simp] theorem wf_solveWrite (i : Nat) (tag : Option Nat) (a : Nat) (bs : List Byte) :
    Memory.wf (s.solveWrite i tag a bs).mem = true := by
  unfold State.solveWrite
  split <;> simp [hs, wf_write]

@[simp] theorem wf_coreWrite (k a : Nat) (bs : List Byte) : Memory.wf (s.coreWrite k a bs).mem = true := by simp [State.coreWrite, hs]

/-! ### Factor plans -/

/-- Whatever operation a factor plan answers keeps the canonical form. -/
def FactorPlan.Wf (p : FactorPlan) : Prop :=
  ∀ k s o, p k s = .ok o → ∀ t : State, Memory.wf t.mem = true → Memory.wf (o.run t).1.mem = true

theorem wf_runFactor {k : Nat} {p : FactorPlan} (hp : FactorPlan.Wf p) {r : State × Option W32} (h : s.runFactor k p = .ok r) :
    Memory.wf r.1.mem = true := by
  unfold State.runFactor at h
  split at h
  · cases h
  · next ho =>
    split at h
    · cases h
    · next hu => exact Except.ok.inj h ▸ hp _ _ _ ho _ (wf_settleTap hs hu)

omit hs in
theorem wf_planNsiScale (t1 t2 : TReg) (p : Nat) (gs : GReg) : FactorPlan.Wf (planNsiScale t1 t2 p gs) := by
  intro k s o h t ht
  unfold planNsiScale at h
  dsimp only at h
  repeat' split at h
  all_goals cases h
  exact wf_putMat (wf_putMat ht ..) ..

omit hs in
theorem wf_planNsiStep (t1 t2 t3 : TReg) (p : Nat) : FactorPlan.Wf (planNsiStep t1 t2 t3 p) := by
  intro k s o h t ht
  unfold planNsiStep at h
  extract_lets at h
  repeat' split at h
  all_goals cases h
  exact wf_putMat (wf_putMat (wf_forEach ht _ (fun s a => s.scribble a 4) fun s a hs => wf_scribble hs ..) ..) ..

omit hs in
theorem wf_planNsiResid (t1 t2 : TReg) (p : Nat) : FactorPlan.Wf (planNsiResid t1 t2 p) := by
  intro k s o h t ht
  unfold planNsiResid at h
  dsimp only at h
  repeat' split at h
  all_goals cases h
  exact ht

omit hs in
theorem wf_planUpdNs (t1 t2 t3 : TReg) : FactorPlan.Wf (planUpdNs t1 t2 t3) := by
  intro k s o h t ht
  unfold planUpdNs at h
  dsimp only at h
  repeat' split at h
  all_goals cases h
  exact wf_putMat (wf_putMat (wf_putMat ht ..) ..) ..

omit hs in
theorem wf_addParent (ldlt : Bool) (cert : Cert) (x : SnRec) (a : SnAreas) (k : Nat) (z : State × Fac) (p : Nat × Nat)
    (h : Memory.wf z.1.mem = true) : Memory.wf (addParent ldlt cert x a k z p).1.mem = true := by
  unfold addParent
  dsimp only
  split
  · exact h
  · exact wf_coreWrite h ..

@[simp] theorem wf_pivotLog (k a firstCol : Nat) (f : Fac) : Memory.wf (s.pivotLog k a firstCol f).mem = true := by
  refine wf_forEach (wf_coreWrite hs ..) _ _ fun s p hs => ?_
  dsimp only
  split
  · exact wf_coreWrite hs ..
  · exact hs

@[simp] theorem wf_runSn (ldlt : Bool) (k : Nat) (x : SnRec) (cert : Cert) (a : SnAreas) :
    Memory.wf (runSn ldlt k x cert a s).mem = true := by
  unfold runSn
  extract_lets n c lower front f₁ f₂ f₀ f s₁ s₂ s₃ s₄ s₅ z s₆ s₇ s₈
  have h₁ : Memory.wf s₁.mem = true := hs
  have h₂ : Memory.wf s₂.mem = true := wf_forEach h₁ _ _ fun s p hs => wf_coreWrite hs ..
  have h₃ : Memory.wf s₃.mem = true := wf_forEach h₂ _ _ fun s p hs => wf_coreWrite hs ..
  have h₄ : Memory.wf s₄.mem = true := wf_coreWrite h₃ ..
  have hz : Memory.wf z.1.mem = true := wf_foldl _ _ _ (fun z p h => wf_addParent _ _ _ _ _ z p h) h₄
  have h₇ : Memory.wf s₇.mem = true :=
    wf_forEach (wf_pivotLog hz ..) _ _ fun s p hs => wf_reportReg hs ..
  have h₈ : Memory.wf s₈.mem = true := wf_forEach h₇ _ _ fun s q hs => wf_reportViol hs ..
  split
  · exact wf_scribble h₈ ..
  · exact h₈

omit hs in
theorem wf_planSn (ldlt : Bool) (t1 t2 t3 : TReg) : FactorPlan.Wf (planSn ldlt t1 t2 t3) := by
  intro k s o h t ht
  unfold planSn at h
  dsimp only at h
  repeat' split at h
  all_goals cases h
  exact wf_runSn ht ..

@[simp] theorem wf_runTrsv (k p : Nat) (z : Trsv) (e : Int) : Memory.wf (runTrsv k p z e s).mem = true := by
  unfold runTrsv
  extract_lets cols s₁
  have h₁ : Memory.wf s₁.mem = true := wf_forEach hs _ _ fun s q hs => wf_putElem hs ..
  split
  · exact wf_forEach h₁ _ _ fun s q hs => wf_coreWrite hs ..
  · exact h₁

omit hs in
theorem wf_planTrsvSn (t1 t2 t3 : TReg) (p : Nat) : FactorPlan.Wf (planTrsvSn t1 t2 t3 p) := by
  intro k s o h t ht
  unfold planTrsvSn at h
  dsimp only at h
  repeat' split at h
  all_goals cases h
  all_goals dsimp only
  · exact wf_scribble (wf_runTrsv (wf_forEach ht _ _ fun s a hs => wf_scribble hs ..) ..) ..
  · exact wf_runTrsv (wf_forEach ht _ _ fun s a hs => wf_scribble hs ..) ..
  · exact wf_scribble (wf_runTrsv ht ..) ..
  · exact wf_runTrsv ht ..

omit hs in
theorem wf_planRefine (t1 t2 t3 t4 : TReg) : FactorPlan.Wf (planRefine t1 t2 t3 t4) := by
  intro k s o h t ht
  unfold planRefine at h
  dsimp only at h
  repeat' split at h
  all_goals cases h
  · exact wf_forEach ht _ _ fun s q hs => wf_putElem hs ..
  · exact wf_putMat (wf_putMat ht ..) ..

end

end Sys2Proof.Machine
end

section
/-! PROOFS. Ganged passes, transfers, updates and collectives keep the canonical form of memory. -/

namespace Sys2Proof.Machine

section
variable {s : State} (hs : Memory.wf s.mem = true)
include hs

/-! ### Ganged passes -/

@[simp] theorem wf_gangShapeChange (cl : Nat) : Memory.wf (gangShapeChange cl s).mem = true := by
  unfold gangShapeChange
  dsimp only
  split
  · split
    · exact wf_of_mem (forEach_mem _ _ _ fun _ _ => State.setCore_mem ..) hs
    · exact wf_faultMany hs ..
  · exact hs

omit hs in
theorem wf_factorPlanOf {i : Instr} {p : FactorPlan × GReg} (h : factorPlanOf i = some p) : FactorPlan.Wf p.1 := by
  unfold factorPlanOf at h
  split at h
  all_goals cases h
  · exact wf_planNsiScale _ _ _ _
  · exact wf_planNsiStep _ _ _ _
  · exact wf_planNsiResid _ _ _
  · exact wf_planSn false _ _ _
  · exact wf_planSn true _ _ _
  · exact wf_planTrsvSn _ _ _ _
  · exact wf_planRefine _ _ _ _
  · exact wf_planUpdNs _ _ _

@[simp] theorem wf_gangAccum (cl : Nat) (p : GangPass) (m : Nat) : Memory.wf (s.gangAccum cl p m).mem = true := by
  unfold State.gangAccum
  split
  · exact hs
  · refine wf_forEach hs _ _ fun s k hs => ?_
    split
    · exact hs
    · split
      · next hu => exact wf_applyMma hs hu
      · exact wf_fault hs ..

@[simp] theorem wf_gangOut (cl : Nat) (p : GangPass) : Memory.wf (s.gangOut cl p).mem = true := by
  unfold State.gangOut
  split
  · exact hs
  · refine wf_forEach (wf_forEach hs _ _ fun s k hs => ?_) _ _ fun s r hs => wf_outStore hs ..
    dsimp only
    split
    · exact hs
    · split
      · next hu => exact wf_settleFolds hs hu
      · exact wf_fault hs ..

@[simp] theorem wf_gangFactor (cl : Nat) (i : Instr) : Memory.wf (s.gangFactor cl i).mem = true := by
  unfold State.gangFactor
  split
  · exact hs
  · next hp =>
    extract_lets k0 f s₁
    have h₁ : Memory.wf s₁.mem = true := by
      refine wf_forEach hs _ _ fun s k hs => ?_
      split
      · next hu => exact wf_settleFolds hs hu
      · exact wf_fault hs ..
    split
    · exact wf_fault h₁ ..
    · next hr => exact wf_of_mem (forEach_mem _ _ _ fun s k => s.putGs_mem _ _ _) (wf_runFactor h₁ (wf_factorPlanOf hp) hr)

@[simp] theorem wf_gangBegin (cl : Nat) (p : GangPass) (held : Bool) : Memory.wf (s.gangBegin cl p held).mem = true := by
  simp only [State.gangBegin]
  repeat' split
  all_goals simp [hs]

@[simp] theorem wf_enterGang (cl : Nat) (p : GangPass) : Memory.wf (s.enterGang cl p).mem = true := by
  simp only [State.enterGang]
  repeat' split
  all_goals simp [hs]

@[simp] theorem wf_promoteGang (cl : Nat) : Memory.wf (s.promoteGang cl).mem = true := by
  simp only [State.promoteGang]
  repeat' split
  all_goals simp [hs]

@[simp] theorem wf_startGang (cl : Nat) (i : Instr) (foot : Foot) : Memory.wf (s.startGang cl i foot).mem = true := by
  unfold State.startGang
  extract_lets k0 shape target held p s₁ s₂ s₃
  have h₁ : Memory.wf s₁.mem = true := by
    unfold s₁
    split
    · exact wf_of_mem (forEach_mem _ _ _ fun _ _ => State.setCore_mem ..) hs
    · exact hs
  have h₂ : Memory.wf s₂.mem = true := wf_gangFactor (wf_of_mem (State.gangCapture_mem ..) h₁) ..
  refine wf_enterGang (wf_of_mem (forEach_mem _ _ _ fun s e => ?_) h₂) ..
  split <;> simp

@[simp] theorem wf_gangedPassStart (cl : Nat) : Memory.wf (gangedPassStart cl s).mem = true := by
  unfold gangedPassStart
  extract_lets u k0 l
  split
  · exact hs
  · extract_lets reached key bad faults
    split
    · exact hs
    · split
      · exact wf_faultMany hs ..
      · split
        · exact wf_faultMany hs ..
        · split
          · exact wf_of_mem (forEach_mem _ _ _ fun _ _ => State.setCore_mem ..) hs
          · exact wf_startGang hs ..

@[simp] theorem wf_gangDone (cl : Nat) (p : GangPass) : Memory.wf (s.gangDone cl p).mem = true := by simp [State.gangDone, hs]

@[simp] theorem wf_gangFeedUncorrectable (cl entered : Nat) : Memory.wf (gangFeedUncorrectable cl entered s).mem = true := by
  simp only [gangFeedUncorrectable]
  repeat' split
  all_goals simp [hs]

@[simp] theorem wf_gangEntryEnd (cl : Nat) : Memory.wf (s.gangEntryEnd cl).mem = true := by
  simp only [State.gangEntryEnd]
  repeat' split
  all_goals simp [hs]

@[simp] theorem wf_gangPassEnd (cl : Nat) : Memory.wf (s.gangPassEnd cl).mem = true := by
  simp only [State.gangPassEnd]
  repeat' split
  all_goals simp [hs]

@[simp] theorem wf_matrixEntryEnd (u : Nat) (gang : Bool) : Memory.wf (matrixEntryEnd u gang s).mem = true := by
  unfold matrixEntryEnd
  split <;> simp [hs]

@[simp] theorem wf_matrixPassComplete (u : Nat) (gang : Bool) : Memory.wf (matrixPassComplete u gang s).mem = true := by
  unfold matrixPassComplete
  split <;> simp [hs]

@[simp] theorem wf_tapFoldComplete (k : Nat) : Memory.wf (tapFoldComplete k s).mem = true := by
  simp only [tapFoldComplete]
  repeat' split
  all_goals simp [hs]

@[simp] theorem wf_factorOpComplete (u : Nat) (gang : Bool) : Memory.wf (factorOpComplete u gang s).mem = true := by
  simp only [factorOpComplete]
  repeat' split
  all_goals simp [hs]

/-! ### Signals -/

@[simp] theorem wf_signalTakesEffect (k : List Delayed) : Memory.wf (signalTakesEffect k s).mem = true := by
  refine wf_of_mem (forEach_mem _ _ _ fun s g => s.wakeSig_mem g) (wf_foldl _ _ _ (fun x e h => ?_) hs)
  dsimp only
  split
  · exact h
  · exact wf_applySig (by exact h) ..

/-! ### Transfers -/

@[simp] theorem wf_failPost (i : Nat) (p : Poster) (step : W64) (unit : W32) :
    Memory.wf (s.failPost i p step unit).mem = true := by
  unfold State.failPost
  split <;> simp [hs]

@[simp] theorem wf_postX (i : Nat) (p : Poster) (d : XDesc) (step : W64) (tag : Nat × Bool) :
    Memory.wf (s.postX i p d step tag).mem = true := by
  unfold State.postX
  repeat' split
  all_goals simp [hs]

@[simp] theorem wf_xWrite (x : Xfer) (a : Nat) (bs : List Byte) : Memory.wf (s.xWrite x a bs).mem = true := by
  unfold State.xWrite
  split <;> simp [hs, wf_write]

@[simp] theorem wf_storePart (x : Xfer) (dr c : Nat) (raws : List Nat) : Memory.wf (s.storePart x dr c raws).mem = true :=
    wf_forEach hs _ _ fun _ _ hs => wf_xWrite hs ..

@[simp] theorem wf_rowOver (x : Xfer) : Memory.wf (s.rowOver x).mem = true := by simp [State.rowOver, hs]

@[simp] theorem wf_xMemory (x : Xfer) (w : Nat) : Memory.wf (s.xMemory x w).mem = true := by simp [State.xMemory, hs]

@[simp] theorem wf_deliver (x : Xfer) (dr c : Nat) (raws : List Nat) : Memory.wf (s.deliver x dr c raws).mem = true := by
  simp only [State.deliver]
  repeat' split
  all_goals simp [hs]

@[simp] theorem wf_chunkRemote (x : Xfer) : Memory.wf (s.chunkRemote x).mem = true := by
  simp only [State.chunkRemote]
  repeat' split
  all_goals simp [hs]

@[simp] theorem wf_chunkLocal (x : Xfer) : Memory.wf (s.chunkLocal x).mem = true := by
  unfold State.chunkLocal
  dsimp only
  split
  · exact wf_xMemory hs ..
  · refine wf_of_mem (State.putX_mem ..) (wf_foldl _ _ _ (fun a p h => ?_) hs)
    split
    · split
      · exact wf_rowOver h ..
      · exact h
    · exact wf_storePart h ..

@[simp] theorem wf_dmaChunkDone (x : Delayed) : Memory.wf (dmaChunkDone x s).mem = true := by
  simp only [dmaChunkDone]
  repeat' split
  all_goals simp [hs]

/-! ### Update posts -/

@[simp] theorem wf_setShardBit (h : Shard) (b v : Nat) : Memory.wf (s.setShardBit h b v).mem = true := by simp [State.setShardBit, hs]

omit hs in
theorem wf_donePut {a : Done} (ha : Memory.wf a.s.mem = true) (h : Shard) (hs : HSet) (post : UpdPost) (seed : W64)
    (i j : Nat) (r : Moved) : Memory.wf (a.put h hs post seed i j r).s.mem = true := by
  have hm := wf_forEach ha r.moments (fun s e => s.wr (h.mslot (1 - h.active) + e.1) 4 e.2.toNat) fun s e hs => wf_wr _ _ _ _ hs
  unfold Done.put
  dsimp only
  split
  · exact hm
  · exact wf_wr _ _ _ _ hm

omit hs in
/-- A run of elements through the update unit keeps the canonical form where each element does. -/
theorem wf_foldl_done {α : Type} (l : List α) (a : Done) (f : Done → α → Done)
    (hf : ∀ a x, Memory.wf a.s.mem = true → Memory.wf (f a x).s.mem = true) (h : Memory.wf a.s.mem = true) :
    Memory.wf (l.foldl f a).s.mem = true := by
  induction l generalizing a with
  | nil => exact h
  | cons x l ih => exact ih _ (hf a x h)

@[simp] theorem wf_applyRule (i : Nat) (h : Shard) (rule : Nat) (post : UpdPost) :
    Memory.wf (s.applyRule i h rule post).s.mem = true := by
  unfold State.applyRule
  dsimp only
  split
  · exact wf_foldl_done _ _ _ (fun a p ha => wf_donePut ha ..) (wf_write _ _ _ hs)
  · exact wf_foldl_done _ _ _ (fun a p ha => wf_donePut ha ..) hs

@[simp] theorem wf_refusePost (i : Nat) (p : UpdPost) (b : Nat) : Memory.wf (s.refusePost i p b).mem = true :=
    by simp [State.refusePost, hs]

@[simp] theorem wf_postMemory (i : Nat) (p : UpdPost) (w : Nat) : Memory.wf (s.postMemory i p w).mem = true :=
    by simp [State.postMemory, hs]

@[simp] theorem wf_performPost (i : Nat) (p : UpdPost) : Memory.wf (s.performPost i p).mem = true := by
  simp only [State.performPost]
  repeat' split
  all_goals simp [hs]

@[simp] theorem wf_updatePostPerform (i : Nat) : Memory.wf (updatePostPerform i s).mem = true := by
  simp only [updatePostPerform]
  repeat' split
  all_goals simp [hs]

/-! ### Audit -/

@[simp] theorem wf_hbmWrite (a : Nat) (b : List Byte) : Memory.wf (s.hbmWrite a b).mem = true := by
  unfold State.hbmWrite
  split <;> simp [hs, wf_write]

@[simp] theorem wf_auditRecordWrite (i : Nat) : Memory.wf (auditRecordWrite i s).mem = true := by
  simp only [auditRecordWrite]
  repeat' split
  all_goals simp [hs]

/-! ### Collectives -/

@[simp] theorem wf_writeDst (c : Coll) (first : Nat) (l : List W64) : Memory.wf (s.writeDst c first l).mem = true :=
    by simp [State.writeDst, hs]

@[simp] theorem wf_writeResult (c : Coll) (K : Nat) : Memory.wf (s.writeResult c K).1.mem = true := by
  unfold State.writeResult
  dsimp only
  split
  · simp [hs]
  · split
    · exact hs
    · exact wf_forEach hs _ _ fun s e hs => wf_writeDst hs ..

omit hs in
@[simp] theorem wf_runAxes (hs : Memory.wf s.mem = true) (c : Coll) (l : List Nat) : Memory.wf (s.runAxes c l).1.mem = true := by
  induction l generalizing s c with
  | nil => exact hs
  | cons ax r ih =>
    have h := fun c K chunks => wf_of_mem (s.startAxis_mem c ax K chunks) hs
    unfold State.runAxes
    dsimp only
    split
    · exact h _ _ _
    · split
      · split
        · exact wf_writeResult (h _ _ _) ..
        · exact ih (h _ _ _) _
      · exact h _ _ _

@[simp] theorem wf_nextAxis (c : Coll) : Memory.wf (s.nextAxis c).1.mem = true := by
  simp only [State.nextAxis]
  repeat' split
  all_goals simp [hs]

@[simp] theorem wf_formColl (c : Coll) : Memory.wf (s.formColl c).mem = true := by
  simp only [State.formColl]
  repeat' split
  all_goals simp [hs]

@[simp] theorem wf_postC (i : Nat) (p : Poster) (key : Nat) (d : CDesc) (src : Nat) (step : W64) (tag : Nat × Bool) :
    Memory.wf (s.postC i p key d src step tag).mem = true := by
  unfold State.postC
  repeat' split
  all_goals simp [hs]

@[simp] theorem wf_badChunk (c : Coll) (m : Message) : Memory.wf (s.badChunk c m).mem = true := by
  simp only [State.badChunk]
  repeat' split
  all_goals simp [hs]

@[simp] theorem wf_collChunk : Memory.wf (collChunk s).mem = true := by
  unfold collChunk
  split
  · exact hs
  · next h => exact wf_of_mem (Taken.mem_of_dropped (State.take_mem ..) h) hs
  · next h =>
    replace hs := wf_of_mem (Taken.mem_of_got (State.take_mem ..) h) hs
    split
    · exact hs
    · split
      · simp [hs]
      · dsimp only
        split <;> simp [hs]

@[simp] theorem wf_chunkAck : Memory.wf (chunkAck s).mem = true := by
  unfold chunkAck
  split
  · exact hs
  · next h => exact wf_of_mem (Taken.mem_of_dropped (State.take_mem ..) h) hs
  · next h =>
    replace hs := wf_of_mem (Taken.mem_of_got (State.take_mem ..) h) hs
    dsimp only
    repeat' split
    all_goals simp [hs]

end

end Sys2Proof.Machine
end

section
/-! PROOFS. Launches, curvature roots, host commands and checkpoints keep the canonical form of memory. -/

namespace Sys2Proof.Machine

section
variable {s : State} (hs : Memory.wf s.mem = true)
include hs

/-! ### Programs -/

theorem wf_drainTap {k : Nat} {t : State} (h : s.drainTap k = .ok t) : Memory.wf t.mem = true := wf_foldFirst hs h

/-! ### Held instructions -/

/-! ### Launches and loads -/

@[simp] theorem wf_writeBank (k : Nat) (b : Bool) (words : List W64) : Memory.wf (s.writeBank k b words).mem = true :=
    by simp [State.writeBank, hs, wf_write]

@[simp] theorem wf_programLoadComplete (k : Nat) : Memory.wf (programLoadComplete k s).mem = true := by
  simp only [programLoadComplete]
  repeat' split
  all_goals simp [hs]

@[simp] theorem wf_coreFault (k cause engine : Nat) : Memory.wf (coreFault k cause engine s).mem = true := by
  unfold coreFault
  split <;> simp [hs]

@[simp] theorem wf_imageMemory (c : Cmd) (w : Nat) : Memory.wf (s.imageMemory c w).mem = true := by simp [State.imageMemory, hs]

@[simp] theorem wf_launch (q : Nat) : Memory.wf (launch q s).mem = true := by
  simp only [launch]
  repeat' split
  all_goals simp [hs]

/-! ### Command fetch and doorbells -/

@[simp] theorem wf_flagDoorbell (fn q idx : Nat) (v : Bool) : Memory.wf (s.flagDoorbell fn q idx v).mem = true := by
  simp only [State.flagDoorbell]
  repeat' split
  all_goals simp [hs]

@[simp] theorem wf_doorbellFlagSet (fn q idx : Nat) : Memory.wf (doorbellFlagSet fn q idx s).mem = true := by simp [doorbellFlagSet, hs]

@[simp] theorem wf_doorbellFlagClr (fn q idx : Nat) : Memory.wf (doorbellFlagClr fn q idx s).mem = true := by simp [doorbellFlagClr, hs]

@[simp] theorem wf_postEntry (q : Nat) (e : Completion) : Memory.wf (s.postEntry q e).mem = true := by
  simp only [State.postEntry]
  repeat' split
  all_goals simp [hs, wf_write]

@[simp] theorem wf_completionPost (q : Nat) : Memory.wf (completionPost q s).mem = true := by
  simp only [completionPost]
  repeat' split
  all_goals simp [hs]

/-! ### Debugging -/

@[simp] theorem wf_ringRecord (i : Nat) (b : List Byte) : Memory.wf (s.ringRecord i b).mem = true := by
  simp only [State.ringRecord]
  repeat' split
  all_goals simp [hs]

@[simp] theorem wf_commandRecordWrite (i : Nat) : Memory.wf (commandRecordWrite i s).mem = true := by
  simp only [commandRecordWrite]
  repeat' split
  all_goals simp [hs]

@[simp] theorem wf_telemetry : Memory.wf (telemetry s).mem = true := by
  unfold telemetry
  split
  · exact hs
  · next h => exact wf_of_mem (Taken.mem_of_dropped (State.take_mem ..) h) hs
  · next h =>
    replace hs := wf_of_mem (Taken.mem_of_got (State.take_mem ..) h) hs
    repeat' split
    all_goals simp [hs]

@[simp] theorem wf_accWrite (i : Nat) (v : W64) : Memory.wf (s.accWrite i v).mem = true := by
  simp only [State.accWrite]
  repeat' split
  all_goals simp [hs, wf_write]

@[simp] theorem wf_debugAccessWrite (fn i : Nat) (v : W64) : Memory.wf (debugAccessWrite fn i v s).mem = true := by
  simp only [debugAccessWrite]
  repeat' split
  all_goals simp [hs]

/-! ### Curvature roots -/

@[simp] theorem wf_restateLayers (i : Nat) : Memory.wf (s.restateLayers i).mem = true := by
  refine wf_forEach hs _ _ fun s l hs => ?_
  split
  · exact wf_wr _ _ _ _ (wf_wr _ _ _ _ hs)
  · exact hs

@[simp] theorem wf_suspectRoot (i l g : Nat) : Memory.wf (s.suspectRoot i l g).mem = true := by
  unfold State.suspectRoot
  extract_lets y n s₁ s₂ x s₃ lim
  have h : s₃.mem = (s.wr (y.recAt g + 0xE) 1 n).mem := by
    rw [State.setGate_mem, State.raise_mem, State.incReg_mem, State.curvEvent_mem]
  have h₃ : Memory.wf s₃.mem = true := wf_of_mem h (wf_wr _ _ _ _ hs)
  split
  · exact wf_of_mem ((State.raise_mem ..).trans (State.setBit_mem ..)) h₃
  · exact h₃

@[simp] theorem wf_judgeRoot (i l g : Nat) (forced : Bool) : Memory.wf (s.judgeRoot i l g forced).mem = true := by
  simp only [State.judgeRoot]
  repeat' split
  all_goals simp [hs, wf_wr]

@[simp] theorem wf_activateRoots (i : Nat) (c : W64) (forced : Bool) : Memory.wf (s.activateRoots i c forced).mem = true := by
  refine wf_forEach ?_ _ _ fun s e hs => wf_judgeRoot hs ..
  exact wf_forEach hs _ _ fun s w hs => wf_of_mem (State.curvMemory_mem ..) hs

@[simp] theorem wf_foldOne (i l g : Nat) : Memory.wf (s.foldOne i l g).mem = true := by
  simp only [State.foldOne]
  repeat' split
  all_goals simp [hs, wf_write]

@[simp] theorem wf_countFold (i l : Nat) : Memory.wf (s.countFold i l).mem = true := by
  simp only [State.countFold]
  repeat' split
  all_goals simp [hs, wf_wr]

@[simp] theorem wf_readyLayer (i l : Nat) : Memory.wf (s.readyLayer i l).mem = true := by
  simp only [State.readyLayer]
  repeat' split
  all_goals simp [hs, wf_wr]

@[simp] theorem wf_foldLayers (i : Nat) : Memory.wf (s.foldLayers i).mem = true := by
  have h : Memory.wf (forEach (s.liveLayers i) s fun s l =>
      ((forEach (List.range (s.layer i l).blocks) s fun s g => s.foldOne i l g).countFold i l).readyLayer i l).mem = true :=
    wf_forEach hs _ _ fun s l hs => wf_readyLayer (wf_countFold (wf_forEach hs _ _ fun s g hs => wf_foldOne hs ..) ..) ..
  unfold State.foldLayers
  dsimp only
  split
  · exact h
  · exact h

@[simp] theorem wf_dueBlock (i l g : Nat) (c : W64) : Memory.wf (s.dueBlock i l g c).mem = true := by
  unfold State.dueBlock
  extract_lets y x n
  split
  · exact wf_of_mem (State.lateRoot_mem ..) hs
  · split
    · exact wf_of_mem (State.curvMemory_mem ..) hs
    · exact wf_of_mem (State.setInst_mem ..) (wf_wr _ _ _ _ (wf_wr _ _ _ _ (wf_write _ _ _ hs)))

@[simp] theorem wf_dueBlocks (i : Nat) (c : W64) : Memory.wf (s.dueBlocks i c).mem = true :=
    wf_forEach hs _ _ fun _ _ hs => wf_forEach hs _ _ fun _ _ hs => wf_dueBlock hs ..

@[simp] theorem wf_curvActions (i : Nat) (c : W64) (forced : Bool) : Memory.wf (s.curvActions i c forced).mem = true := by
  unfold State.curvActions
  split
  · have h := wf_of_mem (State.checkLayers_mem _ i) (wf_restateLayers hs i)
    exact wf_of_mem (State.keepLayers_mem ..) (wf_dueBlocks (wf_foldLayers (wf_activateRoots h ..) ..) ..)
  · exact hs

@[simp] theorem wf_rootDispatch (i : Nat) : Memory.wf (rootDispatch i s).mem = true := by
  simp only [rootDispatch]
  repeat' split
  all_goals simp [hs, wf_write]

omit hs in
/-- The distance `d` to a root's target is held as a function: the kernel would otherwise count to 2^32. -/
theorem keepsWf_clearRoot (i : Nat) (d : State → Nat × Nat → Nat) :
    KeepsWf fun s e => if 0 < d s e ∧ d s e ≤ 65535 then s.wr ((s.layer i e.1).recAt e.2 + 0xC) 1 0 else s := by
  intro s e hs
  dsimp only
  split
  · exact wf_wr _ _ _ _ hs
  · exact hs

@[simp] theorem wf_resetRoots (i : Nat) : Memory.wf (s.resetRoots i).mem = true :=
  wf_of_mem (State.setInst_mem ..) (wf_forEach hs _ _ (keepsWf_clearRoot i fun t e =>
    ((t.rootRec (t.layer i e.1) e.2).target + 2 ^ 32 - (s.reg (R.updCommits i)).toNat % 2 ^ 32) % 2 ^ 32))

/-! ### Host commands -/

@[simp] theorem wf_refuseWork (c : Cmd) (e : Nat × Option Nat) : Memory.wf (s.refuseWork c e).mem = true := by
  unfold State.refuseWork
  split <;> simp [hs]

@[simp] theorem wf_copy (q : Nat) : Memory.wf (copy q s).mem = true := by
  simp only [copy]
  repeat' split
  all_goals simp [hs]

@[simp] theorem wf_collective (q : Nat) : Memory.wf (collective q s).mem = true := by
  simp only [collective]
  repeat' split
  all_goals simp [hs]

theorem wf_signalCmd (q : Nat) (p : Nat → Bool) (go : State → Cmd → State)
    (hgo : ∀ s c, Memory.wf s.mem = true → Memory.wf (go s c).mem = true) : Memory.wf (signalCmd q p go s).mem = true := by
  unfold signalCmd
  split
  · exact hs
  · next c _ =>
    have h : Memory.wf (s.startCmd c).mem = true := wf_of_mem (State.startCmd_mem ..) hs
    dsimp only
    split
    · exact wf_of_mem (State.complete_mem ..) h
    · split
      · exact wf_of_mem (State.complete_mem ..) h
      · exact wf_of_mem (State.complete_mem ..) (hgo _ _ h)

@[simp] theorem wf_signalFlagSet (q : Nat) : Memory.wf (signalFlagSet q s).mem = true :=
  wf_signalCmd hs _ _ _ fun _ _ h => wf_putFlag h ..

@[simp] theorem wf_signalFlagClear (q : Nat) : Memory.wf (signalFlagClear q s).mem = true :=
    wf_signalCmd hs _ _ _ fun _ _ h => wf_putFlag h ..

@[simp] theorem wf_destWrite (c : Cmd) (at_ : Nat) (b : List Byte) (result : W64) :
    Memory.wf (s.destWrite c at_ b result).mem = true := by
  unfold State.destWrite
  split <;> simp [hs, wf_write]

@[simp] theorem wf_counterSnap (q : Nat) : Memory.wf (counterSnap q s).mem = true := by
  simp only [counterSnap]
  repeat' split
  all_goals simp [hs]

@[simp] theorem wf_exportShardComplete (i : Nat) : Memory.wf (exportShardComplete i s).mem = true := by
  simp only [exportShardComplete]
  repeat' split
  all_goals simp [hs]

/-! ### Checkpoints -/

@[simp] theorem wf_ckptReadBlock : Memory.wf s.ckptReadBlock.mem = true := by
  simp only [State.ckptReadBlock]
  repeat' split
  all_goals simp [hs, wf_write]

@[simp] theorem wf_ckptBegin : Memory.wf (ckptBegin s).mem = true := by
  unfold ckptBegin
  split
  · exact hs
  · next h => exact wf_of_mem (Taken.mem_of_dropped (State.takeCkpt_mem ..) h) hs
  · next h =>
    replace hs := wf_of_mem (Taken.mem_of_got (State.takeCkpt_mem ..) h) hs
    dsimp only
    repeat' split
    all_goals simp [hs, wf_write]

@[simp] theorem wf_ckptBlock : Memory.wf (ckptBlock s).mem = true := by
  unfold ckptBlock
  split
  · exact hs
  · next h => exact wf_of_mem (Taken.mem_of_dropped (State.takeCkpt_mem ..) h) hs
  · next h =>
    replace hs := wf_of_mem (Taken.mem_of_got (State.takeCkpt_mem ..) h) hs
    split
    · exact hs
    · split
      · exact hs
      · exact wf_forEach hs _ _ fun s r hs => wf_write s _ _ hs

@[simp] theorem wf_ckptDigests : Memory.wf (ckptDigests s).mem = true := by
  unfold ckptDigests
  split
  · exact hs
  · next h => exact wf_of_mem (Taken.mem_of_dropped (State.takeCkpt_mem ..) h) hs
  · next h =>
    replace hs := wf_of_mem (Taken.mem_of_got (State.takeCkpt_mem ..) h) hs
    repeat' split
    all_goals simp [hs, wf_write]

@[simp] theorem wf_ckptEnd : Memory.wf (ckptEnd s).mem = true := by
  unfold ckptEnd
  split
  · exact hs
  · next h => exact wf_of_mem (Taken.mem_of_dropped (State.takeCkpt_mem ..) h) hs
  · next h =>
    replace hs := wf_of_mem (Taken.mem_of_got (State.takeCkpt_mem ..) h) hs
    split
    · exact hs
    · next c _ =>
      split
      · exact hs
      · extract_lets a s₁ x s₂ good s₃
        have h₂ : Memory.wf s₂.mem = true :=
          wf_of_mem (State.setCkpt_mem ..) (wf_forEach hs _ _ fun s b hs => wf_write s _ _ hs)
        split
        · exact wf_of_mem ((State.ckptSend_mem ..).trans (State.setReg_mem ..)) (wf_write _ _ _ h₂)
        · exact wf_of_mem (State.ckptSend_mem ..) h₂

@[simp] theorem wf_checkpointDrainComplete : Memory.wf (checkpointDrainComplete s).mem = true := by
  simp only [checkpointDrainComplete]
  repeat' split
  all_goals simp [hs, wf_write]

theorem wf_putBlock (l : List (Nat × Nat)) (b : Nat) (x : List Byte) : Memory.wf (s.putBlock l b x).mem = true := by
  induction l generalizing b with
  | nil => exact hs
  | cons r t ih => exact wf_ite (wf_write _ _ _ hs) (ih _)

@[simp] theorem wf_restoreData : Memory.wf (restoreData s).mem = true := by
  unfold restoreData
  split
  · exact hs
  · next h => exact wf_of_mem (Taken.mem_of_dropped (State.takeCkpt_mem ..) h) hs
  · next h =>
    replace hs := wf_of_mem (Taken.mem_of_got (State.takeCkpt_mem ..) h) hs
    split
    · exact hs
    · split
      · exact hs
      · extract_lets off d r₁ head r₂
        clear_value r₂ head
        dsimp only
        split
        · exact wf_ite (wf_of_mem ((State.complete_mem ..).trans (State.setCkpt_mem ..)) (wf_of_mem (State.setCkpt_mem ..) hs))
            (wf_of_mem (State.setCkpt_mem ..) hs)
        · exact wf_ite (wf_of_mem (State.setCkpt_mem ..) hs)
            (wf_forEach (wf_of_mem (State.setCkpt_mem ..) hs) _ _ fun s b hs => wf_putBlock hs ..)

@[simp] theorem wf_restoreDone (r : Restore) (h : CkptHead) : Memory.wf (s.restoreDone r h).mem = true := by
  unfold State.restoreDone
  extract_lets i s₁ s₂ s₃ x s₄ s₅
  have h₁ : Memory.wf s₁.mem = true := by
    refine wf_forEach hs _ _ fun s n hs => ?_
    exact wf_ite (wf_setShardBit (wf_ite (wf_setShardBit hs ..) hs) ..) (wf_ite (wf_setShardBit hs ..) hs)
  have h₃ : Memory.wf s₃.mem = true := by
    unfold s₃ s₂
    rwa [State.setBit_mem, State.setFld_mem, State.setFld_mem, State.setReg_mem, State.setReg_mem]
  have h₄ : Memory.wf s₄.mem = true := wf_of_mem (State.setInst_mem ..) h₃
  have h₅ : Memory.wf s₅.mem = true :=
    wf_ite (wf_forEach h₄ _ _ fun s l hs => wf_wr _ _ _ _ (wf_wr _ _ _ _ hs)) h₄
  exact wf_of_mem ((State.completeWith_mem ..).trans (State.setCkpt_mem ..)) h₅

@[simp] theorem wf_restoreComplete : Memory.wf (restoreComplete s).mem = true := by
  unfold restoreComplete
  split
  · exact hs
  · split
    · exact hs
    · split
      · exact wf_of_mem (State.restoreLost_mem ..) hs
      · extract_lets i x n places s₁
        have h₁ : Memory.wf s₁.mem = true := wf_ite (wf_forEach hs _ _ fun s b hs => wf_putBlock hs ..) hs
        split
        · exact wf_of_mem ((State.complete_mem ..).trans (State.setCkpt_mem ..)) hs
        · split
          · exact wf_of_mem (State.restoreLost_mem ..) h₁
          · split
            · exact wf_of_mem (State.restoreLost_mem ..) h₁
            · exact wf_restoreDone h₁ ..

end

end Sys2Proof.Machine
end

section
/-! PROOFS. Replays, commits and solves keep the canonical form of memory. -/

namespace Sys2Proof.Machine

section
variable {s : State} (hs : Memory.wf s.mem = true)
include hs

/-! ### Remote writes -/

@[simp] theorem wf_remoteBad (i : Nat) (m : Message) (w : Nat) : Memory.wf (s.remoteBad i m w).mem = true := by simp [State.remoteBad, hs]

@[simp] theorem wf_xferWrite : Memory.wf (xferWrite s).mem = true := by
  unfold xferWrite
  split
  · exact hs
  · next h => exact wf_of_mem (Taken.mem_of_dropped (State.take_mem ..) h) hs
  · next h =>
    replace hs := wf_of_mem (Taken.mem_of_got (State.take_mem ..) h) hs
    dsimp only
    repeat' split
    all_goals simp [hs, wf_write]

@[simp] theorem wf_xferReadReq : Memory.wf (xferReadReq s).mem = true := by
  unfold xferReadReq
  split
  · exact hs
  · next h => exact wf_of_mem (Taken.mem_of_dropped (State.take_mem ..) h) hs
  · next h =>
    replace hs := wf_of_mem (Taken.mem_of_got (State.take_mem ..) h) hs
    dsimp only
    repeat' split
    all_goals simp [hs]

@[simp] theorem wf_xferReadData : Memory.wf (xferReadData s).mem = true := by
  unfold xferReadData
  split
  · exact hs
  · next h => exact wf_of_mem (Taken.mem_of_dropped (State.take_mem ..) h) hs
  · next h =>
    replace hs := wf_of_mem (Taken.mem_of_got (State.take_mem ..) h) hs
    dsimp only
    repeat' split
    all_goals simp [hs]

@[simp] theorem wf_refusedMsg : Memory.wf (refusedMsg s).mem = true := by
  unfold refusedMsg
  split
  · exact hs
  · next h => exact wf_of_mem (Taken.mem_of_dropped (State.take_mem ..) h) hs
  · next h =>
    replace hs := wf_of_mem (Taken.mem_of_got (State.take_mem ..) h) hs
    dsimp only
    repeat' split
    all_goals simp [hs]

/-! ### Replay and comparison -/

@[simp] theorem wf_cmpBad (i bit : Nat) : Memory.wf (s.cmpBad i bit).mem = true := by
  simp only [State.cmpBad]
  repeat' split
  all_goals simp [hs]

@[simp] theorem wf_cmpOutcome (i : Nat) (c own : W64) (l : List (Nat × W64)) :
    Memory.wf (s.cmpOutcome i c own l).mem = true := by
  simp only [State.cmpOutcome]
  repeat' split
  all_goals simp [hs]

omit hs in
theorem wf_cmpStep (hs : Memory.wf s.mem = true) (i n : Nat) : Memory.wf (s.cmpStep i n).mem = true := by
  induction n generalizing s with
  | zero => exact hs
  | succ n ih =>
    unfold State.cmpStep
    dsimp only
    split
    · split
      · exact hs
      · exact ih (wf_cmpOutcome (by exact hs) ..)
    · split
      · exact hs
      · exact ih (by exact hs)

@[simp] theorem wf_cmpRun (i : Nat) : Memory.wf (s.cmpRun i).mem = true := wf_cmpStep hs ..

@[simp] theorem wf_cmpCommit (i : Nat) (c : W64) : Memory.wf (s.cmpCommit i c).mem = true := by
  simp only [State.cmpCommit]
  repeat' split
  all_goals simp [hs]

@[simp] theorem wf_replayDigest : Memory.wf (replayDigest s).mem = true := by
  unfold replayDigest
  split
  · exact hs
  · next h => exact wf_of_mem (Taken.mem_of_dropped (State.takeReplay_mem ..) h) hs
  · next h =>
    replace hs := wf_of_mem (Taken.mem_of_got (State.takeReplay_mem ..) h) hs
    dsimp only
    repeat' split
    all_goals simp [hs]

@[simp] theorem wf_digestCompareTimeout (i : Nat) : Memory.wf (digestCompareTimeout i s).mem = true := by
  simp only [digestCompareTimeout]
  repeat' split
  all_goals simp [hs]

@[simp] theorem wf_replayStore (i : Nat) (m : Message) : Memory.wf (s.replayStore i m).1.mem = true := by
  simp only [State.replayStore]
  repeat' split
  all_goals simp [hs, wf_write]

@[simp] theorem wf_replayInput : Memory.wf (replayInput s).mem = true := by
  unfold replayInput
  split
  · exact hs
  · next h => exact wf_of_mem (Taken.mem_of_dropped (State.takeReplay_mem ..) h) hs
  · next h =>
    replace hs := wf_of_mem (Taken.mem_of_got (State.takeReplay_mem ..) h) hs
    dsimp only
    repeat' split
    all_goals simp [hs]

@[simp] theorem wf_replayResult : Memory.wf (replayResult s).mem = true := by
  unfold replayResult
  split
  · exact hs
  · next h => exact wf_of_mem (Taken.mem_of_dropped (State.takeReplay_mem ..) h) hs
  · next h =>
    replace hs := wf_of_mem (Taken.mem_of_got (State.takeReplay_mem ..) h) hs
    dsimp only
    split <;> simp [hs]

/-! ### The commit gate -/

@[simp] theorem wf_resFlag (i : Nat) (v : Bool) : Memory.wf (s.resFlag i v).mem = true := by
  simp only [State.resFlag]
  repeat' split
  all_goals simp [hs]

@[simp] theorem wf_setScale (i : Nat) (e : Int) (clean : Nat) : Memory.wf (s.setScale i e clean).mem = true := by
  simp only [State.setScale]
  repeat' split
  all_goals simp [hs, wf_wr]

@[simp] theorem wf_scaleCommit (i : Nat) : Memory.wf (s.scaleCommit i).mem = true := by
  simp only [State.scaleCommit]
  repeat' split
  all_goals simp [hs]

@[simp] theorem wf_scaleSkip (i code : Nat) : Memory.wf (s.scaleSkip i code).mem = true := by
  unfold State.scaleSkip
  split <;> simp [hs]

@[simp] theorem wf_actOnTaint (i : Nat) : Memory.wf (s.actOnTaint i).mem = true := by
  unfold State.actOnTaint
  split <;> simp [hs]

@[simp] theorem wf_resolveSkip (i : Nat) : Memory.wf (s.resolveSkip i).mem = true := by
  unfold State.resolveSkip
  extract_lets g s₁ s₂ s₃
  have h₁ : s₁.mem = s.mem := by
    unfold s₁
    split
    · rw [State.raise_mem, State.gateEvent_mem]
    · rfl
  have h₂ : Memory.wf s₂.mem = true := wf_scaleSkip (wf_of_mem ((State.incReg_mem ..).trans h₁) hs) ..
  have h₃ : Memory.wf s₃.mem = true := by
    unfold s₃
    rwa [State.nextStep_mem, State.clearProv_mem, State.setReg_mem]
  exact wf_actOnTaint (wf_of_mem (State.completeCommit_mem ..) (wf_resFlag h₃ ..)) ..

@[simp] theorem wf_enterReplay (i : Nat) : Memory.wf (s.enterReplay i).mem = true := by
  simp only [State.enterReplay]
  repeat' split
  all_goals simp [hs]

@[simp] theorem wf_afterUndo (i : Nat) : Memory.wf (s.afterUndo i).mem = true := by
  simp only [State.afterUndo]
  repeat' split
  all_goals simp [hs]

@[simp] theorem wf_undoComplete (i : Nat) : Memory.wf (undoComplete i s).mem = true := by
  simp only [undoComplete]
  repeat' split
  all_goals simp [hs]

@[simp] theorem wf_stepCommit (q : Nat) : Memory.wf (stepCommit q s).mem = true := by
  simp only [stepCommit]
  repeat' split
  all_goals simp [hs]

@[simp] theorem wf_decideStep (i : Nat) (nf fail ckpt : Bool) (at_ : W64) :
    Memory.wf (s.decideStep i nf fail ckpt at_).mem = true := by
  simp only [State.decideStep]
  repeat' split
  all_goals simp [hs]

@[simp] theorem wf_downVerdict (i : Nat) (nf fail ckpt : Bool) (at_ : W64) :
    Memory.wf (s.downVerdict i nf fail ckpt at_).mem = true := by simp [State.downVerdict, hs]

@[simp] theorem wf_forwardVerdict (i : Nat) : Memory.wf (s.forwardVerdict i).mem = true := by
  simp only [State.forwardVerdict]
  repeat' split
  all_goals simp [hs]

@[simp] theorem wf_verdictSend (i : Nat) : Memory.wf (verdictSend i s).mem = true := by
  simp only [verdictSend]
  repeat' split
  all_goals simp [hs]

@[simp] theorem wf_verdict : Memory.wf (verdict s).mem = true := by
  unfold verdict
  split
  · exact hs
  · next h => exact wf_of_mem (Taken.mem_of_dropped (State.take_mem ..) h) hs
  · next h =>
    replace hs := wf_of_mem (Taken.mem_of_got (State.take_mem ..) h) hs
    dsimp only
    repeat' split
    all_goals simp [hs]

@[simp] theorem wf_clove : Memory.wf (clove s).mem = true := by
  unfold clove
  split
  · exact hs
  · next h => exact wf_of_mem (Taken.mem_of_dropped (State.take_mem ..) h) hs
  · next h =>
    replace hs := wf_of_mem (Taken.mem_of_got (State.take_mem ..) h) hs
    dsimp only
    repeat' split
    all_goals simp [hs]

@[simp] theorem wf_gateTimeout (i : Nat) : Memory.wf (gateTimeout i s).mem = true := by
  simp only [gateTimeout]
  repeat' split
  all_goals simp [hs]

@[simp] theorem wf_toggleShards (i : Nat) : Memory.wf (s.toggleShards i).mem = true := by
  refine wf_newestIsActive (wf_forEach hs _ _ fun s n hs => ?_) i
  exact wf_setShardBit (wf_setShardBit hs ..) ..

@[simp] theorem wf_applyCommit (i : Nat) (at_ : W64) (forced : Bool) : Memory.wf (s.applyCommit i at_ forced).mem = true := by
  unfold State.applyCommit
  extract_lets g0 step late s₁ c s₂ g code s₃ s₄ s₅ s₆ s₇
  have h₂ : Memory.wf s₂.mem = true :=
    wf_scaleCommit (wf_curvActions (wf_of_mem (State.countCommit_mem ..) (wf_toggleShards hs i)) ..) i
  have h₃ : s₃.mem = s₂.mem := by
    unfold s₃
    split
    · rw [State.raise_mem, State.gateEvent_mem]
    · rfl
  have h₅ : s₅.mem = s₃.mem := by
    unfold s₅
    split
    · rw [State.auditStep_mem, State.nextStep_mem]
    · exact State.nextStep_mem ..
  have h₆ : s₆.mem = s₅.mem := by
    unfold s₆
    split
    · exact State.ckptStart_mem ..
    · rfl
  have h₇ : Memory.wf s₇.mem = true :=
    wf_of_mem (State.completeCommit_mem ..) (wf_resFlag (wf_of_mem (h₆.trans (h₅.trans h₃)) h₂) i true)
  exact wf_actOnTaint (wf_cmpCommit h₇ ..) i

@[simp] theorem wf_tryCommit (i : Nat) (forced : Bool) : Memory.wf (s.tryCommit i forced).mem = true := by
  simp only [State.tryCommit]
  repeat' split
  all_goals simp [hs]

@[simp] theorem wf_commitApply (i : Nat) : Memory.wf (commitApply i s).mem = true := by simp [commitApply, hs]

@[simp] theorem wf_commitHoldRelease (i : Nat) : Memory.wf (commitHoldRelease i s).mem = true := by
  unfold commitHoldRelease
  split <;> simp [hs]

@[simp] theorem wf_rootLateTimeout (i : Nat) : Memory.wf (rootLateTimeout i s).mem = true := by
  unfold rootLateTimeout
  repeat' split
  all_goals simp [hs]

@[simp] theorem wf_ckptSourceBlockRead : Memory.wf (ckptSourceBlockRead s).mem = true := by
  simp only [ckptSourceBlockRead]
  repeat' split
  all_goals simp [hs]

@[simp] theorem wf_stateDigestShardDone (i : Nat) : Memory.wf (stateDigestShardDone i s).mem = true := by
  simp only [stateDigestShardDone]
  repeat' split
  all_goals simp [hs]

/-! ### Solves -/

@[simp] theorem wf_startSolve (i : Nat) (r : SolveRec) : Memory.wf (s.startSolve i r).mem = true := by
  refine wf_forEach (wf_write _ _ _ ?_) _ _ fun s j hs => wf_wr _ _ _ _ hs
  split
  · split
    · exact wf_of_mem ((forEach_mem _ _ _ fun s p => State.beginLoad_mem ..).trans (State.noteImage_mem ..)) hs
    · exact hs
  · exact hs

@[simp] theorem wf_solveStart (i : Nat) : Memory.wf (solveStart i s).mem = true := by
  simp only [solveStart]
  repeat' split
  all_goals simp [hs]

@[simp] theorem wf_closeSolve (i : Nat) (r : SolveRec) : Memory.wf (s.closeSolve i r).mem = true := by
  simp only [State.closeSolve]
  repeat' split
  all_goals simp [hs, wf_write]

@[simp] theorem wf_solveResultPost (i tag : Nat) : Memory.wf (solveResultPost i tag s).mem = true := by
  simp only [solveResultPost]
  repeat' split
  all_goals simp [hs]

@[simp] theorem wf_doSolve (c : Cmd) (x : Image) : Memory.wf (s.doSolve c x).mem = true := by
  simp only [State.doSolve]
  repeat' split
  all_goals simp [hs, wf_write]

@[simp] theorem wf_solve (q : Nat) : Memory.wf (solve q s).mem = true := by
  simp only [solve]
  repeat' split
  all_goals simp [hs]

@[simp] theorem wf_supernodeBoundaryEnd (k : Nat) : Memory.wf (supernodeBoundaryEnd k s).mem = true := by
  unfold supernodeBoundaryEnd
  dsimp only
  split
  · split
    · exact wf_fault hs ..
    · next hu => exact wf_of_mem ((State.setSt_mem ..).trans (State.setCore_mem ..)) (wf_drainTap hs hu)
  · exact hs

end

end Sys2Proof.Machine
end

section
/-! PROOFS. Error queues, instances, power and register writes keep the canonical form of memory. -/

namespace Sys2Proof.Machine

section
variable {s : State} (hs : Memory.wf s.mem = true)
include hs

/-! ### Error queues -/

@[simp] theorem wf_eqWrite (k : Nat) (r : ErrRec) : Memory.wf (s.eqWrite k r).mem = true := by
  simp only [State.eqWrite]
  repeat' split
  all_goals simp [hs, wf_write]

@[simp] theorem wf_eqNext (k : Nat) : Memory.wf (s.eqNext k).mem = true := by
  simp only [State.eqNext]
  repeat' split
  all_goals simp [hs]

@[simp] theorem wf_eqFlush (k : Nat) : Memory.wf (s.eqFlush k).mem = true := wf_forEach hs _ _ fun _ _ hs => wf_eqNext hs k

@[simp] theorem wf_toQueue (k : Nat) (r : ErrRec) : Memory.wf (s.toQueue k r).mem = true := by
  simp only [State.toQueue]
  repeat' split
  all_goals simp [hs]

@[simp] theorem wf_errorRecordWrite : Memory.wf (errorRecordWrite s).mem = true := by
  unfold errorRecordWrite
  split
  · exact wf_forEach hs _ _ fun s k hs => wf_eqFlush hs k
  · dsimp only
    split <;> simp [hs]

/-! ### Instances -/

@[simp] theorem wf_clearSync (i : Nat) : Memory.wf (s.clearSync i).mem = true := by
  refine wf_forEach (wf_of_mem ((forEach_mem _ _ _ fun s n => s.setBar_mem _ _ _).trans
    (forEach_mem _ s _ fun s cl => s.setCluster_mem _ _)) hs) _ _ fun s n hs => wf_setFlag hs ..

@[simp] theorem wf_loadSync (i : Nat) : Memory.wf (s.loadSync i).mem = true := by
  refine wf_forEach (wf_of_mem ((forEach_mem _ _ _ fun s n => s.setBar_mem _ _ _).trans
    (forEach_mem _ s _ fun s p => forEach_mem _ s _ fun s k => s.setCnt_mem _ _ _)) hs) _ _ fun s n hs => wf_setFlag hs ..

@[simp] theorem wf_opActivate (i : Nat) (restore : Bool) : Memory.wf (s.opActivate i restore).mem = true := by
  unfold State.opActivate
  repeat' split
  all_goals simp [hs]

@[simp] theorem wf_activate (fn i : Nat) (restore : Bool) : Memory.wf (activate fn i restore s).mem = true := by
  unfold activate
  split <;> simp [hs]

@[simp] theorem wf_quiesceComplete (i : Nat) : Memory.wf (quiesceComplete i s).mem = true := by
  simp only [quiesceComplete]
  repeat' split
  all_goals simp [hs]

@[simp] theorem wf_abortCmd (c : Cmd) : Memory.wf (s.abortCmd c).mem = true := by
  unfold State.abortCmd
  repeat' split
  all_goals simp [hs]

@[simp] theorem wf_abortCmds (i : Nat) : Memory.wf (s.abortCmds i).mem = true := by
  refine wf_of_mem (State.setInst_mem ..) (wf_forEach (wf_forEach hs _ _ fun s q hs => ?_) _ _ fun s c hs => wf_abortCmd hs c)
  exact wf_of_mem ((forEach_mem _ _ _ fun s _ => s.stale_mem i).trans (State.setQueue_mem ..)) hs

@[simp] theorem wf_beginReset (i : Nat) (keep : Bool) : Memory.wf (s.beginReset i keep).mem = true := by
  unfold State.beginReset
  rw [State.beginWindow_mem, State.setReg_mem, State.setErrQ_mem, State.setInst_mem, State.resetPages_mem,
    forEach_mem _ _ _ fun s k => s.resetCore_mem i k, forEach_mem _ _ _ fun s q => s.setBit_mem _ _ _, State.setReg_mem,
    State.resetCkpt_mem]
  exact wf_resetRoots (wf_abortCmds hs i) i

@[simp] theorem wf_opReset (i : Nat) (keep : Bool) : Memory.wf (s.opReset i keep).mem = true := by
  unfold State.opReset
  split <;> simp [hs]

@[simp] theorem wf_instanceReset (fn i : Nat) (keep : Bool) : Memory.wf (instanceReset fn i keep s).mem = true := by
  unfold instanceReset
  split <;> simp [hs]

@[simp] theorem wf_functionLevelReset (fn : Nat) : Memory.wf (functionLevelReset fn s).mem = true := by
  refine wf_forEach hs _ _ fun s i hs => ?_
  split
  · exact wf_beginReset hs ..
  · exact wf_beginReset hs ..
  · exact wf_beginReset hs ..
  · exact hs

@[simp] theorem wf_resetComplete (i : Nat) : Memory.wf (resetComplete i s).mem = true := by
  unfold resetComplete
  dsimp only
  split
  · exact hs
  · split <;> simp [hs]

@[simp] theorem wf_opRelease (i : Nat) : Memory.wf (s.opRelease i).mem = true := by
  unfold State.opRelease
  split
  · simp [hs]
  · have h := wf_forEach hs (s.clustersOf i)
      (fun s cl => (s.zeroRange (spBase (256 * cl)) (256 * 2 ^ 16)).zeroRange (cbBase cl) (2 ^ 22))
      fun s cl hs => wf_zeroRange _ _ _ (wf_zeroRange _ _ _ hs)
    simpa using h

@[simp] theorem wf_release (fn i : Nat) : Memory.wf (release fn i s).mem = true := by
  unfold release
  split <;> simp [hs]

@[simp] theorem wf_instCtrlWrite (i : Nat) (v : W32) : Memory.wf (s.instCtrlWrite i v).mem = true := by
  unfold State.instCtrlWrite
  split <;> simp [hs]

/-! ### Power -/

@[simp] theorem wf_deviceClear (keep : Bool) : Memory.wf (s.deviceClear keep).mem = true := by
  unfold State.deviceClear
  refine wf_keptMem keep _ ?_
  split
  · exact wf_of_mem ((forEach_mem _ _ _ fun s e => s.setReg_mem _ _).trans (forEach_mem _ s _ fun s b => s.dropBuffer_mem b)) hs
  · exact hs

@[simp] theorem wf_restartFrom4 (warm keep : Bool) : Memory.wf (s.restartFrom4 warm keep).mem = true := by simp [State.restartFrom4, hs]

@[simp] theorem wf_warmReset (keep : Bool) : Memory.wf (s.warmReset keep).mem = true := by
  unfold State.warmReset
  split <;> simp [hs]

@[simp] theorem wf_mcWarmResetRequest (keepHbm : Bool) : Memory.wf (mcWarmResetRequest keepHbm s).mem = true := by
  simp only [mcWarmResetRequest]
  repeat' split
  all_goals simp [hs]

@[simp] theorem wf_regulatorsStop : Memory.wf s.regulatorsStop.mem = true := by
  unfold State.regulatorsStop
  split <;> simp [hs]

@[simp] theorem wf_trip (n : Nat) : Memory.wf (s.trip n).mem = true := by simp [State.trip, hs]

@[simp] theorem wf_mainInputTrip (standby : Bool) : Memory.wf (mainInputTrip standby s).mem = true := by
  unfold mainInputTrip
  split <;> simp [hs]

@[simp] theorem wf_meteringReadyLoss : Memory.wf (meteringReadyLoss s).mem = true := by simp [meteringReadyLoss, hs]

@[simp] theorem wf_powerCycle : Memory.wf (powerCycle s).mem = true := by
  simp only [powerCycle]
  repeat' split
  all_goals simp [hs]

@[simp] theorem wf_standbyPowerFall : Memory.wf (standbyPowerFall s).mem = true := by
  unfold standbyPowerFall
  split <;> simp [hs]

@[simp] theorem wf_startupStepTimeout : Memory.wf (startupStepTimeout s).mem = true := by
  unfold startupStepTimeout
  dsimp only
  split
  · exact hs
  · split
    · exact wf_of_mem (State.stepFails_mem ..) hs
    · exact wf_of_mem (State.bootFails_mem ..) hs
    · exact wf_ite (wf_of_mem (State.stepFails_mem ..) (wf_trip hs 3)) hs
    · exact wf_of_mem (State.stepFails_mem ..) hs
    · exact wf_of_mem (State.stepFails_mem ..) hs
    · exact wf_of_mem (State.stepFails_mem ..) hs
    · exact wf_ite hs (wf_of_mem ((State.toStep_mem ..).trans (State.stepFails_mem ..)) hs)
    · refine wf_of_mem ((State.toStep_mem ..).trans ((State.stepFails_mem ..).trans (forEach_mem _ _ _ fun s n => ?_))) hs
      split
      · exact s.portFail_mem n
      · rfl
    · exact wf_of_mem (State.stepFails_mem ..) hs

@[simp] theorem wf_powerSample (watts volts : Nat) : Memory.wf (powerSample watts volts s).mem = true := by
  simp only [powerSample]
  repeat' split
  all_goals simp [hs]

@[simp] theorem wf_thermalShutdown (tj : Nat) : Memory.wf (thermalShutdown tj s).mem = true := by
  unfold thermalShutdown
  split <;> simp [hs]

/-! ### Register writes -/

@[simp] theorem wf_writeErrPage (fn off : Nat) (v : W64) : Memory.wf (s.writeErrPage fn off v).mem = true := by
  simp only [State.writeErrPage]
  repeat' split
  all_goals simp [hs]

@[simp] theorem wf_writeErr (fn off : Nat) (v : W64) : Memory.wf (s.writeErr fn off v).mem = true := by
  unfold State.writeErr
  repeat' split
  all_goals simp [hs]

@[simp] theorem wf_writeDbg (fn i off : Nat) (v : W64) : Memory.wf (s.writeDbg fn i off v).mem = true := by
  unfold State.writeDbg
  repeat' split
  all_goals simp [hs]

@[simp] theorem wf_writeInst (fn off : Nat) (v : W64) : Memory.wf (s.writeInst fn off v).mem = true := by
  simp only [State.writeInst]
  repeat' split
  all_goals simp [hs]

@[simp] theorem wf_writeReg (fn off : Nat) (v : W64) : Memory.wf (s.writeReg fn off v).mem = true := by
  simp only [State.writeReg]
  repeat' split
  all_goals simp [hs]

@[simp] theorem wf_writePage (fn o : Nat) (v : W32) : Memory.wf (s.writePage fn o v).mem = true := by
  unfold State.writePage
  split <;> simp [hs]

@[simp] theorem wf_writeOther (fn off : Nat) (v : W32) : Memory.wf (s.writeOther fn off v).mem = true := by
  simp only [State.writeOther]
  repeat' split
  all_goals simp [hs]

@[simp] theorem wf_writeLow (fn off : Nat) (v : W32) : Memory.wf (s.writeLow fn off v).mem = true := by
  unfold State.writeLow
  split <;> simp [hs]

@[simp] theorem wf_writeHigh (fn off : Nat) (v : W32) : Memory.wf (s.writeHigh fn off v).mem = true := by
  unfold State.writeHigh
  split <;> simp [hs]

@[simp] theorem wf_write32 (fn p : Nat) (v : W32) : Memory.wf (s.write32 fn p v).mem = true := by
  unfold State.write32
  split <;> simp [hs]

@[simp] theorem wf_lowerHalfWrite (fn off : Nat) (v : W32) : Memory.wf (lowerHalfWrite fn off v s).mem = true := by
  unfold lowerHalfWrite
  repeat' split
  all_goals simp [hs]

@[simp] theorem wf_upperHalfWrite (fn off : Nat) (v : W32) : Memory.wf (upperHalfWrite fn off v s).mem = true := by
  unfold upperHalfWrite
  repeat' split
  all_goals simp [hs]

@[simp] theorem wf_writeWide (fn off : Nat) (v : W64) : Memory.wf (s.writeWide fn off v).mem = true := by
  unfold State.writeWide
  split <;> simp [hs]

@[simp] theorem wf_registerWrite (fn off : Nat) (wide : Bool) (v : W64) :
    Memory.wf (registerWrite fn off wide v s).mem = true := by
  unfold registerWrite
  repeat' split
  all_goals simp [hs]

@[simp] theorem wf_bar4Write (fn addr : Nat) (data : List Byte) : Memory.wf (bar4Write fn addr data s).mem = true := by
  simp only [bar4Write]
  repeat' split
  all_goals simp [hs, wf_write]

end

end Sys2Proof.Machine
end

section
/-! PROOFS. The acts of the core instructions keep the canonical form of memory. -/

namespace Sys2Proof.Machine

section
variable {s : State} (hs : Memory.wf s.mem = true)
include hs

theorem wf_loadAt (k a n : Nat) (go : State → Nat → Act) (hgo : ∀ t p, Memory.wf t.mem = true → (go t p).Wf) (tag : Tag) :
    (loadAt k a n go tag s).Wf := by
  unfold loadAt
  split
  · trivial
  · split
    · trivial
    · split
      · trivial
      · next hu => exact hgo _ _ (wf_settleTap hs hu)

theorem wf_doLdw (k : Nat) (g : GReg) (an : AReg) (off : W32) (tag : Tag) : (doLdw k g an off tag s).Wf := by
  unfold doLdw
  refine wf_loadAt hs _ _ _ _ (fun t p h => ?_) tag
  exact h

theorem wf_doVld (k : Nat) (vd : VReg) (an : AReg) (m : MReg) (off : W16) (tag : Tag) : (doVld k vd an m off tag s).Wf := by
  unfold doVld
  refine wf_loadAt hs _ _ _ _ (fun t p h => ?_) tag
  exact h

theorem wf_storeAt (k a : Nat) (f : Core → List Byte) (tag : Tag) : (storeAt k a f tag s).Wf := by
  unfold storeAt
  extract_lets bs
  split
  · trivial
  · split
    · trivial
    · split
      · trivial
      · next hu => exact wf_write _ _ _ (wf_settleTap hs hu)

theorem wf_doTmov (k : Nat) (tdst tsrc : TReg) (wm : Nat) (gsc : GReg) (tag : Tag) : (doTmov k tdst tsrc wm gsc tag s).Wf := by
  unfold doTmov
  extract_lets c ts td acc scale vs vd mixes
  split
  · trivial
  · split
    · trivial
    · trivial
    · trivial
    · split
      · trivial
      · next hu => exact wf_forEach (wf_settleTap hs hu) _ _ fun s x hs => wf_putElem hs ..
  · trivial

theorem wf_doTfill (k : Nat) (tdst : TReg) (gsc : GReg) (tag : Tag) : (doTfill k tdst gsc tag s).Wf := by
  unfold doTfill
  extract_lets c td vd
  split
  · trivial
  · split
    · trivial
    · split
      · trivial
      · next hu => exact wf_forEach (wf_settleTap hs hu) _ _ fun s x hs => wf_putElem hs ..
  · trivial

theorem wf_doMma (k ac : Nat) (kind : PassKind) (ta tb tc : TReg) (n : Nat) (g : Bool) (tag : Tag) :
    (doMma k ac kind ta tb tc n g tag s).Wf := by
  unfold doMma
  extract_lets c full
  split
  · trivial
  · split
    · trivial
    · split
      · split
        · exact wf_makeRoom hs k
        · trivial
      · split
        · trivial
        · split
          · trivial
          · split
            · exact wf_makeRoom hs k
            · split
              · trivial
              · next hu =>
                have h := wf_applyMma hs hu
                exact wf_ite h (wf_of_mem ((State.capture_mem ..).trans (State.note_mem ..)) h)

theorem wf_doOut (k ac : Nat) (ta tb : TReg) (tc : Option TReg) (rnd ep : Nat) (gid : GReg) (g : Bool) (tag : Tag) :
    (doOut k ac ta tb tc rnd ep gid g tag s).Wf := by
  unfold doOut
  extract_lets c
  split
  · trivial
  · split
    · trivial
    · split
      · trivial
      · split
        · trivial
        · split
          · trivial
          · split
            · trivial
            · next hu => exact wf_outStore (wf_settleTap hs hu) ..

theorem wf_doMmaClr (k ac : Nat) (tag : Tag) : (doMmaClr k ac tag s).Wf := by
  unfold doMmaClr
  extract_lets c n
  split
  · trivial
  · exact hs

theorem wf_doTapAuto (k : Nat) (tf : TReg) (tag : Tag) : (doTapAuto k tf tag s).Wf := wf_ite hs hs

theorem wf_doSyrkTap (k : Nat) (tf : TReg) (tag : Tag) : (doSyrkTap k tf tag s).Wf := by
  unfold doSyrkTap
  extract_lets c
  split
  · exact hs
  · split
    · trivial
    · split
      · next hu => exact wf_of_mem (State.note_mem ..) (wf_foldFirst hs hu)
      · trivial

theorem wf_doTapDrain (k : Nat) (tf : TReg) (tag : Tag) : (doTapDrain k tf tag s).Wf := by
  unfold doTapDrain
  extract_lets c
  split
  · exact hs
  · split
    · trivial
    · split
      · trivial
      · split
        · next hu => exact wf_foldFirst hs hu
        · trivial

theorem wf_doFactor (k : Nat) (i : Instr) (gs : GReg) {p : FactorPlan} (hp : p.Wf) (tag : Tag) :
    (doFactor k i gs p tag s).Wf := by
  have hrun : ∀ t : State, Memory.wf t.mem = true →
      (match t.runFactor k p with | .error f => Act.fault f | .ok r => .next (r.1.putGs k gs r.2)).Wf := by
    intro t ht
    split
    · trivial
    · next hr => exact wf_of_mem (State.putGs_mem ..) (wf_runFactor ht hp hr)
  unfold doFactor
  extract_lets c run
  split
  · trivial
  · split
    · exact wf_gangCompare hs k _ hrun
    · exact hrun s hs

theorem wf_doSn (k : Nat) (i : Instr) {p : FactorPlan} (hp : p.Wf) (tag : Tag) : (doSn k i p tag s).Wf := by
  unfold doSn
  split
  · trivial
  · exact wf_doFactor hs k i 0 hp tag

theorem wf_doGang (k : Nat) (i : Instr) (shape : Nat) (tag : Tag) : (doGang k i shape tag s).Wf := by
  unfold doGang
  extract_lets c cl
  split
  · trivial
  · split
    · trivial
    · refine wf_gangCompare hs k _ fun t ht => ?_
      dsimp only
      split
      · exact ht
      · exact ht

theorem wf_examine (k : Nat) (t : TReg) (go : State → View → Act) (hgo : ∀ t v, Memory.wf t.mem = true → (go t v).Wf) (tag : Tag) :
    (examine k t go tag s).Wf := by
  unfold examine
  split
  · trivial
  · split
    · trivial
    · split
      · trivial
      · next hu => exact hgo _ _ (wf_settleTap hs hu)

theorem wf_doTchk (k : Nat) (t1 : TReg) (g : GReg) (tag : Tag) : (doTchk k t1 g tag s).Wf := by
  unfold doTchk
  refine wf_examine hs _ _ _ (fun t v h => ?_) tag
  exact h

theorem wf_doChkNf (k : Nat) (t1 : TReg) (g : GReg) (tag : Tag) : (doChkNf k t1 g tag s).Wf := by
  unfold doChkNf
  refine wf_examine hs _ _ _ (fun t v h => ?_) tag
  exact h

theorem wf_doChkRange (k : Nat) (t1 : TReg) (g gs : GReg) (tag : Tag) : (doChkRange k t1 g gs tag s).Wf := by
  unfold doChkRange
  refine wf_examine hs _ _ _ (fun t v h => ?_) tag
  extract_lets hit t₁
  have h₁ : Memory.wf t₁.mem = true := wf_of_mem (State.setCore_mem ..) h
  exact wf_ite (wf_failCore (wf_of_mem (State.raise_mem ..) h₁) ..) h₁

theorem wf_doUpdNf (k : Nat) (t1 : TReg) (tag : Tag) : (doUpdNf k t1 tag s).Wf := by
  unfold doUpdNf
  refine wf_examine hs _ _ _ (fun t v h => ?_) tag
  split
  · exact wf_of_mem (State.setNf_mem ..) h
  · exact h

theorem wf_doCntRd (k : Nat) (g : GReg) (imm : W32) (tag : Tag) : (doCntRd k g imm tag s).Wf := by
  unfold doCntRd
  extract_lets c e n r v
  split
  · exact hs
  · split
    · exact hs
    · exact hs

theorem wf_doSigCnt (k idx : Nat) (gt : GReg) (val : W16) (tag : Tag) : (doSigCnt k idx gt val tag s).Wf := by
  unfold doSigCnt
  extract_lets cl
  split
  · exact hs
  · trivial

theorem wf_doWaitCnt (k idx : Nat) (val : W16) (tag : Tag) : (doWaitCnt k idx val tag s).Wf := by
  unfold doWaitCnt
  split
  · trivial
  · split
    · exact wf_of_mem (State.takeCnt_mem ..) hs
    · exact hs

theorem wf_doBarArrive (k idx : Nat) (tag : Tag) : (doBarArrive k idx tag s).Wf := by
  unfold doBarArrive
  split
  · exact hs
  · trivial

theorem wf_doBarWait (k idx : Nat) (tag : Tag) : (doBarWait k idx tag s).Wf := by
  unfold doBarWait
  split
  · trivial
  · split
    · exact hs
    · exact hs

theorem wf_doFlagSet (k idx : Nat) (tag : Tag) : (doFlagSet k idx tag s).Wf := by
  unfold doFlagSet
  split
  · exact hs
  · trivial

theorem wf_doFlagWait (k idx : Nat) (tag : Tag) : (doFlagWait k idx tag s).Wf := by
  unfold doFlagWait
  split
  · trivial
  · split
    · trivial
    · split
      · exact hs
      · exact hs

theorem wf_doFlagClr (k idx : Nat) (tag : Tag) : (doFlagClr k idx tag s).Wf := by
  unfold doFlagClr
  split
  · exact wf_putFlag hs ..
  · trivial

theorem wf_doHostIrq (k idx : Nat) (tag : Tag) : (doHostIrq k idx tag s).Wf := by
  unfold doHostIrq
  split
  · exact hs
  · trivial

theorem wf_doBeatWait (k : Nat) (imm : W32) (tag : Tag) : (doBeatWait k imm tag s).Wf := by
  unfold doBeatWait
  split
  · trivial
  · exact hs

theorem wf_postAt (k : Nat) (an : AReg) (gt : GReg) (go : List Byte → Nat → State → Act)
    (hgo : ∀ b cl t, Memory.wf t.mem = true → (go b cl t).Wf) (tag : Tag) : (postAt k an gt go tag s).Wf := by
  unfold postAt
  extract_lets c a cl p
  split
  · trivial
  · split
    · trivial
    · split
      · trivial
      · split
        · trivial
        · next t hu =>
          have h := hgo (t.rbs p 64) cl t (wf_settleTap hs hu)
          split
          · next ha => exact wf_of_mem (State.setCore_mem ..) (show Act.Wf (.next _) from ha ▸ h)
          · exact h

theorem wf_doXferPost (k : Nat) (an : AReg) (cnt : Nat) (gt : GReg) (val : W16) (tag : Tag) :
    (doXferPost k an cnt gt val tag s).Wf := by
  refine wf_postAt hs _ _ _ _ (fun b cl t ht => ?_) tag
  dsimp only
  split
  · trivial
  · split
    · exact wf_postX ht ..
    · trivial

theorem wf_doUpdApply (k : Nat) (an : AReg) (cnt : Nat) (gt : GReg) (val : W16) (tag : Tag) :
    (doUpdApply k an cnt gt val tag s).Wf := by
  refine wf_postAt hs _ _ _ _ (fun b cl t ht => ?_) tag
  dsimp only
  split
  · trivial
  · split
    · trivial
    · exact ht

theorem wf_doCollPost (k : Nat) (an : AReg) (cnt : Nat) (gt : GReg) (val : W16) (tag : Tag) :
    (doCollPost k an cnt gt val tag s).Wf := by
  refine wf_postAt hs _ _ _ _ (fun b cl t ht => ?_) tag
  dsimp only
  split
  · split
    · exact wf_of_mem (State.sticky_mem ..) ht
    · trivial
  · split
    · exact wf_postC ht ..
    · trivial

theorem wf_branchIf (k : Nat) (off : BitVec 11) (p : Core → Bool) (tag : Tag) : (branchIf k off p tag s).Wf := by
  unfold branchIf
  extract_lets c t
  split
  · exact hs
  · exact hs

theorem wf_doLoop (k : Nat) (lc : Fin 4) (gs : GReg) (len : Nat) (cnt : W16) (tag : Tag) : (doLoop k lc gs len cnt tag s).Wf := by
  unfold doLoop
  extract_lets c n
  split
  · exact hs
  · split
    · trivial
    · exact hs

theorem wf_doEndProg (k kind : Nat) (gt : GReg) (idx : Nat) (val : W16) (tag : Tag) : (doEndProg k kind gt idx val tag s).Wf := by
  unfold doEndProg
  split
  · trivial
  · split
    · trivial
    · next hu => exact wf_of_mem ((State.setSt_mem ..).trans (State.setCore_mem ..)) (wf_drainTap hs hu)

theorem wf_doBankSwap (k : Nat) (tag : Tag) : (doBankSwap k tag s).Wf := by
  unfold doBankSwap
  extract_lets c
  split
  · trivial
  · split
    · trivial
    · next hu =>
      have h := wf_drainTap hs hu
      split
      · exact wf_of_mem ((State.swapDone_mem ..).trans (State.setCore_mem ..)) h
      · exact h

theorem wf_doFence (k : Nat) (imm : W32) (tag : Tag) : (doFence k imm tag s).Wf := by
  unfold doFence
  split
  · trivial
  · exact hs

theorem wf_doStatRd (k : Nat) (g : GReg) (imm : W32) (tag : Tag) : (doStatRd k g imm tag s).Wf := by
  unfold doStatRd
  extract_lets c
  split
  · trivial
  · exact hs

theorem wf_vtile (k : Nat) (op : LaneOp) (vd va vb : VReg) (vc : Option VReg) (m : MReg) (bc : Nat) (fp : Bool) (tag : Tag) :
    (vtile k op vd va vb vc m bc fp tag s).Wf := by
  unfold vtile
  extract_lets c td d a b x
  split
  · trivial
  · split
    · trivial
    · split
      · trivial
      · next hu =>
        refine wf_forEach (wf_settleTap hs hu) _ _ fun s e hs => ?_
        split
        · exact wf_putElem hs ..
        · exact hs
  · trivial

theorem wf_vop (k : Nat) (op : LaneOp) (tile : Bool) (vd va vb : VReg) (vc : Option VReg) (m : MReg) (bc : Nat) (fp : Bool)
    (tag : Tag) : (vop k op tile vd va vb vc m bc fp tag s).Wf := by
  unfold vop
  split
  · exact wf_vtile hs ..
  · exact hs

theorem wf_doVst (k : Nat) (vd : VReg) (an : AReg) (m : MReg) (off : W16) (tag : Tag) : (doVst k vd an m off tag s).Wf := by
  unfold doVst
  extract_lets c
  split
  · trivial
  · extract_lets runs
    split
    · trivial
    · split
      · trivial
      · next hu => exact wf_forEach (wf_settleTap hs hu) _ _ fun s x hs => wf_write _ _ _ hs

/-- What a core instruction does when it starts keeps the canonical form. -/
theorem wf_perform (i : Instr) (tag : Tag) : (perform i tag s).Wf := by
  cases i with
  | ldw => exact wf_doLdw hs (tag := tag) ..
  | stw =>
    dsimp only [perform]
    exact wf_storeAt hs ..
  | br =>
    dsimp only [perform]
    exact wf_branchIf hs ..
  | beq =>
    dsimp only [perform]
    exact wf_branchIf hs ..
  | bne =>
    dsimp only [perform]
    exact wf_branchIf hs ..
  | blt =>
    dsimp only [perform]
    exact wf_branchIf hs ..
  | bge =>
    dsimp only [perform]
    exact wf_branchIf hs ..
  | bltu =>
    dsimp only [perform]
    exact wf_branchIf hs ..
  | bgeu =>
    dsimp only [perform]
    exact wf_branchIf hs ..
  | loop => exact wf_doLoop hs _ _ _ _ _ tag
  | tmov => exact wf_doTmov hs (tag := tag) ..
  | tfill => exact wf_doTfill hs (tag := tag) ..
  | mmaF16 => exact wf_doMma hs (tag := tag) ..
  | mmaF32 => exact wf_doMma hs (tag := tag) ..
  | mmaI16 => exact wf_doMma hs (tag := tag) ..
  | mmaOut => exact wf_doOut hs (tag := tag) ..
  | mmaOuts => exact wf_doOut hs (tag := tag) ..
  | mmaClr => exact wf_doMmaClr hs (tag := tag) ..
  | gang => exact wf_doGang hs (tag := tag) ..
  | vadd => exact wf_vop hs (tag := tag) ..
  | vmul => exact wf_vop hs (tag := tag) ..
  | vfma => exact wf_vop hs (tag := tag) ..
  | vsel => exact wf_vop hs (tag := tag) ..
  | vmin => exact wf_vop hs (tag := tag) ..
  | vmax => exact wf_vop hs (tag := tag) ..
  | vld => exact wf_doVld hs (tag := tag) ..
  | vst => exact wf_doVst hs (tag := tag) ..
  | tapAuto => exact wf_doTapAuto hs (tag := tag) ..
  | syrkTap => exact wf_doSyrkTap hs (tag := tag) ..
  | tapDrain => exact wf_doTapDrain hs (tag := tag) ..
  | nsiScale => exact wf_doFactor hs _ _ _ (wf_planNsiScale _ _ _ _) tag
  | nsiStep => exact wf_doFactor hs _ _ _ (wf_planNsiStep _ _ _ _) tag
  | nsiResid => exact wf_doFactor hs _ _ _ (wf_planNsiResid _ _ _) tag
  | cholSn => exact wf_doSn hs _ _ (wf_planSn false _ _ _) tag
  | ldltSn => exact wf_doSn hs _ _ (wf_planSn true _ _ _) tag
  | trsvSn => exact wf_doFactor hs _ _ _ (wf_planTrsvSn _ _ _ _) tag
  | refine => exact wf_doFactor hs _ _ _ (wf_planRefine _ _ _ _) tag
  | sigCnt => exact wf_doSigCnt hs (tag := tag) ..
  | waitCnt => exact wf_doWaitCnt hs (tag := tag) ..
  | setCnt => exact wf_of_mem (State.putCnt_mem ..) hs
  | barArrive => exact wf_doBarArrive hs (tag := tag) ..
  | barWait => exact wf_doBarWait hs (tag := tag) ..
  | flagSet => exact wf_doFlagSet hs (tag := tag) ..
  | flagWait => exact wf_doFlagWait hs (tag := tag) ..
  | flagClr => exact wf_doFlagClr hs (tag := tag) ..
  | hostIrq => exact wf_doHostIrq hs (tag := tag) ..
  | beatWait => exact wf_doBeatWait hs (tag := tag) ..
  | xferPost => exact wf_doXferPost hs (tag := tag) ..
  | collPost => exact wf_doCollPost hs (tag := tag) ..
  | updApply => exact wf_doUpdApply hs (tag := tag) ..
  | updNs => exact wf_doFactor hs _ _ _ (wf_planUpdNs _ _ _) tag
  | updNf => exact wf_doUpdNf hs (tag := tag) ..
  | tchk => exact wf_doTchk hs (tag := tag) ..
  | chkRange => exact wf_doChkRange hs (tag := tag) ..
  | chkNf => exact wf_doChkNf hs (tag := tag) ..
  | cntRd => exact wf_doCntRd hs (tag := tag) ..
  | traceMark => exact wf_of_mem (State.trace_mem ..) hs
  | halt => exact wf_of_mem ((State.setSt_mem ..).trans (State.setCore_mem ..)) hs
  | endProg => exact wf_doEndProg hs (tag := tag) ..
  | bankSwap => exact wf_doBankSwap hs (tag := tag) ..
  | fence => exact wf_doFence hs (tag := tag) ..
  | statRd => exact wf_doStatRd hs (tag := tag) ..
  | add | sub | and | or | xor | shl | shr | sra | mul | slt | sltu | min | max => exact hs
  | addi | andi | ori | xori | movi | mova | movg | tdSet | tdCopy | vcmp => exact hs
  | tapArm | tapOff | baSet | baAdv | baNow | beatRd | digFold | digRd | digClr | attrSet | nop => exact hs
  | _ => trivial

theorem wf_instructionStart (k : Nat) (inp : InputTag) : Memory.wf (instructionStart k inp s).mem = true := by
  unfold instructionStart
  extract_lets c
  split
  · exact wf_ite (wf_begin hs _ _ (fun tag => wf_perform hs _ tag) inp) hs
  · exact hs

theorem wf_swapTakesEffect (k : Nat) : Memory.wf (swapTakesEffect k s).mem = true := by
  unfold swapTakesEffect
  extract_lets c
  split
  · exact wf_instructionStart hs k {}
  · exact wf_of_mem (State.trySwap_mem ..) hs

end

end Sys2Proof.Machine
end

section
/-! PROOFS. Every command, and so every step, keeps the canonical form of memory (O60). -/

namespace Sys2Proof.Machine

/-- A core instruction reaches the sequencer of its core (R39). -/
theorem exec_eq_issue {i : Instr} {k : Nat} (h : coreOf i = some k) (s : State) :
    exec i s = .next (s.issue k i (perform i)) := by
  cases i <;> cases h <;> rfl

section
variable {s : State} (hs : Memory.wf s.mem = true)
include hs

omit hs in
theorem wf_next {t u : State} (ht : Memory.wf t.mem = true) (h : (.next t : Host.Outcome State Fault Refusal) = .next u) :
    Memory.wf u.mem = true := by
  cases h
  exact ht

/-- A command of no core keeps the canonical form. -/
theorem wf_exec_of_coreOf_none {i : Instr} (hi : coreOf i = none) {t : State} (h : exec i s = .next t) :
    Memory.wf t.mem = true := by
  revert h
  cases i with
  | lowerHalfRead => exact wf_next (wf_of_mem (lowerHalfRead_mem ..) hs)
  | upperHalfRead => exact wf_next (wf_of_mem (upperHalfRead_mem ..) hs)
  | lowerHalfWrite => exact wf_next (wf_lowerHalfWrite hs ..)
  | upperHalfWrite => exact wf_next (wf_upperHalfWrite hs ..)
  | registerWrite => exact wf_next (wf_registerWrite hs ..)
  | badAccessWidth => exact wf_next (wf_of_mem (badAccessWidth_mem ..) hs)
  | bar4Read => exact wf_next (wf_of_mem (bar4Read_mem ..) hs)
  | bar4Write => exact wf_next (wf_bar4Write hs ..)
  | beat => exact wf_next (wf_of_mem (beatTick_mem ..) hs)
  | refclkLoss => exact wf_next (wf_of_mem (refclkLoss_mem ..) hs)
  | refclkReturn => exact wf_next (wf_of_mem (refclkReturn_mem ..) hs)
  | rateChange => exact wf_next (wf_of_mem (rateChange_mem ..) hs)
  | rateMonitorRefresh => exact wf_next (wf_of_mem (rateMonitorRefresh_mem ..) hs)
  | beatSample => exact wf_next (wf_of_mem (beatSample_mem ..) hs)
  | alignEnable => exact wf_next (wf_of_mem (alignEnable_mem ..) hs)
  | alignDisable => exact wf_next (wf_of_mem (alignDisable_mem ..) hs)
  | alignCfgWrite => exact wf_next (wf_of_mem (alignCfgWrite_mem ..) hs)
  | alignLock => exact wf_next (wf_of_mem (alignLock_mem ..) hs)
  | parentPortFail => exact wf_next (wf_of_mem (parentPortFail_mem ..) hs)
  | holdoverTimeout => exact wf_next (wf_of_mem (holdoverTimeout_mem ..) hs)
  | parentPortRecover => exact wf_next (wf_of_mem (parentPortRecover_mem ..) hs)
  | gangedPassStart => exact wf_next (wf_gangedPassStart hs ..)
  | gangShapeChange => exact wf_next (wf_gangShapeChange hs ..)
  | matrixEntryEnd => exact wf_next (wf_matrixEntryEnd hs ..)
  | matrixPassComplete => exact wf_next (wf_matrixPassComplete hs ..)
  | gangFeedUncorrectable => exact wf_next (wf_gangFeedUncorrectable hs ..)
  | vectorPassComplete => exact wf_next (wf_of_mem (vectorPassComplete_mem ..) hs)
  | movePassComplete => exact wf_next (wf_of_mem (movePassComplete_mem ..) hs)
  | tapAutoFold => exact wf_next (wf_tapAutoFold hs ..)
  | tapFoldComplete => exact wf_next (wf_tapFoldComplete hs ..)
  | factorOpComplete => exact wf_next (wf_factorOpComplete hs ..)
  | signalTakesEffect => exact wf_next (wf_signalTakesEffect hs ..)
  | instructionStart => exact wf_next (wf_instructionStart hs ..)
  | dmaChunkDone => exact wf_next (wf_dmaChunkDone hs ..)
  | transferComplete => exact wf_next (wf_of_mem (transferComplete_mem ..) hs)
  | coreFault => exact wf_next (wf_coreFault hs ..)
  | drainComplete => exact wf_next (wf_of_mem (drainComplete_mem ..) hs)
  | programLoadComplete => exact wf_next (wf_programLoadComplete hs ..)
  | swapTakesEffect => exact wf_next (wf_swapTakesEffect hs ..)
  | coreStart => exact wf_next (wf_of_mem (coreStart_mem ..) hs)
  | launch => exact wf_next (wf_launch hs ..)
  | copy => exact wf_next (wf_copy hs ..)
  | collective => exact wf_next (wf_collective hs ..)
  | stepCommit => exact wf_next (wf_stepCommit hs ..)
  | stepCommitReplayDone => exact wf_next (wf_of_mem (stepCommitReplayDone_mem ..) hs)
  | solve => exact wf_next (wf_solve hs ..)
  | checkpointRequest => exact wf_next (wf_of_mem (checkpointRequest_mem ..) hs)
  | checkpointDrain => exact wf_next (wf_of_mem (checkpointDrain_mem ..) hs)
  | restoreBuddy => exact wf_next (wf_of_mem (restoreBuddy_mem ..) hs)
  | restoreHost => exact wf_next (wf_of_mem (restoreHost_mem ..) hs)
  | signalCounter => exact wf_next (wf_of_mem (signalCounter_mem ..) hs)
  | signalFlagSet => exact wf_next (wf_signalFlagSet hs ..)
  | signalFlagClear => exact wf_next (wf_signalFlagClear hs ..)
  | signalBarrier => exact wf_next (wf_of_mem (signalBarrier_mem ..) hs)
  | waitCounter => exact wf_next (wf_of_mem (waitCounter_mem ..) hs)
  | waitFlag => exact wf_next (wf_of_mem (waitFlag_mem ..) hs)
  | waitBarrier => exact wf_next (wf_of_mem (waitBarrier_mem ..) hs)
  | waitBeat => exact wf_next (wf_of_mem (waitBeat_mem ..) hs)
  | waitTimeout => exact wf_next (wf_of_mem (waitTimeout_mem ..) hs)
  | alloc => exact wf_next (wf_of_mem (alloc_mem ..) hs)
  | free => exact wf_next (wf_of_mem (free_mem ..) hs)
  | freeComplete => exact wf_next (wf_of_mem (freeComplete_mem ..) hs)
  | counterSnap => exact wf_next (wf_counterSnap hs ..)
  | exportShard => exact wf_next (wf_of_mem (exportShard_mem ..) hs)
  | sqTailDoorbell => exact wf_next (wf_of_mem (sqTailDoorbell_mem ..) hs)
  | cqHeadDoorbell => exact wf_next (wf_of_mem (cqHeadDoorbell_mem ..) hs)
  | doorbellFlagSet => exact wf_next (wf_doorbellFlagSet hs ..)
  | doorbellFlagClr => exact wf_next (wf_doorbellFlagClr hs ..)
  | commandFetch => exact wf_next (wf_of_mem (commandFetch_mem ..) hs)
  | completionPost => exact wf_next (wf_completionPost hs ..)
  | queueResume => exact wf_next (wf_of_mem (queueResume_mem ..) hs)
  | barrierMembersWrite => exact wf_next (wf_of_mem (barrierMembersWrite_mem ..) hs)
  | deadlock => exact wf_next (wf_of_mem (deadlock_mem ..) hs)
  | configure => exact wf_next (wf_of_mem (configure_mem ..) hs)
  | activate => exact wf_next (wf_activate hs ..)
  | quiesce => exact wf_next (wf_of_mem (quiesce_mem ..) hs)
  | quiesceComplete => exact wf_next (wf_quiesceComplete hs ..)
  | instanceReset => exact wf_next (wf_instanceReset hs ..)
  | release => exact wf_next (wf_release hs ..)
  | functionLevelReset => exact wf_next (wf_functionLevelReset hs ..)
  | resetComplete => exact wf_next (wf_resetComplete hs ..)
  | instanceResetTimeout => exact wf_next (wf_of_mem (instanceResetTimeout_mem ..) hs)
  | linkEnable => exact wf_next (wf_of_mem (linkEnable_mem ..) hs)
  | linkDisable => exact wf_next (wf_of_mem (linkDisable_mem ..) hs)
  | linkTrainingComplete => exact wf_next (wf_of_mem (linkTrainingComplete_mem ..) hs)
  | linkTrainingTimeout => exact wf_next (wf_of_mem (linkTrainingTimeout_mem ..) hs)
  | frameSend => exact wf_next (wf_of_mem (frameSend_mem ..) hs)
  | frameReceive => exact wf_next (wf_of_mem (frameReceive_mem ..) hs)
  | laneLockLoss => exact wf_next (wf_of_mem (laneLockLoss_mem ..) hs)
  | frameCheckTimeout => exact wf_next (wf_of_mem (frameCheckTimeout_mem ..) hs)
  | collChunk => exact wf_next (wf_collChunk hs ..)
  | chunkAck => exact wf_next (wf_chunkAck hs ..)
  | chunkNack => exact wf_next (wf_of_mem (chunkNack_mem ..) hs)
  | collChunkTimeout => exact wf_next (wf_of_mem (collChunkTimeout_mem ..) hs)
  | collectiveComplete => exact wf_next (wf_of_mem (collectiveComplete_mem ..) hs)
  | xferWrite => exact wf_next (wf_xferWrite hs ..)
  | xferReadReq => exact wf_next (wf_xferReadReq hs ..)
  | xferReadData => exact wf_next (wf_xferReadData hs ..)
  | refused => exact wf_next (wf_refusedMsg hs ..)
  | verdict => exact wf_next (wf_verdict hs ..)
  | verdictSend => exact wf_next (wf_verdictSend hs ..)
  | clove => exact wf_next (wf_clove hs ..)
  | gateTimeout => exact wf_next (wf_gateTimeout hs ..)
  | commitApply => exact wf_next (wf_commitApply hs ..)
  | rootDispatch => exact wf_next (wf_rootDispatch hs ..)
  | commitHoldRelease => exact wf_next (wf_commitHoldRelease hs ..)
  | rootLateTimeout => exact wf_next (wf_rootLateTimeout hs ..)
  | updEnableWrite => exact wf_next (wf_of_mem (updEnableWrite_mem ..) hs)
  | updatePostPerform => exact wf_next (wf_updatePostPerform hs ..)
  | undoComplete => exact wf_next (wf_undoComplete hs ..)
  | solveStart => exact wf_next (wf_solveStart hs ..)
  | solveAnnounce => exact wf_next (wf_of_mem (solveAnnounce_mem ..) hs)
  | solveFreeze => exact wf_next (wf_of_mem (solveFreeze_mem ..) hs)
  | supernodeBoundaryEnd => exact wf_next (wf_supernodeBoundaryEnd hs ..)
  | solveAbandonTimeout => exact wf_next (wf_of_mem (solveAbandonTimeout_mem ..) hs)
  | solveResultPost => exact wf_next (wf_solveResultPost hs ..)
  | devModeWrite => exact wf_next (wf_of_mem (devModeWrite_mem ..) hs)
  | auditRecordWrite => exact wf_next (wf_auditRecordWrite hs ..)
  | errorRecordWrite => exact wf_next (wf_errorRecordWrite hs ..)
  | recoveryWindowTimeout => exact wf_next (wf_of_mem (recoveryWindowTimeout_mem ..) hs)
  | patrolScrub => exact wf_next (wf_of_mem (patrolScrub_mem ..) hs)
  | warmReset => exact wf_next (wf_ite (wf_warmReset hs _) hs)
  | digestCompareTimeout => exact wf_next (wf_digestCompareTimeout hs ..)
  | replayInput => exact wf_next (wf_replayInput hs ..)
  | replayResult => exact wf_next (wf_replayResult hs ..)
  | replayDigest => exact wf_next (wf_replayDigest hs ..)
  | replaySend => exact wf_next (wf_of_mem (replaySend_mem ..) hs)
  | ckptBegin => exact wf_next (wf_ckptBegin hs ..)
  | ckptBlock => exact wf_next (wf_ckptBlock hs ..)
  | ckptDigests => exact wf_next (wf_ckptDigests hs ..)
  | ckptEnd => exact wf_next (wf_ckptEnd hs ..)
  | ckptAck => exact wf_next (wf_of_mem (ckptAck_mem ..) hs)
  | ckptAbort => exact wf_next (wf_of_mem (ckptAbort_mem ..) hs)
  | ckptCopyTimeout => exact wf_next (wf_of_mem (ckptCopyTimeout_mem ..) hs)
  | restoreReq => exact wf_next (wf_of_mem (restoreReq_mem ..) hs)
  | restoreData => exact wf_next (wf_restoreData hs ..)
  | checkpointDrainComplete => exact wf_next (wf_checkpointDrainComplete hs ..)
  | restoreComplete => exact wf_next (wf_restoreComplete hs ..)
  | telemetry => exact wf_next (wf_telemetry hs ..)
  | commandRecordWrite => exact wf_next (wf_commandRecordWrite hs ..)
  | breakpointHit => exact wf_next (wf_of_mem (breakpointHit_mem ..) hs)
  | drainTimeout => exact wf_next (wf_of_mem (drainTimeout_mem ..) hs)
  | debugHalt => exact wf_next (wf_of_mem (State.dbgCtrl_mem ..) hs)
  | debugResume => exact wf_next (wf_of_mem (State.dbgCtrl_mem ..) hs)
  | debugStep => exact wf_next (wf_of_mem (State.dbgCtrl_mem ..) hs)
  | breakpointConfigWrite => exact wf_next (wf_of_mem (State.bpWrite_mem ..) hs)
  | debugAccessRead => exact wf_next (wf_of_mem (debugAccessRead_mem ..) hs)
  | debugAccessWrite => exact wf_next (wf_debugAccessWrite hs ..)
  | debugUnlock => exact wf_next (wf_of_mem (debugUnlock_mem ..) hs)
  | debugLock => exact wf_next (wf_of_mem (debugLock_mem ..) hs)
  | debugSessionExpire => exact wf_next (wf_of_mem (debugSessionExpire_mem ..) hs)
  | intervalRecord => exact wf_next (wf_of_mem (intervalRecord_mem ..) hs)
  | timeDisciplineMessage => exact wf_next (wf_of_mem (timeDisciplineMessage_mem ..) hs)
  | readRequest => exact wf_next (wf_of_mem (readRequest_mem ..) hs)
  | sealBreak => exact wf_next (wf_of_mem (sealBreak_mem ..) hs)
  | serviceChange => exact wf_next (wf_of_mem (serviceChange_mem ..) hs)
  | sealBreakEnd => exact wf_next (wf_of_mem (sealBreakEnd_mem ..) hs)
  | mirrorRefresh => exact wf_next (wf_of_mem (mirrorRefresh_mem ..) hs)
  | standbyPowerOn => exact wf_next (wf_of_mem (standbyPowerOn_mem ..) hs)
  | standbyPowerFall => exact wf_next (wf_standbyPowerFall hs ..)
  | startupStepComplete => exact wf_next (wf_of_mem (startupStepComplete_mem ..) hs)
  | startupStepTimeout => exact wf_next (wf_startupStepTimeout hs ..)
  | perstDeassert => exact wf_next (wf_of_mem (perstDeassert_mem ..) hs)
  | regulatorRamp => exact wf_next (wf_of_mem (regulatorRamp_mem ..) hs)
  | mainInputTrip => exact wf_next (wf_mainInputTrip hs ..)
  | tripRestart => exact wf_next (wf_of_mem (tripRestart_mem ..) hs)
  | meteringReadyLoss => exact wf_next (wf_meteringReadyLoss hs ..)
  | powerSample => exact wf_next (wf_powerSample hs ..)
  | junctionOverTemp => exact wf_next (wf_of_mem (junctionOverTemp_mem ..) hs)
  | thermalShutdown => exact wf_next (wf_thermalShutdown hs ..)
  | powerConfigWrite => exact wf_next (wf_of_mem (powerConfigWrite_mem ..) hs)
  | buddySizeWrite => exact wf_next (wf_of_mem (State.writeMem_mem ..) hs)
  | collCutWrite => exact wf_next (wf_of_mem (State.writeColl_mem ..) hs)
  | boardRecordWrite => exact wf_next (wf_of_mem (boardRecordWrite_mem ..) hs)
  | mcWarmResetRequest => exact wf_next (wf_mcWarmResetRequest hs ..)
  | powerCycle => exact wf_next (wf_powerCycle hs ..)
  | hostWatchdogExpire => exact wf_next (wf_powerCycle hs ..)
  | deviceReset => exact wf_next (wf_restartFrom4 hs ..)
  | exportShardComplete => exact wf_next (wf_exportShardComplete hs ..)
  | ckptSourceBlockRead => exact wf_next (wf_ckptSourceBlockRead hs ..)
  | stateDigestShardDone => exact wf_next (wf_stateDigestShardDone hs ..)
  | vbatLow => exact wf_next (wf_of_mem (vbatLow_mem ..) hs)
  | calendarLost => exact wf_next (wf_of_mem (calendarLost_mem ..) hs)
  | reverseCurrent => exact wf_next (wf_of_mem (reverseCurrent_mem ..) hs)
  | firmwareUpdate => exact wf_next (wf_of_mem (firmwareUpdate_mem ..) hs)
  | _ => cases hi

theorem wf_exec (i : Instr) {t : State} (h : exec i s = .next t) : Memory.wf t.mem = true := by
  cases hi : coreOf i with
  | none => exact wf_exec_of_coreOf_none hs hi h
  | some k => exact wf_next (wf_issue hs k i fun tag => wf_perform hs i tag) ((exec_eq_issue hi s).symm.trans h)

end

/-- Settles O60: the queue is empty and nothing changes, or the command at its front keeps the form. -/
theorem memoryStaysCanonical : Obligations.MemoryStaysCanonical := by
  intro s t hs h
  unfold step at h
  split at h
  · exact wf_next hs h
  · exact wf_exec (by exact hs) _ h

end Sys2Proof.Machine
end

section
/-! PROOFS. Register access, halves, doorbell pages and BAR4, in the order of the clauses (O49). -/

namespace Sys2Proof.Machine

/-! ### Maps with a filtered key, and addresses outside BAR0 -/

/-- What a filter takes out of a sparse map reads as an unlisted address. -/
theorem sget_filter_none {α : Type} {d : Nat → α} {p : Nat × α → Bool} {a : Nat} (m : Sparse α) (h : ∀ v, p (a, v) = false) :
    sget d (m.filter p) a = d a := by
  induction m with
  | nil => rfl
  | cons e r ih =>
    rw [List.filter_cons]
    split
    · next hp =>
      have ha : a ≠ e.1 := by
        rintro rfl
        exact absurd hp (by rw [h e.2]; exact Bool.false_ne_true)
      rw [sget, if_neg ha, ih]
    · exact ih

theorem mapVirtual_high {n off : Nat} (h : 2 ^ 28 ≤ off) : mapVirtual n off = none := by
  unfold mapVirtual
  simp only [show ¬off < 0x2000 by omega, show ¬off < 0x2040 by omega, show ¬(0x100000 ≤ off ∧ off < 0x600000) by omega,
    show ¬(0x1000000 ≤ off ∧ off < 0x2000000) by omega, show ¬(0xF80000 ≤ off ∧ off < 0xF81000) by omega,
    show ¬(0xFD0000 ≤ off ∧ off < 0xFD1000) by omega, if_false]
  repeat rw [if_neg (by omega)]
  rfl

/-- No offset from 2^28 on is a register (R382, R385). -/
theorem mapOff_high {fn off : Nat} (h : 2 ^ 28 ≤ off) : mapOff fn off = none := by
  unfold mapOff
  rw [if_neg (show ¬off < 2 ^ 28 by omega), mapVirtual_high h]
  split
  · rfl
  · exact ite_self _

theorem mapOff_bar2 {fn o : Nat} : mapOff fn (bar2Base + o) = none := mapOff_high (Nat.le_add_right ..)

theorem isWide_high {p : Nat} (h : 2 ^ 28 ≤ p) : isWide p = false := by
  have hb : blockAt p = none := by
    unfold blockAt
    repeat rw [if_neg (by omega)]
  rw [isWide, regInfo, hb]

/-! ### What a record leaves and adds -/

@[simp] theorem State.raise_regs (s : State) (cls code : Nat) (b : Block) (detail : Nat) (uid : W32) (inst cmd : Nat)
    (lastUid : W32) (ctx : List Byte) (flags : Nat) : (s.raise cls code b detail uid inst cmd lastUid ctx flags).regs = s.regs := by
  unfold State.raise
  simp only [State.raiseRec]
  repeat' split
  all_goals simp

@[simp] theorem State.raise_readData (s : State) (cls code : Nat) (b : Block) (detail : Nat) (uid : W32) (inst cmd : Nat)
    (lastUid : W32)
    (ctx : List Byte) (flags : Nat) : (s.raise cls code b detail uid inst cmd lastUid ctx flags).readData = s.readData := by
  unfold State.raise
  simp only [State.raiseRec]
  repeat' split
  all_goals simp

/-- One record is raised, of the given class, code and unit. -/
theorem State.raise_raised (s : State) (cls code : Nat) (b : Block) (detail : Nat) (uid : W32) (inst cmd : Nat) (lastUid : W32)
    (ctx : List Byte) (flags : Nat) :
    ∃ e, (s.raise cls code b detail uid inst cmd lastUid ctx flags).err.raised = s.err.raised ++ [e] ∧ e.cls = cls ∧ e.code = code ∧
      e.uid = uid := by
  unfold State.raise
  simp only [State.raiseRec]
  repeat' split
  all_goals exact ⟨_, rfl, rfl, rfl, rfl⟩

/-! ### Halves of 64-bit registers (R6) -/

@[simp] theorem State.latch_setLatch (s : State) (fn off : Nat) (v : Option W32) : (s.setLatch fn off v).latch fn off = v :=
  sget_sput_same ..

@[simp] theorem State.heldHalf_setHeld (s : State) (fn off : Nat) (v : Option W32) : (s.setHeld fn off v).heldHalf fn off = v :=
  sget_sput_same ..

theorem State.heldHalf_dropHeld (s : State) {off : Nat} (h : off < 2 ^ 28) (fn : Nat) : (s.dropHeld off).heldHalf fn off = none := by
  refine sget_filter_none _ fun v => ?_
  have hk : (fn * 2 ^ 28 + off) % 2 ^ 28 = off := by omega
  exact decide_eq_false (not_not.mpr hk)

/-- Every register but the debug access data reads without a change. -/
theorem State.readReg_of_ne (s : State) (fn : Nat) {off : Nat} (h : ∀ i, off ≠ R.accData i) :
    s.readReg fn off = (s, s.regView off &&& s.shown fn off) := by
  unfold State.readReg
  rw [if_neg fun hc => h _ hc.2.2]

section
variable {s : State} {fn off p : Nat} (hm : mapOff fn off = some p) (h4 : off % 4 = 0)
include hm h4

theorem lowerHalfRead_mapped : lowerHalfRead fn off s = s.read32 fn p := by
  unfold lowerHalfRead
  rw [if_neg (not_not.mpr h4), hm]

theorem lowerHalfWrite_mapped (v : W32) : lowerHalfWrite fn off v s = s.write32 fn p v := by
  unfold lowerHalfWrite
  rw [if_neg (not_not.mpr h4), hm]

variable (h8 : p % 8 = 0) (hw : isWide p = true)
include h8 hw

theorem lowerHalfRead_wide (ha : ∀ i, p ≠ R.accData i) :
    let x := s.regView p &&& s.shown fn p
    lowerHalfRead fn off s =
      { s.setLatch fn p (some ((x >>> 32).truncate 32)) with readData := BitVec.ofNat 64 (x.toNat % 2 ^ 32) } := by
  have h : (decide (p % 8 = 4) && isWide (p - 4)) = false := by rw [h8]; rfl
  rw [lowerHalfRead_mapped hm h4, State.read32, h, if_neg Bool.false_ne_true, State.readLow, s.readReg_of_ne fn ha, hw]
  rfl

omit h8 in
theorem upperHalfRead_wide {u : W32} (hu : s.latch fn p = some u) :
    upperHalfRead fn off s = { s.setLatch fn p none with readData := u.zeroExtend 64 } := by
  unfold upperHalfRead
  rw [if_neg (not_not.mpr h4), hm]
  dsimp only
  rw [State.readHigh, if_pos hw, hu]

theorem lowerHalfWrite_wide (v : W32) : lowerHalfWrite fn off v s = s.setHeld fn p (some v) := by
  have h : (decide (p % 8 = 4) && isWide (p - 4)) = false := by rw [h8]; rfl
  rw [lowerHalfWrite_mapped hm h4, State.write32, h, if_neg Bool.false_ne_true, State.writeLow, if_pos hw]

omit h8 in
theorem upperHalfWrite_wide {l : W32} (hl : s.heldHalf fn p = some l) (v : W32) :
    upperHalfWrite fn off v s = (s.setHeld fn p none).writeReg fn p (BitVec.ofNat 64 (l.toNat + v.toNat * 2 ^ 32)) := by
  unfold upperHalfWrite
  rw [if_neg (not_not.mpr h4), hm]
  dsimp only
  rw [State.writeHigh, if_pos hw, hl]
  rfl

omit h4 h8 in
theorem badAccessWidth_read_wide (ha : ∀ i, p ≠ R.accData i) (h64 : off % 8 = 0) :
    badAccessWidth fn off 64 false s = { s.dropHeld p with readData := s.regView p &&& s.shown fn p } := by
  have hok : accessOk off 64 false = true := by simp [accessOk, h64]
  unfold badAccessWidth
  rw [if_pos hok, if_neg Bool.false_ne_true, State.readAny, hm]
  dsimp only
  rw [if_neg (by decide), if_pos rfl, State.readWide, if_pos hw, s.readReg_of_ne fn ha]

end

/-- A command that is known to run to `t` gives what holds of `t`. -/
theorem gives_of_eq {i : Instr} {s u t : State} {P : State → Prop} (hu : u = t) (h : exec i s = .next u) (ht : P t) : Gives i s P :=
  ⟨t, hu ▸ h, ht⟩

/-! ### Writes of a register (R7) -/

/-- A register of the solver page, written by a function that may, takes the write by its access codes. -/
theorem registerWrite_solv {s : State} {fn off p base : Nat} {r : RegInfo} (hm : mapOff fn off = some p) (h4 : off % 4 = 0)
    (hb : blockAt p = some (.solv, base)) (hr : regInfo p = some r) (hw : r.wide = false)
    (hmay : fnMay fn ((p - base) / 0x1000) = true) (hlow : ¬(p % 8 = 4 ∧ isWide (p - 4) = true)) (v : W64) :
    registerWrite fn off false v s = s.rawWrite p (BitVec.ofNat 64 (v.toNat % 2 ^ 32)) := by
  have hv : (v.truncate 32).zeroExtend 64 = BitVec.ofNat 64 (v.toNat % 2 ^ 32) := by
    apply BitVec.eq_of_toNat_eq
    simp
  have hwide : isWide p = false := by rw [isWide, hr]; exact hw
  have hl : (decide (p % 8 = 4) && isWide (p - 4)) = false := by
    rw [← Bool.not_eq_true, Bool.and_eq_true, decide_eq_true_eq]
    exact hlow
  unfold registerWrite
  rw [hm]
  dsimp only
  rw [if_neg Bool.false_ne_true, if_neg (not_not.mpr h4), if_neg Bool.false_ne_true, State.write32, hl, if_neg Bool.false_ne_true,
    State.writeLow, hwide, if_neg Bool.false_ne_true, hv, State.writeReg, hb, hr]
  exact if_pos hmay

theorem State.rawWrite_eq {s : State} {p : Nat} {r : RegInfo} (hr : regInfo p = some r) (v : W64) :
    s.rawWrite p v = s.setReg p (((s.reg p &&& ~~~BitVec.ofNat 64 r.rw) ||| (v &&& BitVec.ofNat 64 r.rw)) &&&
      ~~~(BitVec.ofNat 64 r.w1c &&& v)) := by
  rw [State.rawWrite, hr]

/-! ### Outside BAR0: doorbell pages and the Resizable BAR (R386, R387) -/

theorem lowerHalfRead_unmapped {fn off : Nat} (hm : mapOff fn off = none) (h4 : off % 4 = 0) (s : State) :
    lowerHalfRead fn off s = s.readOther fn off := by
  unfold lowerHalfRead
  rw [if_neg (not_not.mpr h4), hm]

theorem lowerHalfWrite_unmapped {fn off : Nat} (hm : mapOff fn off = none) (h4 : off % 4 = 0) (v : W32) (s : State) :
    lowerHalfWrite fn off v s = s.writeOther fn off v := by
  unfold lowerHalfWrite
  rw [if_neg (not_not.mpr h4), hm]

section
variable {fn : Nat} (hfn : fn < 64) (s : State)
include hfn

theorem readOther_low {off : Nat} (h : off < bar2Base) : s.readOther fn off = { s with readData := 0 } := by
  unfold bar2Base at h
  unfold State.readOther tapFn pldmFn bar2Base rebarCtl
  rw [if_neg (by omega), if_neg (by omega), if_neg (by omega), if_neg (by omega)]

theorem writeOther_low {off : Nat} (h : off < bar2Base) (v : W32) : s.writeOther fn off v = s := by
  unfold bar2Base at h
  unfold State.writeOther tapFn bar2Base rebarCtl
  rw [if_neg (by omega), if_neg (by omega), if_neg (by omega)]

theorem readOther_bar2 {o : Nat} (h : o < 2 ^ 26) : s.readOther fn (bar2Base + o) = { s with readData := s.readPage fn o } := by
  unfold State.readOther tapFn pldmFn bar2Base
  rw [if_neg (by omega), if_neg (by omega), if_pos (by omega), Nat.add_sub_cancel_left]

theorem writeOther_bar2 {o : Nat} (h : o < 2 ^ 26) (v : W32) : s.writeOther fn (bar2Base + o) v = s.writePage fn o v := by
  unfold State.writeOther tapFn bar2Base
  rw [if_neg (by omega), if_pos (by omega), Nat.add_sub_cancel_left]

theorem writeOther_rebar (v : W32) :
    s.writeOther fn rebarCtl v =
      if 30 ≤ nfield v.toNat 8 6 + 20 ∧ nfield v.toNat 8 6 + 20 ≤ 39 ∧ ¬s.cfgRetry = true then
        { s with bar4 := sput (fun _ => 39) s.bar4 fn (nfield v.toNat 8 6 + 20) } else s := by
  unfold State.writeOther tapFn bar2Base rebarCtl
  rw [if_neg (by omega), if_neg (by omega), if_pos ⟨hfn, rfl⟩]

end

theorem lowerHalfWrite_rebar {fn : Nat} (hfn : fn < 64) (s : State) (v : W32) :
    lowerHalfWrite fn rebarCtl v s =
      if 30 ≤ nfield v.toNat 8 6 + 20 ∧ nfield v.toNat 8 6 + 20 ≤ 39 ∧ ¬s.cfgRetry = true then
        { s with bar4 := sput (fun _ => 39) s.bar4 fn (nfield v.toNat 8 6 + 20) } else s := by
  rw [lowerHalfWrite_unmapped (mapOff_high (by decide)) (by decide), writeOther_rebar hfn]

theorem registerWrite_unmapped {fn off : Nat} (hm : mapOff fn off = none) (hfn : fn < 64) (hoff : off < bar2Base) (w : Bool) (v : W64)
    (s : State) : registerWrite fn off w v s = s := by
  unfold registerWrite
  rw [hm]
  exact writeOther_low hfn s hoff _

section
variable {q n : Nat} (hn : n < 0x1000) (s : State) (fn : Nat)
include hn

theorem page_div : (0x1000 * q + n) / 0x1000 = q := by omega

theorem page_mod : (0x1000 * q + n) % 0x1000 = n := by omega

theorem readPage_flags (hq : s.fnQueue fn q = true) (h8 : 0x800 ≤ n) (hA : n < 0xA00) :
    s.readPage fn (0x1000 * q + n) = BitVec.ofNat 64 (s.flagMap (s.qOwner q) ((n - 0x800) / 4)) := by
  unfold State.readPage
  rw [page_div hn, page_mod hn]
  dsimp only
  rw [hq, decide_eq_true ⟨h8, hA⟩]
  rfl

theorem readPage_zero (h : s.fnQueue fn q = false ∨ n < 0x800 ∨ 0xA00 ≤ n) : s.readPage fn (0x1000 * q + n) = 0 := by
  unfold State.readPage
  rw [page_div hn, page_mod hn]
  dsimp only
  refine if_neg ?_
  rw [Bool.and_eq_true, decide_eq_true_eq]
  rintro ⟨hq, h8, hA⟩
  obtain h | h | h := h
  · exact Bool.false_ne_true (h.symm.trans hq)
  · omega
  · omega

theorem writePage_other (v : W32) (h0 : n ≠ 0x000) (h1 : n ≠ 0x008) (h2 : n ≠ 0x400) (h3 : n ≠ 0x408) :
    s.writePage fn (0x1000 * q + n) v = s := by
  unfold State.writePage
  rw [page_div hn, page_mod hn]
  dsimp only
  split
  · exact absurd rfl h0
  · exact absurd rfl h1
  · exact absurd rfl h2
  · exact absurd rfl h3
  · rfl

end

section
variable {fn q n : Nat} (hfn : fn < 64) (hq : q < 16384) (hn4 : n % 4 = 0) (hn : n < 0x1000) (s : State)
include hfn hq hn4 hn

theorem lowerHalfRead_page :
    lowerHalfRead fn (bar2Base + 0x1000 * q + n) s = { s with readData := s.readPage fn (0x1000 * q + n) } := by
  have h4 : (bar2Base + (0x1000 * q + n)) % 4 = 0 := by
    unfold bar2Base
    omega
  rw [Nat.add_assoc, lowerHalfRead_unmapped mapOff_bar2 h4, readOther_bar2 hfn s (by omega)]

theorem lowerHalfWrite_page (v : W32) :
    lowerHalfWrite fn (bar2Base + 0x1000 * q + n) v s = s.writePage fn (0x1000 * q + n) v := by
  have h4 : (bar2Base + (0x1000 * q + n)) % 4 = 0 := by
    unfold bar2Base
    omega
  rw [Nat.add_assoc, lowerHalfWrite_unmapped mapOff_bar2 h4, writeOther_bar2 hfn s (by omega)]

end

theorem writePage_doorbells (s : State) (fn q : Nat) (v : W32) :
    s.writePage fn (0x1000 * q + 0x000) v = sqTailDoorbell fn q v.toNat s ∧
    s.writePage fn (0x1000 * q + 0x008) v = cqHeadDoorbell fn q v.toNat s ∧
    s.writePage fn (0x1000 * q + 0x400) v = doorbellFlagSet fn q v.toNat s ∧
    s.writePage fn (0x1000 * q + 0x408) v = doorbellFlagClr fn q v.toNat s := by
  unfold State.writePage
  refine ⟨?_, ?_, ?_, ?_⟩
  all_goals
    rw [page_div (by decide), page_mod (by decide)]
    rfl

/-! ### Accesses of another width (R383) -/

theorem State.badAccess_raised (s : State) (off : Nat) :
    ∃ e, (s.badAccess off).err.raised = s.err.raised ++ [e] ∧ e.cls = 3 := by
  obtain ⟨e, he, hc, -, -⟩ : ∃ e, (s.badAccess off).err.raised = s.err.raised ++ [e] ∧ e.cls = 3 ∧ e.code = St.badDescriptor ∧
    e.uid = pcieUid := State.raise_raised ..
  exact ⟨e, he, hc⟩

theorem badAccessWidth_accepted_write {off width : Nat} (h : accessOk off width true = true) (fn : Nat) (s : State) :
    badAccessWidth fn off width true s = s := by
  unfold badAccessWidth
  rw [if_pos h, if_pos rfl]

theorem badAccessWidth_read32 {off : Nat} (h : accessOk off 32 false = true) (fn : Nat) (s : State) :
    badAccessWidth fn off 32 false s = lowerHalfRead fn off s := by
  have h4 : off % 4 = 0 := by simpa [accessOk] using h
  unfold badAccessWidth lowerHalfRead
  rw [if_pos h, if_neg Bool.false_ne_true, if_neg (not_not.mpr h4), State.readAny]
  cases mapOff fn off with
  | none => rfl
  | some p => exact (if_neg (by decide)).trans (if_neg (by decide))

theorem badAccessWidth_read8 {fn off p : Nat} (hm : mapOff fn off = some p) (h : accessOk off 8 false = true) (s : State)
    (ha : ∀ i, p - p % 4 ≠ R.accData i) :
    badAccessWidth fn off 8 false s =
      { s with readData := BitVec.ofNat 64 (bfGet (s.regView (p - p % 4) &&& s.shown fn (p - p % 4)) (8 * (p % 4)) 8) } := by
  unfold badAccessWidth
  rw [if_pos h, if_neg Bool.false_ne_true, State.readAny, hm]
  dsimp only
  rw [if_pos rfl, State.readByte, s.readReg_of_ne fn ha]
  rfl

theorem badAccessWidth_refused {off width : Nat} {w : Bool} (h : accessOk off width w = false) (fn : Nat) (s : State) :
    badAccessWidth fn off width w s = { s.badAccess ((mapOff fn off).getD off) with readData := if w then s.readData else 0 } := by
  unfold badAccessWidth
  rw [h, if_neg Bool.false_ne_true]
  cases w with
  | false => rfl
  | true =>
    rw [if_pos rfl, if_pos rfl]
    have hd : (s.badAccess ((mapOff fn off).getD off)).readData = s.readData := State.raise_readData ..
    rw [← hd]

/-! ### BAR4 (R387, R388) -/

theorem State.bar4Bad_raised (s : State) (w : Nat) :
    ∃ e, (s.bar4Bad w).err.raised = s.err.raised ++ [e] ∧ e.cls = 1 ∧ e.code = 0x51 ∧ e.uid = memUid w :=
  State.raise_raised ..

theorem State.bar4Refuse_raised (s : State) (fn : Nat) :
    ∃ e, (s.bar4Refuse fn).err.raised = s.err.raised ++ [e] ∧ e.cls = 2 ∧ e.code = 0x13 := by
  obtain ⟨e, he, hc, hk, -⟩ : ∃ e, (s.bar4Refuse fn).err.raised = s.err.raised ++ [e] ∧ e.cls = 2 ∧ e.code = St.ownership ∧
    e.uid = pcieUid := State.raise_raised ..
  exact ⟨e, he, hc, hk⟩

section
variable {s : State} {fn addr n : Nat} (hn : addr + n ≤ min hbmTop (2 ^ s.bar4Log2 fn))
include hn

theorem bar4Len_inside : s.bar4Len fn addr n = n := by
  unfold State.bar4Len
  omega

variable (h0 : 0 < n)
include h0

theorem bar4Read_good (h8 : n ≤ 8) (hok : s.bar4Ok fn addr n = true) (hb : s.bad = []) :
    bar4Read fn addr n s = { s with readData := BitVec.ofNat 64 (s.rd addr n) } := by
  unfold bar4Read
  rw [Nat.min_eq_left h8, bar4Len_inside hn]
  dsimp only
  rw [if_neg h0.ne', hok, hb]
  rfl

theorem bar4Read_uncorrectable (h8 : n ≤ 8) (hok : s.bar4Ok fn addr n = true) {w : Nat} (hb : s.bad = [w]) (hw : w < addr + n)
    (hw' : addr < w + 8) : bar4Read fn addr n s = { s.bar4Bad w with readData := 0 } := by
  have hf : [w].find? (fun w => decide (w < addr + n ∧ addr < w + 8)) = some w := by
    simp [hw, hw']
  unfold bar4Read
  rw [Nat.min_eq_left h8, bar4Len_inside hn]
  dsimp only
  rw [if_neg h0.ne', hok, hb, hf]
  rfl

theorem bar4Read_refused (h8 : n ≤ 8) (hok : s.bar4Ok fn addr n = false) :
    bar4Read fn addr n s = { s.bar4Refuse fn with readData := 0 } := by
  unfold bar4Read
  rw [Nat.min_eq_left h8, bar4Len_inside hn]
  dsimp only
  rw [if_neg h0.ne', hok]
  rfl

theorem bar4Write_good {d : List Byte} (hd : d.length = n) (hok : s.bar4Ok fn addr n = true) (hb : s.bad = []) :
    bar4Write fn addr d s = s.write addr d := by
  unfold bar4Write
  rw [hd, bar4Len_inside hn]
  dsimp only
  rw [if_neg h0.ne', hok, hb, List.take_of_length_le hd.le]
  rfl

theorem bar4Write_refused {d : List Byte} (hd : d.length = n) (hok : s.bar4Ok fn addr n = false) :
    bar4Write fn addr d s = s.bar4Refuse fn := by
  unfold bar4Write
  rw [hd, bar4Len_inside hn]
  dsimp only
  rw [if_neg h0.ne', hok]
  rfl

end

section
variable {s : State} {fn addr : Nat} (h : min hbmTop (2 ^ s.bar4Log2 fn) ≤ addr)
include h

theorem bar4Len_beyond (n : Nat) : s.bar4Len fn addr n = 0 := by
  unfold State.bar4Len
  omega

theorem bar4Read_beyond (n : Nat) : bar4Read fn addr n s = { s with readData := 0 } := by
  unfold bar4Read
  rw [bar4Len_beyond h]
  rfl

theorem bar4Write_beyond (d : List Byte) : bar4Write fn addr d s = s := by
  unfold bar4Write
  rw [bar4Len_beyond h]
  rfl

end

/-! ### Registers with a range of their own (R158, R265, R367) -/

section
variable {s : State} {fn i : Nat} (v : W32)

theorem zeroExtend_toNat : (v.zeroExtend 64).toNat = v.toNat := by
  simp
  omega

theorem buddySizeWrite_sets (hf : fnPhysical fn = true) (ha : (s.insts.any fun e => decide (e.2.st ≠ .absent)) = false) :
    s.writeMem fn R.buddyCfg (v.zeroExtend 64) = s.setReg R.buddyCfg (BitVec.ofNat 64 (min 96 (v.toNat % 2 ^ 7))) := by
  unfold State.writeMem
  rw [hf, if_neg (by decide), if_pos rfl, ha, if_neg Bool.false_ne_true, zeroExtend_toNat]
  rfl

theorem buddySizeWrite_ignored (h : fnPhysical fn = false ∨ (s.insts.any fun e => decide (e.2.st ≠ .absent)) = true) :
    s.writeMem fn R.buddyCfg (v.zeroExtend 64) = s := by
  unfold State.writeMem
  obtain hf | ha := h
  · rw [hf]
    rfl
  · rw [ha, if_pos rfl, if_pos rfl, ite_self]

variable (hf : fnMay fn i = true)
include hf

theorem collCut_page : ¬0x1180000 ≤ R.collCut i ∧ (R.collCut i - 0x1100000) / 0x1000 = i := by
  have hi : i < 64 := of_decide_eq_true (Bool.and_eq_true .. ▸ hf).1
  unfold R.collCut
  omega

theorem writeColl_cut :
    s.writeColl fn (R.collCut i) (v.zeroExtend 64) =
      if (s.inst i).st = .active then s
      else if cutsOk v.toNat = false then s.sticky .coll (R.collStat i) 5 St.internal i
      else s.rawWrite (R.collCut i) (v.zeroExtend 64) := by
  obtain ⟨hlow, hpage⟩ := collCut_page hf
  unfold State.writeColl
  rw [if_neg hlow, hpage, zeroExtend_toNat]
  simp [hf]

end

theorem getLsbD_bfSet_one (x : W64) {n : Nat} (hn : n < 64) : (bfSet x n 1 1).getLsbD n = true := by
  simp only [bfSet, BitVec.getLsbD_or, BitVec.getLsbD_ofNat]
  simp [hn, Nat.testBit_shiftLeft]

theorem State.setBit_true_bit (s : State) (off : Nat) {n : Nat} (hn : n < 64) : (s.setBit off n true).bit off n = true := by
  unfold State.setBit State.setFld State.bit
  rw [State.setReg_reg_same]
  exact getLsbD_bfSet_one _ hn

theorem State.setFld_reg_ne (s : State) {off p : Nat} (lo w v : Nat) (h : p ≠ off) : (s.setFld off lo w v).reg p = s.reg p :=
  State.setReg_reg_ne _ _ _ _ h

theorem State.reg_of_regs {s t : State} (h : t.regs = s.regs) (p : Nat) : t.reg p = s.reg p := by
  rw [State.reg, h, State.reg]

theorem bfGet_bfSet_low (x : W64) {w v : Nat} (hw : w ≤ 64) (hv : v < 2 ^ w) : bfGet (bfSet x 0 w v) 0 w = v := by
  apply Nat.eq_of_testBit_eq
  intro i
  simp only [bfGet, bfSet, Nat.shiftRight_zero, Nat.testBit_mod_two_pow, BitVec.testBit_toNat, BitVec.getLsbD_or, BitVec.getLsbD_and,
    BitVec.getLsbD_not, BitVec.getLsbD_ofNat, Nat.shiftLeft_zero, Nat.testBit_two_pow_sub_one, Nat.mod_eq_of_lt hv]
  by_cases hi : i < w
  · simp [hi, show i < 64 by omega]
  · simp [hi, Nat.testBit_lt_two_pow (hv.trans_le (Nat.pow_le_pow_right (by decide) (Nat.le_of_not_lt hi)))]

theorem pwrCfgWrite_spec (s : State) (v : W64) :
    let vmax := min 2 (v.toNat / 65536 % 4)
    (s.pwrCfgWrite v).reg R.devPwrCfg = BitVec.ofNat 64 (max 4000 (min 13000 (v.toNat % 65536)) + vmax * 65536) ∧
      (s.pwrCfgWrite v).vset = min s.vset vmax := by
  intro vmax
  unfold State.pwrCfgWrite
  extract_lets lim s₁
  have hs : s₁.vset = s.vset := congrArg (bfGet · 0 2) (State.setReg_reg_ne _ _ _ _ (by decide))
  split
  · next h =>
    refine ⟨(State.setFld_reg_ne _ _ _ _ (by decide)).trans (State.setReg_reg_same ..), ?_⟩
    have hv : (s₁.setFld R.devPwrStat 0 2 vmax).vset = vmax := by
      unfold State.vset State.fld State.setFld
      rw [State.setReg_reg_same]
      exact bfGet_bfSet_low _ (by decide) (by omega)
    rw [hs] at h
    exact hv.trans (Nat.min_eq_right h.le).symm
  · next h =>
    rw [hs] at h
    exact ⟨State.setReg_reg_same .., hs.trans (Nat.min_eq_left (Nat.le_of_not_lt h)).symm⟩

/-- Settles O49, clause by clause with the lemma of each access. -/
theorem registerAccess : Obligations.RegisterAccess := by
  refine ⟨fun s fn off p hm h4 h8 hw => ⟨fun ha => ?_, fun u hu => ?_, fun v => ?_, fun v l hl => ?_, fun ha h64 => ?_⟩,
    fun s fn off p base r v hm h4 hb hr hw hmay hlow => ?_, fun s fn off w v hm h4 hfn hoff => ⟨?_, ?_⟩,
    fun s fn q n v hfn hq hn4 hn => ?_, fun s fn v hfn => ⟨fun h30 h39 hc => ?_, fun h => ?_⟩,
    fun s fn off width w => ⟨fun h => ?_, fun h => ?_, fun p hm h ha => ?_, fun h => ?_⟩,
    fun s fn addr len d => ⟨fun hok h0 h8 hlen => ⟨fun hb => ?_, fun w hb hw hw' => ?_⟩, fun hok h0 h8 hlen => ?_, fun h => ⟨?_, ?_⟩,
      fun hok hd hlen hb => ?_, fun hok hd hlen => ?_, fun h => ?_⟩,
    fun s fn i v => ⟨fun hf ha => ?_, fun h => ?_, fun hf hst hc => ?_, fun hf hst hc => ?_, fun hf hst => ?_, fun hf => ?_, fun hf => ?_⟩⟩
  -- halves of 64-bit registers
  · exact gives_of_eq (lowerHalfRead_wide hm h4 h8 hw ha) rfl ⟨rfl, State.latch_setLatch .., rfl, rfl, rfl⟩
  · exact gives_of_eq (upperHalfRead_wide hm h4 hw hu) rfl ⟨rfl, State.latch_setLatch .., rfl, rfl, rfl⟩
  · exact gives_of_eq (lowerHalfWrite_wide hm h4 h8 hw v) rfl ⟨State.heldHalf_setHeld .., rfl, rfl, rfl⟩
  · exact congrArg _ (upperHalfWrite_wide hm h4 hw hl v)
  · have hp : p < 2 ^ 28 := by
      by_contra hc
      rw [isWide_high (Nat.le_of_not_lt hc)] at hw
      exact Bool.false_ne_true hw
    exact gives_of_eq (badAccessWidth_read_wide hm hw ha h64) rfl ⟨rfl, s.heldHalf_dropHeld hp, rfl, rfl, rfl⟩
  -- the access codes of a register
  · exact gives_of_eq ((registerWrite_solv hm h4 hb hr hw hmay hlow v).trans (State.rawWrite_eq hr _)) rfl
      ⟨State.setReg_reg_same .., State.setReg_reg_ne _ _ _, rfl⟩
  -- offsets that are not mapped
  · exact congrArg _ ((lowerHalfRead_unmapped hm h4 s).trans (readOther_low hfn s hoff))
  · exact congrArg _ (registerWrite_unmapped hm hfn hoff w v s)
  -- doorbell pages
  · have hread := lowerHalfRead_page hfn hq hn4 hn s
    have hwrite := lowerHalfWrite_page hfn hq hn4 hn s v
    obtain ⟨h0, h1, h2, h3⟩ := writePage_doorbells s fn q v
    refine ⟨fun ho h8 hA => ?_, fun h => ?_, ?_, ?_, ?_, ?_, fun n0 n1 n2 n3 => ?_⟩
    · rw [readPage_flags hn s fn ho h8 hA] at hread
      exact congrArg _ hread
    · rw [readPage_zero hn s fn h] at hread
      exact congrArg _ hread
    · rintro rfl
      exact congrArg _ (hwrite.trans h0)
    · rintro rfl
      exact congrArg _ (hwrite.trans h1)
    · rintro rfl
      exact congrArg _ (hwrite.trans h2)
    · rintro rfl
      exact congrArg _ (hwrite.trans h3)
    · exact congrArg _ (hwrite.trans (writePage_other hn s fn v n0 n1 n2 n3))
  -- the Resizable BAR
  · exact gives_of_eq ((lowerHalfWrite_rebar hfn s v).trans (if_pos ⟨h30, h39, ne_true_of_eq_false hc⟩)) rfl
      ⟨sget_sput_same .., fun f hf => sget_sput_ne _ _ _ hf, rfl, rfl⟩
  · refine congrArg _ ((lowerHalfWrite_rebar hfn s v).trans (if_neg ?_))
    rintro ⟨h30, h39, hc⟩
    obtain h | h | h := h
    · exact absurd h30 (Nat.not_le_of_lt h)
    · exact absurd h39 (Nat.not_le_of_lt h)
    · exact hc h
  -- accesses of another width
  · exact congrArg _ (badAccessWidth_accepted_write h fn s)
  · exact congrArg _ (badAccessWidth_read32 h fn s)
  · exact congrArg _ (badAccessWidth_read8 hm h s ha)
  · exact gives_of_eq (badAccessWidth_refused h fn s) rfl
      ⟨State.raise_regs .., State.badAccess_mem .., rfl, s.badAccess_raised _⟩
  -- BAR4
  · exact congrArg _ (bar4Read_good hlen h0 h8 hok hb)
  · exact gives_of_eq (bar4Read_uncorrectable hlen h0 h8 hok hb hw hw') rfl ⟨rfl, State.bar4Bad_mem .., s.bar4Bad_raised w⟩
  · exact gives_of_eq (bar4Read_refused hlen h0 h8 hok) rfl ⟨rfl, State.bar4Refuse_mem .., s.bar4Refuse_raised fn⟩
  · exact congrArg _ (bar4Read_beyond h len)
  · exact congrArg _ (bar4Write_beyond h d)
  · exact gives_of_eq (bar4Write_good hlen (List.length_pos_iff.mpr hd) rfl hok hb) rfl
      ⟨write_rbs s addr d hb, write_kept_but s addr d, State.write_regs ..⟩
  · exact gives_of_eq (bar4Write_refused hlen (List.length_pos_iff.mpr hd) rfl hok) rfl
      ⟨State.bar4Refuse_mem .., s.bar4Refuse_raised fn⟩
  · rw [State.bar4Ok, h]
    rfl
  -- registers with a range of their own
  · exact gives_of_eq (buddySizeWrite_sets v hf ha) rfl (State.setReg_reg_same ..)
  · exact congrArg _ (buddySizeWrite_ignored v h)
  · exact congrArg _ ((writeColl_cut v hf).trans ((if_neg hst).trans (if_neg (ne_false_of_eq_true hc))))
  · refine gives_of_eq ((writeColl_cut v hf).trans ((if_neg hst).trans (if_pos hc))) rfl ⟨?_, ?_⟩
    · exact (congrArg (·.getLsbD 5) (State.reg_of_regs (State.raise_regs ..) _)).trans (s.setBit_true_bit _ (by decide))
    · refine (State.reg_of_regs (State.raise_regs ..) _).trans (State.setReg_reg_ne _ _ _ _ ?_)
      unfold R.collCut R.collStat
      omega
  · exact congrArg _ ((writeColl_cut v hf).trans (if_pos hst))
  · refine gives_of_eq (if_pos hf) rfl ?_
    have h := pwrCfgWrite_spec s (v.zeroExtend 64)
    rwa [zeroExtend_toNat] at h
  · exact congrArg _ (if_neg (ne_true_of_eq_false hf))

end Sys2Proof.Machine
end

section
/-! PROOFS. The state after reset (O58). -/

namespace Sys2Proof.Machine

/-- The registers with a reset value of their own in the 64 pages of their blocks (R186, R209, R252, R279). -/
theorem resetOf_pages : ∀ i < 64, resetOf (R.residMax i) = 0x3B800000 ∧ resetOf (R.gateTimeout i) = 0x00400000 ∧
    resetOf (R.chunkTimeout i) = 0x00100000 ∧ resetOf (R.resetTimeout i) = 0x02000000 := by
  decide

/-- The input power limit is 13,000 W after reset (Table 18.7). -/
theorem reset_powerLimit : State.reset.fld R.devPwrCfg 0 16 = 0x32C8 := by decide

/-- Settles O58: no table lists anything after reset, so each reads as its default. -/
theorem resetLeaves : Obligations.ResetLeaves :=
  ⟨rfl, rfl, wf_reset, fun _ => rfl, fun _ => rfl, fun _ => rfl, fun _ _ => rfl, fun _ => rfl, fun _ _ => rfl, fun _ _ => ite_self _,
    fun _ => rfl, rfl, resetOf_pages, reset_powerLimit, fun _ => rfl⟩

end Sys2Proof.Machine
end

section
/-! PROOFS. A core performs what it takes, and a held instruction holds every later one (O2). -/

namespace Sys2Proof.Machine

/-! ### The held instruction -/

/-- The state's cores hold what they held. -/
structure HeldKept (s t : State) : Prop where
  held_eq : ∀ j, (t.core j).held = (s.core j).held

theorem HeldKept.refl (s : State) : HeldKept s s := ⟨fun _ => rfl⟩
theorem HeldKept.trans {s t u : State} (h : HeldKept s t) (h' : HeldKept t u) : HeldKept s u :=
  ⟨fun j => (h'.held_eq j).trans (h.held_eq j)⟩

/-- The same cores hold the same instructions. -/
theorem heldKept_of_cores {s t : State} (h : t.cores = s.cores) : HeldKept s t := ⟨fun j => by rw [State.core, h, State.core]⟩

section
variable (s : State) (k : Nat)

/-- A core replaced by one that agrees with it in `f` leaves `f` of every core. -/
theorem setCore_keeps {α : Type} (f : Core → α) (c : Core) (h : f c = f (s.core k)) (j : Nat) :
    f ((s.setCore k c).core j) = f (s.core j) := by
  by_cases hj : j = k
  · subst hj
    rw [State.setCore_core_same, h]
  · rw [State.setCore_core_ne _ _ _ _ hj]

/-- A core replaced by one that holds the same instruction. -/
theorem heldKept_setCore (c : Core) (h : c.held = (s.core k).held) : HeldKept s (s.setCore k c) := ⟨setCore_keeps s k Core.held c h⟩

/-- Past an instruction, a core differs in its pc, its open loops and their counters alone (R88). -/
theorem Core.advanceIn_eq (l : List LoopRec) : ∀ (c : Core) (n : Nat) (kept : List LoopRec),
    ∃ pc loops lc, c.advanceIn n kept l = { c with pc := pc, loops := loops, lc := lc } := by
  induction l with
  | nil => exact fun c n kept => ⟨n, kept, c.lc, rfl⟩
  | cons r l ih =>
    intro c n kept
    rw [Core.advanceIn]
    dsimp only
    split
    · split
      · exact ⟨_, _, _, rfl⟩
      · exact ih (c.setLc r.lc _) _ _
    · exact ih _ _ _

theorem Core.advance_eq (c : Core) : ∃ pc loops lc, c.advance = { c with pc := pc, loops := loops, lc := lc } := Core.advanceIn_eq ..

theorem Core.advance_held (c : Core) : c.advance.held = c.held := by
  obtain ⟨_, _, _, h⟩ := c.advance_eq
  rw [h]

theorem Core.advance_fault (c : Core) : c.advance.fault = c.fault := by
  obtain ⟨_, _, _, h⟩ := c.advance_eq
  rw [h]

theorem heldKept_trace (kind word n cause : Nat) : HeldKept s (s.trace k kind word n cause) := by
  apply heldKept_of_cores
  unfold State.trace
  dsimp only
  repeat' split
  all_goals rfl

theorem heldKept_modLaunch (id : Nat) (f : LaunchRec → LaunchRec) : HeldKept s (s.modLaunch id f) := heldKept_of_cores rfl

theorem heldKept_slip (e : Nat) (i : Instr) (t : W64) (tag : Tag) (held : Bool) : HeldKept s (s.slip k e i t tag held) := by
  unfold State.slip
  dsimp only
  split
  · exact ((heldKept_setCore s k _ (by rfl)).trans (heldKept_trace ..)).trans (heldKept_modLaunch ..)
  · exact (heldKept_setCore s k _ (by rfl)).trans (heldKept_trace ..)

theorem heldKept_startPass (e : Nat) (p : Pass) (held : Bool) : HeldKept s (s.startPass k e p held) := by
  have h (x : Slots) : HeldKept s (s.setCore k ((s.core k).setSlots e x)) := heldKept_setCore _ _ _ rfl
  unfold State.startPass
  dsimp only
  split
  · split
    · exact (h _).trans (heldKept_slip ..)
    · exact h _
  · exact h _

theorem heldKept_place (i : Instr) (t : Option W64) (late : Late) (foot : Foot) : HeldKept s (s.place k i t late foot) := by
  unfold State.place State.enterSlot
  dsimp only
  split
  · split
    · exact heldKept_startPass ..
    · exact heldKept_setCore _ _ _ rfl
  · split
    · split
      · exact heldKept_slip ..
      · exact .refl s
    · exact .refl s

theorem heldKept_rearm : HeldKept s (s.rearm k) := by
  apply heldKept_of_cores
  unfold State.rearm
  split <;> rfl

theorem heldKept_unbind (st : CoreSt) : HeldKept s (s.unbind k st) := by
  apply heldKept_of_cores
  unfold State.unbind State.dlBreak
  dsimp only
  repeat' split
  all_goals rfl

theorem heldKept_setSt (st : CoreSt) : HeldKept s (s.setSt k st) := by
  have go {u : State} (h : HeldKept s u) : HeldKept s ((u.setCore k { u.core k with st := st }).trace k 4 st.code 0 0) :=
    (h.trans (by exact heldKept_setCore _ _ _ rfl)).trans (heldKept_trace ..)
  unfold State.setSt
  dsimp only
  split
  · exact .refl s
  · split
    · exact go (heldKept_rearm ..)
    · exact go (heldKept_unbind ..)

theorem heldKept_moveOn (jumped : Bool) : HeldKept s (s.moveOn k jumped) := by
  unfold State.moveOn
  generalize hw : (if jumped = true then s else s.setCore k (s.core k).advance) = w
  have h : HeldKept s w := by
    subst hw
    cases jumped
    · exact heldKept_setCore _ _ _ (Core.advance_held _)
    · exact .refl s
  dsimp only
  split
  · split
    · exact h.trans (by exact heldKept_setCore _ _ _ rfl)
    · exact (h.trans (by exact heldKept_setCore _ _ _ rfl)).trans (heldKept_setSt ..)
  · exact h

/-- An instruction that completes issue leaves nothing held. -/
theorem finish_held (i : Instr) (t : Option W64) (late : Late) (jumped : Bool) :
    ((s.finish k i t late jumped).core k).held = none := by
  rw [State.finish, (heldKept_moveOn ..).held_eq, (heldKept_place ..).held_eq, State.countIssue, State.setCore_core_same]

end

/-! ### What issue does -/

section
variable {s : State} {k : Nat} {i : Instr}

/-- Nothing reaches a core whose issue an earlier instruction holds. -/
theorem issue_of_held (h : (s.core k).held ≠ none) (act : Tag → State → Act) : s.issue k i act = s :=
  if_pos (.inr (.inl (Option.isSome_iff_ne_none.mpr h)))

/-- What a core attends to, with assigned operands and without back-pressure, begins. -/
theorem issue_eq_begin (h : Attends s k) (hw : i.wf = true) (ht : s.traceHolds k = false) (act : Tag → State → Act) :
    s.issue k i act = s.begin k i act {} := by
  obtain ⟨hst, hheld, hb, hr⟩ := h
  unfold State.issue
  simp [hst, hheld, hb, hr, hw, ht]

/-- Before its target beat, and while its engine has no slot, an instruction that begins is held. -/
theorem begin_holds (act : Tag → State → Act) (inp : InputTag)
    (h : (∃ d, launchOf i = some d ∧ s.beat < (s.core k).ba + BitVec.ofNat 64 d) ∨ (s.core k).slotsFull i = true) :
    s.begin k i act inp = s.hold k i := by
  refine if_pos ?_
  rw [Bool.or_eq_true]
  refine h.imp (fun ⟨d, hd, hlt⟩ => ?_) id
  simpa [Core.target, hd] using hlt

/-- At its target beat or past it, and with a slot free, an instruction that begins is performed. -/
theorem begin_settles (act : Tag → State → Act) (inp : InputTag)
    (ht : ∀ d, launchOf i = some d → (s.core k).ba + BitVec.ofNat 64 d ≤ s.beat) (hf : (s.core k).slotsFull i = false) :
    ∃ tag target late, s.begin k i act inp = s.settle k i (act tag s) target late := by
  refine ⟨_, _, _, if_neg ?_⟩
  rw [hf, Bool.or_false]
  cases hl : launchOf i with
  | none => simp [Core.target, hl]
  | some d => simpa [Core.target, hl] using BitVec.not_lt.mpr (ht d hl)

/-- A held instruction of a core that may go on is tried again. -/
theorem instructionStart_eq_begin (inp : InputTag) (hh : (s.core k).held = some i) (hst : (s.core k).st = .running)
    (hg : (s.core k).gangWait = false) (hb : (s.core k).boundary = false) (hr : s.resumeHolds k = false)
    (ht : s.traceHolds k = false) : instructionStart k inp s = s.begin k i (perform i) inp := by
  unfold instructionStart
  simp [hh, hst, hg, hb, hr, ht]

end

/-- Settles O2: issue and start both come to `begin`, which holds the instruction or performs it. -/
theorem coreIssueInOrder : Obligations.CoreIssueInOrder := by
  intro i k s hk
  have he := exec_eq_issue hk s
  refine ⟨fun h => ?_, fun h => ?_, fun ha hw ht h => ?_, fun inp hh hst hg hb hr ht hf hd => ?_, fun t late jumped => finish_held ..⟩
  · obtain ⟨tag, t, late, h⟩ := issue_settles (perform i) h
    exact ⟨tag, t, late, he.trans (congrArg _ h)⟩
  · exact he.trans (congrArg _ (issue_of_held h _))
  · exact he.trans (congrArg _ ((issue_eq_begin ha hw ht _).trans (begin_holds _ _ h)))
  · obtain ⟨tag, t, late, h⟩ := begin_settles (perform i) inp hd hf
    exact ⟨tag, t, late, congrArg _ ((instructionStart_eq_begin inp hh hst hg hb hr ht).trans h)⟩

end Sys2Proof.Machine
end

section
/-! PROOFS. BEAT.WAIT waits for its beat, and neither slips nor faults (O23). -/

namespace Sys2Proof.Machine

section
variable {s : State} {k : Nat}

/-- An instruction that completes issue changes no core's fault record. -/
theorem finish_fault (i : Instr) (t : Option W64) (late : Late) (j : Nat) :
    ((s.finish k i t late false).core j).fault = (s.core j).fault := by
  obtain ⟨hk, hne, -, -⟩ := finish_spec s k i t late false
  have of_arch {c d : Core} (h : c.arch = d.arch) : c.fault = d.fault := show c.arch.fault = d.arch.fault by rw [h]
  by_cases hj : j = k
  · subst hj
    exact (of_arch hk).trans (Core.advance_fault _)
  · exact of_arch (hne j hj)

theorem hold_fault (i : Instr) (j : Nat) : ((s.hold k i).core j).fault = (s.core j).fault :=
  setCore_keeps s k Core.fault _ (by rfl) j

/-- What an act that holds, or that answers the state as it was, comes to changes no core's fault record. -/
theorem settle_fault {a : Act} (ha : a = .hold ∨ a = .next s) (i : Instr) (t : Option W64) (late : Late) (j : Nat) :
    ((s.settle k i a t late).core j).fault = (s.core j).fault := by
  obtain rfl | rfl := ha
  · exact hold_fault i j
  · unfold State.settle
    dsimp only
    split
    · exact setCore_keeps s k Core.fault _ (by rfl) j
    · exact finish_fault ..

/-- An instruction with an assigned encoding whose act holds, or answers the state as it was, faults no core. -/
theorem issue_fault {i : Instr} {act : Tag → State → Act} (hw : i.wf = true) (ha : ∀ tag, act tag s = .hold ∨ act tag s = .next s)
    (j : Nat) : ((s.issue k i act).core j).fault = (s.core j).fault := by
  unfold State.issue
  dsimp only
  split
  · rfl
  · rw [hw, Bool.not_true, if_neg Bool.false_ne_true]
    split
    · exact setCore_keeps s k Core.fault _ (by rfl) j
    · unfold State.begin
      dsimp only
      split
      · exact hold_fault i j
      · exact settle_fault (ha _) ..

/-- Before its beat, and in a frozen solve, BEAT.WAIT holds. -/
theorem doBeatWait_holds {imm : W32} (h : s.beat < (s.core k).ba + imm.zeroExtend 64 ∨ s.solveFrozen k = true) (tag : Tag) :
    doBeatWait k imm tag s = .hold := if_pos h

theorem doBeatWait_passes {imm : W32} (h : ¬(s.beat < (s.core k).ba + imm.zeroExtend 64 ∨ s.solveFrozen k = true)) (tag : Tag) :
    doBeatWait k imm tag s = .next s := if_neg h

/-- An instruction that a core takes, and whose act holds, is held. -/
theorem issue_hold {i : Instr} {act : Tag → State → Act} (h : Issues s k i) (ha : ∀ tag, act tag s = .hold) :
    s.issue k i act = s.hold k i := by
  obtain ⟨tag, t, late, he⟩ := issue_settles act h
  rw [he, ha, State.settle]

/-- An instruction that a core takes, and whose act changes nothing, changes nothing but its core's pc. -/
theorem writes_id {i : Instr} {act : Tag → State → Act} (he : exec i s = .next (s.issue k i act)) (h : Issues s k i)
    (ha : ∀ tag, act tag s = .next s) : Writes i k s id := by
  obtain ⟨⟨-, -, -, hfoot, -⟩, -⟩ := id h
  obtain ⟨t, hr, hk, hne, hm, hd⟩ := does_of he h ha (hfoot ▸ unblocked_nil s k i)
  exact ⟨t, hr, hk, hne, fun a => by rw [State.rb, hm, State.rb], hd⟩

end

/-- Settles O23: the act of BEAT.WAIT holds or answers the state as it was. -/
theorem beatWait : Obligations.BeatWait := by
  intro s k l imm
  have he (s : State) : exec (.beatWait k l imm) s = .next (s.issue k (.beatWait k l imm) (doBeatWait k imm)) := rfl
  refine ⟨fun h hlt => ?_, fun h ht hf => ?_, fun h hf => ?_, fun t late foot => ?_, fun hw t ht j => ?_⟩
  · exact congrArg _ (issue_hold h (doBeatWait_holds (.inl hlt)))
  · have hp : ¬(s.beat < (s.core k).ba + imm.zeroExtend 64 ∨ s.solveFrozen k = true) := by
      rw [hf, or_iff_left Bool.false_ne_true]
      exact BitVec.not_lt.mpr ht
    exact writes_id (he s) h (doBeatWait_passes hp)
  · exact congrArg _ (issue_hold h (doBeatWait_holds (.inr hf)))
  · cases t <;> rfl
  · cases ht
    exact issue_fault hw (fun tag => (Classical.em _).imp (doBeatWait_holds · tag) (doBeatWait_passes · tag)) j

end Sys2Proof.Machine
end

section
/-! PROOFS. Beats, REFCLK, rates and alignment, in the order of the clauses (O50). -/

namespace Sys2Proof.Machine

/-! ### Fields of a register -/

theorem getLsbD_bfSet (x : W64) (lo w v i : Nat) :
    (bfSet x lo w v).getLsbD i = if lo ≤ i ∧ i < lo + w then decide (i < 64) && v.testBit (i - lo) else x.getLsbD i := by
  simp only [bfSet, BitVec.getLsbD_or, BitVec.getLsbD_and, BitVec.getLsbD_not, BitVec.getLsbD_ofNat, Nat.testBit_shiftLeft,
    Nat.testBit_two_pow_sub_one, Nat.testBit_mod_two_pow]
  by_cases hi : i < 64
  · by_cases hlo : lo ≤ i
    · by_cases hw : i < lo + w
      · simp [hi, hlo, hw, show i - lo < w by omega]
      · simp [hi, hlo, hw, show ¬i - lo < w by omega]
    · simp [hi, hlo]
  · simp [hi, BitVec.getLsbD_of_ge x i (Nat.le_of_not_lt hi)]

theorem testBit_bfGet (x : W64) (lo w i : Nat) : (bfGet x lo w).testBit i = (decide (i < w) && x.getLsbD (lo + i)) := by
  rw [bfGet, Nat.testBit_mod_two_pow, Nat.testBit_shiftRight, BitVec.testBit_toNat]

theorem bfGet_bfSet_same (x : W64) {lo w v : Nat} (hw : lo + w ≤ 64) (hv : v < 2 ^ w) : bfGet (bfSet x lo w v) lo w = v := by
  apply Nat.eq_of_testBit_eq
  intro i
  rw [testBit_bfGet, getLsbD_bfSet]
  by_cases hi : i < w
  · simp [hi, show lo + i < 64 by omega]
  · simp [hi, Nat.testBit_lt_two_pow (hv.trans_le (Nat.pow_le_pow_right (by decide) (Nat.le_of_not_lt hi)))]

/-- A field beside the one that is written. -/
theorem bfGet_bfSet_apart (x : W64) {lo w lo' w' : Nat} (v : Nat) (h : lo' + w' ≤ lo ∨ lo + w ≤ lo') :
    bfGet (bfSet x lo w v) lo' w' = bfGet x lo' w' := by
  apply Nat.eq_of_testBit_eq
  intro i
  rw [testBit_bfGet, testBit_bfGet, getLsbD_bfSet]
  by_cases hi : i < w'
  · rw [if_neg (by omega)]
  · simp [hi]

section
variable (s : State)

theorem State.setFld_reg_same (off lo w v : Nat) : (s.setFld off lo w v).reg off = bfSet (s.reg off) lo w v := s.setReg_reg_same ..

theorem State.setBit_bit_same (off : Nat) {n : Nat} (hn : n < 64) (b : Bool) : (s.setBit off n b).bit off n = b := by
  rw [State.setBit, State.bit, State.setFld_reg_same, getLsbD_bfSet, if_pos (by omega), Nat.sub_self, decide_eq_true hn]
  cases b <;> rfl

theorem State.setBit_bit_ne (off n : Nat) (b : Bool) {m : Nat} (h : m ≠ n) : (s.setBit off n b).bit off m = s.bit off m := by
  rw [State.setBit, State.bit, State.setFld_reg_same, getLsbD_bfSet, if_neg (by omega), State.bit]

theorem State.fld_of_reg {s t : State} {off : Nat} (h : t.reg off = s.reg off) (lo w : Nat) : t.fld off lo w = s.fld off lo w := by
  rw [State.fld, h, State.fld]

theorem State.bit_of_reg {s t : State} {off : Nat} (h : t.reg off = s.reg off) (n : Nat) : t.bit off n = s.bit off n := by
  rw [State.bit, h, State.bit]

/-! ### What a record leaves of the registers, and its class -/

section
variable (cls code : Nat) (b : Block) (detail : Nat) (uid : W32) (inst cmd : Nat) (lastUid : W32) (ctx : List Byte) (flags : Nat)

theorem State.raise_reg (off : Nat) : (s.raise cls code b detail uid inst cmd lastUid ctx flags).reg off = s.reg off :=
  State.reg_of_regs (State.raise_regs ..) off

theorem State.raise_bit (off n : Nat) : (s.raise cls code b detail uid inst cmd lastUid ctx flags).bit off n = s.bit off n :=
  State.bit_of_reg (s.raise_reg ..) n

theorem State.raise_class :
    ∃ e, (s.raise cls code b detail uid inst cmd lastUid ctx flags).err.raised = s.err.raised ++ [e] ∧ e.cls = cls := by
  obtain ⟨e, he, hc, -⟩ := s.raise_raised cls code b detail uid inst cmd lastUid ctx flags
  exact ⟨e, he, hc⟩

end

end

/-! ### What a beat counts (R33, R335) -/

theorem Core.setEng_eng_same (c : Core) (e : Nat) (r : EngRec) : (c.setEng e r).eng' e = r := sget_sput_same ..

theorem Core.setEng_eng_ne (c : Core) (e : Nat) (r : EngRec) {j : Nat} (h : j ≠ e) : (c.setEng e r).eng' j = c.eng' j :=
  sget_sput_ne _ _ _ h

/-- A run over distinct engines changes the record of each of them once. -/
theorem foldl_setEng_eng (f : Nat → EngRec → EngRec) (l : List Nat) (hl : l.Nodup) (c : Core) (e : Nat) :
    (l.foldl (fun d e => d.setEng e (f e (d.eng' e))) c).eng' e = if e ∈ l then f e (c.eng' e) else c.eng' e := by
  induction l generalizing c with
  | nil => rfl
  | cons a l ih =>
    obtain ⟨ha, hl⟩ := List.nodup_cons.mp hl
    rw [List.foldl_cons, ih hl]
    by_cases he : e = a
    · subst he
      simp [ha, Core.setEng_eng_same]
    · simp [he, Core.setEng_eng_ne]

theorem EngRec.tick_busy (r : EngRec) (x : Option (Option Nat)) : (r.tick x).busy = r.busy + if x = some none then 1 else 0 := by
  obtain _ | _ | n := x <;> simp [EngRec.tick]

theorem Core.tick_busy (c : Core) (beat : W64) (k : Nat) (full : Bool) (obs : List StallObs) {e : Nat} (he : e < 6) :
    ((c.tick beat k full obs).eng' e).busy = (c.eng' e).busy + if c.beatClass beat k full obs e = some none then 1 else 0 := by
  have h := foldl_setEng_eng (fun e r => r.tick (c.beatClass beat k full obs e)) [0, 1, 2, 3, 4, 5] (by decide) c e
  have hmem : e ∈ [0, 1, 2, 3, 4, 5] := by
    simp only [List.mem_cons, List.not_mem_nil]
    omega
  rw [if_pos hmem] at h
  exact (congrArg EngRec.busy h).trans (EngRec.tick_busy ..)

/-- No engine of a core as it is after reset works in a beat. -/
theorem beatClass_idle (beat : W64) (k : Nat) (full : Bool) (obs : List StallObs) (e : Nat) :
    ({} : Core).beatClass beat k full obs e ≠ some none := by
  simp [Core.beatClass, Core.slots', sget]

/-- An entry of a table whose every value is changed in place: it is changed, or neither table lists it. -/
theorem sget_map_val {α : Type} (d : Nat → α) (f : Nat → α → α) (m : Sparse α) (a : Nat) :
    sget d (m.map fun e => (e.1, f e.1 e.2)) a = f a (sget d m a) ∨
      sget d (m.map fun e => (e.1, f e.1 e.2)) a = d a ∧ sget d m a = d a := by
  induction m with
  | nil => exact .inr ⟨rfl, rfl⟩
  | cons e r ih =>
    rw [List.map_cons, sget, sget]
    split
    · next h => exact .inl (by rw [h])
    · exact ih

/-- The counter, the beats counted and the busy beats of every core engine are the same. -/
structure CountsKept (s t : State) : Prop where
  beat : t.beat = s.beat
  counted : t.beatsCounted = s.beatsCounted
  busy : ∀ k e, ((t.core k).eng' e).busy = ((s.core k).eng' e).busy

theorem CountsKept.refl (s : State) : CountsKept s s := ⟨rfl, rfl, fun _ _ => rfl⟩

theorem CountsKept.trans {s t u : State} (h : CountsKept s t) (h' : CountsKept t u) : CountsKept s u :=
  ⟨h'.beat.trans h.beat, h'.counted.trans h.counted, fun k e => (h'.busy k e).trans (h.busy k e)⟩

/-- A change that leaves the counter and the cores alone. -/
theorem countsKept_of_eq {s t : State} (hb : t.beat = s.beat) (hn : t.beatsCounted = s.beatsCounted) (hc : t.cores = s.cores) :
    CountsKept s t := ⟨hb, hn, fun k e => by rw [State.core, hc, State.core]⟩

theorem countsKept_forEach {α : Type} (l : List α) (s : State) (f : State → α → State) (hf : ∀ t x, CountsKept t (f t x)) :
    CountsKept s (forEach l s f) :=
  forEach_keeps (CountsKept s) l s f (fun t x h => h.trans (hf t x)) (.refl s)

section
variable (s : State)

/-- One more error of an engine is no busy beat of it. -/
theorem countsKept_setCore_setEng (k e : Nat) (r : EngRec) (h : r.busy = ((s.core k).eng' e).busy) :
    CountsKept s (s.setCore k ((s.core k).setEng e r)) := by
  refine ⟨rfl, rfl, fun j e' => ?_⟩
  by_cases hj : j = k
  · subst hj
    rw [State.setCore_core_same]
    by_cases he : e' = e
    · subst he
      rw [Core.setEng_eng_same, h]
    · rw [Core.setEng_eng_ne _ _ _ he]
  · rw [State.setCore_core_ne _ _ _ _ hj]

theorem countsKept_raiseRec (r : ErrRec) : CountsKept s (s.raiseRec r) := by
  unfold State.raiseRec
  extract_lets r' x u e k c cl d
  have hu : CountsKept s u := countsKept_of_eq rfl rfl rfl
  split
  · split
    · exact hu.trans (countsKept_setCore_setEng u k e _ (by rfl))
    · split
      · exact countsKept_of_eq rfl rfl rfl
      · exact hu
  · exact hu

theorem countsKept_stale (i : Nat) : CountsKept s (s.stale i) :=
  (countsKept_of_eq rfl rfl rfl : CountsKept s (s.incReg (R.staleDrop i))).trans (countsKept_raiseRec ..)

theorem countsKept_completeWith (c : Cmd) (status resultLo : Nat) (result : W64) (l : Option LaunchRec) :
    CountsKept s (s.completeWith c status resultLo result l) := by
  unfold State.completeWith
  dsimp only
  split
  · exact countsKept_stale ..
  · exact countsKept_of_eq rfl rfl rfl

theorem countsKept_finishWait (c : Cmd) : CountsKept s (s.finishWait c) := by
  unfold State.finishWait
  dsimp only
  split
  · exact (countsKept_of_eq rfl rfl rfl : CountsKept s (s.takeCnt ..)).trans (countsKept_completeWith ..)
  · exact countsKept_completeWith ..

theorem countsKept_wakeHost (kind : Nat) : CountsKept s (s.wakeHost kind) := by
  refine countsKept_forEach _ _ _ fun t c => ?_
  split
  · exact countsKept_finishWait ..
  · exact .refl t

theorem countsKept_dlTick : CountsKept s s.dlTick := by
  refine countsKept_forEach _ _ _ fun t i => ?_
  extract_lets x since
  split
  · exact .refl t
  · exact countsKept_of_eq rfl rfl rfl

variable {s}

/-- With the PLL locked a beat counts one, and one busy beat for each engine that works. -/
theorem beatTick_counts (obs : List StallObs) (h : s.bit R.beatStat 0 = true) :
    (beatTick obs s).beat = s.beat + 1 ∧ (beatTick obs s).beatsCounted = s.beatsCounted + 1 ∧
      ∀ k e, e < 6 → (((beatTick obs s).core k).eng' e).busy = ((s.core k).eng' e).busy +
        if (s.core k).beatClass s.beat k (s.traceHolds k) obs e = some none then 1 else 0 := by
  unfold beatTick
  rw [h, Bool.not_true, if_neg Bool.false_ne_true]
  extract_lets cores clusters run u
  have hu : CountsKept u (u.wakeHost 3).dlTick := (countsKept_wakeHost u 3).trans (countsKept_dlTick _)
  refine ⟨hu.beat, hu.counted, fun k e he => (hu.busy k e).trans ?_⟩
  obtain hk | ⟨hk, hd⟩ := sget_map_val (fun _ => ({} : Core)) (fun k c => c.tick s.beat k (s.traceHolds k) obs) s.cores k
  · exact (congrArg (fun c : Core => (c.eng' e).busy) hk).trans (Core.tick_busy _ _ _ _ _ he)
  · have hs : s.core k = {} := hd
    rw [hs, if_neg (beatClass_idle _ _ _ _ _)]
    exact congrArg (fun c : Core => (c.eng' e).busy) hk

theorem beatTick_unlocked (obs : List StallObs) (h : s.bit R.beatStat 0 = false) : beatTick obs s = s := if_pos (by rw [h, Bool.not_false])

end

/-! ### REFCLK (R35) -/

section
variable {s : State}

theorem refclkLoss_holds (h0 : s.bit R.beatStat 0 = true) (h2 : s.bit R.beatStat 2 = false) :
    (refclkLoss s).bit R.beatStat 2 = true ∧ (refclkLoss s).bit R.beatStat 1 = true ∧ (refclkLoss s).beat = s.beat ∧
      ∃ e, (refclkLoss s).err.raised = s.err.raised ++ [e] ∧ e.cls = 1 := by
  rw [show refclkLoss s = _ from if_pos (by rw [h0, h2]; rfl)]
  refine ⟨(State.raise_bit ..).trans ?_, (State.raise_bit ..).trans (State.setBit_bit_same _ _ (by decide) _),
    (countsKept_raiseRec ..).beat, State.raise_class ..⟩
  rw [State.setBit_bit_ne _ _ _ _ (by decide), State.setBit_bit_same _ _ (by decide)]

theorem refclkLoss_ignored (h : s.bit R.beatStat 0 = false ∨ s.bit R.beatStat 2 = true) : refclkLoss s = s := by
  refine if_neg ?_
  obtain h | h := h <;> simp [h]

end

/-! ### Alignment (R48 to R54) -/

/-- The alignment's state, the counter, the instances, ALIGN_CFG and BEAT_STAT are the same. -/
structure AlignKept (s t : State) : Prop where
  alignSt : t.alignSt = s.alignSt
  beat : t.beat = s.beat
  insts : t.insts = s.insts
  cfg : t.reg R.alignCfg = s.reg R.alignCfg
  pll : t.reg R.beatStat = s.reg R.beatStat

theorem AlignKept.trans {s t u : State} (h : AlignKept s t) (h' : AlignKept t u) : AlignKept s u :=
  ⟨h'.alignSt.trans h.alignSt, h'.beat.trans h.beat, h'.insts.trans h.insts, h'.cfg.trans h.cfg, h'.pll.trans h.pll⟩

theorem AlignKept.anyActive {s t : State} (h : AlignKept s t) : t.anyActive = s.anyActive := by
  rw [State.anyActive, h.insts, State.anyActive]

theorem alignKept_of_regs {s t : State} (hr : t.regs = s.regs) (hb : t.beat = s.beat) (hi : t.insts = s.insts) : AlignKept s t :=
  ⟨State.fld_of_reg (State.reg_of_regs hr _) _ _, hb, hi, State.reg_of_regs hr _, State.reg_of_regs hr _⟩

section
variable (s : State)

/-- A field of ALIGN_STAT above STATE. -/
theorem alignKept_setFld {lo : Nat} (w v : Nat) (h : 2 ≤ lo) : AlignKept s (s.setFld R.alignStat lo w v) := by
  refine ⟨?_, rfl, rfl, s.setFld_reg_ne _ _ _ (by decide), s.setFld_reg_ne _ _ _ (by decide)⟩
  rw [State.alignSt, State.fld, State.setFld_reg_same, bfGet_bfSet_apart _ _ (.inl (by omega))]
  rfl

theorem alignKept_phaseErr (v : W64) : AlignKept s (s.setReg R.phaseErr v) :=
  ⟨State.fld_of_reg (s.setReg_reg_ne _ _ _ (by decide)) _ _, rfl, rfl, s.setReg_reg_ne _ _ _ (by decide),
    s.setReg_reg_ne _ _ _ (by decide)⟩

theorem alignKept_showPort : AlignKept s s.showPort := alignKept_setFld _ _ _ (by decide)

/-- A write of ALIGN_CFG keeps ENABLE and takes the other fields (R54). -/
theorem alignKept_alignFields (v : W64) :
    AlignKept (s.setReg R.alignCfg (BitVec.ofNat 64 ((s.reg R.alignCfg).toNat % 2 + v.toNat % 512 / 2 * 2))) (s.alignFields v) := by
  unfold State.alignFields
  extract_lets old s₁ s₂ s₃
  have h₂ : AlignKept s₁ s₂ := by
    unfold s₂
    split <;> exact alignKept_of_regs rfl rfl rfl
  have h₃ : AlignKept s₂ s₃ := by
    unfold s₃
    split
    · exact (alignKept_setFld _ _ _ (by decide)).trans (alignKept_phaseErr ..)
    · exact alignKept_of_regs rfl rfl rfl
  exact (h₂.trans h₃).trans (alignKept_showPort _)

theorem alignFields_alignSt (v : W64) : (s.alignFields v).alignSt = s.alignSt :=
  (alignKept_alignFields s v).alignSt.trans (State.fld_of_reg (s.setReg_reg_ne _ _ _ (by decide)) _ _)

theorem alignFields_beat (v : W64) : (s.alignFields v).beat = s.beat := (alignKept_alignFields s v).beat

theorem alignFields_anyActive (v : W64) : (s.alignFields v).anyActive = s.anyActive := (alignKept_alignFields s v).anyActive

theorem alignFields_pll (v : W64) : (s.alignFields v).bit R.beatStat 0 = s.bit R.beatStat 0 :=
  State.bit_of_reg ((alignKept_alignFields s v).pll.trans (s.setReg_reg_ne _ _ _ (by decide))) _

theorem alignFields_cfg (v : W64) : (s.alignFields v).reg R.alignCfg =
    BitVec.ofNat 64 ((s.reg R.alignCfg).toNat % 2 + v.toNat % 512 / 2 * 2) :=
  (alignKept_alignFields s v).cfg.trans (s.setReg_reg_same ..)

theorem alignFields_enable (v : W64) : (s.alignFields v).bit R.alignCfg 0 = s.bit R.alignCfg 0 := by
  rw [State.bit, alignFields_cfg, State.bit, BitVec.getLsbD_ofNat, ← BitVec.testBit_toNat, Nat.testBit_zero, Nat.testBit_zero]
  simp

theorem alignFields_isRoot (v : W64) : (s.alignFields v).isRoot = v.getLsbD 1 := by
  rw [State.isRoot, State.bit, alignFields_cfg, BitVec.getLsbD_ofNat, ← BitVec.testBit_toNat, Nat.testBit_succ, Nat.testBit_succ,
    show ((s.reg R.alignCfg).toNat % 2 + v.toNat % 512 / 2 * 2) / 2 = v.toNat % 512 / 2 by omega, Nat.testBit_zero, Nat.testBit_zero,
    show v.toNat % 512 / 2 % 2 = v.toNat / 2 % 2 by omega]
  rfl

theorem setAlign_alignSt {n : Nat} (h : n < 4) : (s.setAlign n).alignSt = n := by
  rw [State.alignSt, State.setAlign, State.fld, State.setFld_reg_same, bfGet_bfSet_same _ (by decide) h]

theorem setAlign_cfg (n : Nat) : (s.setAlign n).reg R.alignCfg = s.reg R.alignCfg := s.setFld_reg_ne _ _ _ (by decide)

theorem setBit_cfg_pll (n : Nat) (b : Bool) : (s.setBit R.alignCfg n b).reg R.beatStat = s.reg R.beatStat :=
  s.setFld_reg_ne _ _ _ (by decide)

variable {s}

theorem alignOn_of_active (h : s.anyActive = true) (parent : Option W64) : s.alignOn parent = s := if_pos (.inr h)

/-- ENABLE set with no instances ACTIVE and the PLL locked: ACQUIRE, at the parent's count but for the root (R51). -/
theorem alignOn_acquires (h0 : s.bit R.alignCfg 0 = false) (ha : s.anyActive = false) (hp : s.bit R.beatStat 0 = true) (parent : W64) :
    (s.alignOn (some parent)).alignSt = 1 ∧ (s.alignOn (some parent)).bit R.alignCfg 0 = true ∧
      (s.alignOn (some parent)).beat = if s.isRoot then s.beat else parent := by
  unfold State.alignOn
  rw [if_neg (by simp [h0, ha])]
  extract_lets s₀ s₁ step
  have hst : s₁.alignSt = 1 := setAlign_alignSt _ (by decide)
  have hcfg : s₁.reg R.alignCfg = (s.setBit R.alignCfg 0 true).reg R.alignCfg := setAlign_cfg ..
  have hen : s₁.bit R.alignCfg 0 = true := (State.bit_of_reg hcfg _).trans (s.setBit_bit_same _ (by decide) _)
  have hroot : s₁.isRoot = s.isRoot := (State.bit_of_reg hcfg _).trans (s.setBit_bit_ne _ _ _ (by decide))
  have hpll : s₁.bit R.beatStat 0 = true :=
    (State.bit_of_reg ((State.setFld_reg_ne _ _ _ _ (by decide)).trans (setBit_cfg_pll ..)) _).trans hp
  rw [hroot, hpll]
  cases s.isRoot
  · have hk : AlignKept { s₁ with beat := parent } (State.showPort { s₁ with beat := parent }) := alignKept_showPort _
    exact ⟨hk.alignSt.trans hst, (State.bit_of_reg hk.cfg _).trans hen, hk.beat⟩
  · have hk := alignKept_showPort s₁
    exact ⟨hk.alignSt.trans hst, (State.bit_of_reg hk.cfg _).trans hen, hk.beat⟩

/-- ENABLE cleared with no instances ACTIVE: FREE, with no step (R51). -/
theorem alignOff_frees (h0 : s.bit R.alignCfg 0 = true) (ha : s.anyActive = false) :
    s.alignOff.alignSt = 0 ∧ s.alignOff.bit R.alignCfg 0 = false ∧ s.alignOff.beat = s.beat := by
  unfold State.alignOff
  rw [if_neg (by simp [h0, ha])]
  have hk := alignKept_showPort
    { (s.setBit R.alignCfg 0 false).setAlign 0 with alignRun := 0, parentDown := false, stepDue := false }
  refine ⟨hk.alignSt.trans (setAlign_alignSt _ (by decide)), (State.bit_of_reg (hk.cfg.trans (setAlign_cfg ..)) _).trans ?_, hk.beat⟩
  exact s.setBit_bit_same _ (by decide) _

end

section
variable {s : State} {fn : Nat} (hf : fnPhysical fn = true) (v : W32) (parent : W64)
include hf

theorem alignEnable_on (hv : v.getLsbD 0 = true) :
    alignEnable fn v parent s = (s.alignFields (v.zeroExtend 64)).alignOn (some parent) := (if_pos hf).trans (if_pos hv)

theorem alignDisable_off (hv : v.getLsbD 0 = false) : alignDisable fn v s = (s.alignFields (v.zeroExtend 64)).alignOff :=
  (if_pos hf).trans (if_neg (ne_true_of_eq_false hv))

/-- While instances are ACTIVE, a write of ENABLE changes the other fields alone (log 54). -/
theorem alignEnable_active (ha : s.anyActive = true) : alignEnable fn v parent s = s.alignFields (v.zeroExtend 64) := by
  refine (if_pos hf).trans ?_
  dsimp only
  rw [alignOn_of_active ((alignFields_anyActive ..).trans ha), ite_self]

end

section
variable {s : State}

/-- 1 ms of HOLDOVER: LOST, and an alarm (R52). -/
theorem holdoverTimeout_loses (h3 : s.alignSt = 3) (h2 : s.bit R.alignStat 2 = false) (h : 500000 ≤ (s.beat - s.holdoverAt).toNat) :
    (holdoverTimeout s).bit R.alignStat 2 = true ∧ (holdoverTimeout s).alignSt = 3 ∧
      ∃ e, (holdoverTimeout s).err.raised = s.err.raised ++ [e] ∧ e.cls = 1 := by
  have hc : ¬(s.alignSt ≠ 3 ∨ (s.beat - s.holdoverAt).toNat < 500000 ∨ s.bit R.alignStat 2 = true) :=
    not_or.mpr ⟨not_not.mpr h3, not_or.mpr ⟨Nat.not_lt.mpr h, ne_true_of_eq_false h2⟩⟩
  rw [show holdoverTimeout s = _ from if_neg hc]
  refine ⟨(State.raise_bit ..).trans (s.setBit_bit_same _ (by decide) _), ?_, State.raise_class ..⟩
  exact ((State.fld_of_reg (State.raise_reg ..) _ _).trans (alignKept_setFld s 1 _ (by decide)).alignSt).trans h3

/-- The alternate takes over in LOCKED (R52). -/
theorem parentPortFail_alternate (h2 : s.alignSt = 2) (hr : s.isRoot = false) (hu : s.fld (R.linkStat s.parentPort) 0 2 ≠ 2)
    (h5 : s.bit R.alignCfg 5 = true) (hd : s.parentDown = false) :
    (parentPortFail s).alignSt = 2 ∧ (parentPortFail s).parentDown = true := by
  have h : parentPortFail s = ({ s with parentDown := true } : State).showPort :=
    (if_neg (by simp [h2, hr, hu])).trans (if_pos (by simp [h5, hd]))
  rw [h]
  exact ⟨(alignKept_showPort _).alignSt.trans h2, rfl⟩

/-- Without an alternate, a parent that is not UP leads to HOLDOVER (R52). -/
theorem parentPortFail_holdover (h2 : s.alignSt = 2) (hr : s.isRoot = false) (hu : s.fld (R.linkStat s.parentPort) 0 2 ≠ 2)
    (h : s.bit R.alignCfg 5 = false ∨ s.parentDown = true) :
    (parentPortFail s).alignSt = 3 ∧ (parentPortFail s).holdoverAt = s.beat := by
  have hc : (s.bit R.alignCfg 5 && !s.parentDown) ≠ true := by
    obtain h | h := h <;> simp [h]
  rw [show parentPortFail s = _ from (if_neg (by simp [h2, hr, hu])).trans (if_neg hc)]
  exact ⟨setAlign_alignSt s (by decide), rfl⟩

/-- The parent is UP again: LOCKED by slewing (Table 2.3). -/
theorem parentPortRecover_locks {port : Nat} (h3 : s.alignSt = 3) (hu : s.fld (R.linkStat port) 0 2 = 2)
    (hp : port = s.fld R.alignCfg 2 3) :
    (parentPortRecover port s).alignSt = 2 ∧ (parentPortRecover port s).parentDown = false ∧
      (parentPortRecover port s).beat = s.beat := by
  have h : parentPortRecover port s = ({ s.setAlign 2 with parentDown := false } : State).showPort :=
    (if_neg (by simp [h3, hu])).trans (if_pos hp)
  rw [h]
  exact ⟨(alignKept_showPort _).alignSt.trans (setAlign_alignSt s (by decide)), rfl, rfl⟩

end

/-- Settles O50, clause by clause with the lemma of each event. -/
theorem beatsAndAlignment : Obligations.BeatsAndAlignment := by
  refine ⟨fun s obs => ⟨fun h => ?_, fun h => ?_⟩, fun s => ⟨fun h0 h2 => ?_, fun h => ?_, ?_⟩,
    fun s d r n y => ⟨fun hd hlo hhi => ?_, fun h => ?_, fun hd hf => ?_, ?_⟩,
    fun s fn v parent => ⟨fun hf => ⟨?_, ?_, ?_⟩, fun hf h0 ha hv hp => ?_, fun hf ha => ?_, fun hf h0 ha hv => ?_, fun hf => ?_⟩,
    fun s port => ⟨fun h1 hn hd => ?_, fun h => ?_, fun h2 hr hu => ⟨fun h5 hd => ?_, fun h => ?_⟩, fun h3 h2 hn => ?_,
      fun h3 hu hp => ?_, fun h3 => ⟨?_, ?_⟩⟩⟩
  -- the beat
  · exact congrArg _ (beatTick_unlocked obs h)
  · exact ⟨_, rfl, beatTick_counts obs h⟩
  -- REFCLK
  · exact ⟨_, rfl, refclkLoss_holds h0 h2⟩
  · exact congrArg _ (refclkLoss_ignored h)
  · exact ⟨_, rfl, s.setBit_bit_same _ (by decide) _, fun m hm => s.setBit_bit_ne _ _ _ hm, rfl⟩
  -- rates and samples
  · exact gives_of_eq (if_pos ⟨hd, hlo, hhi⟩) rfl ⟨sget_sput_same .., fun e he => sget_sput_ne _ _ _ he, rfl, rfl⟩
  · refine congrArg _ (if_neg ?_)
    omega
  · exact gives_of_eq (if_pos ⟨hd, hf⟩) rfl (s.setReg_reg_same ..)
  · exact ⟨_, rfl, rfl, rfl, rfl⟩
  -- writes of ALIGN_CFG
  · exact congrArg _ (if_neg (ne_true_of_eq_false hf))
  · exact congrArg _ (if_neg (ne_true_of_eq_false hf))
  · exact congrArg _ (if_neg (ne_true_of_eq_false hf))
  · refine gives_of_eq (alignEnable_on hf v parent hv) rfl ?_
    have h := alignOn_acquires ((alignFields_enable ..).trans h0) ((alignFields_anyActive ..).trans ha)
      ((alignFields_pll s (v.zeroExtend 64)).trans hp) parent
    rwa [alignFields_isRoot, alignFields_beat, show (v.zeroExtend 64).getLsbD 1 = v.getLsbD 1 by simp] at h
  · exact gives_of_eq (alignEnable_active hf v parent ha) rfl ⟨alignFields_alignSt .., alignFields_beat ..⟩
  · refine gives_of_eq (alignDisable_off hf v hv) rfl ?_
    have h := alignOff_frees ((alignFields_enable s (v.zeroExtend 64)).trans h0) ((alignFields_anyActive ..).trans ha)
    rwa [alignFields_beat] at h
  · refine gives_of_eq (if_pos hf) rfl ⟨alignFields_alignSt .., alignFields_beat .., ?_⟩
    rw [alignFields_cfg, zeroExtend_toNat]
  -- lock, failure and recovery
  · exact gives_of_eq (if_pos ⟨h1, hn, by simp [hd]⟩) rfl ⟨setAlign_alignSt s (by decide), rfl⟩
  · refine congrArg _ (if_neg ?_)
    rintro ⟨h1, hn, hd⟩
    obtain h | h | h := h
    · exact h h1
    · omega
    · exact hd h
  · exact ⟨_, rfl, parentPortFail_alternate h2 hr hu h5 hd⟩
  · exact ⟨_, rfl, parentPortFail_holdover h2 hr hu h⟩
  · exact ⟨_, rfl, holdoverTimeout_loses h3 h2 hn⟩
  · exact ⟨_, rfl, parentPortRecover_locks h3 hu hp⟩
  · exact congrArg _ (if_pos (.inl h3))
  · exact congrArg _ (if_pos (.inl h3))

end Sys2Proof.Machine
end

section
/-! PROOFS. What a trace entry, a change of a core's state and a completion leave of cores and launch records, and runs
over lists (O14, O42). -/

namespace Sys2Proof.Machine

section
variable (s : State) (k : Nat)

/-- A core read after a core was replaced. -/
theorem State.setCore_core (c : Core) (j : Nat) : (s.setCore k c).core j = if j = k then c else s.core j := by
  split
  · next h => rw [h, State.setCore_core_same]
  · next h => exact State.setCore_core_ne s k c j h

@[simp] theorem State.trace_cores (kind word n cause : Nat) : (s.trace k kind word n cause).cores = s.cores := by
  unfold State.trace
  dsimp only
  repeat' split
  all_goals rfl

@[simp] theorem State.trace_core (kind word n cause j : Nat) : (s.trace k kind word n cause).core j = s.core j := by
  simp only [State.core, State.trace_cores]

@[simp] theorem State.trace_launches (kind word n cause : Nat) : (s.trace k kind word n cause).launches = s.launches := by
  unfold State.trace
  dsimp only
  repeat' split
  all_goals rfl

@[simp] theorem State.rearm_core (j : Nat) : (s.rearm k).core j = s.core j := by
  unfold State.rearm
  split <;> rfl

@[simp] theorem State.rearm_launches : (s.rearm k).launches = s.launches := by
  unfold State.rearm
  split <;> rfl

@[simp] theorem State.unbind_core (st : CoreSt) (j : Nat) : (s.unbind k st).core j = s.core j := by
  unfold State.unbind State.dlBreak
  dsimp only
  repeat' split
  all_goals rfl

@[simp] theorem State.unbind_launches (st : CoreSt) : (s.unbind k st).launches = s.launches := by
  unfold State.unbind State.dlBreak
  dsimp only
  repeat' split
  all_goals rfl

/-- A core in a new state is otherwise as it was, and so is every other core. -/
theorem State.setSt_core (st : CoreSt) (j : Nat) :
    (s.setSt k st).core j = if j = k then { s.core k with st := st } else s.core j := by
  unfold State.setSt
  dsimp only
  split
  · next h =>
    subst h
    split
    · next h => rw [h]
    · rfl
  · split <;> simp [State.setCore_core]

@[simp] theorem State.setSt_launches (st : CoreSt) : (s.setSt k st).launches = s.launches := by
  unfold State.setSt
  dsimp only
  repeat' split
  all_goals simp

/-- Raising a record may count an error of an engine of a core, and leaves the rest of it. -/
theorem State.raise_core_eq (cls code : Nat) (b : Block) (detail : Nat) (uid : W32) (inst cmd : Nat) (lastUid : W32) (ctx : List Byte)
    (flags j : Nat) : ∃ e, (s.raise cls code b detail uid inst cmd lastUid ctx flags).core j = { s.core j with eng := e } := by
  unfold State.raise State.raiseRec
  dsimp only
  split
  · split
    · rw [State.setCore_core]
      split
      · next h => exact ⟨_, by rw [h]; rfl⟩
      · exact ⟨_, rfl⟩
    · split <;> exact ⟨_, rfl⟩
  · exact ⟨_, rfl⟩

@[simp] theorem State.stale_launches (i : Nat) : (s.stale i).launches = s.launches := by
  unfold State.stale State.raise State.raiseRec
  dsimp only
  repeat' split
  all_goals rfl

@[simp] theorem State.completeWith_launches (c : Cmd) (status resultLo : Nat) (result : W64) (l : Option LaunchRec) :
    (s.completeWith c status resultLo result l).launches = s.launches := by
  unfold State.completeWith
  dsimp only
  split
  · exact s.stale_launches _
  · rfl

/-- Completing a command leaves each core its fault record and its state. -/
theorem State.completeWith_fault_st (c : Cmd) (status resultLo : Nat) (result : W64) (l : Option LaunchRec) (j : Nat) :
    ((s.completeWith c status resultLo result l).core j).fault = (s.core j).fault ∧
      ((s.completeWith c status resultLo result l).core j).st = (s.core j).st := by
  unfold State.completeWith
  dsimp only
  split
  · obtain ⟨e, h⟩ := (s.incReg (R.staleDrop c.inst)).raise_core_eq 3 St.staleGeneration .inst (openDetail .inst St.staleGeneration)
      pcieUid c.inst 0xFFFF pcieUid [] 0 j
    rw [State.stale, h]
    exact ⟨rfl, rfl⟩
  · exact ⟨rfl, rfl⟩

end

@[simp] theorem forEach_nil {α : Type} (s : State) (f : State → α → State) : forEach [] s f = s := rfl

@[simp] theorem forEach_cons {α : Type} (x : α) (l : List α) (s : State) (f : State → α → State) :
    forEach (x :: l) s f = forEach l (f s x) f := rfl

/-- A run that leaves some part of the state at every item leaves it at the end. -/
theorem forEach_eq {α β : Type} (g : State → β) (l : List α) (s : State) (f : State → α → State)
    (hf : ∀ t, ∀ x ∈ l, g (f t x) = g t) : g (forEach l s f) = g s := by
  induction l generalizing s with
  | nil => rfl
  | cons x l ih =>
    rw [forEach_cons, ih _ fun t y hy => hf t y (List.mem_cons_of_mem x hy), hf s x List.mem_cons_self]

end Sys2Proof.Machine
end

section
/-! PROOFS. LAUNCH: its checks in the order of R65, the loads it begins, the cores it will start, and CLEAR (O42). -/

namespace Sys2Proof.Machine

/-! ### The checks -/

section
variable {s : State} {q : Nat} {c : Cmd}

theorem launch_none (h : s.nextOf q 1 (fun _ => true) = none) : launch q s = s := by
  unfold launch
  rw [show s.nextOf q Op.launch (fun _ => true) = none from h]

theorem launch_badCount (h : s.nextOf q 1 (fun _ => true) = some c) (hc : c.fld 0x12 2 = 0 ∨ 4096 < c.fld 0x12 2) :
    launch q s = (s.startCmd c).complete c 0x11 := by
  unfold launch
  rw [show s.nextOf q Op.launch (fun _ => true) = some c from h]
  exact if_pos hc

/-- What `nextOf` answers is a command of the opcode asked for. -/
theorem opcode_of_nextOf {op : Nat} {p : Cmd → Bool} (h : s.nextOf q op p = some c) : c.opcode = op := by
  unfold State.nextOf at h
  split at h
  · cases h
  · split at h
    · next hc => exact Option.some.inj h ▸ hc.1
    · cases h

variable (h : s.nextOf q 1 (fun _ => true) = some c) (h0 : 0 < c.fld 0x12 2) (h1 : c.fld 0x12 2 ≤ 4096)
include h h0 h1

theorem launch_notOwned (ho : (s.startCmd c).ownsSet c.inst (c.fld 0x10 2) (c.fld 0x12 2) = false) :
    launch q s = (s.startCmd c).complete c 0x13 := by
  unfold launch
  rw [show s.nextOf q Op.launch (fun _ => true) = some c from h]
  dsimp only
  rw [if_neg (by omega), ho]
  rfl

variable (ho : (s.startCmd c).ownsSet c.inst (c.fld 0x10 2) (c.fld 0x12 2) = true)
include ho

theorem launch_noLoad (hl : (lflags c).load = false) : launch q s = (s.startCmd c).doLaunch c none := by
  unfold launch
  rw [show s.nextOf q Op.launch (fun _ => true) = some c from h]
  dsimp only
  rw [if_neg (by omega), ho, hl]
  rfl

variable (hl : (lflags c).load = true)
include hl

theorem launch_badImage (hr : (s.startCmd c).readImage (c.fld 0x18 8) (c.fld 0x10 2) (c.fld 0x12 2) = .bad) :
    launch q s = (s.startCmd c).complete c 0x11 := by
  unfold launch
  rw [show s.nextOf q Op.launch (fun _ => true) = some c from h]
  dsimp only
  rw [if_neg (by omega), ho, hl, hr]
  rfl

theorem launch_imageMemory {w : Nat}
    (hr : (s.startCmd c).readImage (c.fld 0x18 8) (c.fld 0x10 2) (c.fld 0x12 2) = .memory w) :
    launch q s = (s.startCmd c).imageMemory c w := by
  unfold launch
  rw [show s.nextOf q Op.launch (fun _ => true) = some c from h]
  dsimp only
  rw [if_neg (by omega), ho, hl, hr]
  rfl

theorem launch_load {x : Image} (hr : (s.startCmd c).readImage (c.fld 0x18 8) (c.fld 0x10 2) (c.fld 0x12 2) = .ok x) :
    launch q s = (s.startCmd c).doLaunch c (some x) := by
  unfold launch
  rw [show s.nextOf q Op.launch (fun _ => true) = some c from h]
  dsimp only
  rw [if_neg (by omega), ho, hl, hr]
  rfl

end

/-! ### The cores of the set -/

/-- A core that is not as a table lists none has an entry in it. -/
theorem mem_cores_of_ne {s : State} {k : Nat} (h : s.core k ≠ {}) : k ∈ s.cores.map (·.1) := by
  have listed (m : Sparse Core) (hm : sget (fun _ => {}) m k ≠ {}) : k ∈ m.map (·.1) := by
    induction m with
    | nil => exact absurd rfl hm
    | cons e m ih =>
      unfold sget at hm
      rw [List.map_cons, List.mem_cons]
      by_cases hk : k = e.1
      · exact .inl hk
      · exact .inr (ih (by rwa [if_neg hk] at hm))
  exact listed s.cores h

theorem mem_setCores {s : State} {first count k : Nat} :
    k ∈ setCores s first count ↔ k ∈ s.cores.map (·.1) ∧ first ≤ clOf k ∧ clOf k < first + count := by
  rw [setCores, List.mem_filter, decide_eq_true_eq]

/-- Some core of the set is FAULTED, among the listed ones. -/
theorem setCores_any_faulted (s : State) (first count : Nat) :
    ((setCores s first count).any fun k => decide ((s.core k).st = .faulted)) = true ↔
      ∃ k, first ≤ clOf k ∧ clOf k < first + count ∧ (s.core k).st = .faulted := by
  rw [List.any_eq_true]
  constructor
  · rintro ⟨k, hk, hf⟩
    obtain ⟨-, h1, h2⟩ := mem_setCores.mp hk
    exact ⟨k, h1, h2, of_decide_eq_true hf⟩
  · rintro ⟨k, h1, h2, hf⟩
    have hne : s.core k ≠ {} := fun he => by simp [he] at hf
    exact ⟨k, mem_setCores.mpr ⟨mem_cores_of_ne hne, h1, h2⟩, decide_eq_true hf⟩

/-! ### Its cores, and what refuses them (R65) -/

/-- The cores that a command acts on: with an image those it places, else, with START or SWAP, those placed now. -/
def State.launchCores (s : State) (c : Cmd) (img : Option Image) : List Nat :=
  match img with
  | some x => x.placed.map (·.core)
  | none => if (lflags c).start || (lflags c).swap then s.placedNow (c.fld 0x18 8) (c.fld 0x10 2) (c.fld 0x12 2) (lflags c).swap else []

/-- Some core of the command's set is FAULTED. -/
def State.setFaulted (s : State) (c : Cmd) : Prop :=
  ∃ k, c.fld 0x10 2 ≤ clOf k ∧ clOf k < c.fld 0x10 2 + c.fld 0x12 2 ∧ (s.core k).st = .faulted

/-- The launch record of a command that passes its checks. -/
def State.RecordOf (s : State) (c : Cmd) (cores : List Nat) (r : LaunchRec) : Prop :=
  r.id = s.freshLaunch ∧ r.cmd = c ∧ r.loads = (if (lflags c).load then cores else []) ∧ r.starts = (lflags c).start ∧
    r.unstarted = (if (lflags c).start then cores else []) ∧ r.launchBeat = BitVec.ofNat 64 (c.fld 0x20 8)

/-- The state with a launch record more. -/
def State.withLaunch (s : State) (r : LaunchRec) : State := { s with launches := s.launches ++ [r], nextLaunch := s.freshLaunch + 1 }

section
variable {s : State} {c : Cmd} {img : Option Image}

theorem doLaunch_faulted (hc : (lflags c).clear = false) (hf : s.setFaulted c) : s.doLaunch c img = s.complete c 0x10 := by
  unfold State.doLaunch
  refine if_pos ?_
  rw [hc, (setCores_any_faulted ..).mpr hf]
  rfl

/-- A FAULTED core does not refuse a command with CLEAR, or one whose set has none. -/
theorem faulted_passes (hf : (lflags c).clear = true ∨ ¬s.setFaulted c) :
    ¬(!(lflags c).clear && (setCores s (c.fld 0x10 2) (c.fld 0x12 2)).any fun k => decide ((s.core k).st = .faulted)) = true := by
  rw [Bool.and_eq_true, setCores_any_faulted, Bool.not_eq_true']
  rintro ⟨hc, hk⟩
  obtain h | h := hf
  · exact Bool.false_ne_true (hc ▸ h)
  · exact h hk

/-- A load that no core of the command refuses. -/
theorem loads_pass {l : List Nat} (hr : (lflags c).load = true → ∀ k ∈ l, (s.core k).loadRefused (lflags c).active = false) :
    ¬((lflags c).load && l.any fun k => (s.core k).loadRefused (lflags c).active) = true := by
  rw [Bool.and_eq_true, List.any_eq_true]
  rintro ⟨hl, k, hk, h⟩
  exact Bool.false_ne_true ((hr hl k hk).symm.trans h)

/-- A start for which every core of the command is LOADED, or will be. -/
theorem starts_pass {l : List Nat} (hw : (lflags c).start = true → ∀ k ∈ l, (s.core k).willLoad (lflags c) = true) :
    ¬((lflags c).start && l.any fun k => !(s.core k).willLoad (lflags c)) = true := by
  rw [Bool.and_eq_true, List.any_eq_true]
  rintro ⟨hs, k, hk, h⟩
  rw [hw hs k hk] at h
  exact Bool.false_ne_true h

variable (hf : (lflags c).clear = true ∨ ¬s.setFaulted c)
include hf

theorem doLaunch_refused (hl : (lflags c).load = true)
    (hr : ∃ k ∈ s.launchCores c img, (s.core k).loadRefused (lflags c).active = true) : s.doLaunch c img = s.complete c 0x15 := by
  unfold State.doLaunch
  refine (if_neg (faulted_passes hf)).trans (if_pos ?_)
  rw [hl, Bool.true_and]
  exact List.any_eq_true.mpr hr

variable (hr : (lflags c).load = true → ∀ k ∈ s.launchCores c img, (s.core k).loadRefused (lflags c).active = false)
include hr

theorem doLaunch_notLoaded (hs : (lflags c).start = true) (hw : ∃ k ∈ s.launchCores c img, (s.core k).willLoad (lflags c) = false) :
    s.doLaunch c img = s.complete c 0x10 := by
  obtain ⟨k, hk, h⟩ := hw
  have hn : ((lflags c).start && (s.launchCores c img).any fun k => !(s.core k).willLoad (lflags c)) = true := by
    rw [hs, Bool.true_and]
    exact List.any_eq_true.mpr ⟨k, hk, congrArg not h⟩
  unfold State.doLaunch
  exact (if_neg (faulted_passes hf)).trans ((if_neg (loads_pass hr)).trans (if_pos hn))

variable (hw : (lflags c).start = true → ∀ k ∈ s.launchCores c img, (s.core k).willLoad (lflags c) = true)
include hw

/-- The checks passed, a command with an image and without CLEAR makes its launch record and begins its loads. -/
theorem doLaunch_image {x : Image} (hi : img = some x) (hc : (lflags c).clear = false) :
    ∃ r, s.RecordOf c (x.placed.map (·.core)) r ∧
      s.doLaunch c img = (forEach x.placed ((s.withLaunch r).noteImage c x) fun u p => u.beginLoad s.freshLaunch (lflags c) p).settleLaunch
        s.freshLaunch := by
  subst hi
  simp only [State.doLaunch]
  rw [if_neg (faulted_passes hf), if_neg (loads_pass (l := x.placed.map (·.core)) hr),
    if_neg (starts_pass (l := x.placed.map (·.core)) hw), hc]
  refine ⟨_, ?_, rfl⟩
  exact ⟨rfl, rfl, rfl, rfl, rfl, rfl⟩

end

theorem launchCores_start {s : State} {c : Cmd} (hs : (lflags c).start = true) :
    s.launchCores c none = s.placedNow (c.fld 0x18 8) (c.fld 0x10 2) (c.fld 0x12 2) (lflags c).swap := by
  rw [State.launchCores, hs]
  rfl

/-- The checks passed, START alone makes the launch record of the cores placed now. -/
theorem doLaunch_start {s : State} {c : Cmd} (hl : (lflags c).load = false) (hs : (lflags c).start = true) (hp : (lflags c).swap = false)
    (hc : (lflags c).clear = false) (hf : ¬s.setFaulted c) (hw : ∀ k ∈ s.launchCores c none, (s.core k).willLoad (lflags c) = true) :
    ∃ r, s.RecordOf c (s.launchCores c none) r ∧ s.doLaunch c none = (s.withLaunch r).settleLaunch s.freshLaunch := by
  have hn := starts_pass (s := s) (c := c) fun _ => hw
  rw [launchCores_start hs, hs, Bool.true_and] at hn
  simp only [State.doLaunch]
  rw [if_neg (faulted_passes (.inr hf))]
  simp only [hl, hs, Bool.true_or, if_true, Bool.false_and, Bool.false_eq_true, if_false, Bool.true_and]
  rw [if_neg hn]
  simp only [hp, hc, Bool.false_eq_true, if_false]
  refine ⟨_, ?_, rfl⟩
  rw [launchCores_start hs, hp]
  exact ⟨rfl, rfl, by rw [hl]; rfl, hs.symm, by rw [hs]; rfl, rfl⟩

/-- CLEAR alone clears the faults of the set and makes a launch record that waits for nothing. -/
theorem doLaunch_clear {s : State} {c : Cmd} (hl : (lflags c).load = false) (hs : (lflags c).start = false) (hp : (lflags c).swap = false)
    (hc : (lflags c).clear = true) :
    ∃ r, (s.clearFaults (c.fld 0x10 2) (c.fld 0x12 2)).RecordOf c [] r ∧ r.swaps = [] ∧ r.done = false ∧
      s.doLaunch c none = ((s.clearFaults (c.fld 0x10 2) (c.fld 0x12 2)).withLaunch r).settleLaunch
        (s.clearFaults (c.fld 0x10 2) (c.fld 0x12 2)).freshLaunch := by
  simp only [State.doLaunch, hl, hs, hp, hc]
  refine ⟨_, ?_, ?_, ?_, rfl⟩
  · exact ⟨rfl, rfl, by rw [hl]; rfl, hs.symm, by rw [hs]; rfl, rfl⟩
  · rfl
  · rfl

/-! ### Its launch record (R67) -/

/-- No record holds the id of the next one. -/
theorem freshLaunch_above (s : State) : ∀ l ∈ s.launches, l.id < s.freshLaunch := by
  have above (ls : List LaunchRec) : ∀ n, n ≤ ls.foldl (fun n l => max n (l.id + 1)) n ∧
      ∀ l ∈ ls, l.id < ls.foldl (fun n l => max n (l.id + 1)) n := by
    induction ls with
    | nil => exact fun n => ⟨Nat.le_refl n, fun _ h => nomatch h⟩
    | cons x ls ih =>
      intro n
      obtain ⟨h1, h2⟩ := ih (max n (x.id + 1))
      refine ⟨Nat.le_trans (Nat.le_max_left ..) h1, fun l hl => ?_⟩
      obtain rfl | hl := List.mem_cons.mp hl
      · exact Nat.lt_of_lt_of_le (Nat.lt_succ_self _) (Nat.le_trans (Nat.le_max_right ..) h1)
      · exact h2 l hl
  exact (above s.launches s.nextLaunch).2

section
variable {s u : State} {r : LaunchRec}

/-- A record added under a fresh id is the one that its id finds. -/
theorem launchRec_of_launches (hu : u.launches = s.launches ++ [r]) (hr : r.id = s.freshLaunch) : u.launchRec s.freshLaunch = some r := by
  have hn : s.launches.find? (fun l => decide (l.id = s.freshLaunch)) = none :=
    List.find?_eq_none.mpr fun l hl => by simpa using Nat.ne_of_lt (freshLaunch_above s l hl)
  rw [State.launchRec, hu, List.find?_append, hn]
  simp [hr]

/-- A launch that waits for a load, or has a core to start, is not complete. -/
theorem settleLaunch_waits {id : Nat} (h : s.launchRec id = some r) (hw : r.loads ≠ [] ∨ (r.starts = true ∧ r.unstarted ≠ [])) :
    s.settleLaunch id = s := by
  unfold State.settleLaunch
  rw [h]
  refine if_pos ?_
  simp only [Bool.not_eq_true', List.isEmpty_eq_false_iff]
  exact hw.elim (fun h => .inr (.inr (.inl h))) fun h => .inr (.inr (.inr (.inl h)))

/-- A launch without START that has nothing to wait for completes, and its record goes. -/
theorem settleLaunch_completes {id : Nat} (h : s.launchRec id = some r) (hd : r.done = false) (ho : r.cmd.opcode = Op.launch)
    (hl : r.loads = []) (hs : r.starts = false) (hp : r.swaps = []) :
    s.settleLaunch id = { s.completeWith r.cmd (s.launchCode r) 0 0 (some r) with
      launches := s.launches.filter fun l => decide (l.id ≠ id) } := by
  unfold State.settleLaunch
  rw [h]
  simp [hd, ho, hl, hs, hp]

end

/-! ### Loads begun (R60) -/

section
variable (s : State) (id : Nat) (f : LFlags)

theorem beginLoad_core_ne (p : Placed) {k : Nat} (h : p.core ≠ k) : (s.beginLoad id f p).core k = s.core k :=
  State.setCore_core_ne _ _ _ _ h.symm

/-- What a load begun makes of its core depends on that core alone. -/
theorem beginLoad_core_congr {s u : State} {p : Placed} (h : u.core p.core = s.core p.core) :
    (u.beginLoad id f p).core p.core = (s.beginLoad id f p).core p.core := by
  simp only [State.beginLoad, State.setCore_core_same, h]

/-- The load that a placed core begins. -/
def loadOf (id : Nat) (active : Bool) (p : Placed) : Load :=
  { launch := id, toActive := active, words := p.stream.words, entry := p.stream.entry, ganged := p.ganged }

theorem beginLoad_st (p : Placed) : ((s.beginLoad id f p).core p.core).st = (s.core p.core).st := by
  unfold State.beginLoad Core.nextLoad
  dsimp only
  rw [State.setCore_core_same]
  repeat' split
  all_goals rfl

/-- A core that receives nothing begins the load at once. -/
theorem beginLoad_first (p : Placed) (hl : (s.core p.core).load = none) (hn : (s.core p.core).loadNext = []) :
    ((s.beginLoad id f p).core p.core).load = some (loadOf id f.active p) := by
  simp [State.beginLoad, Core.nextLoad, hl, hn, loadOf]

/-- A core that is receiving a load keeps it, and queues the new one. -/
theorem beginLoad_queued (p : Placed) (hl : (s.core p.core).load ≠ none) :
    ((s.beginLoad id f p).core p.core).load = (s.core p.core).load ∧
      ((s.beginLoad id f p).core p.core).loadNext = (s.core p.core).loadNext ++ [loadOf id f.active p] := by
  simp [State.beginLoad, hl, loadOf]

/-- The loads begun leave every core that the image does not place. -/
theorem forEach_beginLoad_ne (l : List Placed) {k : Nat} (h : ∀ p ∈ l, p.core ≠ k) :
    (forEach l s fun u p => u.beginLoad id f p).core k = s.core k :=
  forEach_eq (fun u => u.core k) l s _ fun u p hp => beginLoad_core_ne u id f p (h p hp)

/-- Among loads of different cores, each core has what its own load makes of it. -/
theorem forEach_beginLoad_mem (l : List Placed) (hn : (l.map (·.core)).Nodup) {p : Placed} (hp : p ∈ l) :
    (forEach l s fun u p => u.beginLoad id f p).core p.core = (s.beginLoad id f p).core p.core := by
  induction l generalizing s with
  | nil => cases hp
  | cons x l ih =>
    rw [List.map_cons, List.nodup_cons] at hn
    obtain ⟨hx, hn⟩ := hn
    have other : ∀ y ∈ l, y.core ≠ x.core := fun y hy h => hx (h ▸ List.mem_map_of_mem hy)
    rw [forEach_cons]
    obtain rfl | hp := List.mem_cons.mp hp
    · exact forEach_beginLoad_ne _ id f l other
    · exact (ih _ hn hp).trans (beginLoad_core_congr id f (beginLoad_core_ne s id f x (other p hp).symm))

theorem forEach_beginLoad_launches (l : List Placed) : (forEach l s fun u p => u.beginLoad id f p).launches = s.launches :=
  forEach_eq State.launches l s _ fun _ _ _ => rfl

theorem forEach_beginLoad_mem_kept (l : List Placed) : (forEach l s fun u p => u.beginLoad id f p).mem = s.mem :=
  forEach_eq State.mem l s _ fun _ _ _ => rfl

end

/-! ### CLEAR (R72) -/

/-- CLEAR on one core: its CFAULT is cleared, and a FAULTED core becomes IDLE. -/
def State.clearFault (s : State) (k : Nat) : State :=
  let s := s.setCore k { s.core k with fault := {}, gangWait := false, gangNo := 0 }
  if (s.core k).st = .faulted then s.setSt k .idle else s

/-- The core after CLEAR. -/
def Core.cleared (c : Core) : Core :=
  { c with fault := {}, gangWait := false, gangNo := 0, st := if c.st = .faulted then .idle else c.st }

theorem Core.cleared_cleared (c : Core) : c.cleared.cleared = c.cleared := by
  unfold Core.cleared
  dsimp only
  by_cases h : c.st = .faulted
  · rw [if_pos h, if_neg (by decide)]
  · rw [if_neg h, if_neg h]

section
variable (s : State)

theorem clearFault_core (k j : Nat) : (s.clearFault k).core j = if j = k then (s.core k).cleared else s.core j := by
  unfold State.clearFault Core.cleared
  dsimp only
  rw [State.setCore_core_same]
  by_cases hf : (s.core k).st = .faulted
  · rw [if_pos hf, if_pos hf, State.setSt_core, State.setCore_core_same]
    split
    · rfl
    · next hj => exact State.setCore_core_ne _ _ _ _ hj
  · rw [if_neg hf, if_neg hf, State.setCore_core]

theorem clearFault_launches (k : Nat) : (s.clearFault k).launches = s.launches := by
  unfold State.clearFault
  dsimp only
  split
  · exact State.setSt_launches ..
  · rfl

theorem forEach_clearFault_core (l : List Nat) (j : Nat) :
    (forEach l s State.clearFault).core j = if j ∈ l then (s.core j).cleared else s.core j := by
  induction l generalizing s with
  | nil => rfl
  | cons k l ih =>
    rw [forEach_cons, ih, clearFault_core]
    by_cases hj : j = k
    · subst hj
      simp [Core.cleared_cleared]
    · simp [hj]

variable (first count : Nat)

/-- CLEAR clears every core of the set, and leaves every other core. -/
theorem clearFaults_core (k : Nat) : (s.clearFaults first count).core k =
    if k ∈ setCores s first count then (s.core k).cleared else s.core k := by
  rw [← forEach_clearFault_core]
  exact forEach_eq (fun u => u.core k) _ _ _ fun _ _ _ => rfl

theorem clearFaults_launches : (s.clearFaults first count).launches = s.launches := by
  refine Eq.trans ?_ (forEach_eq State.launches (setCores s first count) s State.clearFault fun u k _ => clearFault_launches u k)
  exact forEach_eq State.launches _ _ _ fun _ _ _ => rfl

/-- A core of the set has no fault after CLEAR, and is IDLE where it was FAULTED. -/
theorem clearFaults_set {k : Nat} (h1 : first ≤ clOf k) (h2 : clOf k < first + count) :
    ((s.clearFaults first count).core k).fault = {} ∧
      ((s.clearFaults first count).core k).st = if (s.core k).st = .faulted then .idle else (s.core k).st := by
  rw [clearFaults_core]
  split
  · exact ⟨rfl, rfl⟩
  · next h =>
    have he : s.core k = {} := Classical.byContradiction fun hne => h (mem_setCores.mpr ⟨mem_cores_of_ne hne, h1, h2⟩)
    rw [he]
    exact ⟨rfl, rfl⟩

end

/-! ### What a command of each kind comes to -/

section
variable {s : State} {c : Cmd}

/-- A LAUNCH with LOAD that passes its checks begins the loads of the cores that its image places, and its record waits
for them. -/
theorem doLaunch_load {x : Image} (hl : (lflags c).load = true) (hp : x.placed ≠ []) (hn : (x.placed.map (·.core)).Nodup)
    (hc : (lflags c).clear = false) (hf : ¬s.setFaulted c)
    (hr : ∀ k ∈ x.placed.map (·.core), (s.core k).loadRefused (lflags c).active = false)
    (hw : (lflags c).start = true → ∀ k ∈ x.placed.map (·.core), (s.core k).willLoad (lflags c) = true) :
    (∀ p ∈ x.placed, ((s.doLaunch c (some x)).core p.core) = (s.beginLoad s.freshLaunch (lflags c) p).core p.core) ∧
      (∀ k, (∀ p ∈ x.placed, p.core ≠ k) → (s.doLaunch c (some x)).core k = s.core k) ∧
      ∃ r, (s.doLaunch c (some x)).launches = s.launches ++ [r] ∧ s.RecordOf c (x.placed.map (·.core)) r := by
  obtain ⟨r, hrec, he⟩ := doLaunch_image (img := some x) (.inr hf) (fun _ => hr) hw rfl hc
  obtain ⟨hid, -, hloads, -, -, -⟩ := id hrec
  have hlaunches : (forEach x.placed ((s.withLaunch r).noteImage c x) fun u p => u.beginLoad s.freshLaunch (lflags c) p).launches =
      s.launches ++ [r] := forEach_beginLoad_launches ..
  have hwaits : r.loads ≠ [] := by
    rw [hloads, hl, if_pos rfl]
    exact fun h => hp (List.map_eq_nil_iff.mp h)
  rw [settleLaunch_waits (launchRec_of_launches hlaunches hid) (.inl hwaits)] at he
  rw [he]
  refine ⟨fun p hp => ?_, fun k hk => forEach_beginLoad_ne _ _ _ _ hk, r, hlaunches, hrec⟩
  exact (forEach_beginLoad_mem _ _ _ _ hn hp).trans (beginLoad_core_congr _ _ rfl)

/-- A LAUNCH with START alone that passes its checks changes no core, and its record waits for its cores to start. -/
theorem doLaunch_startOnly (hl : (lflags c).load = false) (hs : (lflags c).start = true) (hp : (lflags c).swap = false)
    (hc : (lflags c).clear = false) (hf : ¬s.setFaulted c) (hne : s.launchCores c none ≠ [])
    (hw : ∀ k ∈ s.launchCores c none, (s.core k).willLoad (lflags c) = true) :
    (s.doLaunch c none).cores = s.cores ∧
      ∃ r, (s.doLaunch c none).launches = s.launches ++ [r] ∧ s.RecordOf c (s.launchCores c none) r := by
  obtain ⟨r, hrec, he⟩ := doLaunch_start hl hs hp hc hf hw
  obtain ⟨hid, -, -, hstarts, hunstarted, -⟩ := id hrec
  have hwaits : r.starts = true ∧ r.unstarted ≠ [] := by
    rw [hstarts, hunstarted, hs, if_pos rfl]
    exact ⟨rfl, hne⟩
  rw [settleLaunch_waits (launchRec_of_launches rfl hid) (.inr hwaits)] at he
  rw [he]
  exact ⟨rfl, r, rfl, hrec⟩

/-- A LAUNCH with CLEAR alone completes at once: its record goes, and the faults of its set are cleared. -/
theorem doLaunch_clearOnly (ho : c.opcode = Op.launch) (hl : (lflags c).load = false) (hs : (lflags c).start = false)
    (hp : (lflags c).swap = false) (hc : (lflags c).clear = true) :
    (s.doLaunch c none).launches = s.launches ∧
      ∀ k, ((s.doLaunch c none).core k).fault = ((s.clearFaults (c.fld 0x10 2) (c.fld 0x12 2)).core k).fault ∧
        ((s.doLaunch c none).core k).st = ((s.clearFaults (c.fld 0x10 2) (c.fld 0x12 2)).core k).st := by
  obtain ⟨r, ⟨hid, hcmd, hloads, hstarts, -, -⟩, hswaps, hdone, he⟩ := doLaunch_clear (s := s) hl hs hp hc
  generalize hv : s.clearFaults (c.fld 0x10 2) (c.fld 0x12 2) = v at *
  have hfind := launchRec_of_launches (u := v.withLaunch r) rfl hid
  rw [settleLaunch_completes hfind hdone (hcmd ▸ ho) (by rw [hloads, ite_self]) (hstarts.trans hs) hswaps] at he
  rw [he]
  refine ⟨?_, fun k => ?_⟩
  · have hkept : v.launches.filter (fun l => decide (l.id ≠ v.freshLaunch)) = v.launches :=
      List.filter_eq_self.mpr fun l hl => decide_eq_true (Nat.ne_of_lt (freshLaunch_above v l hl))
    have hsame : v.launches = s.launches := hv ▸ clearFaults_launches s _ _
    dsimp only [State.withLaunch]
    rw [List.filter_append, hkept, hsame, List.filter_cons_of_neg (by simp [hid])]
    exact List.append_nil _
  · exact (v.withLaunch r).completeWith_fault_st ..

end

/-- Settles O42: the checks one by one, and what is left when they pass, flag by flag. -/
theorem launchCommand : Obligations.LaunchCommand := by
  intro s q c u first count a f faulted
  have hmem {img : Option Image} : MemKept s (u.doLaunch c img) := State.rb_of_mem (State.doLaunch_mem ..)
  refine ⟨fun h => congrArg _ (launch_none h), fun h => ⟨fun hc => congrArg _ (launch_badCount h hc),
    fun h0 h1 ho => congrArg _ (launch_notOwned h h0 h1 ho), fun h0 h1 ho hl => ?_, fun h0 h1 ho hl => ?_⟩⟩
  · refine ⟨fun hr => congrArg _ (launch_badImage h h0 h1 ho hl hr), fun w hr => congrArg _ (launch_imageMemory h h0 h1 ho hl hr),
      fun x hx => ?_⟩
    have he : exec (.launch q) s = .next (u.doLaunch c (some x)) := congrArg _ (launch_load h h0 h1 ho hl hx)
    have hall {P : Nat → Prop} (hP : ∀ p ∈ x.placed, P p.core) : ∀ k ∈ x.placed.map (·.core), P k := List.forall_mem_map.mpr hP
    have hsome {P : Nat → Prop} (hP : ∃ p ∈ x.placed, P p.core) : ∃ k ∈ x.placed.map (·.core), P k :=
      hP.elim fun p hp => ⟨p.core, List.mem_map_of_mem hp.1, hp.2⟩
    refine ⟨fun hc hf => he.trans (congrArg _ (doLaunch_faulted hc hf)),
      fun hf hr => he.trans (congrArg _ (doLaunch_refused hf hl (hsome hr))),
      fun hf hr hs hw => he.trans (congrArg _ (doLaunch_notLoaded hf (fun _ => hall hr) hs (hsome hw))),
      fun hp hn hc hf hok => ⟨_, he, ?_⟩⟩
    obtain ⟨hplaced, hothers, r, hlaunches, hid, hcmd, hloads, hstarts, -, hbeat⟩ := doLaunch_load (s := u) hl hp hn hc hf
      (hall fun p hp => (hok p hp).1) fun hs => hall fun p hp => (hok p hp).2 hs
    refine ⟨fun p hp => ?_, hothers, hmem, r, hlaunches, hid, hcmd, hloads.trans (if_pos hl), hstarts, hbeat⟩
    rw [hplaced p hp]
    exact ⟨beginLoad_st .., beginLoad_first u _ f p, beginLoad_queued u _ f p⟩
  · have he : exec (.launch q) s = .next (u.doLaunch c none) := congrArg _ (launch_noLoad h h0 h1 ho hl)
    have hload {P : Prop} (h : (lflags c).load = true) : P := absurd (hl.symm.trans h) Bool.false_ne_true
    refine ⟨fun hc hf => he.trans (congrArg _ (doLaunch_faulted hc hf)), fun hs hp hc hf => ?_, fun hs hp hc => ⟨_, he, ?_⟩⟩
    · have hcores : u.launchCores c none = u.placedNow a first count false := hp ▸ launchCores_start hs
      intro cores
      refine ⟨fun hw => he.trans (congrArg _ (doLaunch_notLoaded (.inr hf) (fun h => hload h) hs (hcores ▸ hw))),
        fun hne hw => ⟨_, he, ?_⟩⟩
      obtain ⟨hsame, r, hlaunches, hid, hcmd, -, hstarts, hunstarted, hbeat⟩ :=
        doLaunch_startOnly hl hs hp hc hf (hcores ▸ hne) (hcores ▸ hw)
      exact ⟨hsame, hmem, r, hlaunches, hid, hcmd, hstarts.trans hs, (hunstarted.trans (if_pos hs)).trans hcores, hbeat⟩
    · obtain ⟨hlaunches, hcores⟩ := doLaunch_clearOnly (s := u) (opcode_of_nextOf h) hl hs hp hc
      refine ⟨hlaunches, hmem, fun k h1 h2 => ?_⟩
      obtain ⟨hfault, hst⟩ := hcores k
      obtain ⟨hcleared, hidle⟩ := clearFaults_set u first count h1 h2
      exact ⟨hfault.trans hcleared, hst.trans hidle⟩

end Sys2Proof.Machine
end

section
/-! PROOFS. What an event leaves of the gang controllers, of the cores' fault records and of their tap folds (O14): one
lemma per operation, in the model's order. -/

namespace Sys2Proof.Machine

/-- What GANG, the change of shape and ganged passes are about in a cluster: its shapes and its ganged passes. -/
def Cluster.gang (u : Cluster) : (Nat × Nat × Bool) × Option GangPass × Option GangPass × List GangPass :=
  ((u.shape, u.shadow, u.pending), u.gangRun, u.gangQueued, u.gangTail)

/-- The gang controllers, the fault records and the folds under way are as before, and no tap entry is new where none was. -/
structure GangKept (s t : State) : Prop where
  fault_eq : ∀ j, (t.core j).fault = (s.core j).fault
  folding_eq : ∀ j, (t.core j).folding = (s.core j).folding
  noTaps : ∀ j, (s.core j).tapQ = [] → (t.core j).tapQ = []
  gang_eq : ∀ cl, (t.cluster cl).gang = (s.cluster cl).gang

theorem GangKept.refl (s : State) : GangKept s s := ⟨fun _ => rfl, fun _ => rfl, fun _ h => h, fun _ => rfl⟩

theorem GangKept.trans {s t u : State} (h : GangKept s t) (h' : GangKept t u) : GangKept s u :=
  ⟨fun j => (h'.fault_eq j).trans (h.fault_eq j), fun j => (h'.folding_eq j).trans (h.folding_eq j),
    fun j hj => h'.noTaps j (h.noTaps j hj), fun cl => (h'.gang_eq cl).trans (h.gang_eq cl)⟩

/-- The same cores and clusters. -/
theorem gangKept_of_units {s t : State} (h : (t.cores, t.clusters) = (s.cores, s.clusters)) : GangKept s t := by
  obtain ⟨hc, hu⟩ := Prod.mk.inj h
  have core_eq (j : Nat) : t.core j = s.core j := by rw [State.core, hc, State.core]
  exact ⟨fun j => by rw [core_eq], fun j => by rw [core_eq], fun j h => by rw [core_eq, h],
    fun cl => by rw [State.cluster, hu, State.cluster]⟩

theorem GangKept.forEach {α : Type} {s t : State} (h : GangKept s t) (l : List α) (f : State → α → State)
    (hf : ∀ u, ∀ x, GangKept u (f u x)) : GangKept s (forEach l t f) :=
  forEach_keeps (GangKept s) l t f (fun u x hu => hu.trans (hf u x)) h

section
variable (s : State) (k : Nat)

theorem gangKept_setCore_of (c : Core) (hf : c.fault = (s.core k).fault) (hn : c.folding = (s.core k).folding)
    (ht : (s.core k).tapQ = [] → c.tapQ = []) : GangKept s (s.setCore k c) := by
  refine ⟨setCore_keeps s k Core.fault c hf, setCore_keeps s k Core.folding c hn, fun j hj => ?_, fun _ => rfl⟩
  rw [State.setCore_core]
  split
  · next h => exact ht (h ▸ hj)
  · exact hj

theorem gangKept_setCore (c : Core) (h : (c.fault, c.folding, c.tapQ) = ((s.core k).fault, (s.core k).folding, (s.core k).tapQ)) :
    GangKept s (s.setCore k c) := by
  simp only [Prod.mk.injEq] at h
  obtain ⟨hf, hn, ht⟩ := h
  exact gangKept_setCore_of s k c hf hn ht.trans

theorem gangKept_setCluster (u : Cluster) (h : u.gang = (s.cluster k).gang) : GangKept s (s.setCluster k u) := by
  refine ⟨fun _ => rfl, fun _ => rfl, fun _ h => h, fun cl => ?_⟩
  by_cases hc : cl = k
  · subst hc
    rw [State.setCluster_cluster_same, h]
  · rw [State.setCluster_cluster_ne _ _ _ _ hc]

theorem gangKept_write (a : Nat) (l : List Byte) : GangKept s (s.write a l) :=
  gangKept_of_units (Prod.ext (s.write_cores a l) (s.write_clusters a l))

theorem gangKept_wr (a n x : Nat) : GangKept s (s.wr a n x) := gangKept_write ..

theorem gangKept_raise (cls code : Nat) (b : Block) (detail : Nat) (uid : W32) (inst cmd : Nat) (lastUid : W32) (ctx : List Byte)
    (flags : Nat) : GangKept s (s.raise cls code b detail uid inst cmd lastUid ctx flags) := by
  unfold State.raise State.raiseRec
  dsimp only
  split
  · split
    · exact .trans (gangKept_of_units (by rfl)) (gangKept_setCore _ _ _ (by rfl))
    · split
      · exact .trans (gangKept_of_units (by rfl)) (gangKept_setCluster _ _ _ (by rfl))
      · exact gangKept_of_units (by rfl)
  · exact gangKept_of_units (by rfl)

theorem gangKept_incReg (off n : Nat) : GangKept s (s.incReg off n) := gangKept_of_units (by rfl)

theorem gangKept_trace (kind word n cause : Nat) : GangKept s (s.trace k kind word n cause) := by
  unfold State.trace
  dsimp only
  split
  · exact .refl s
  · split
    · split
      · exact gangKept_setCluster _ _ _ (by rfl)
      · exact (gangKept_setCluster _ _ _ (by rfl)).trans (gangKept_incReg ..)
    · exact gangKept_setCluster _ _ _ (by rfl)

theorem gangKept_rearm : GangKept s (s.rearm k) := by
  unfold State.rearm
  split
  · exact gangKept_of_units (by rfl)
  · exact .refl s

theorem gangKept_unbind (st : CoreSt) : GangKept s (s.unbind k st) := by
  unfold State.unbind State.dlBreak
  dsimp only
  repeat' split
  all_goals exact gangKept_of_units (by rfl)

theorem gangKept_setSt (st : CoreSt) : GangKept s (s.setSt k st) := by
  have go {u : State} (h : GangKept s u) : GangKept s ((u.setCore k { u.core k with st := st }).trace k 4 st.code 0 0) :=
    (h.trans (gangKept_setCore _ _ _ (by rfl))).trans (gangKept_trace ..)
  unfold State.setSt
  dsimp only
  split
  · exact .refl s
  · split
    · exact go (gangKept_rearm ..)
    · exact go (gangKept_unbind ..)

theorem gangKept_modLaunch (id : Nat) (f : LaunchRec → LaunchRec) : GangKept s (s.modLaunch id f) := gangKept_of_units (by rfl)

/-! ### The end of issue -/

theorem gangKept_slip (e : Nat) (i : Instr) (t : W64) (tag : Tag) (held : Bool) : GangKept s (s.slip k e i t tag held) := by
  unfold State.slip
  dsimp only
  split
  · exact ((gangKept_setCore s k _ (by rfl)).trans (gangKept_trace ..)).trans (gangKept_modLaunch ..)
  · exact (gangKept_setCore s k _ (by rfl)).trans (gangKept_trace ..)

theorem gangKept_startPass (e : Nat) (p : Pass) (held : Bool) : GangKept s (s.startPass k e p held) := by
  have h (x : Slots) : GangKept s (s.setCore k ((s.core k).setSlots e x)) := gangKept_setCore _ _ _ (by rfl)
  unfold State.startPass
  dsimp only
  split
  · split
    · exact (h _).trans (gangKept_slip ..)
    · exact h _
  · exact h _

theorem gangKept_place (i : Instr) (t : Option W64) (late : Late) (foot : Foot) : GangKept s (s.place k i t late foot) := by
  unfold State.place State.enterSlot
  dsimp only
  split
  · split
    · exact gangKept_startPass ..
    · exact gangKept_setCore _ _ _ (by rfl)
  · split
    · split
      · exact gangKept_slip ..
      · exact .refl s
    · exact .refl s

theorem gangKept_countIssue (i : Instr) : GangKept s (s.countIssue k i) :=
  (gangKept_trace s k 1 (clsOp i) 0 0).trans (gangKept_setCore _ _ _ (by rfl))

theorem Core.advance_taps (c : Core) : c.advance.folding = c.folding ∧ c.advance.tapQ = c.tapQ := by
  obtain ⟨_, _, _, h⟩ := c.advance_eq
  rw [h]
  exact ⟨rfl, rfl⟩

theorem gangKept_moveOn (jumped : Bool) : GangKept s (s.moveOn k jumped) := by
  unfold State.moveOn
  generalize hw : (if jumped = true then s else s.setCore k (s.core k).advance) = w
  have h : GangKept s w := by
    subst hw
    cases jumped
    · obtain ⟨hn, ht⟩ := (s.core k).advance_taps
      exact gangKept_setCore_of _ _ _ (Core.advance_fault _) hn fun h => ht.trans h
    · exact .refl s
  dsimp only
  split
  · split
    · exact h.trans (gangKept_setCore _ _ _ (by rfl))
    · exact (h.trans (gangKept_setCore _ _ _ (by rfl))).trans (gangKept_setSt ..)
  · exact h

theorem gangKept_finish (i : Instr) (t : Option W64) (late : Late) (jumped : Bool) : GangKept s (s.finish k i t late jumped) :=
  ((gangKept_countIssue ..).trans (gangKept_place ..)).trans (gangKept_moveOn ..)

/-! ### Flags and their waiters -/

theorem gangKept_resume (w : Wait) (tag : Tag) : GangKept s (s.resume k w tag) := (gangKept_setSt ..).trans (gangKept_finish ..)

theorem gangKept_completeWith (c : Cmd) (status resultLo : Nat) (result : W64) (l : Option LaunchRec) :
    GangKept s (s.completeWith c status resultLo result l) := by
  unfold State.completeWith
  dsimp only
  split
  · exact (gangKept_of_units (by rfl)).trans (gangKept_raise ..)
  · exact gangKept_of_units (by rfl)

theorem gangKept_finishWait (c : Cmd) : GangKept s (s.finishWait c) := by
  unfold State.finishWait
  dsimp only
  refine GangKept.trans ?_ (gangKept_completeWith ..)
  split
  · exact (gangKept_setCluster _ _ _ (by rfl)).trans (gangKept_setCluster _ _ _ (by rfl))
  · exact .refl s

theorem gangKept_wakeHost (kind : Nat) : GangKept s (s.wakeHost kind) := by
  refine (GangKept.refl s).forEach _ _ fun u c => ?_
  split
  · exact gangKept_finishWait ..
  · exact .refl u

theorem gangKept_setFlag (n : Nat) (v : Bool) : GangKept s (s.setFlag n v) := by
  unfold State.setFlag
  dsimp only
  split
  · exact .refl s
  · split
    · exact gangKept_of_units (by rfl)
    · split
      · exact .trans (gangKept_of_units (by rfl)) (gangKept_wr ..)
      · exact gangKept_of_units (by rfl)

theorem gangKept_putFlag (n : Nat) (v : Bool) (cause : Nat) (prop : Bool) : GangKept s (s.putFlag n v cause prop) := by
  unfold State.putFlag
  dsimp only
  generalize hu : (if (v && !s.flag n) = true then _ else s.setFlag n v) = u
  have h : GangKept s u := by
    subst hu
    split
    · exact (gangKept_setFlag ..).trans (gangKept_of_units (by rfl))
    · exact gangKept_setFlag ..
  split
  · refine GangKept.trans (h.forEach _ _ fun t k => ?_) (gangKept_wakeHost ..)
    split
    · split
      · exact gangKept_resume ..
      · exact .refl t
    · exact .refl t
  · exact h

/-! ### Failing contributions -/

theorem gangKept_sendClove (i : Nat) (step : W64) (first last : Nat) : GangKept s (s.sendClove i step first last) := by
  refine GangKept.trans ((GangKept.refl s).forEach _ _ fun u c => ?_) (gangKept_incReg ..)
  unfold State.send State.sendBy State.relay
  dsimp only
  split <;> exact gangKept_of_units (by rfl)

theorem gangKept_newestIsActive (i : Nat) : GangKept s (s.newestIsActive i) := by
  refine (GangKept.refl s).forEach _ _ fun u n => ?_
  dsimp only
  split
  · exact .refl u
  · exact gangKept_wr ..

theorem gangKept_undoTaps (i : Nat) : GangKept s (s.undoTaps i) := by
  refine (GangKept.refl s).forEach _ _ fun u k => ?_
  dsimp only
  split
  · exact .refl u
  · exact gangKept_setCore_of _ _ _ rfl rfl fun h => by simp [h]

theorem gangKept_undoWork (i : Nat) : GangKept s (s.undoWork i) := gangKept_of_units (by rfl)

theorem gangKept_setGate (i : Nat) (g : Gate) : GangKept s (s.setGate i g) := gangKept_of_units (by rfl)

theorem gangKept_beginTaint (i : Nat) : GangKept s (s.beginTaint i) := by
  unfold State.beginTaint State.beginUndo
  dsimp only
  exact ((((gangKept_setGate ..).trans (gangKept_setGate ..)).trans (gangKept_undoWork ..)).trans (gangKept_newestIsActive ..)).trans
    (gangKept_undoTaps ..)

theorem gangKept_gateEvent (i coord b : Nat) : GangKept s (s.gateEvent i coord b) := gangKept_of_units (by rfl)

theorem gangKept_failContribution (i : Nat) (st : W64) (unit : W32) : GangKept s (s.failContribution i st unit) := by
  have clove {u : State} (h : GangKept s u) (b : Bool) (first last : Nat) :
      GangKept s (if b = true then u.sendClove i st first last else u) := by
    split
    · exact h.trans (gangKept_sendClove ..)
    · exact h
  unfold State.failContribution
  dsimp only
  split
  · split
    · split
      · exact (clove (.trans (gangKept_gateEvent ..) (gangKept_setGate ..)) ..).trans (gangKept_beginTaint ..)
      · exact clove (.trans (gangKept_gateEvent ..) (gangKept_setGate ..)) ..
    · split
      · exact clove (.trans (gangKept_gateEvent ..) (gangKept_setGate ..)) ..
      · exact gangKept_gateEvent ..
  · exact .refl s

theorem gangKept_failProg (p : Prog) (unit : W32) : GangKept s (s.failProg p unit) := by
  refine GangKept.trans ?_ (gangKept_failContribution ..)
  unfold State.markLaunch
  split
  · exact gangKept_modLaunch ..
  · exact .refl s

theorem gangKept_solvEvent (i tag b code : Nat) : GangKept s (s.solvEvent i tag b code) :=
  (gangKept_of_units (by rfl)).trans (gangKept_raise ..)

theorem gangKept_solveInputs (i : Nat) : GangKept s (s.solveInputs i).1 := by
  have hash (l : List (Nat × Nat)) (f : Unit → List Byte) : GangKept s (s.hashRanges i l f).1 := by
    unfold State.hashRanges
    split
    · exact .refl s
    · exact (gangKept_raise ..).trans (gangKept_of_units (by rfl))
  unfold State.solveInputs State.hashInputs
  dsimp only
  split
  · split
    · exact .refl s
    · split
      · exact hash ..
      · exact (gangKept_of_units (by rfl)).trans (gangKept_raise ..)
  · exact .refl s

theorem gangKept_freezeByFault (i cl code : Nat) : GangKept s (s.freezeByFault i cl code) := by
  unfold State.freezeByFault
  dsimp only
  split
  · exact .refl s
  · exact ((gangKept_solveInputs ..).trans (gangKept_of_units (by rfl))).trans (gangKept_solvEvent ..)

/-! ### Core faults (R71, R72) -/

theorem gangKept_haltCore : GangKept s (s.haltCore k) := by
  have halts : GangKept s (if (s.core k).st = .running ∨ (s.core k).st = .waiting then
      (s.setCore k { s.core k with after := .toHalted, held := none, wait := none, waitTarget := none, haltAt := s.beat }).setSt k .draining
    else s.setCore k { s.core k with resumeDue := false }) := by
    split
    · exact (gangKept_setCore _ _ _ (by rfl)).trans (gangKept_setSt ..)
    · exact gangKept_setCore _ _ _ (by rfl)
  unfold State.haltCore
  dsimp only
  split
  · split
    · exact gangKept_setCore _ _ _ (by rfl)
    · exact halts
  · exact halts

theorem gangKept_scopeHalts : GangKept s (s.scopeHalts k) := by
  unfold State.scopeHalts
  split
  · exact .refl s
  · exact (GangKept.refl s).forEach _ _ fun u j => gangKept_haltCore u j

/-- The core that a fault strikes: the first fault is kept, a later one sets MORE. -/
def Core.faulted (c : Core) (cause eng : Nat) : Core :=
  if !c.fault.valid then
    { c with fault := { cause := cause, engine := eng, more := c.fault.more, pc := c.pc, valid := true },
             held := none, wait := none, waitTarget := none, tapQ := [], folding := 0, gangWait := false,
             after := if c.after = .toReset then .toReset else .toFaulted }
  else { c with fault := { c.fault with more := true } }

/-- Besides what it makes of its own core, a fault leaves the gang controllers, the fault records and the folds. -/
theorem gangKept_faultOne (fault eng : Nat) :
    GangKept (s.setCore k ((s.core k).faulted (Cause.code fault) eng)) (s.faultOne k fault eng) := by
  unfold State.faultOne
  dsimp only
  split
  · next h =>
    rw [Core.faulted, if_pos h]
    refine GangKept.trans ?_ (gangKept_freezeByFault ..)
    cases (s.core k).prog with
    | none => exact ((gangKept_raise ..).trans (gangKept_setSt ..)).trans (gangKept_trace ..)
    | some p =>
      have failed (u : State) (unit : W32) (f : LaunchRec → LaunchRec) : GangKept u ((u.failProg p unit).modLaunch p.id f) :=
        (gangKept_failProg ..).trans (gangKept_modLaunch ..)
      by_cases hf : p.faultFlag = 0
      · dsimp only
        rw [if_pos hf]
        exact (((gangKept_raise ..).trans (gangKept_setSt ..)).trans (gangKept_trace ..)).trans (failed ..)
      · dsimp only
        rw [if_neg hf]
        exact ((((gangKept_raise ..).trans (gangKept_setSt ..)).trans (gangKept_trace ..)).trans (failed ..)).trans (gangKept_putFlag ..)
  · next h =>
    rw [Core.faulted, if_neg h]
    exact gangKept_raise ..

end

/-! ### Which faults a core records -/

/-- A core's fault record names a cause and an engine. -/
def Core.Struck (c : Core) (cause eng : Nat) : Prop := c.fault.valid = true ∧ c.fault.cause = cause ∧ c.fault.engine = eng

section
variable {s : State} {k : Nat}

theorem Core.faulted_first {c : Core} (h : c.fault.valid = false) (cause eng : Nat) : (c.faulted cause eng).Struck cause eng := by
  rw [Core.faulted, h]
  exact ⟨rfl, rfl, rfl⟩

/-- A later fault keeps the record of the first. -/
theorem Core.faulted_later {c : Core} {cause eng : Nat} (h : c.Struck cause eng) (cause' eng' : Nat) :
    (c.faulted cause' eng').Struck cause eng := by
  obtain ⟨hv, hc, he⟩ := h
  rw [Core.faulted, hv]
  exact ⟨hv, hc, he⟩

theorem struck_of_fault {c d : Core} {cause eng : Nat} (hf : d.fault = c.fault) (h : c.Struck cause eng) : d.Struck cause eng := by
  unfold Core.Struck
  rwa [hf]

theorem faultOne_strikes (h : (s.core k).fault.valid = false) (fault eng : Nat) :
    ((s.faultOne k fault eng).core k).Struck (Cause.code fault) eng := by
  refine struck_of_fault ((gangKept_faultOne s k fault eng).fault_eq k) ?_
  rw [State.setCore_core_same]
  exact Core.faulted_first h ..

theorem faultOne_fault_ne {j : Nat} (h : j ≠ k) (fault eng : Nat) : ((s.faultOne k fault eng).core j).fault = (s.core j).fault := by
  rw [(gangKept_faultOne s k fault eng).fault_eq, State.setCore_core_ne _ _ _ _ h]

theorem faultOne_keeps_struck {j cause eng : Nat} (h : (s.core j).Struck cause eng) (k fault eng' : Nat) :
    ((s.faultOne k fault eng').core j).Struck cause eng := by
  by_cases hj : j = k
  · subst hj
    refine struck_of_fault ((gangKept_faultOne s j fault eng').fault_eq j) ?_
    rw [State.setCore_core_same]
    exact Core.faulted_later h ..
  · exact struck_of_fault (faultOne_fault_ne hj ..) h

theorem faultOne_gang (fault eng cl : Nat) : ((s.faultOne k fault eng).cluster cl).gang = (s.cluster cl).gang :=
  (gangKept_faultOne s k fault eng).gang_eq cl

/-- Of faults that strike cores in turn, all of a core naming one cause and engine, the core records that one. -/
theorem forEach_faultOne_strikes {l : List (Nat × Nat × Nat)} {cause eng : Nat}
    (hl : ∀ f ∈ l, f.1 = k → Cause.code f.2.1 = cause ∧ f.2.2 = eng)
    (h : (s.core k).Struck cause eng ∨ ((s.core k).fault.valid = false ∧ ∃ f ∈ l, f.1 = k)) :
    ((forEach l s fun s f => s.faultOne f.1 f.2.1 f.2.2).core k).Struck cause eng := by
  induction l generalizing s with
  | nil => exact h.elim id fun h => absurd h.2 (by simp)
  | cons f l ih =>
    rw [forEach_cons]
    refine ih (fun g hg => hl g (List.mem_cons_of_mem f hg)) ?_
    by_cases hk : f.1 = k
    · obtain ⟨hc, he⟩ := hl f List.mem_cons_self hk
      refine .inl (h.elim (faultOne_keeps_struck · ..) fun h => ?_)
      rw [← hc, ← he, ← hk]
      exact faultOne_strikes (hk ▸ h.1) ..
    · refine h.imp (faultOne_keeps_struck · ..) fun ⟨hv, g, hg, hgk⟩ => ⟨?_, g, ?_, hgk⟩
      · rw [faultOne_fault_ne (Ne.symm hk), hv]
      · exact (List.mem_cons.mp hg).resolve_left fun he => hk (he ▸ hgk)

/-- A core among those that fault together records its own cause and engine, and the gang controllers stay as they are. -/
theorem faultMany_strikes {cl : Nat} {l : List (Nat × Nat × Nat)} {cause eng : Nat} (hv : (s.core k).fault.valid = false)
    (hl : ∀ f ∈ l, f.1 = k → Cause.code f.2.1 = cause ∧ f.2.2 = eng) (hk : ∃ f ∈ l, f.1 = k) :
    ((s.faultMany cl l).core k).Struck cause eng := by
  unfold State.faultMany
  refine struck_of_fault (((GangKept.refl _).forEach l _ fun u f => gangKept_scopeHalts u f.1).fault_eq k) ?_
  refine forEach_keeps (fun u => (u.core k).Struck cause eng) _ _ _ (fun u j hu => ?_) (forEach_faultOne_strikes hl (.inr ⟨hv, hk⟩))
  split
  · exact faultOne_keeps_struck hu ..
  · exact hu

theorem faultMany_gang (cl : Nat) (l : List (Nat × Nat × Nat)) (j : Nat) : ((s.faultMany cl l).cluster j).gang = (s.cluster j).gang := by
  have ones : ((forEach l s fun s f => s.faultOne f.1 f.2.1 f.2.2).cluster j).gang = (s.cluster j).gang :=
    forEach_eq (fun u => (u.cluster j).gang) l s _ fun _ _ _ => faultOne_gang ..
  have peers (u : State) : ((u.peerFaults cl).cluster j).gang = (u.cluster j).gang :=
    forEach_eq (fun u => (u.cluster j).gang) _ u _ fun u i _ => by
      split
      · exact faultOne_gang ..
      · rfl
  unfold State.faultMany
  rw [((GangKept.refl _).forEach l _ fun u f => gangKept_scopeHalts u f.1).gang_eq, peers, ones]

end

end Sys2Proof.Machine
end

section
/-! PROOFS. What the data effects of ganged passes leave of the gang controllers, the fault records and the folds (O14). -/

namespace Sys2Proof.Machine

section
variable (s : State) (k : Nat)

/-! ### Elements and matrices -/

theorem gangKept_putElem (v : View) (i j raw : Nat) : GangKept s (s.putElem v i j raw) := by
  unfold State.putElem
  split
  · exact gangKept_wr ..
  · exact .refl s

theorem gangKept_putMat (v : View) (r c : Nat) (m : Mat) : GangKept s (s.putMat v r c m) :=
  (GangKept.refl s).forEach _ _ fun u _ => gangKept_putElem u ..

theorem gangKept_scribble (a n : Nat) : GangKept s (s.scribble a n) := .trans (gangKept_write ..) (gangKept_of_units (by rfl))

/-- A fold that carries a value beside the state keeps what each of its steps keeps. -/
theorem GangKept.foldl {α β : Type} {s : State} (l : List α) (a : State × β) (f : State × β → α → State × β)
    (hf : ∀ a x, GangKept a.1 (f a x).1) (h : GangKept s a.1) : GangKept s (l.foldl f a).1 := by
  induction l generalizing a with
  | nil => exact h
  | cons x l ih => exact ih _ (h.trans (hf a x))

theorem gangKept_spillAll (intg : Bool) (vc : View) (a : AccSet) : GangKept s (s.spillAll intg vc a).1 :=
  GangKept.foldl _ _ _ (fun x _ => gangKept_putElem x.1 ..) (.refl s)

theorem gangKept_runPass (kind : PassKind) (va vb : View) (vc : Option View) (n m : Nat) (sh : Share) (a : AccSet) :
    GangKept s (s.runPass kind va vb vc n m sh a).1 := by
  refine GangKept.foldl _ _ _ (fun x q => ?_) (.refl s)
  dsimp only
  split
  · split
    · exact gangKept_spillAll ..
    · exact .refl _
  · exact .refl _

/-- A core without tap entries starts no fold for an access. -/
theorem settleFolds_noTaps {s : State} {k : Nat} (h : (s.core k).tapQ = []) (reads writes : List (Nat × Nat)) :
    s.settleFolds k reads writes = .ok s := by
  unfold State.settleFolds
  exact if_pos (by rw [h, List.drop_nil]; rfl)

/-- On a core without tap entries an accumulating pass has its effect. -/
theorem applyMma_noTaps {s : State} {k : Nat} (h : (s.core k).tapQ = []) (ac : Nat) (kind : PassKind) (v : View × View × Option View)
    (n m : Nat) (sh : Share) : ∃ t, s.applyMma k ac kind v n m sh = .ok t ∧ GangKept s t := by
  unfold State.applyMma
  rw [settleFolds_noTaps h]
  exact ⟨_, rfl, (gangKept_runPass s kind v.1 v.2.1 v.2.2 n m sh ((s.core k).acc' ac)).trans (gangKept_setCore _ _ _ (by rfl))⟩

/-! ### Factor operations -/

theorem gangKept_solveCounts (r : SolveRec) : GangKept s (s.solveCounts r) := (gangKept_wr ..).trans (gangKept_wr ..)

theorem gangKept_putSolve (i : Nat) (r : SolveRec) : GangKept s (s.putSolve i r) := gangKept_of_units (by rfl)

theorem gangKept_reportReg (col : Nat) (pv : W32) : GangKept s (s.reportReg k col pv) := by
  unfold State.reportReg
  split
  · exact .refl s
  · exact (((gangKept_putSolve ..).trans (gangKept_solveCounts ..)).trans (gangKept_solvEvent ..)).trans (gangKept_incReg ..)

theorem gangKept_reportViol (col : Nat) : GangKept s (s.reportViol k col) := by
  unfold State.reportViol
  split
  · exact .refl s
  · exact (((gangKept_putSolve ..).trans (gangKept_solveCounts ..)).trans (gangKept_solvEvent ..)).trans (gangKept_incReg ..)

theorem gangKept_coreWrite (a : Nat) (bs : List Byte) : GangKept s (s.coreWrite k a bs) := by
  unfold State.coreWrite State.solveWrite
  split
  · exact (gangKept_putSolve ..).trans (gangKept_solvEvent ..)
  · exact gangKept_write ..

theorem gangKept_addParent (ldlt : Bool) (cert : Cert) (x : SnRec) (a : SnAreas) (z : State × Fac) (p : Nat × Nat) :
    GangKept z.1 (addParent ldlt cert x a k z p).1 := by
  unfold addParent
  dsimp only
  split
  · exact .refl _
  · exact gangKept_coreWrite ..

theorem gangKept_pivotLog (a firstCol : Nat) (f : Fac) : GangKept s (s.pivotLog k a firstCol f) := by
  refine (gangKept_coreWrite ..).forEach _ _ fun u p => ?_
  dsimp only
  split
  · exact gangKept_coreWrite ..
  · exact .refl u

theorem gangKept_runSn (ldlt : Bool) (x : SnRec) (cert : Cert) (a : SnAreas) : GangKept s (runSn ldlt k x cert a s) := by
  unfold runSn
  extract_lets n c lower front f₁ f₂ f₀ f s₁ s₂ s₃ s₄ s₅ z s₆ s₇ s₈
  have h₁ : GangKept s s₁ := gangKept_of_units (by rfl)
  have h₂ : GangKept s s₂ := h₁.forEach _ _ fun u p => gangKept_coreWrite ..
  have h₃ : GangKept s s₃ := h₂.forEach _ _ fun u p => gangKept_coreWrite ..
  have h₅ : GangKept s s₅ := (h₃.trans (gangKept_coreWrite ..)).trans (gangKept_of_units (by rfl))
  have hz : GangKept s z.1 := GangKept.foldl _ _ _ (fun z p => gangKept_addParent _ _ _ _ _ z p) h₅
  have h₇ : GangKept s s₇ := (hz.trans (gangKept_pivotLog ..)).forEach _ _ fun u p => gangKept_reportReg ..
  have h₈ : GangKept s s₈ := h₇.forEach _ _ fun u q => gangKept_reportViol ..
  split
  · exact h₈.trans (gangKept_scribble ..)
  · exact h₈

theorem gangKept_runTrsv (p : Nat) (z : Trsv) (e : Int) : GangKept s (runTrsv k p z e s) := by
  unfold runTrsv
  extract_lets cols s₁
  have h₁ : GangKept s s₁ := (GangKept.refl s).forEach _ _ fun u q => gangKept_putElem ..
  split
  · exact h₁.forEach _ _ fun u q => gangKept_coreWrite ..
  · exact h₁

/-- Whatever operation a factor plan answers leaves the gang controllers, the fault records and the folds. -/
def FactorPlan.KeepsGang (p : FactorPlan) : Prop := ∀ k s o, p k s = .ok o → ∀ t : State, GangKept t (o.run t).1

theorem keepsGang_planNsiScale (t1 t2 : TReg) (p : Nat) (gs : GReg) : (planNsiScale t1 t2 p gs).KeepsGang := by
  intro k s o h t
  unfold planNsiScale at h
  dsimp only at h
  repeat' split at h
  all_goals cases h
  exact (gangKept_putMat ..).trans (gangKept_putMat ..)

theorem keepsGang_planNsiStep (t1 t2 t3 : TReg) (p : Nat) : (planNsiStep t1 t2 t3 p).KeepsGang := by
  intro k s o h t
  unfold planNsiStep at h
  extract_lets at h
  repeat' split at h
  all_goals cases h
  exact (((GangKept.refl t).forEach _ _ fun u a => gangKept_scribble ..).trans (gangKept_putMat ..)).trans (gangKept_putMat ..)

theorem keepsGang_planNsiResid (t1 t2 : TReg) (p : Nat) : (planNsiResid t1 t2 p).KeepsGang := by
  intro k s o h t
  unfold planNsiResid at h
  dsimp only at h
  repeat' split at h
  all_goals cases h
  exact .refl t

theorem keepsGang_planUpdNs (t1 t2 t3 : TReg) : (planUpdNs t1 t2 t3).KeepsGang := by
  intro k s o h t
  unfold planUpdNs at h
  dsimp only at h
  repeat' split at h
  all_goals cases h
  exact ((gangKept_putMat ..).trans (gangKept_putMat ..)).trans (gangKept_putMat ..)

theorem keepsGang_planSn (ldlt : Bool) (t1 t2 t3 : TReg) : (planSn ldlt t1 t2 t3).KeepsGang := by
  intro k s o h t
  unfold planSn at h
  dsimp only at h
  repeat' split at h
  all_goals cases h
  exact gangKept_runSn ..

theorem keepsGang_planTrsvSn (t1 t2 t3 : TReg) (p : Nat) : (planTrsvSn t1 t2 t3 p).KeepsGang := by
  intro k s o h t
  have staged (l : List Nat) (n : Nat) : GangKept t (l.foldl (fun s a => s.scribble a n) t) :=
    (GangKept.refl t).forEach l (fun s a => s.scribble a n) fun u a => gangKept_scribble ..
  unfold planTrsvSn at h
  dsimp only at h
  repeat' split at h
  all_goals cases h
  all_goals dsimp only
  · exact ((staged ..).trans (gangKept_runTrsv ..)).trans (gangKept_scribble ..)
  · exact (staged ..).trans (gangKept_runTrsv ..)
  · exact (gangKept_runTrsv ..).trans (gangKept_scribble ..)
  · exact gangKept_runTrsv ..

theorem keepsGang_planRefine (t1 t2 t3 t4 : TReg) : (planRefine t1 t2 t3 t4).KeepsGang := by
  intro k s o h t
  unfold planRefine at h
  dsimp only at h
  repeat' split at h
  all_goals cases h
  · exact (GangKept.refl t).forEach _ _ fun u q => gangKept_putElem ..
  · exact (gangKept_putMat ..).trans (gangKept_putMat ..)

theorem keepsGang_factorPlanOf {i : Instr} {p : FactorPlan × GReg} (h : factorPlanOf i = some p) : p.1.KeepsGang := by
  unfold factorPlanOf at h
  split at h
  all_goals cases h
  · exact keepsGang_planNsiScale _ _ _ _
  · exact keepsGang_planNsiStep _ _ _ _
  · exact keepsGang_planNsiResid _ _ _
  · exact keepsGang_planSn _ _ _ _
  · exact keepsGang_planSn _ _ _ _
  · exact keepsGang_planTrsvSn _ _ _ _
  · exact keepsGang_planRefine _ _ _ _
  · exact keepsGang_planUpdNs _ _ _

end

end Sys2Proof.Machine
end

section
/-! PROOFS. The cores of a cluster, and what a ganged pass prepares before it takes its slot (O14). -/

namespace Sys2Proof.Machine

/-! ### The cores of a cluster -/

theorem mem_clusterCores {cl k : Nat} : k ∈ clusterCores cl ↔ ∃ x < 256, k = cl * 256 + x := by
  unfold clusterCores
  rw [List.mem_map]
  exact ⟨fun ⟨x, hx, h⟩ => ⟨x, List.mem_range.mp hx, h.symm⟩, fun ⟨x, hx, h⟩ => ⟨x, List.mem_range.mpr hx, h.symm⟩⟩

theorem forall_clusterCores {cl : Nat} {P : Nat → Prop} : (∀ k ∈ clusterCores cl, P k) ↔ ∀ x < 256, P (cl * 256 + x) := by
  simp only [mem_clusterCores]
  exact ⟨fun h x hx => h _ ⟨x, hx, rfl⟩, fun h k ⟨x, hx, hk⟩ => hk ▸ h x hx⟩

theorem first_mem_clusterCores (cl : Nat) : cl * 256 ∈ clusterCores cl := mem_clusterCores.mpr ⟨0, by omega, by omega⟩

theorem mem_clusterCores_of_clOf {cl k : Nat} (h : clOf k = cl) : k ∈ clusterCores cl :=
  mem_clusterCores.mpr ⟨k % 256, Nat.mod_lt _ (by decide), by unfold clOf at h; omega⟩

theorem clOf_first (cl : Nat) : clOf (cl * 256) = cl := Nat.mul_div_cancel cl (by decide)

/-- A run whose items change nothing. -/
theorem forEach_same {α : Type} (l : List α) (s : State) (f : State → α → State) (h : ∀ x ∈ l, f s x = s) :
    forEach l s f = s := by
  induction l with
  | nil => rfl
  | cons x l ih => rw [forEach_cons, h x List.mem_cons_self, ih fun y hy => h y (List.mem_cons_of_mem x hy)]

/-! ### What kind of pass an instruction is -/

theorem kinds_of_factorPlanOf {i : Instr} {p : FactorPlan × GReg} (h : factorPlanOf i = some p) : mmaOf i = none ∧ outOf i = none := by
  unfold factorPlanOf at h
  split at h
  all_goals cases h
  all_goals exact ⟨rfl, rfl⟩

theorem kinds_of_mmaOf {i : Instr} (h : mmaOf i ≠ none) : factorPlanOf i = none ∧ outOf i = none := by
  unfold mmaOf at h
  split at h
  · exact ⟨rfl, rfl⟩
  · exact ⟨rfl, rfl⟩
  · exact ⟨rfl, rfl⟩
  · exact absurd rfl h

/-! ### Before a ganged pass takes its slot -/

section
variable (s : State) (cl : Nat) (i : Instr)

/-- The state in which a ganged pass is issued: the kind of its set fixed, its operands captured, its factor operation run. -/
def State.gangPrepared : State :=
  let s' := match mmaOf i with
    | some m => forEach (clusterCores cl) s fun s k =>
        s.setCore k ((s.core k).setAcc m.1 { (s.core k).acc' m.1 with kind := if m.2.1.intg then .integer else .floating })
    | none => s
  (s'.gangCapture cl (s.cluster cl).shape i).gangFactor cl i

theorem Core.setG_eq (c : Core) (n : Nat) (v : W32) : ∃ g, c.setG n v = { c with g := g } := by
  unfold Core.setG
  split
  · exact ⟨_, rfl⟩
  · exact ⟨_, rfl⟩

theorem gangKept_putGs (k : Nat) (gs : GReg) (v : Option W32) : GangKept s (s.putGs k gs v) := by
  unfold State.putGs
  split
  · obtain ⟨g, hg⟩ := (s.core k).setG_eq gs _
    rw [hg]
    exact gangKept_setCore _ _ _ (by rfl)
  · exact .refl s

variable {s cl i}

/-- A factor operation that its plan allows, in a cluster without tap entries. -/
theorem gangKept_gangFactor (ht : ∀ k ∈ clusterCores cl, (s.core k).tapQ = [])
    (hp : ∀ p, factorPlanOf i = some p → ∃ o, p.1 (cl * 256) s = .ok o) : GangKept s (s.gangFactor cl i) := by
  unfold State.gangFactor
  split
  · exact .refl s
  · next p hi =>
    obtain ⟨o, ho⟩ := hp p hi
    dsimp only
    rw [forEach_same _ s _ fun k hk => by rw [settleFolds_noTaps (ht k hk)], State.runFactor, ho]
    dsimp only
    rw [State.settleTap, settleFolds_noTaps (ht _ (first_mem_clusterCores cl))]
    exact ((gangKept_setCore _ _ _ (by rfl)).trans (keepsGang_factorPlanOf hi _ _ _ ho _)).forEach _ _ fun u k => gangKept_putGs u ..

/-- A capture adds a tap entry, and leaves the gang controllers and the folds. -/
theorem capture_kept (s : State) (k : Nat) (ta tb : Tile) (wide : Bool) (sh : Share) :
    (∀ j, ((s.capture k ta tb wide sh).core j).folding = (s.core j).folding) ∧
      ∀ j, ((s.capture k ta tb wide sh).cluster j) = s.cluster j := by
  unfold State.capture
  dsimp only
  split
  · exact ⟨fun _ => rfl, fun _ => rfl⟩
  · exact ⟨setCore_keeps _ _ Core.folding _ (by rfl), fun _ => rfl⟩

/-- Captures leave the gang controllers and the folds, and there are none where no products are added. -/
theorem gangCapture_kept (s : State) (cl shape : Nat) (i : Instr) :
    (∀ j, ((s.gangCapture cl shape i).core j).folding = (s.core j).folding) ∧
      (∀ j, ((s.gangCapture cl shape i).cluster j) = s.cluster j) ∧ (mmaOf i = none → s.gangCapture cl shape i = s) := by
  unfold State.gangCapture
  cases h : mmaOf i with
  | none => exact ⟨fun _ => rfl, fun _ => rfl, fun _ => rfl⟩
  | some m =>
    dsimp only
    split
    · exact ⟨fun _ => rfl, fun _ => rfl, fun _ => rfl⟩
    · exact ⟨fun j => forEach_eq (fun u => (u.core j).folding) _ s _ fun u k _ => (capture_kept u ..).1 j,
        fun j => forEach_eq (fun u => u.cluster j) _ s _ fun u k _ => (capture_kept u ..).2 j, fun h => nomatch h⟩

/-- Preparing a ganged pass leaves the gang controllers and the folds; only an accumulating pass adds tap entries. -/
theorem gangPrepared_kept (ht : ∀ k ∈ clusterCores cl, (s.core k).tapQ = [])
    (hp : ∀ p, factorPlanOf i = some p → ∃ o, p.1 (cl * 256) s = .ok o) :
    (∀ j, ((s.gangPrepared cl i).core j).folding = (s.core j).folding) ∧
      (∀ j, ((s.gangPrepared cl i).cluster j).gang = (s.cluster j).gang) ∧ (mmaOf i = none → GangKept s (s.gangPrepared cl i)) := by
  unfold State.gangPrepared
  cases h : mmaOf i with
  | none =>
    dsimp only
    obtain ⟨-, -, hsame⟩ := gangCapture_kept s cl (s.cluster cl).shape i
    rw [hsame h]
    have hk := gangKept_gangFactor ht hp
    exact ⟨hk.folding_eq, hk.gang_eq, fun _ => hk⟩
  | some m =>
    dsimp only
    generalize hu : forEach (clusterCores cl) s _ = u
    have hk : GangKept s u := hu ▸ (GangKept.refl s).forEach _ _ fun u k => gangKept_setCore _ _ _ (by rfl)
    obtain ⟨hfold, hgang, -⟩ := gangCapture_kept u cl (s.cluster cl).shape i
    have hnone : (u.gangCapture cl (s.cluster cl).shape i).gangFactor cl i = u.gangCapture cl (s.cluster cl).shape i := by
      unfold State.gangFactor
      rw [(kinds_of_mmaOf (by rw [h]; exact Option.some_ne_none m)).1]
    rw [hnone]
    exact ⟨fun j => (hfold j).trans (hk.folding_eq j), fun j => (congrArg _ (hgang j)).trans (hk.gang_eq j), fun h => nomatch h⟩

end

end Sys2Proof.Machine
end

section
/-! PROOFS. The start of a ganged pass on all cores of a cluster (O14). -/

namespace Sys2Proof.Machine

/-! ### The cores issue the pass -/

/-- A core's held part of a ganged pass is issued. -/
def State.issueHeld (s : State) (e : Nat × Option Instr) : State :=
  match e.2 with
  | some j => (s.countIssue e.1 j).moveOn e.1 false
  | none => s

section
variable (s : State)

theorem gangKept_issueHeld (e : Nat × Option Instr) : GangKept s (s.issueHeld e) := by
  unfold State.issueHeld
  split
  · exact (gangKept_countIssue ..).trans (gangKept_moveOn ..)
  · exact .refl s

theorem issueHeld_held (e : Nat × Option Instr) (k : Nat) (h : (e.1 = k ∧ e.2 ≠ none) ∨ (s.core k).held = none) :
    ((s.issueHeld e).core k).held = none := by
  unfold State.issueHeld
  split
  · rw [(heldKept_moveOn ..).held_eq, State.countIssue, State.setCore_core]
    split
    · rfl
    · next hk => exact (congrArg Core.held (State.trace_core ..)).trans (h.resolve_left fun h => hk h.1.symm)
  · next hn => exact h.resolve_left fun h => h.2 hn

/-- A core among those that issue holds nothing any more. -/
theorem forEach_issueHeld_held (l : List (Nat × Option Instr)) (k : Nat)
    (h : (∃ e ∈ l, e.1 = k ∧ e.2 ≠ none) ∨ (s.core k).held = none) :
    ((forEach l s State.issueHeld).core k).held = none := by
  induction l generalizing s with
  | nil => exact h.resolve_left (by simp)
  | cons e l ih =>
    rw [forEach_cons]
    refine ih _ ?_
    obtain ⟨f, hf, hk⟩ | h := h
    · obtain rfl | hf := List.mem_cons.mp hf
      · exact .inr (issueHeld_held s f k (.inl hk))
      · exact .inl ⟨f, hf, hk⟩
    · exact .inr (issueHeld_held s e k (.inr h))

end

/-! ### The pass takes the gang controller's slot -/

/-- The gang controllers, fault records, folds and held instructions are as before. -/
def PassKept (s t : State) : Prop := GangKept s t ∧ HeldKept s t

theorem PassKept.refl (s : State) : PassKept s s := ⟨.refl s, .refl s⟩
theorem PassKept.trans {s t u : State} (h : PassKept s t) (h' : PassKept t u) : PassKept s u := ⟨h.1.trans h'.1, h.2.trans h'.2⟩

theorem PassKept.forEach {α : Type} {s t : State} (h : PassKept s t) (l : List α) (f : State → α → State)
    (hf : ∀ u, ∀ x, PassKept u (f u x)) : PassKept s (forEach l t f) :=
  forEach_keeps (PassKept s) l t f (fun u x hu => hu.trans (hf u x)) h

section
variable (s : State) (cl : Nat)

theorem passKept_putElem (v : View) (i j raw : Nat) : PassKept s (s.putElem v i j raw) := by
  refine ⟨gangKept_putElem .., heldKept_of_cores ?_⟩
  unfold State.putElem
  split
  · exact State.write_cores ..
  · rfl

theorem passKept_outStore (k ac : Nat) (vo : View) (vc : Option View) (sh : Share) (r : OutRes) :
    PassKept s (s.outStore k ac vo vc sh r) := by
  unfold State.outStore
  dsimp only
  refine PassKept.trans (PassKept.forEach ?_ _ _ fun u _ => passKept_putElem u ..)
    ⟨gangKept_setCore _ _ _ (by rfl), heldKept_setCore _ _ _ rfl⟩
  split
  · exact .refl s
  · exact (PassKept.refl s).forEach _ _ fun u _ => passKept_putElem u ..

theorem passKept_gangSlip (i : Instr) (target : W64) (tag : Tag) (held : Bool) : PassKept s (s.gangSlip cl i target tag held) := by
  unfold State.gangSlip
  dsimp only
  generalize hu : s.setCluster cl _ = u
  have h : PassKept s u := hu ▸ ⟨gangKept_setCluster _ _ _ (by rfl), heldKept_of_cores rfl⟩
  generalize hw : (if held = true then forEach (clusterCores cl) u _ else u) = w
  have hw : PassKept s w := by
    subst hw
    split
    · exact h.forEach _ _ fun u k => ⟨gangKept_setCore _ _ _ (by rfl), heldKept_setCore _ _ _ rfl⟩
    · exact h
  have ht := hw.trans ⟨gangKept_trace w (cl * 256) 2 (clsOp i) (s.beat - target).toNat (tag.1 + tag.2.toNat * 8), heldKept_trace ..⟩
  split
  · exact ht.trans ⟨gangKept_modLaunch .., heldKept_modLaunch ..⟩
  · exact ht

/-- A ganged output pass stores its shares, in a cluster without tap entries. -/
theorem passKept_gangOut (p : GangPass) (ht : outOf p.op ≠ none → ∀ k ∈ clusterCores cl, (s.core k).tapQ = []) :
    PassKept s (s.gangOut cl p) := by
  unfold State.gangOut
  cases ho : outOf p.op with
  | none => exact .refl s
  | some o =>
    have hnil := ht (by rw [ho]; exact Option.some_ne_none o)
    dsimp only
    rw [forEach_same (clusterCores cl) s _ fun k hk => by
      split
      · rfl
      · rw [settleFolds_noTaps (hnil k hk)]]
    exact (PassKept.refl s).forEach _ _ fun u r => passKept_outStore u ..

variable {s cl}

/-- With the slots of the gang controller free, a pass that enters runs. -/
theorem enterGang_runs (p : GangPass) (hrun : (s.cluster cl).gangRun = none) (hq : (s.cluster cl).gangQueued = none)
    (htail : (s.cluster cl).gangTail = []) (hf : ∀ k ∈ clusterCores cl, (s.core k).folding = 0)
    (ht : outOf p.op ≠ none → ∀ k ∈ clusterCores cl, (s.core k).tapQ = []) :
    (∃ r, ((s.enterGang cl p).cluster cl).gangRun = some r ∧ r.op = p.op) ∧ HeldKept s (s.enterGang cl p) := by
  have hready : s.gangReady cl p = true := by
    unfold State.gangReady
    rw [Bool.and_eq_true, List.all_eq_true]
    refine ⟨?_, fun k hk => decide_eq_true (hf k (mem_clusterCores_of_clOf (of_decide_eq_true (List.mem_filter.mp hk).2)))⟩
    rw [htail]
    split <;> rfl
  unfold State.enterGang
  dsimp only
  rw [if_pos ⟨by rw [hrun]; rfl, by rw [hq]; rfl, hready⟩]
  unfold State.gangBegin
  extract_lets bad u s₁ s₂
  have h₂ : PassKept s₁ s₂ := by
    unfold s₂
    split
    · split
      · exact passKept_gangSlip ..
      · exact .refl s₁
    · exact .refl s₁
  have hnil : outOf p.op ≠ none → ∀ k ∈ clusterCores cl, (s₂.core k).tapQ = [] := fun ho k hk => h₂.1.noTaps k (ht ho k hk)
  have hall := h₂.trans (passKept_gangOut s₂ cl p hnil)
  have hgang := hall.1.gang_eq cl
  refine ⟨⟨{ p with badAt := bad, tag := s.ownTag p.target p.late }, ?_, rfl⟩, (heldKept_of_cores (by rfl)).trans hall.2⟩
  rw [show (s₁.cluster cl) = _ from State.setCluster_cluster_same ..] at hgang
  exact congrArg (fun g => g.2.1) hgang

/-- What `startGang` does: it prepares the pass, every core issues its part, and the pass enters. -/
theorem startGang_eq (s : State) (cl : Nat) (i : Instr) (foot : Foot) :
    ∃ p, p.op = i ∧ s.startGang cl i foot =
      (forEach ((clusterCores cl).map fun k => (k, (s.core k).held)) (s.gangPrepared cl i) State.issueHeld).enterGang cl p := by
  refine ⟨_, ?_, rfl⟩
  rfl

/-- With no pass under way, no tap work and an allowed plan, a ganged pass that starts runs, and no core of the cluster
holds it any more. -/
theorem startGang_runs {i : Instr} (foot : Foot) (hp : (s.cluster cl).passes = []) (ht : ∀ k ∈ clusterCores cl, (s.core k).tapQ = [])
    (hf : ∀ k ∈ clusterCores cl, (s.core k).folding = 0) (hh : ∀ k ∈ clusterCores cl, (s.core k).held ≠ none)
    (hplan : ∀ p, factorPlanOf i = some p → ∃ o, p.1 (cl * 256) s = .ok o) :
    (∃ r, ((s.startGang cl i foot).cluster cl).gangRun = some r ∧ r.op = i) ∧
      ∀ k ∈ clusterCores cl, ((s.startGang cl i foot).core k).held = none := by
  obtain ⟨p, hop, he⟩ := startGang_eq s cl i foot
  obtain ⟨hfold, hgang, hkept⟩ := gangPrepared_kept ht hplan
  have hissue := (GangKept.refl (s.gangPrepared cl i)).forEach ((clusterCores cl).map fun k => (k, (s.core k).held)) State.issueHeld
    gangKept_issueHeld
  have hheld (k : Nat) (hk : k ∈ clusterCores cl) := forEach_issueHeld_held (s.gangPrepared cl i)
    ((clusterCores cl).map fun k => (k, (s.core k).held)) k (.inl ⟨_, List.mem_map_of_mem hk, rfl, hh k hk⟩)
  rw [he]
  generalize forEach ((clusterCores cl).map fun k => (k, (s.core k).held)) (s.gangPrepared cl i) State.issueHeld = w at *
  have hw := (hissue.gang_eq cl).trans (hgang cl)
  unfold Cluster.passes at hp
  simp only [List.append_eq_nil_iff, Option.toList_eq_nil_iff] at hp
  obtain ⟨⟨hrun, hqueued⟩, htail⟩ := hp
  obtain ⟨⟨r, hr, hrop⟩, hkeep⟩ := enterGang_runs (s := w) (cl := cl) p ((congrArg (fun g => g.2.1) hw).trans hrun)
    ((congrArg (fun g => g.2.2.1) hw).trans hqueued) ((congrArg (fun g => g.2.2.2) hw).trans htail)
    (fun k hk => (hissue.folding_eq k).trans ((hfold k).trans (hf k hk))) fun ho k hk => by
      refine hissue.noTaps k ((hkept ?_).noTaps k (ht k hk))
      exact Classical.byContradiction fun hm => ho (hop ▸ (kinds_of_mmaOf hm).2)
  exact ⟨⟨r, hr, hrop.trans hop⟩, fun k hk => (hkeep.held_eq k).trans (hheld k hk)⟩

/-! ### GANGED_PASS_START -/

/-- The parts of a ganged pass i that all cores of a cluster have ready meet: cores that differ from core (0,0) fault, else
parts that break a rule, else the pass waits for the bytes of earlier work or starts. -/
def State.gangMeets (s : State) (cl : Nat) (i : Instr) : State :=
  let shape := (s.cluster cl).shape
  let l := (clusterCores cl).map fun k => (k, s.readyGang k)
  let bad := l.filter fun e => decide ((e.2.map fun j => (s.core e.1).gangKey j) ≠ some ((s.core (cl * 256)).gangKey i))
  let faults := l.filterMap fun e => e.2.bind fun j => s.gangPartFault e.1 shape j
  let feet := l.filterMap fun e => e.2.map fun j =>
    (e.1, if (factorPlanOf j).isSome then s.partFoot (cl * 256) shape i [] else s.partFoot e.1 shape j ((s.core e.1).passTiles j))
  let waits (e : Nat × Foot) : Bool := (s.core e.1).waitsFor none ((s.core e.1).seq + 1) e.2 ||
    ((factorPlanOf i).isSome && (s.cluster cl).passes.any fun p => e.2.clash p.foot)
  if !bad.isEmpty then s.faultMany cl (bad.map fun e => (e.1, Cause.gangMismatch, 6))
  else if !faults.isEmpty then s.faultMany cl faults
  else if feet.any waits then forEach feet s fun s e => s.setCore e.1 { s.core e.1 with heldFoot := e.2 }
  else s.startGang cl i { reads := feet.flatMap (·.2.reads), writes := feet.flatMap (·.2.writes) }

/-- A core has its part of a ganged pass ready where it holds an instruction and nothing holds the core. -/
theorem held_of_readyGang {k : Nat} {i : Instr} (h : s.readyGang k = some i) : (s.core k).held = some i := by
  unfold State.readyGang at h
  dsimp only at h
  cases hh : (s.core k).held with
  | none =>
    rw [hh] at h
    cases h
  | some j =>
    rw [hh] at h
    dsimp only at h
    rw [ite_eq_iff] at h
    exact h.elim And.right fun h => nomatch h.2

/-- Core (0,0)'s part of a factor operation that breaks no rule is allowed by its plan. -/
theorem plan_of_gangPartFault {i : Instr} {shape : Nat} (h : s.gangPartFault (cl * 256) shape i = none) (p : FactorPlan × GReg)
    (hi : factorPlanOf i = some p) : ∃ o, p.1 (cl * 256) s = .ok o := by
  obtain ⟨hm, ho⟩ := kinds_of_factorPlanOf hi
  unfold State.gangPartFault at h
  rw [hm, ho, hi] at h
  dsimp only at h
  rw [clOf_first] at h
  cases hp : p.1 (cl * 256) s with
  | ok o => exact ⟨o, rfl⟩
  | error f =>
    rw [hp] at h
    simp [failed] at h

section
variable {i : Instr} (hs : (s.cluster cl).shape ≠ 0) (hp : (s.cluster cl).passes = []) (hi : s.readyGang (cl * 256) = some i)
  (htarget : ∀ t, (s.core (cl * 256)).target i = some t → t ≤ s.beat) (hall : ∀ k ∈ clusterCores cl, (s.readyGang k).isSome)
include hs hp hi htarget hall

/-- What GANGED_PASS_START waits for has come: the parts meet. -/
theorem gangedPassStart_eq : gangedPassStart cl s = s.gangMeets cl i := by
  unfold Cluster.passes at hp
  simp only [List.append_eq_nil_iff, Option.toList_eq_nil_iff] at hp
  unfold gangedPassStart
  extract_lets u k₀ l
  rw [hi]
  refine if_neg ?_
  rintro (h | ⟨h, -⟩ | h | h)
  · exact hs h
  · rw [hp.1.1] at h
    exact nomatch h
  · refine h ?_
    cases ht : (s.core (cl * 256)).target i with
    | some t => simpa using BitVec.not_lt.mpr (htarget t ht)
    | none => rfl
  · obtain ⟨e, he, hn⟩ := List.any_eq_true.mp h
    obtain ⟨k, hk, rfl⟩ := List.mem_map.mp he
    have hn : s.readyGang k = none := Option.isNone_iff_eq_none.mp hn
    exact absurd (hall k hk) (by rw [hn]; decide)

/-- A core whose pass differs from core (0,0)'s faults with GANG_MISMATCH. -/
theorem gangedPassStart_mismatch {k : Nat} {j : Instr} (hk : k ∈ clusterCores cl) (hj : s.readyGang k = some j)
    (hne : (s.core k).gangKey j ≠ (s.core (cl * 256)).gangKey i) (hv : (s.core k).fault.valid = false) :
    ((gangedPassStart cl s).core k).Struck 0x0A 6 := by
  rw [gangedPassStart_eq hs hp hi htarget hall]
  unfold State.gangMeets
  extract_lets shape l bad faults feet waits
  have hmem : (k, some j) ∈ bad :=
    List.mem_filter.mpr ⟨List.mem_map.mpr ⟨k, hk, by rw [hj]⟩, decide_eq_true fun h => hne (Option.some.inj h)⟩
  rw [if_pos (by rw [Bool.not_eq_true', List.isEmpty_eq_false_iff]; exact List.ne_nil_of_mem hmem)]
  refine faultMany_strikes hv (fun f hf _ => ?_) ⟨_, List.mem_map_of_mem hmem, rfl⟩
  obtain ⟨e, -, rfl⟩ := List.mem_map.mp hf
  exact ⟨rfl, rfl⟩

/-- Without a difference or a fault, and without earlier work, the pass starts. -/
theorem gangedPassStart_starts
    (hok : ∀ k ∈ clusterCores cl, (s.core k).passes = [] ∧ (s.core k).tapQ = [] ∧ (s.core k).folding = 0 ∧
      ∀ j, s.readyGang k = some j →
        (s.core k).gangKey j = (s.core (cl * 256)).gangKey i ∧ s.gangPartFault k (s.cluster cl).shape j = none) :
    ∃ foot, gangedPassStart cl s = s.startGang cl i foot := by
  rw [gangedPassStart_eq hs hp hi htarget hall]
  unfold State.gangMeets
  extract_lets shape l bad faults feet waits
  have hl {e : Nat × Option Instr} (he : e ∈ l) : ∃ k ∈ clusterCores cl, ∃ j, s.readyGang k = some j ∧ e = (k, some j) := by
    obtain ⟨k, hk, rfl⟩ := List.mem_map.mp he
    obtain ⟨j, hj⟩ := Option.isSome_iff_exists.mp (hall k hk)
    exact ⟨k, hk, j, hj, by rw [hj]⟩
  have hbad : bad = [] := by
    refine List.filter_eq_nil_iff.mpr fun e he => ?_
    obtain ⟨k, hk, j, hj, rfl⟩ := hl he
    obtain ⟨-, -, -, hpart⟩ := hok k hk
    simpa using (hpart j hj).1
  have hfault : faults = [] := by
    refine List.filterMap_eq_nil_iff.mpr fun e he => ?_
    obtain ⟨k, hk, j, hj, rfl⟩ := hl he
    obtain ⟨-, -, -, hpart⟩ := hok k hk
    exact (hpart j hj).2
  rw [if_neg (by rw [hbad]; decide), if_neg (by rw [hfault]; decide), if_neg]
  · exact ⟨_, rfl⟩
  · rw [List.any_eq_true]
    rintro ⟨e, he, hw⟩
    obtain ⟨f, hf, hfe⟩ := List.mem_filterMap.mp he
    obtain ⟨k, hk, j, -, rfl⟩ := hl hf
    obtain rfl := Option.some.inj hfe
    obtain ⟨hpass, htaps, -, -⟩ := hok k hk
    simp [Core.waitsFor, waits, hpass, htaps, hp] at hw

theorem gangedPassStart_runs
    (hok : ∀ k ∈ clusterCores cl, (s.core k).passes = [] ∧ (s.core k).tapQ = [] ∧ (s.core k).folding = 0 ∧
      ∀ j, s.readyGang k = some j →
        (s.core k).gangKey j = (s.core (cl * 256)).gangKey i ∧ s.gangPartFault k (s.cluster cl).shape j = none) :
    (∃ r, ((gangedPassStart cl s).cluster cl).gangRun = some r ∧ r.op = i) ∧
      ∀ k ∈ clusterCores cl, ((gangedPassStart cl s).core k).held = none := by
  obtain ⟨foot, he⟩ := gangedPassStart_starts hs hp hi htarget hall hok
  obtain ⟨-, -, -, hfirst⟩ := hok _ (first_mem_clusterCores cl)
  rw [he]
  refine startGang_runs foot hp (fun k hk => ?_) (fun k hk => ?_) (fun k hk => ?_) (plan_of_gangPartFault (hfirst i hi).2)
  · obtain ⟨-, htaps, -⟩ := hok k hk
    exact htaps
  · obtain ⟨-, -, hfold, -⟩ := hok k hk
    exact hfold
  · obtain ⟨j, hj⟩ := Option.isSome_iff_exists.mp (hall k hk)
    rw [held_of_readyGang hj]
    exact Option.some_ne_none j

end

end

end Sys2Proof.Machine
end

section
/-! PROOFS. The bad feed of a ganged pass, GANG and the change of shape (O14). -/

namespace Sys2Proof.Machine

/-! ### GANG_FEED_UNCORRECTABLE -/

theorem Cause.code_atWord {cause : Nat} (h : cause < 16) (w : Nat) : Cause.code (Cause.atWord cause w) = cause := by
  rw [Cause.code, Cause.atWord, Nat.add_mul_mod_self_left, Nat.mod_eq_of_lt h]

section
variable {s : State} {cl : Nat}

/-- Without tap entries, the products that a ganged pass has added reach the accumulators only. -/
theorem gangKept_gangAccum (ht : ∀ k, (s.core k).tapQ = []) (p : GangPass) (m : Nat) : GangKept s (s.gangAccum cl p m) := by
  unfold State.gangAccum
  split
  · exact .refl s
  · refine forEach_keeps (GangKept s) _ s _ (fun u k hu => ?_) (.refl s)
    split
    · exact hu
    · next o _ _ v _ =>
      obtain ⟨t, hap, hkept⟩ := applyMma_noTaps (hu.noTaps k (ht k)) o.1 o.2.1 v o.2.2.2.2.2 m (shareOf p.shape (idxOf k))
      rw [hap]
      exact hu.trans hkept

/-- The first bad product of a running pass ends it and strikes core (0,0). -/
theorem gangFeedUncorrectable_strikes {entered w : Nat} {p : GangPass} {v : View × View × Option View}
    (hp : (s.cluster cl).gangRun = some p) (hb : p.badAt = some entered)
    (hw : s.mmaViews (cl * 256) p.shape p.op (p.tiles.getD 0 []) = some v) (hf : s.firstBad v entered = some (entered, w))
    (ht : ∀ k, (s.core k).tapQ = []) (hv : (s.core (cl * 256)).fault.valid = false) :
    ((gangFeedUncorrectable cl entered s).core (cl * 256)).Struck 0x08 6 ∧
      ((gangFeedUncorrectable cl entered s).cluster cl).gangRun = none := by
  unfold gangFeedUncorrectable
  dsimp only
  rw [hp]
  dsimp only
  rw [hw, Option.bind_some, hf]
  dsimp only
  rw [if_pos ⟨rfl, by simp [hb]⟩]
  generalize hu : s.setCluster cl _ = u
  have hcores : u.cores = s.cores := hu ▸ rfl
  have core_eq (k : Nat) : u.core k = s.core k := by rw [State.core, hcores, State.core]
  have hkept : GangKept u (u.gangAccum cl p entered) := gangKept_gangAccum (fun k => by rw [core_eq, ht]) p entered
  have hrun : (u.cluster cl).gangRun = none := by rw [← hu, State.setCluster_cluster_same]
  constructor
  · refine faultMany_strikes ?_ (fun f hf _ => ?_) ⟨_, List.mem_singleton_self _, rfl⟩
    · rw [hkept.fault_eq, core_eq, hv]
    · obtain rfl := List.mem_singleton.mp hf
      exact ⟨Cause.code_atWord (by decide) w, rfl⟩
  · have hgang := (faultMany_gang cl [(cl * 256, Cause.atWord Cause.cbufUncorr w, 6)] cl).trans (hkept.gang_eq cl)
    exact (congrArg (fun g => g.2.1) hgang).trans hrun

end

/-! ### GANG -/

section
variable {s v : State} {k : Nat} {l : Launch} {shape : Nat}

/-- What a comparison that lets an instruction go on leaves: the core's next number and the cluster's comparisons. -/
theorem next_of_gangCompare {key : GangKey} (h : s.gangCompare k key .next = .next v) :
    ∃ u, u.gang = (s.cluster (clOf k)).gang ∧
      v = (s.setCluster (clOf k) u).setCore k { s.core k with gangNo := (s.core k).gangNo + 1 } := by
  have met (x : GangCmp) : ((s.cluster (clOf k)).setGangCmp x).gang = (s.cluster (clOf k)).gang := rfl
  unfold State.gangCompare at h
  dsimp only at h
  split at h
  · split at h
    · exact ⟨_, met _, (Act.next.inj h).symm⟩
    · cases h
  · split at h
    · split at h
      · exact ⟨_, met _, (Act.next.inj h).symm⟩
      · cases h
    · exact ⟨_, met _, (Act.next.inj h).symm⟩

/-- A core that an instruction's comparison lets go on keeps its gang controller and its noted bytes. -/
theorem kept_of_compares {i : Instr} (hg : (s.core k).ganged = true) (h : Compares s k i v) :
    (v.cluster (clOf k)).gang = (s.cluster (clOf k)).gang ∧ (v.core k).foot = (s.core k).foot := by
  unfold Compares at h
  rw [hg, if_neg (by decide)] at h
  obtain ⟨u, hu, rfl⟩ := next_of_gangCompare (h Act.next)
  exact ⟨by rw [State.setCore_cluster, State.setCluster_cluster_same, hu], by rw [State.setCore_core_same]⟩

/-- Core k's GANG of another shape goes to the shadow register, and the core waits for the change. -/
def State.askShape (v : State) (k : Nat) (i : Instr) (shape : Nat) : State :=
  let u := v.cluster (clOf k)
  (v.setCluster (clOf k) { u with shadow := shape, pending := true, gangIssued := u.gangIssued ++ [(idxOf k, i)] }).setCore k
    { v.core k with gangWait := true }

theorem askShape_core (v : State) (k : Nat) (i : Instr) (shape : Nat) :
    (v.askShape k i shape).core k = { v.core k with gangWait := true } := State.setCore_core_same ..

theorem askShape_shapes (v : State) (k : Nat) (i : Instr) (shape : Nat) :
    ((v.askShape k i shape).cluster (clOf k)).gang.1 = ((v.cluster (clOf k)).shape, shape, true) := by
  unfold State.askShape
  dsimp only
  rw [State.setCore_cluster, State.setCluster_cluster_same]
  rfl

/-- What GANG comes to where the comparison lets it go on and no change is pending. -/
theorem doGang_of_compares (hg : (s.core k).ganged = true) (hw : (s.core k).gangWait = false)
    (hc : Compares s k (.gang k l shape) v) (hp : (s.cluster (clOf k)).pending = false) (tag : Tag) :
    doGang k (.gang k l shape) shape tag s =
      .next (if shape = (s.cluster (clOf k)).shape then v else v.askShape k (.gang k l shape) shape) := by
  obtain ⟨hgang, -⟩ := kept_of_compares hg hc
  have hpend : (v.cluster (clOf k)).pending = false := (congrArg (fun g => g.1.2.2) hgang).trans hp
  have hshape : (v.cluster (clOf k)).shape = (s.cluster (clOf k)).shape := congrArg (fun g => g.1.1) hgang
  unfold Compares at hc
  rw [hg, if_neg (by decide)] at hc
  unfold doGang State.askShape
  extract_lets c cl
  rw [if_neg (by rw [hg]; decide), if_neg (by rw [hw]; decide), hc]
  dsimp only
  rw [hpend, hshape]
  by_cases hs : shape = (s.cluster (clOf k)).shape
  · rw [if_pos ⟨hs, Bool.false_ne_true⟩, if_pos hs]
  · rw [if_neg fun h => hs h.1, if_neg hs]
    rfl

/-- GANG of the active shape only completes issue; GANG of another asks for it, and the core waits for the change. -/
theorem gang_compared (h : Issues s k (.gang k l shape)) (hg : (s.core k).ganged = true) (hw : (s.core k).gangWait = false)
    (hc : Compares s k (.gang k l shape) v) (hp : (s.cluster (clOf k)).pending = false) :
    (shape = (s.cluster (clOf k)).shape → Does (.gang k l shape) k s v) ∧
      (shape ≠ (s.cluster (clOf k)).shape → Gives (.gang k l shape) s fun t =>
        (t.cluster (clOf k)).shadow = shape ∧ (t.cluster (clOf k)).pending = true ∧
        (t.cluster (clOf k)).shape = (s.cluster (clOf k)).shape ∧ (t.core k).gangWait = true) := by
  obtain ⟨hgang, hfoot⟩ := kept_of_compares hg hc
  obtain ⟨⟨-, -, -, hnone, -⟩, -⟩ := id h
  have hfree : s.blocked k (.gang k l shape) (v.core k).foot = false := by
    rw [hfoot, hnone]
    exact unblocked_nil ..
  refine ⟨fun hs => ?_, fun hs => ?_⟩
  · exact does_of (act := doGang k (.gang k l shape) shape) rfl h
      (fun tag => (doGang_of_compares hg hw hc hp tag).trans (by rw [if_pos hs])) hfree
  · obtain ⟨t, late, ht⟩ := issue_next h (fun tag => (doGang_of_compares hg hw hc hp tag).trans (by rw [if_neg hs]))
      (by rw [askShape_core]; exact hfree)
    have hshapes := (congrArg Prod.fst ((gangKept_finish _ k (.gang k l shape) t late false).gang_eq (clOf k))).trans
      (askShape_shapes v k (.gang k l shape) shape)
    refine ⟨_, congrArg Host.Outcome.next ht, congrArg (fun g => g.2.1) hshapes, congrArg (fun g => g.2.2) hshapes,
      (congrArg (fun g => g.1) hshapes).trans (congrArg (fun g => g.1.1) hgang), ?_⟩
    obtain ⟨harch, -⟩ := finish_spec (v.askShape k (.gang k l shape) shape) k (.gang k l shape) t late false
    obtain ⟨_, _, _, hadv⟩ := ((v.askShape k (.gang k l shape) shape).core k).advance_eq
    rw [if_neg Bool.false_ne_true, hadv, askShape_core] at harch
    exact congrArg Core.gangWait harch

/-! ### GANG_SHAPE_CHANGE -/

/-- The change of shape releases a core. -/
def State.releaseGang (s : State) (k : Nat) : State := s.setCore k { s.core k with gangWait := false }

/-- Once all cores have issued the same GANG and no ganged pass is in flight, the shape asked for becomes active. -/
theorem gangShapeChange_eq {cl : Nat} {i : Instr} (hp : (s.cluster cl).pending = true) (hl : (s.cluster cl).gangIssued.length = 256)
    (hi : ∀ e ∈ (s.cluster cl).gangIssued, e.2 = i) (h0 : ∃ e ∈ (s.cluster cl).gangIssued, e.1 = 0)
    (hf : (s.cluster cl).inFlight = false) :
    gangShapeChange cl s = forEach (clusterCores cl)
      (s.setCluster cl { s.cluster cl with shape := (s.cluster cl).shadow, shadow := 0, pending := false, gangIssued := [] })
      State.releaseGang := by
  have hfind : ((s.cluster cl).gangIssued.find? fun e => e.1 = 0).bind (fun e => encode e.2) = encode i := by
    obtain ⟨e, he, h⟩ := h0
    cases hfe : (s.cluster cl).gangIssued.find? fun e => e.1 = 0 with
    | none => exact absurd h (by simpa using List.find?_eq_none.mp hfe e he)
    | some d => rw [Option.bind_some, hi d (List.mem_of_find?_eq_some hfe)]
  have hbad : ((s.cluster cl).gangIssued.filter fun e => decide (encode e.2 ≠ encode i)) = [] :=
    List.filter_eq_nil_iff.mpr fun e he => by rw [hi e he]; simp
  unfold gangShapeChange
  dsimp only
  rw [if_pos ⟨hp, hl, by rw [hf]; decide⟩, hfind, hbad]
  rfl

/-- Cores that a change of shape releases wait for it no longer. -/
theorem forEach_release_gangWait (ks : List Nat) {k : Nat} (h : k ∈ ks ∨ (s.core k).gangWait = false) :
    ((forEach ks s State.releaseGang).core k).gangWait = false := by
  induction ks generalizing s with
  | nil => exact h.resolve_left (by simp)
  | cons j ks ih =>
    rw [forEach_cons]
    refine ih ?_
    rw [State.releaseGang, State.setCore_core]
    split
    · exact .inr rfl
    · next hne => exact h.imp_left fun h => (List.mem_cons.mp h).resolve_left fun e => hne e

/-- A cluster's cores released change neither a cluster nor memory. -/
theorem forEach_release_units (ks : List Nat) :
    (forEach ks s State.releaseGang).clusters = s.clusters ∧
      (forEach ks s State.releaseGang).mem = s.mem :=
  ⟨forEach_eq State.clusters ks s _ fun _ _ _ => rfl, forEach_eq State.mem ks s _ fun _ _ _ => rfl⟩

theorem gangShapeChange_changes {cl : Nat} {i : Instr} (hp : (s.cluster cl).pending = true)
    (hl : (s.cluster cl).gangIssued.length = 256) (hi : ∀ e ∈ (s.cluster cl).gangIssued, e.2 = i)
    (h0 : ∃ e ∈ (s.cluster cl).gangIssued, e.1 = 0) (hf : (s.cluster cl).inFlight = false) :
    ((gangShapeChange cl s).cluster cl).shape = (s.cluster cl).shadow ∧ ((gangShapeChange cl s).cluster cl).pending = false ∧
      (∀ x, x < 256 → ((gangShapeChange cl s).core (cl * 256 + x)).gangWait = false) ∧ MemKept s (gangShapeChange cl s) := by
  rw [gangShapeChange_eq hp hl hi h0 hf]
  generalize hu : s.setCluster cl _ = u
  have hmem : u.mem = s.mem := hu ▸ rfl
  have hcluster : (u.cluster cl).shape = (s.cluster cl).shadow ∧ (u.cluster cl).pending = false := by
    rw [← hu, State.setCluster_cluster_same]
    exact ⟨rfl, rfl⟩
  obtain ⟨hunits, hkept⟩ := forEach_release_units (s := u) (clusterCores cl)
  have cluster_eq : (forEach (clusterCores cl) u State.releaseGang).cluster cl = u.cluster cl := by
    rw [State.cluster, hunits, State.cluster]
  rw [cluster_eq]
  refine ⟨hcluster.1, hcluster.2, forall_clusterCores.mp fun k hk => forEach_release_gangWait _ (.inl hk), fun a => ?_⟩
  rw [State.rb, hkept, hmem, State.rb]

end

/-- Settles O14: GANG and the change of shape by their equations; a ganged pass by what its start and its faults leave of
the gang controller. -/
theorem gangShapeAndPass : Obligations.GangShapeAndPass := by
  refine ⟨fun s v k l shape h => ⟨fun hg => ?_, fun hg hw => ?_, fun hg hw hc => ?_⟩, fun s cl i hp hl hi h0 hf => ?_,
    fun s cl i hs hp hi ht hall => ⟨fun hok => ?_, fun x j hx hj hne hv => ?_⟩, fun s cl entered w p v hp hb hw hf ht hv => ?_⟩
  · obtain ⟨tag, t, late, he⟩ := issue_settles (doGang k (.gang k l shape) shape) h
    have hact : doGang k (.gang k l shape) shape tag s = .fault Cause.gangMismatch := if_pos (by rw [hg]; rfl)
    exact congrArg _ (he.trans (by rw [hact]; rfl))
  · exact congrArg _ (issue_hold h fun tag => (if_neg (by rw [hg]; decide)).trans (if_pos hw))
  · exact ⟨fun hs hp => (gang_compared h hg hw hc hp).1 hs, fun hs hp => (gang_compared h hg hw hc hp).2 hs⟩
  · exact ⟨_, rfl, gangShapeChange_changes hp hl hi h0 hf⟩
  · obtain ⟨hruns, hheld⟩ := gangedPassStart_runs hs hp hi ht (forall_clusterCores.mpr hall) (forall_clusterCores.mpr hok)
    exact ⟨_, rfl, hruns, forall_clusterCores.mp hheld⟩
  · have hx : cl * 256 + x ∈ clusterCores cl := mem_clusterCores.mpr ⟨x, hx, rfl⟩
    exact ⟨_, rfl, gangedPassStart_mismatch hs hp hi ht (forall_clusterCores.mpr hall) hx hj hne hv⟩
  · obtain ⟨⟨hvalid, hcause, heng⟩, hrun⟩ := gangFeedUncorrectable_strikes hp hb hw hf ht hv
    exact ⟨_, rfl, hvalid, hcause, heng, hrun⟩

end Sys2Proof.Machine
end


section
/-! PROOFS. Instruction words and their decoder are inverse to each other (O59). -/

namespace Sys2Proof.Machine

theorem nfield_eq (x lo w : Nat) : nfield x lo w = x / 2 ^ lo % 2 ^ w := by
  rw [nfield, Nat.shiftRight_eq_div_pow]

/-- A bit is the field of one bit at its place. -/
theorem nbit_eq (x i : Nat) : nbit x i = decide (x / 2 ^ i % 2 = 1) := Nat.testBit_eq_decide_div_mod_eq

/-- A word of class `cls` and operation `op` with launch field `l` and operand bits `n` (Table 4.1). -/
structure WordFields (w cls op : Nat) (l : Launch) (n : Nat) : Prop where
  cls_eq : nfield w 58 6 = cls
  op_eq : nfield w 52 6 = op
  launch_eq : (if nbit w 51 then some (nfield w 44 7) else none) = l
  operands_eq : w % 2 ^ 44 = n

theorem wordOf_fields {cls op n : Nat} {l : Launch} (hc : cls < 64) (ho : op < 64) (hl : l.wf = true) (hn : n < 2 ^ 44) :
    WordFields (wordOf cls op l n) cls op l n := by
  cases l with
  | none =>
    refine ⟨?_, ?_, if_neg ?_, ?_⟩
    · rw [nfield_eq, wordOf]; omega
    · rw [nfield_eq, wordOf]; omega
    · rw [nbit_eq, wordOf, decide_eq_true_iff]; omega
    · rw [wordOf]; omega
  | some d =>
    have hd : d < 128 := by simpa [Launch.wf] using hl
    refine ⟨?_, ?_, (if_pos ?_).trans (congrArg some ?_), ?_⟩
    · rw [nfield_eq, wordOf]; omega
    · rw [nfield_eq, wordOf]; omega
    · rw [nbit_eq, wordOf, decide_eq_true_iff]; omega
    · rw [nfield_eq, wordOf]; omega
    · rw [wordOf]; omega

/-- A bit is that of a flag where the field of one bit holds the flag's number. -/
theorem nbit_eq_iff {x i : Nat} {b : Bool} : nbit x i = b ↔ x / 2 ^ i % 2 = b.toNat := by
  rw [nbit_eq]; cases b <;> simp

/-- Word `w` is that of instruction `i` of core `k`; on any core it decodes to an instruction of that core. -/
def Encodes (w k : Nat) (i : Instr) : Prop :=
  encode i = some w ∧ w < 2 ^ 64 ∧ (∀ k', (decodeFields k' w).bind coreOf = some k') ∧ decodeFields k w = some i

theorem encodes_of {k cls op n : Nat} {l : Launch} {i : Instr} (he : encode i = some (wordOf cls op l n)) (hc : cls < 64)
    (ho : op < 64) (hl : l.wf = true) (hn : n < 2 ^ 44)
    (hd : ∀ w, WordFields w cls op l n →
      (∀ k', (decodeFields k' w).bind coreOf = some k') ∧ decodeFields k w = some i) :
    ∃ w, Encodes w k i :=
  ⟨_, he, (Sys2Proof.Laws.Encoding.word_shape hc ho hl hn).1, hd _ (wordOf_fields hc ho hl hn)⟩

/-- The instructions of class 0x0, SCALAR (Table 4.4). -/
def isScalar : Instr → Bool
  | .add _ _ _ _ _ | .sub _ _ _ _ _ | .and _ _ _ _ _ | .or _ _ _ _ _ | .xor _ _ _ _ _ | .shl _ _ _ _ _
    | .shr _ _ _ _ _ | .sra _ _ _ _ _ | .mul _ _ _ _ _ | .slt _ _ _ _ _ | .sltu _ _ _ _ _ | .min _ _ _ _ _
    | .max _ _ _ _ _ | .addi _ _ _ _ _ | .andi _ _ _ _ _ | .ori _ _ _ _ _ | .xori _ _ _ _ _ | .movi _ _ _ _
    | .ldw _ _ _ _ _ | .stw _ _ _ _ _ | .mova _ _ _ _ _ | .movg _ _ _ _ _ => true
  | _ => false

/-- A scalar instruction: its operands are read back from the fields that Table 4.4 gives them. -/
theorem encodes_scalar {k : Nat} {i : Instr} (hs : isScalar i = true)
    (hk : coreOf i = some k) (hwf : i.wf = true) : ∃ w, Encodes w k i := by
  cases i
  all_goals cases hk
  case add | sub | and | or | xor | shl | shr | sra | mul | slt | sltu | min | max | addi | andi | ori | xori | movi
    | ldw | stw | mova | movg =>
    simp only [Instr.wf, coreOk, Bool.and_eq_true, decide_eq_true_eq] at hwf
    refine encodes_of rfl (by decide) (by decide) hwf.2 (by omega) fun w ⟨hc, ho, hl, hn⟩ => ?_
    unfold decodeFields
    rw [hc, ho, hl]
    refine ⟨fun _ => rfl, congrArg some ?_⟩
    simp [nfield_eq, Fin.ext_iff, BitVec.toNat_eq]
    omega
  all_goals cases hs

/-- Every other instruction that a core executes itself. -/
theorem encodes_control {k : Nat} {i : Instr} (hs : isScalar i = false) (he : engOf i = 0)
    (hk : coreOf i = some k) (hwf : i.wf = true) : ∃ w, Encodes w k i := by
  cases i
  all_goals cases hk
  case halt | nop | bankSwap =>
    simp only [Instr.wf, coreOk, Bool.and_eq_true, decide_eq_true_eq] at hwf
    refine encodes_of rfl (by decide) (by decide) hwf.2 (by decide) fun w ⟨hc, ho, hl, _⟩ => ?_
    unfold decodeFields
    rw [hc, ho, hl]
    exact ⟨fun _ => rfl, rfl⟩
  case br | beq | bne | blt | bge | bltu | bgeu | tdCopy | baAdv | baNow | beatWait | digClr | attrSet | traceMark =>
    simp only [Instr.wf, coreOk, Bool.and_eq_true, decide_eq_true_eq] at hwf
    refine encodes_of rfl (by decide) (by decide) hwf.2 (by omega) fun w ⟨hc, ho, hl, hn⟩ => ?_
    unfold decodeFields
    rw [hc, ho, hl]
    refine ⟨fun _ => rfl, congrArg some ?_⟩
    simp [nfield_eq, Fin.ext_iff, BitVec.toNat_eq]
    omega
  case loop | sigCnt | waitCnt | setCnt | barArrive | barWait | flagSet | flagWait | flagClr | hostIrq | baSet
    | beatRd | digFold | digRd | cntRd | endProg | fence | statRd =>
    simp only [Instr.wf, coreOk, Bool.and_eq_true, decide_eq_true_eq, and_assoc] at hwf
    refine encodes_of rfl (by decide) (by decide) hwf.2.1 (by omega) fun w ⟨hc, ho, hl, hn⟩ => ?_
    unfold decodeFields
    rw [hc, ho, hl]
    refine ⟨fun _ => rfl, congrArg some ?_⟩
    simp [nfield_eq, Fin.ext_iff, BitVec.toNat_eq]
    omega
  case tdSet l td fld S gs imm =>
    simp only [Instr.wf, coreOk, Bool.and_eq_true, decide_eq_true_eq, and_assoc] at hwf
    have := S.toNat_lt
    refine encodes_of rfl (by decide) (by decide) hwf.2.1 (by omega) fun w ⟨hc, ho, hl, hn⟩ => ?_
    unfold decodeFields
    rw [hc, ho, hl]
    refine ⟨fun _ => rfl, congrArg some ?_⟩
    simp [nfield_eq, Fin.ext_iff, BitVec.toNat_eq, nbit_eq_iff]
    omega
  all_goals solve | cases he | cases hs

/-- Matrix instructions (class 0x3). -/
theorem encodes_matrix {k : Nat} {i : Instr} (he : engOf i = 1)
    (hk : coreOf i = some k) (hwf : i.wf = true) : ∃ w, Encodes w k i := by
  cases i
  all_goals cases hk
  case mmaClr =>
    simp only [Instr.wf, coreOk, Bool.and_eq_true, decide_eq_true_eq] at hwf
    refine encodes_of rfl (by decide) (by decide) hwf.2 (by omega) fun w ⟨hc, ho, hl, hn⟩ => ?_
    unfold decodeFields
    rw [hc, ho, hl]
    refine ⟨fun _ => rfl, congrArg some ?_⟩
    simp [nfield_eq, Fin.ext_iff]
    omega
  case gang =>
    simp only [Instr.wf, coreOk, Bool.and_eq_true, decide_eq_true_eq, and_assoc] at hwf
    refine encodes_of rfl (by decide) (by decide) hwf.2.1 (by omega) fun w ⟨hc, ho, hl, hn⟩ => ?_
    unfold decodeFields
    rw [hc, ho, hl]
    refine ⟨fun _ => rfl, congrArg some ?_⟩
    simp [nfield_eq]
    omega
  case mmaF16 l ac ta tb tc n G | mmaF32 l ac ta tb tc n G | mmaI16 l ac ta tb tc n G =>
    simp only [Instr.wf, coreOk, Bool.and_eq_true, decide_eq_true_eq, and_assoc] at hwf
    have := G.toNat_lt
    refine encodes_of rfl (by decide) (by decide) hwf.2.1 (by omega) fun w ⟨hc, ho, hl, hn⟩ => ?_
    unfold decodeFields
    rw [hc, ho, hl]
    refine ⟨fun _ => rfl, congrArg some ?_⟩
    simp [nfield_eq, Fin.ext_iff, nbit_eq_iff]
    omega
  case mmaOut l ac ta tb rnd ep gid G =>
    simp only [Instr.wf, coreOk, Bool.and_eq_true, decide_eq_true_eq, and_assoc] at hwf
    have := G.toNat_lt
    refine encodes_of rfl (by decide) (by decide) hwf.2.1 (by omega) fun w ⟨hc, ho, hl, hn⟩ => ?_
    unfold decodeFields
    rw [hc, ho, hl]
    refine ⟨fun _ => rfl, congrArg some ?_⟩
    simp [nfield_eq, Fin.ext_iff, nbit_eq_iff]
    omega
  case mmaOuts l ac ta tb tc rnd ep gid G =>
    simp only [Instr.wf, coreOk, Bool.and_eq_true, decide_eq_true_eq, and_assoc] at hwf
    have := G.toNat_lt
    refine encodes_of rfl (by decide) (by decide) hwf.2.1 (by omega) fun w ⟨hc, ho, hl, hn⟩ => ?_
    unfold decodeFields
    rw [hc, ho, hl]
    refine ⟨fun _ => rfl, congrArg some ?_⟩
    simp [nfield_eq, Fin.ext_iff, nbit_eq_iff]
    omega
  all_goals cases he

/-- Vector instructions (class 0x4). -/
theorem encodes_vector {k : Nat} {i : Instr} (he : engOf i = 2)
    (hk : coreOf i = some k) (hwf : i.wf = true) : ∃ w, Encodes w k i := by
  cases i
  all_goals cases hk
  case vld | vst =>
    simp only [Instr.wf, coreOk, Bool.and_eq_true, decide_eq_true_eq] at hwf
    refine encodes_of rfl (by decide) (by decide) hwf.2 (by omega) fun w ⟨hc, ho, hl, hn⟩ => ?_
    unfold decodeFields
    rw [hc, ho, hl]
    refine ⟨fun _ => rfl, congrArg some ?_⟩
    simp [nfield_eq, Fin.ext_iff, BitVec.toNat_eq]
    omega
  case vadd l T vd va vb m bc fp | vmul l T vd va vb m bc fp | vsel l T vd va vb m bc fp | vmin l T vd va vb m bc fp
    | vmax l T vd va vb m bc fp =>
    simp only [Instr.wf, coreOk, Bool.and_eq_true, decide_eq_true_eq, and_assoc, bcOk] at hwf
    have := T.toNat_lt
    have := fp.toNat_lt
    refine encodes_of rfl (by decide) (by decide) hwf.2.1 (by omega) fun w ⟨hc, ho, hl, hn⟩ => ?_
    unfold decodeFields
    rw [hc, ho, hl]
    refine ⟨fun _ => rfl, congrArg some ?_⟩
    simp [nfield_eq, Fin.ext_iff, nbit_eq_iff]
    omega
  case vfma l T vd va vb vc m bc fp =>
    simp only [Instr.wf, coreOk, Bool.and_eq_true, decide_eq_true_eq, and_assoc, bcOk] at hwf
    have := T.toNat_lt
    have := fp.toNat_lt
    refine encodes_of rfl (by decide) (by decide) hwf.2.1 (by omega) fun w ⟨hc, ho, hl, hn⟩ => ?_
    unfold decodeFields
    rw [hc, ho, hl]
    refine ⟨fun _ => rfl, congrArg some ?_⟩
    simp [nfield_eq, Fin.ext_iff, nbit_eq_iff]
    omega
  case vcmp l vd va vb cmp fp =>
    simp only [Instr.wf, coreOk, Bool.and_eq_true, decide_eq_true_eq, and_assoc] at hwf
    have := fp.toNat_lt
    refine encodes_of rfl (by decide) (by decide) hwf.2.1 (by omega) fun w ⟨hc, ho, hl, hn⟩ => ?_
    unfold decodeFields
    rw [hc, ho, hl]
    refine ⟨fun _ => rfl, congrArg some ?_⟩
    simp [nfield_eq, Fin.ext_iff, nbit_eq_iff]
    omega
  all_goals cases he

/-- Instructions of the move engine: tile moves, checks and posts. -/
theorem encodes_move {k : Nat} {i : Instr} (he : engOf i = 3)
    (hk : coreOf i = some k) (hwf : i.wf = true) : ∃ w, Encodes w k i := by
  cases i
  all_goals cases hk
  case tfill | updNf | chkRange | chkNf =>
    simp only [Instr.wf, coreOk, Bool.and_eq_true, decide_eq_true_eq] at hwf
    refine encodes_of rfl (by decide) (by decide) hwf.2 (by omega) fun w ⟨hc, ho, hl, hn⟩ => ?_
    unfold decodeFields
    rw [hc, ho, hl]
    refine ⟨fun _ => rfl, congrArg some ?_⟩
    simp [nfield_eq, Fin.ext_iff]
    omega
  case tmov | xferPost | collPost | updApply | tchk =>
    simp only [Instr.wf, coreOk, Bool.and_eq_true, decide_eq_true_eq, and_assoc] at hwf
    refine encodes_of rfl (by decide) (by decide) hwf.2.1 (by omega) fun w ⟨hc, ho, hl, hn⟩ => ?_
    unfold decodeFields
    rw [hc, ho, hl]
    refine ⟨fun _ => rfl, congrArg some ?_⟩
    simp [nfield_eq, Fin.ext_iff, BitVec.toNat_eq]
    omega
  all_goals cases he

/-- Curvature tap instructions (class 0x5). -/
theorem encodes_tap {k : Nat} {i : Instr} (he : engOf i = 4)
    (hk : coreOf i = some k) (hwf : i.wf = true) : ∃ w, Encodes w k i := by
  cases i
  all_goals cases hk
  case tapOff =>
    simp only [Instr.wf, coreOk, Bool.and_eq_true, decide_eq_true_eq] at hwf
    refine encodes_of rfl (by decide) (by decide) hwf.2 (by decide) fun w ⟨hc, ho, hl, _⟩ => ?_
    unfold decodeFields
    rw [hc, ho, hl]
    exact ⟨fun _ => rfl, rfl⟩
  case tapAuto | syrkTap | tapDrain =>
    simp only [Instr.wf, coreOk, Bool.and_eq_true, decide_eq_true_eq] at hwf
    refine encodes_of rfl (by decide) (by decide) hwf.2 (by omega) fun w ⟨hc, ho, hl, hn⟩ => ?_
    unfold decodeFields
    rw [hc, ho, hl]
    refine ⟨fun _ => rfl, congrArg some ?_⟩
    simp [nfield_eq, Fin.ext_iff]
    omega
  case tapArm l tf side s gid =>
    simp only [Instr.wf, coreOk, Bool.and_eq_true, decide_eq_true_eq, and_assoc] at hwf
    have := side.toNat_lt
    refine encodes_of rfl (by decide) (by decide) hwf.2.1 (by omega) fun w ⟨hc, ho, hl, hn⟩ => ?_
    unfold decodeFields
    rw [hc, ho, hl]
    refine ⟨fun _ => rfl, congrArg some ?_⟩
    simp [nfield_eq, Fin.ext_iff, nbit_eq_iff]
    omega
  all_goals cases he

/-- Instructions of the factor unit: class 0x6 and UPD.NS. -/
theorem encodes_factor {k : Nat} {i : Instr} (he : engOf i = 5)
    (hk : coreOf i = some k) (hwf : i.wf = true) : ∃ w, Encodes w k i := by
  cases i
  all_goals cases hk
  case cholSn | ldltSn | refine | updNs =>
    simp only [Instr.wf, coreOk, Bool.and_eq_true, decide_eq_true_eq] at hwf
    refine encodes_of rfl (by decide) (by decide) hwf.2 (by omega) fun w ⟨hc, ho, hl, hn⟩ => ?_
    unfold decodeFields
    rw [hc, ho, hl]
    refine ⟨fun _ => rfl, congrArg some ?_⟩
    simp [nfield_eq, Fin.ext_iff]
    omega
  case nsiScale | nsiStep | nsiResid | trsvSn =>
    simp only [Instr.wf, coreOk, Bool.and_eq_true, decide_eq_true_eq, and_assoc] at hwf
    refine encodes_of rfl (by decide) (by decide) hwf.2.1 (by omega) fun w ⟨hc, ho, hl, hn⟩ => ?_
    unfold decodeFields
    rw [hc, ho, hl]
    refine ⟨fun _ => rfl, congrArg some ?_⟩
    simp [nfield_eq, Fin.ext_iff]
    omega
  all_goals cases he

/-- A command without a core has no word. -/
theorem encode_eq_none {i : Instr} (h : coreOf i = none) : encode i = none := by
  cases i <;> solve | cases h | rfl

/-- Every well-formed instruction of a core has a word, by the engine that executes it. -/
theorem encodes_coreOf {k : Nat} {i : Instr} (hk : coreOf i = some k) (hwf : i.wf = true) : ∃ w, Encodes w k i := by
  have hlt : engOf i < 6 := by cases i <;> exact Nat.le_of_ble_eq_true rfl
  match he : engOf i, hlt with
  | 0, _ =>
    cases hs : isScalar i with
    | true => exact encodes_scalar hs hk hwf
    | false => exact encodes_control hs he hk hwf
  | 1, _ => exact encodes_matrix he hk hwf
  | 2, _ => exact encodes_vector he hk hwf
  | 3, _ => exact encodes_move he hk hwf
  | 4, _ => exact encodes_tap he hk hwf
  | 5, _ => exact encodes_factor he hk hwf

theorem decodeWord_eq_some {k w : Nat} {i : Instr} :
    decodeWord k w = some i ↔ decodeFields k w = some i ∧ i.wf = true ∧ encode i = some w := by
  unfold decodeWord
  split
  · next h => simp [h]
  · next j h =>
    rw [h]
    constructor
    · intro hj
      split at hj
      · next hw => cases hj; exact ⟨rfl, hw⟩
      · cases hj
    · rintro ⟨hj, hw⟩
      cases hj
      exact if_pos hw

/-- Settles O59: the word of each instruction holds its operands in the fields that the decoder reads, and the decoder
answers only an instruction whose word it was given. -/
theorem instructionWordsRoundTrip : Obligations.InstructionWordsRoundTrip := by
  refine ⟨fun i k hk hwf => ?_, fun i k w h => ?_⟩
  · obtain ⟨w, he, hw, -, hd⟩ := encodes_coreOf hk hwf
    exact ⟨w, he, hw, decodeWord_eq_some.2 ⟨hd, hwf, he⟩⟩
  · obtain ⟨hd, hwf, he⟩ := decodeWord_eq_some.1 h
    have hcore : coreOf i ≠ none := fun hn => by simp [encode_eq_none hn] at he
    obtain ⟨k', hk'⟩ := Option.ne_none_iff_exists'.1 hcore
    obtain ⟨w', he', -, hcores, -⟩ := encodes_coreOf hk' hwf
    obtain rfl : w = w' := Option.some.inj (he.symm.trans he')
    exact ⟨he, hwf, by simpa [hd] using hcores k⟩

end Sys2Proof.Machine
end


section
/-! PROOFS. Instructions that write registers of their own core: the scalar class (O4, O5, O6), the time class (O24) and
tile descriptors (O9). -/

namespace Sys2Proof.Machine

/-! ### Registers written -/

@[simp] theorem Core.setG_foot (c : Core) (n : Nat) (v : W32) : (c.setG n v).foot = c.foot := by
  obtain ⟨g, hg⟩ := c.setG_eq n v
  rw [hg]

@[simp] theorem Core.setPair_foot (c : Core) (n : Nat) (v : W64) : (c.setPair n v).foot = c.foot := by
  simp [Core.setPair]

section
variable {s : State} {k : Nat} {i : Instr}

/-- An instruction whose effect is to put a value into a g register. -/
theorem writes_setReg {gd : GReg} {f : Core → W32} (v : Core → W32) (h : Issues s k i)
    (he : exec i s = .next (s.issue k i (setReg k gd f))) (hv : f = v) : Writes i k s fun c => c.setG gd (v c) := by
  subst hv
  exact writes_of he h (fun _ => rfl) (Core.setG_foot ..)

/-- An instruction whose effect is a new BA. -/
theorem writes_setBa {f : State → Core → W64} (v : Core → W64) (h : Issues s k i)
    (he : exec i s = .next (s.issue k i (setBa k f))) (hv : f s (s.core k) = v (s.core k)) :
    Writes i k s fun c => { c with baBeat := s.beat, ba := v c } := by
  refine writes_of (f := fun c => { c with baBeat := s.beat, ba := v c }) he h (fun _ => ?_) rfl
  rw [← hv]
  rfl

end

/-! ### Shifts and comparisons of Table 4.4 as numbers -/

theorem shl_eq_ofNat (a : W32) (n : Nat) : a <<< n = BitVec.ofNat 32 (a.toNat * 2 ^ n) :=
  BitVec.eq_of_toNat_eq (by rw [BitVec.toNat_shiftLeft, BitVec.toNat_ofNat, Nat.shiftLeft_eq])

theorem shr_eq_ofNat (a : W32) (n : Nat) : a >>> n = BitVec.ofNat 32 (a.toNat / 2 ^ n) := by
  refine BitVec.eq_of_toNat_eq ?_
  rw [BitVec.toNat_ushiftRight, BitVec.toNat_ofNat, Nat.shiftRight_eq_div_pow,
    Nat.mod_eq_of_lt (lt_of_le_of_lt (Nat.div_le_self ..) a.isLt)]

/-- An arithmetic shift is a division that rounds down. -/
theorem sra_eq_ofInt (a : W32) (n : Nat) : a.sshiftRight n = BitVec.ofInt 32 (a.toInt / 2 ^ n) := by
  rw [BitVec.sshiftRight, Int.shiftRight_eq_div_pow]
  norm_cast

theorem ofInt_min (a b : W32) : (if a.slt b then a else b) = BitVec.ofInt 32 (min a.toInt b.toInt) := by
  rw [BitVec.slt_eq_decide]
  by_cases h : a.toInt < b.toInt
  · simp [h, min_eq_left h.le]
  · simp [h, min_eq_right (not_lt.mp h)]

theorem ofInt_max (a b : W32) : (if a.slt b then b else a) = BitVec.ofInt 32 (max a.toInt b.toInt) := by
  rw [BitVec.slt_eq_decide]
  by_cases h : a.toInt < b.toInt
  · simp [h, max_eq_right h.le]
  · simp [h, max_eq_left (not_lt.mp h)]

theorem Core.gr_zero (c : Core) : c.gr 0 = 0 := rfl
theorem Core.setG_zero (c : Core) (v : W32) : c.setG 0 v = c := rfl

/-! ### Register pairs and BA -/

theorem add_zeroExtend (a : W64) (b : W32) : a + b.zeroExtend 64 = BitVec.ofNat 64 (a.toNat + b.toNat) :=
  BitVec.eq_of_toNat_eq (by simp [BitVec.toNat_add])

theorem truncate_low (v : W64) : v.truncate 32 = BitVec.ofNat 32 (v.toNat % 2 ^ 32) :=
  BitVec.eq_of_toNat_eq (by simp)

theorem truncate_high (v : W64) : (v >>> 32).truncate 32 = BitVec.ofNat 32 (v.toNat / 2 ^ 32) :=
  BitVec.eq_of_toNat_eq (by simp [Nat.shiftRight_eq_div_pow])

/-! ### Fields of a tile descriptor -/

/-- The field of each number, as a chain of choices: the last one is CLAMP_COLS (Table 4.6). -/
theorem Tile.setField_eq (d : Tile) (v : W32) {fld : Nat} (h : fld ≤ 8) :
    d.setField fld v =
      if fld = 0 then { d with base := v } else if fld = 1 then { d with rows := v.truncate 16 }
      else if fld = 2 then { d with cols := v.truncate 16 } else if fld = 3 then { d with rs := v.truncate 24 }
      else if fld = 4 then { d with cs := v.truncate 24 } else if fld = 5 then { d with format := v.truncate 8 &&& 0xF7 }
      else if fld = 6 then { d with swizzle := v.truncate 10 } else if fld = 7 then { d with clampR := v.truncate 16 }
      else { d with clampC := v.truncate 16 } := by
  interval_cases fld <;> rfl

theorem tdSet_fld_le {k : Nat} {l : Launch} {td : TReg} {fld : Nat} {reg : Bool} {gs : GReg} {imm : BitVec 24}
    (h : (Instr.tdSet k l td fld reg gs imm).wf = true) : fld ≤ 8 := by
  simp only [Instr.wf, Bool.and_eq_true, decide_eq_true_eq] at h
  exact h.1.2

/-! ### The statements -/

/-- Settles O4: each instruction puts its result into one register. -/
theorem scalarArithmetic : Obligations.ScalarArithmetic := by
  intro s k l gd gs1 gs2 an imm
  refine ⟨fun h => ?_, fun h => ?_, fun h => ?_, fun h => ?_, fun h => ?_, fun h => ?_, fun h => ?_, fun c v => ?_⟩
  · exact writes_setReg _ h rfl rfl
  · exact writes_setReg _ h rfl rfl
  · exact writes_setReg _ h rfl rfl
  · exact writes_setReg _ h rfl rfl
  · exact writes_setReg _ h rfl rfl
  · exact writes_of rfl h (fun _ => rfl) rfl
  · exact writes_setReg _ h rfl rfl
  · exact ⟨c.gr_zero, c.setG_zero v⟩

/-- Settles O5: the bitwise results as they are, and each shift as the multiplication or division that it is. -/
theorem scalarLogicAndShifts : Obligations.ScalarLogicAndShifts := by
  intro s k l gd gs1 gs2 imm
  refine ⟨fun h => ?_, fun h => ?_, fun h => ?_, fun h => ?_, fun h => ?_, fun h => ?_, fun h => ?_, fun h => ?_, fun h => ?_⟩
  · exact writes_setReg _ h rfl rfl
  · exact writes_setReg _ h rfl rfl
  · exact writes_setReg _ h rfl rfl
  · exact writes_setReg _ h rfl rfl
  · exact writes_setReg _ h rfl rfl
  · exact writes_setReg _ h rfl rfl
  · exact writes_setReg _ h rfl (funext fun _ => shl_eq_ofNat ..)
  · exact writes_setReg _ h rfl (funext fun _ => shr_eq_ofNat ..)
  · exact writes_setReg _ h rfl (funext fun _ => sra_eq_ofInt ..)

/-- Settles O6: the comparisons of words are those of the numbers they stand for. -/
theorem scalarComparisons : Obligations.ScalarComparisons := by
  intro s k l gd gs1 gs2
  refine ⟨fun h => ?_, fun h => ?_, fun h => ?_, fun h => ?_⟩
  · exact writes_setReg _ h rfl (funext fun c => by simp only [BitVec.slt_iff_toInt_lt])
  · exact writes_setReg _ h rfl (funext fun c => by simp only [BitVec.ult_iff_toNat_lt])
  · exact writes_setReg _ h rfl (funext fun _ => ofInt_min ..)
  · exact writes_setReg _ h rfl (funext fun _ => ofInt_max ..)

/-- Settles O24: the three forms of a new BA, and the beat counter split over a register pair. -/
theorem timeClass : Obligations.TimeClass := by
  intro s k l g imm
  refine ⟨fun h => ?_, fun h => ?_, fun h => ?_, fun h => ?_⟩
  · refine writes_setBa _ h rfl ?_
    simp only [Core.pair, Fin.val_eq_zero_iff]
  · exact writes_setBa _ h rfl (add_zeroExtend ..)
  · exact writes_setBa (fun _ => BitVec.ofNat 64 (s.beat.toNat + imm.toNat)) h rfl (add_zeroExtend ..)
  · refine writes_of (f := fun c => _) rfl h (fun _ => ?_) ?_
    · rw [← truncate_low, ← truncate_high]
      rfl
    · simp

/-- Settles O9: TD.SET writes the field that its number names, TD.COPY the whole descriptor. -/
theorem tileDescriptorsWritten : Obligations.TileDescriptorsWritten := by
  intro s k l td tsrc fld reg gs imm
  refine ⟨fun h => ?_, fun h => ?_⟩
  · refine writes_of (f := fun c => c.setT td _) rfl h (fun _ => ?_) rfl
    have hfld : fld ≤ 8 := tdSet_fld_le h.1.2.1
    rw [← Tile.setField_eq _ _ hfld]
    cases reg <;> rfl
  · exact writes_of rfl h (fun _ => rfl) rfl

end Sys2Proof.Machine
end


section
/-! PROOFS. Branches and loops (O8). -/

namespace Sys2Proof.Machine

section
variable {s : State} {k : Nat} {i : Instr}

/-- A branch jumps where its condition holds, and advances as any other instruction does where it does not. -/
theorem branch_jumps_or_advances {off : BitVec 11} {b : Core → Bool} {p : Prop} (h : Issues s k i)
    (he : exec i s = .next (s.issue k i (branchIf k off b))) (hb : b (s.core k) = true ↔ p) :
    (p → Jumps i k s fun c =>
      { c with pc := (((c.pc : Int) + off.toInt) % 1024).toNat,
               loops := closeLoops (((c.pc : Int) + off.toInt) % 1024).toNat c.loops }) ∧
    (¬p → Writes i k s id) := by
  rw [← hb]
  exact ⟨fun hp => jumps_of he h fun _ => if_pos hp, fun hp => writes_id he h fun _ => if_neg hp⟩

/-- An instruction that faults: the core faults with the engine that the cause names (Table 3.8). -/
theorem faults_of {act : Tag → State → Act} {cause : Nat} (he : exec i s = .next (s.issue k i act)) (h : Issues s k i)
    (ha : ∀ tag, act tag s = .fault cause) : exec i s = .next (s.fault k cause (causeEngine cause (engOf i))) := by
  obtain ⟨tag, t, late, hs⟩ := issue_settles act h
  rw [he, hs, ha]
  rfl

end

/-! ### The loops whose body ends at an instruction -/

section
variable (c : Core) (n : Nat) (kept : List LoopRec) (r : LoopRec) (rest : List LoopRec)

theorem Core.advanceIn_counts_down (hl : c.pc = r.last) (hn : c.lcr r.lc ≠ 1) :
    c.advanceIn n kept (r :: rest) = { c.setLc r.lc (c.lcr r.lc - 1) with pc := r.first, loops := kept ++ r :: rest } := by
  rw [Core.advanceIn, if_pos hl.symm, if_pos (sub_ne_zero.mpr hn)]

theorem Core.advanceIn_closes (hl : c.pc = r.last) (hn : c.lcr r.lc = 1) :
    c.advanceIn n kept (r :: rest) = (c.setLc r.lc 0).advanceIn n kept rest := by
  have h0 : c.lcr r.lc - 1 = 0 := sub_eq_zero.mpr hn
  rw [Core.advanceIn, if_pos hl.symm, if_neg (not_not.mpr h0), h0]

theorem Core.advanceIn_keeps (hl : c.pc ≠ r.last) :
    c.advanceIn n kept (r :: rest) = c.advanceIn n (kept ++ [r]) rest := by
  rw [Core.advanceIn, if_neg hl.symm]

theorem Core.advanceIn_none_ends (h : ∀ q ∈ rest, q.last ≠ c.pc) :
    c.advanceIn n kept rest = { c with pc := n, loops := kept ++ rest } := by
  induction rest generalizing kept with
  | nil => rw [Core.advanceIn, List.append_nil]
  | cons r rest ih =>
    rw [c.advanceIn_keeps n kept r rest (h r List.mem_cons_self).symm, ih _ fun q hq => h q (List.mem_cons_of_mem _ hq),
      List.append_assoc, List.singleton_append]

end

/-! ### The loops that a target leaves open -/

theorem closeLoops_length_le (t : Nat) (l : List LoopRec) : (closeLoops t l).length ≤ l.length := by
  induction l with
  | nil => exact le_rfl
  | cons r rest ih =>
    simp only [closeLoops]
    split
    · exact Nat.succ_le_succ ih
    · exact Nat.le_succ_of_le ih

/-- Loops close from the innermost outwards, so none has closed where the number stays the same. -/
theorem closeLoops_eq_iff (t : Nat) (l : List LoopRec) : closeLoops t l = l ↔ (closeLoops t l).length = l.length := by
  induction l with
  | nil => simp [closeLoops]
  | cons r rest ih =>
    refine ⟨fun h => congrArg _ h, fun h => ?_⟩
    simp only [closeLoops] at h ⊢
    split at h
    · next hin => rw [if_pos hin, ih.2 hin.1]
    · have := closeLoops_length_le t rest
      simp only [List.length_cons] at h
      omega

section
variable {t : Nat} {r : LoopRec} {rest : List LoopRec}

theorem closeLoops_inside (h : closeLoops t rest = rest) (hin : r.first ≤ t ∧ t ≤ r.last) :
    closeLoops t (r :: rest) = r :: rest := by
  simp only [closeLoops]
  rw [if_pos ⟨by rw [h], hin⟩, h]

theorem closeLoops_outside (h : closeLoops t rest = rest) (hout : ¬(r.first ≤ t ∧ t ≤ r.last)) :
    closeLoops t (r :: rest) = rest := by
  simp only [closeLoops]
  rw [if_neg fun hin => hout hin.2, h]

theorem closeLoops_of_outer_closed (h : closeLoops t rest ≠ rest) : closeLoops t (r :: rest) = closeLoops t rest := by
  simp only [closeLoops]
  exact if_neg fun hin => h ((closeLoops_eq_iff t rest).2 hin.1)

end

/-! ### LOOP -/

section
variable {s : State} {k : Nat} {l : Launch} {lc : Fin 4} {gs : GReg} {len : Nat} {cnt : W16}

theorem loop_len (h : (Instr.loop k l lc gs len cnt).wf = true) : 1 ≤ len ∧ len ≤ 767 := by
  simp only [Instr.wf, Bool.and_eq_true, decide_eq_true_eq] at h
  exact h.2

theorem loop_skips (h : Issues s k (.loop k l lc gs len cnt)) (hn : loopCount (s.core k) gs cnt = 0) :
    Jumps (.loop k l lc gs len cnt) k s fun c => c.advanceIn ((c.pc + 1 + len) % 1024) [] c.loops :=
  jumps_of rfl h fun _ => if_pos hn

theorem loop_opens (h : Issues s k (.loop k l lc gs len cnt)) (hn : loopCount (s.core k) gs cnt ≠ 0)
    (hd : ¬(4 ≤ (s.core k).loops.length ∨ (s.core k).loops.any (fun r => decide (r.lc = lc.val)))) :
    Jumps (.loop k l lc gs len cnt) k s fun c =>
      (c.setLc lc (loopCount (s.core k) gs cnt)).advanceIn ((c.pc + 1) % 1024) [⟨lc, c.pc + 1, c.pc + len⟩] c.loops :=
  jumps_of rfl h fun _ => (if_neg hn).trans (if_neg hd)

theorem loop_too_deep (h : Issues s k (.loop k l lc gs len cnt)) (hn : loopCount (s.core k) gs cnt ≠ 0)
    (hd : 4 ≤ (s.core k).loops.length ∨ (s.core k).loops.any (fun r => decide (r.lc = lc.val))) :
    exec (.loop k l lc gs len cnt) s = .next (s.fault k Cause.loopDepth 0) :=
  faults_of (act := doLoop k lc gs len cnt) rfl h fun _ => (if_neg hn).trans (if_pos hd)

end

/-- Settles O8: branches by their condition, LOOP by its count, and the open loops by recursion on their list. -/
theorem branchesAndLoops : Obligations.BranchesAndLoops := by
  refine ⟨fun s k l gs1 gs2 off => ?_, fun s k l lc gs len cnt => ?_, fun c n kept r rest => ?_, fun t r rest h => ?_,
    fun t r rest h => closeLoops_of_outer_closed h⟩
  · refine ⟨fun h => ?_, fun h => ?_, fun h => ?_, fun h => ?_, fun h => ?_, fun h => ?_, fun h => ?_⟩
    · exact branch_jumps_or_advances h rfl (iff_of_true rfl trivial)
    · exact branch_jumps_or_advances h rfl decide_eq_true_iff
    · exact branch_jumps_or_advances h rfl decide_eq_true_iff
    · exact branch_jumps_or_advances h rfl BitVec.slt_iff_toInt_lt
    · exact branch_jumps_or_advances h rfl (by simp [BitVec.slt_eq_decide])
    · exact branch_jumps_or_advances h rfl BitVec.ult_iff_toNat_lt
    · exact branch_jumps_or_advances h rfl (by simp [BitVec.ult_eq_decide])
  · intro m deep h
    have hdeep : deep ↔ 4 ≤ (s.core k).loops.length ∨ (s.core k).loops.any (fun r => decide (r.lc = lc.val)) = true := by
      simp only [deep, List.any_eq_true, decide_eq_true_eq]
    refine ⟨loop_len h.1.2.1, fun hn => loop_skips h hn, fun hn hd => loop_opens h hn fun hd' => hd (hdeep.2 hd'),
      fun hn hd => loop_too_deep h hn (hdeep.1 hd)⟩
  · exact ⟨rfl, c.advanceIn_counts_down n kept r rest, c.advanceIn_closes n kept r rest, c.advanceIn_keeps n kept r rest,
      c.advanceIn_none_ends n kept rest⟩
  · exact ⟨closeLoops_inside h, closeLoops_outside h⟩

end Sys2Proof.Machine
end


section
/-! PROOFS. Accesses of a core to memory, as the instructions of every class make them: the folds that an access starts,
its bytes noted, and stores that change memory alone. -/

namespace Sys2Proof.Machine

variable {s t u : State} {k : Nat} {i : Instr}

/-! ### States that a program cannot tell apart -/

theorem device_symm (h : DeviceKept s t) : DeviceKept t s := by
  unfold DeviceKept at *
  simp_all

theorem Quiet.symm (h : Quiet s t) : Quiet t s :=
  ⟨fun j => (h.1 j).symm, h.2.1.symm, device_symm h.2.2⟩

/-- The effect of an instruction matters only as far as a program sees it. -/
theorem Does.congr (h : Does i k s t) (hq : Quiet t u) : Does i k s u := by
  obtain ⟨x, hx, hk, ho, hm, hd⟩ := h
  obtain ⟨qc, qm, qd⟩ := hq
  exact ⟨x, hx, hk.trans (Core.advance_arch (qc k).symm), fun j hj => (ho j hj).trans (qc j).symm, hm.trans qm.symm,
    device_trans (device_symm qd) hd⟩

/-- What an instruction does by changing its own core alone. -/
theorem Does.writes {f : Core → Core} (h : Does i k s (s.setCore k (f (s.core k)))) : Writes i k s f := by
  obtain ⟨x, hx, hk, ho, hm, hd⟩ := h
  refine ⟨x, hx, by simpa using hk, fun j hj => ?_, fun a => ?_, device_trans (device_setCore ..) hd⟩
  · rw [ho j hj, State.setCore_core_ne _ _ _ _ hj]
  · exact State.rb_of_mem hm a

/-! ### Stores -/

/-- The state with other cores. -/
def State.withCores (s : State) (cs : Sparse Core) : State := { s with cores := cs }

@[simp] theorem State.withCores_cores (s : State) (cs : Sparse Core) : (s.withCores cs).cores = cs := rfl
@[simp] theorem State.withCores_mem (s : State) (cs : Sparse Core) : (s.withCores cs).mem = s.mem := rfl
theorem State.withCores_self (s : State) : s.withCores s.cores = s := rfl

theorem State.note_eq (s : State) (k : Nat) (r w : List (Nat × Nat)) :
    s.note k r w = s.withCores (s.note k r w).cores := rfl

/-- A change that neither reads nor writes the cores, as a store is. -/
def OffCores (f : State → State) : Prop := ∀ s cs, f (s.withCores cs) = (f s).withCores cs

theorem OffCores.cores {f : State → State} (h : OffCores f) (s : State) : (f s).cores = s.cores := by
  rw [← s.withCores_self, h, State.withCores_cores, State.withCores_cores]

theorem offCores_id : OffCores id := fun _ _ => rfl

theorem offCores_wb (a : Nat) (v : Byte) : OffCores (·.wb a v) := fun s cs => by
  have hp : (s.withCores cs).poisoned a 1 = s.poisoned a 1 := rfl
  simp only [State.wb, hp]
  split <;> rfl

theorem offCores_wbs (a : Nat) (l : List Byte) : OffCores (·.wbs a l) := by
  induction l generalizing a with
  | nil => exact offCores_id
  | cons v l ih => exact fun s cs => (congrArg (·.wbs (a + 1) l) (offCores_wb a v s cs)).trans (ih ..)

theorem offCores_write (a : Nat) (l : List Byte) : OffCores (·.write a l) := fun s cs =>
  offCores_wbs a l { s with bad := s.bad.filter fun w => !decide (a ≤ w ∧ w + 8 ≤ a + l.length) } cs

/-- An element stored, of a value that memory decides. -/
theorem offCores_putElem (v : View) (i j : Nat) {raw : State → Nat} (h : ∀ s cs, raw (s.withCores cs) = raw s) :
    OffCores fun s => s.putElem v i j (raw s) := by
  intro s cs
  simp only [h, State.putElem]
  split
  · exact offCores_write ..
  · rfl

theorem offCores_forEach {α : Type} {l : List α} {f : State → α → State} (h : ∀ x, OffCores (f · x)) :
    OffCores (forEach l · f) := by
  induction l with
  | nil => exact offCores_id
  | cons x l ih => exact fun s cs => (congrArg (forEach l · f) (h x s cs)).trans (ih ..)

/-! ### Noted bytes -/

@[simp] theorem State.note_core_same (s : State) (k : Nat) (r w : List (Nat × Nat)) :
    (s.note k r w).core k = { s.core k with foot := { reads := r, writes := w } } := State.setCore_core_same ..

theorem quiet_note (s : State) (k : Nat) (r w : List (Nat × Nat)) : Quiet s (s.note k r w) := quiet_setCore _ _ _ rfl

theorem quiet_setCore_congr (hq : Quiet s t) {c d : Core} (h : c.arch = d.arch) : Quiet (s.setCore k c) (t.setCore k d) := by
  obtain ⟨hc, hm, hd⟩ := hq
  refine ⟨fun j => ?_, hm, device_trans (device_symm (device_setCore ..)) (device_trans hd (device_setCore ..))⟩
  by_cases hj : j = k
  · rw [hj, State.setCore_core_same, State.setCore_core_same, h]
  · rw [State.setCore_core_ne _ _ _ _ hj, State.setCore_core_ne _ _ _ _ hj, hc]

/-- A change off the cores gives the same whether the bytes are noted or not. -/
theorem OffCores.quiet_note {f : State → State} (h : OffCores f) (s : State) (k : Nat) (r w : List (Nat × Nat)) :
    Quiet (f (s.note k r w)) (f s) := by
  have hc (j : Nat) : (f s).core j = s.core j := by rw [State.core, h.cores, State.core]
  rw [State.note_eq, h]
  refine Quiet.symm ⟨fun j => ?_, rfl, device_refl _⟩
  rw [hc j]
  exact (Sys2Proof.Machine.quiet_note s k r w).1 j

theorem settleTap_noTaps (h : (s.core k).tapQ = []) (r w : List (Nat × Nat)) : s.settleTap k r w = .ok (s.note k r w) := by
  rw [State.settleTap, settleFolds_noTaps h]

theorem settleTap_foot {r w : List (Nat × Nat)} (h : s.settleTap k r w = .ok u) :
    (u.core k).foot = { reads := r, writes := w } := by
  unfold State.settleTap at h
  split at h
  · cases h
  · cases Except.ok.inj h
    simp

/-! ### An access and what follows it -/

/-- An instruction whose act starts the folds of its bytes and then answers `f`: it does `f` to the state after the folds,
and to the state as it is where the tap queue is empty (R82, R162). -/
theorem does_settled {act : Tag → State → Act} {r w : List (Nat × Nat)} {f : State → State}
    (he : exec i s = .next (s.issue k i act)) (h : Issues s k i)
    (ha : ∀ tag u, s.settleTap k r w = .ok u → act tag s = .next (f u)) (hb : Unblocked s k i r w)
    (hfoot : ∀ t, ((f t).core k).foot = (t.core k).foot) (hf : Quiet (f (s.note k r w)) (f s)) :
    ((s.core k).tapQ = [] → Does i k s (f s)) ∧ ∀ u, s.settleTap k r w = .ok u → Does i k s (f u) := by
  have key (u : State) (hu : s.settleTap k r w = .ok u) : Does i k s (f u) :=
    does_of he h (fun tag => ha tag u hu) (by rw [hfoot, settleTap_foot hu]; exact hb)
  exact ⟨fun hn => Does.congr (key _ (settleTap_noTaps hn r w)) hf, key⟩

/-- The same of a store. -/
theorem does_stores {act : Tag → State → Act} {r w : List (Nat × Nat)} {f : State → State}
    (he : exec i s = .next (s.issue k i act)) (h : Issues s k i)
    (ha : ∀ tag u, s.settleTap k r w = .ok u → act tag s = .next (f u)) (hb : Unblocked s k i r w) (hf : OffCores f) :
    ((s.core k).tapQ = [] → Does i k s (f s)) ∧ ∀ u, s.settleTap k r w = .ok u → Does i k s (f u) :=
  does_settled he h ha hb (fun t => by rw [State.core, hf.cores, ← State.core]) (hf.quiet_note s k r w)

/-- The same of a change of the core's registers to what was read. -/
theorem does_loads {act : Tag → State → Act} {r w : List (Nat × Nat)} {f : State → Core}
    (he : exec i s = .next (s.issue k i act)) (h : Issues s k i)
    (ha : ∀ tag u, s.settleTap k r w = .ok u → act tag s = .next (u.setCore k (f u))) (hb : Unblocked s k i r w)
    (hfoot : ∀ t, (f t).foot = (t.core k).foot) (harch : (f (s.note k r w)).arch = (f s).arch) :
    ((s.core k).tapQ = [] → Does i k s (s.setCore k (f s))) ∧
      ∀ u, s.settleTap k r w = .ok u → Does i k s (u.setCore k (f u)) :=
  does_settled (f := fun u => u.setCore k (f u)) he h ha hb (fun t => by rw [State.setCore_core_same, hfoot])
    (quiet_setCore_congr (quiet_note s k r w).symm harch)

end Sys2Proof.Machine
end


section
/-! PROOFS. Words loaded and stored by the scalar class (O7). -/

namespace Sys2Proof.Machine

variable {s t u : State} {k : Nat} {i : Instr}

/-! ### Uncorrectable words -/

theorem badWord_eq_none_iff {a n : Nat} : s.badWord a n = none ↔ s.poisoned a n = false := by
  simp [State.badWord, State.poisoned]

/-- A write of fewer bytes than a word covers no word whole. -/
theorem partBad_of_short {a n : Nat} (h : n < 8) : s.partBad a n = s.poisoned a n := by
  unfold State.partBad State.poisoned
  congr 1
  funext w
  exact decide_eq_decide.mpr (by omega)

theorem partBad_false_of_poisoned {a n : Nat} (h : s.poisoned a n = false) : s.partBad a n = false := by
  simp only [State.poisoned, State.partBad, List.any_eq_false, decide_eq_true_eq] at h ⊢
  exact fun w hw hm => h w hw ⟨hm.1, hm.2.1⟩

theorem poisoned_of_subrange {a b m n : Nat} (h : s.poisoned a n = false) (hl : a ≤ b) (hr : b + m ≤ a + n) :
    s.poisoned b m = false := by
  simp only [State.poisoned, List.any_eq_false, decide_eq_true_eq] at h ⊢
  exact fun w hw hm => h w hw (by omega)

theorem wb_rb_same {a : Nat} {v : Byte} (h : s.poisoned a 1 = false) : (s.wb a v).rb a = v := by
  rw [State.wb, h, if_neg Bool.false_ne_true]
  exact sget_sput_same ..

/-- A run of bytes that meets no uncorrectable word is read back. -/
theorem wbs_rbs_of_unpoisoned {a : Nat} {l : List Byte} (h : s.poisoned a l.length = false) :
    (s.wbs a l).rbs a l.length = l := by
  induction l generalizing s a with
  | nil => rfl
  | cons v l ih =>
    have hv : s.poisoned a 1 = false := poisoned_of_subrange h le_rfl (by simp)
    have hl : (s.wb a v).poisoned (a + 1) l.length = false := by
      rw [State.poisoned, State.wb_bad, ← State.poisoned]
      exact poisoned_of_subrange h (by omega) (by simp; omega)
    have hr := ih hl
    unfold State.rbs at hr ⊢
    simp only [List.length_cons, List.range_succ_eq_map, List.map_cons, List.map_map, Nat.add_zero, State.wbs]
    rw [State.wbs_rb_out _ _ _ _ (by omega), wb_rb_same hv]
    congr 1
    simpa only [Function.comp_def, Nat.succ_eq_add_one, Nat.add_assoc, Nat.add_comm 1] using hr

/-- A write that meets no uncorrectable word is read back, and leaves the uncorrectable words. -/
theorem write_of_unpoisoned {a : Nat} {l : List Byte} (h : s.poisoned a l.length = false) :
    (s.write a l).rbs a l.length = l ∧ (s.write a l).bad = s.bad := by
  have hf : (s.bad.filter fun w => !decide (a ≤ w ∧ w + 8 ≤ a + l.length)) = s.bad := by
    simp only [State.poisoned, List.any_eq_false, decide_eq_true_eq] at h
    simp only [List.filter_eq_self, Bool.not_eq_true', decide_eq_false_iff_not]
    exact fun w hw hm => h w hw (by omega)
  rw [State.write, hf]
  exact ⟨wbs_rbs_of_unpoisoned h, State.wbs_bad ..⟩

theorem write_bad_subset {a w : Nat} {l : List Byte} (h : w ∈ (s.write a l).bad) : w ∈ s.bad := by
  rw [State.write, State.wbs_bad] at h
  exact List.mem_of_mem_filter h

/-! ### Folds leave no new uncorrectable word -/

theorem putElem_bad_subset {v : View} {i j raw w : Nat} (h : w ∈ (s.putElem v i j raw).bad) : w ∈ s.bad := by
  unfold State.putElem at h
  split at h
  · exact write_bad_subset h
  · exact h

theorem foldEntry_bad_subset {e : TapEntry} {w : Nat} (h : s.foldEntry k e = .ok t) (hw : w ∈ t.bad) : w ∈ s.bad := by
  unfold State.foldEntry at h
  split at h
  · cases h
  · cases h
  · dsimp only at h
    split at h
    · cases h
    · split at h
      · cases h
      · rw [← Except.ok.inj h] at hw
        split at hw
        · exact hw
        · exact forEach_keeps (fun t => w ∈ t.bad → w ∈ s.bad) _ _ _ (fun _ _ ih h => ih (putElem_bad_subset h)) (fun h => h) hw

theorem foldFirst_bad_subset {n : Nat} {auto : Bool} {w : Nat} (h : s.foldFirst k n auto = .ok t) (hw : w ∈ t.bad) :
    w ∈ s.bad := by
  induction n generalizing s with
  | zero => exact Except.ok.inj h ▸ hw
  | succ n ih =>
    rw [State.foldFirst] at h
    split at h
    · exact Except.ok.inj h ▸ hw
    · split at h
      · cases h
      · next hu => exact foldEntry_bad_subset hu (State.setCore_bad _ _ _ ▸ ih h)

theorem settleTap_bad_subset {r m : List (Nat × Nat)} {w : Nat} (h : s.settleTap k r m = .ok u) (hw : w ∈ u.bad) : w ∈ s.bad := by
  unfold State.settleTap at h
  split at h
  · cases h
  · next v hv =>
    rw [← Except.ok.inj h] at hw
    unfold State.settleFolds at hv
    dsimp only at hv
    split at hv
    · exact Except.ok.inj hv ▸ hw
    · exact foldFirst_bad_subset hv hw

theorem settleTap_unpoisoned {r m : List (Nat × Nat)} {a n : Nat} (h : s.settleTap k r m = .ok u) (hp : s.poisoned a n = false) :
    u.poisoned a n = false := by
  simp only [State.poisoned, List.any_eq_false] at hp ⊢
  exact fun w hw => hp w (settleTap_bad_subset h hw)

/-! ### Loads and stores at a core-local address -/

section
variable {a n p w : Nat} {r : Region} {go : State → Nat → Act} {f : Core → List Byte} {tag : Tag}

theorem loadAt_error {c : Nat} (h : s.local' k a n = .error c) : loadAt k a n go tag s = .fault c := by
  simp only [loadAt, h]

theorem loadAt_bad (h : s.local' k a n = .ok (p, r)) (hw : s.badWord p n = some w) :
    loadAt k a n go tag s = .fault (r.uncorr w) := by
  simp only [loadAt, h, hw]

theorem loadAt_settled (h : s.local' k a n = .ok (p, r)) (hp : s.poisoned p n = false) (hu : s.settleTap k [(p, n)] [] = .ok u) :
    loadAt k a n go tag s = go u p := by
  simp only [loadAt, h, badWord_eq_none_iff.2 hp, hu]

theorem storeAt_error {c : Nat} (h : s.local' k a (f (s.core k)).length = .error c) : storeAt k a f tag s = .fault c := by
  simp only [storeAt, h]

/-- Bytes that cover no whole word meet an uncorrectable word as a read does (R303). -/
theorem storeAt_bad (h : s.local' k a (f (s.core k)).length = .ok (p, r)) (hn : (f (s.core k)).length < 8)
    (hw : s.badWord p (f (s.core k)).length = some w) : storeAt k a f tag s = .fault (r.uncorr w) := by
  have hp : s.poisoned p (f (s.core k)).length = true := by
    rw [← Bool.not_eq_false, ← badWord_eq_none_iff, hw]
    exact Option.some_ne_none w
  simp only [storeAt, h, partBad_of_short hn, hp, if_true, hw]

theorem storeAt_settled (h : s.local' k a (f (s.core k)).length = .ok (p, r))
    (hp : s.poisoned p (f (s.core k)).length = false) (hu : s.settleTap k [] [(p, (f (s.core k)).length)] = .ok u) :
    storeAt k a f tag s = .next (u.write p (f (s.core k))) := by
  simp only [storeAt, h, partBad_false_of_poisoned hp, Bool.false_eq_true, if_false, hu]

end

/-- An instruction that stores a run of bytes where no word is uncorrectable: they are read back, and no other byte and
nothing else of the module has changed. -/
theorem Does.stored {p : Nat} {l : List Byte} (h : Does i k s (u.write p l)) (hp : u.poisoned p l.length = false) :
    ∃ t, Runs i s t ∧ (t.core k).arch = (u.core k).advance.arch ∧ OthersKept u t k ∧ MemKeptBut u t p l.length ∧
      t.rbs p l.length = l ∧ DeviceKept u t := by
  obtain ⟨t, hx, hk, ho, hm, hd⟩ := h
  obtain ⟨hread, hbad⟩ := write_of_unpoisoned hp
  have hc (j : Nat) : (u.write p l).core j = u.core j := by rw [State.core, State.write_cores, State.core]
  refine ⟨t, hx, by rw [hk, hc], fun j hj => by rw [ho j hj, hc], fun b hb => ?_, ?_, ?_⟩
  · rw [State.rb_of_mem hm, write_kept_but u p l b hb]
  · rw [State.rbs_of_mem hm, hread]
  · refine device_trans ?_ hd
    obtain ⟨m, b, hw⟩ := State.write_eq u p l
    rw [hw] at hbad ⊢
    simp only at hbad
    simp [DeviceKept, hbad, State.cluster]

/-! ### LDW and STW -/

/-- Settles O7: the accesses at the word's address, and the moves between a and g. -/
theorem scalarMemoryAndAddress : Obligations.ScalarMemoryAndAddress := by
  intro s k l g an off at_
  refine ⟨fun h => writes_of rfl h (fun _ => rfl) rfl, fun h => writes_setReg _ h rfl rfl, fun h => ⟨fun c hc => ?_,
    fun p r hl => ⟨fun w hw => ?_, fun hp hb => ?_⟩⟩, fun h => ⟨fun c hc => ?_, fun p r hl => ⟨fun w hw => ?_, fun hp hb => ?_⟩⟩⟩
  · exact faults_of (act := doLdw k g an off) rfl h fun _ => loadAt_error hc
  · exact faults_of (act := doLdw k g an off) rfl h fun _ => loadAt_bad hl hw
  · have hd := does_loads (act := doLdw k g an off) (f := fun u => (u.core k).setG g (BitVec.ofNat 32 (u.rd p 4))) rfl h
      (fun tag u hu => loadAt_settled hl hp hu) hb (fun t => Core.setG_foot ..) ?_
    · exact ⟨fun hn => Does.writes (f := fun c => c.setG g (BitVec.ofNat 32 (s.rd p 4))) (hd.1 hn), hd.2⟩
    · rw [State.note_core_same]
      unfold Core.setG
      split <;> rfl
  · exact faults_of (act := doStw k g an off) rfl h fun _ => storeAt_error hc
  · exact faults_of (act := doStw k g an off) rfl h fun _ => storeAt_bad hl (by simp) hw
  · let bs := leBytes 4 ((s.core k).gr g).toNat
    have hd := does_stores (act := doStw k g an off) (f := (·.write p bs)) rfl h
      (fun tag u hu => storeAt_settled hl hp hu) hb (offCores_write p bs)
    have hread (t : State) (ht : t.rbs p 4 = bs) : t.rd p 4 = ((s.core k).gr g).toNat := by
      rw [State.rd, ht, leNat_leBytes]
      exact Nat.mod_eq_of_lt ((s.core k).gr g).isLt
    have stored (u : State) (hdo : Does (.stw k l g an off) k s (u.write p bs)) (hpu : u.poisoned p 4 = false) :
        ∃ t, Runs (.stw k l g an off) s t ∧ (t.core k).arch = (u.core k).advance.arch ∧ OthersKept u t k ∧
          MemKeptBut u t p 4 ∧ t.rd p 4 = ((s.core k).gr g).toNat ∧ DeviceKept u t := by
      obtain ⟨t, hx, hk, ho, hm, hr, hv⟩ := Does.stored hdo hpu
      exact ⟨t, hx, hk, ho, hm, hread t hr, hv⟩
    exact ⟨fun hn => stored s (hd.1 hn) hp, fun u hu => stored u (hd.2 u hu) (settleTap_unpoisoned hu hp)⟩

end Sys2Proof.Machine
end


section
/-! PROOFS. The completion of a move or vector pass and the passes that wait behind it (O10, O16). The statements say that
the queued pass starts when nothing holds it on the core as it was, and a state may list an engine's slots twice: the
second entry holds other passes, and goes with the first when a pass of that engine starts. -/

namespace Sys2Proof.Machine

/-- A pass of core 0 that waits in the queued slot of its engine, and reads the four bytes at 0. -/
def waitingPass (op : Instr) : Pass := { op := op, seq := 6, foot := { reads := [(0, 4)] } }

/-- The slots of an engine whose pass ends while a pass waits behind it, for the bytes at 0. -/
def slotsWaiting (op : Instr) : Slots := { running := some { op := op }, queued := some (waitingPass op) }

/-- A table of slots that lists the matrix engine twice: a pass that may start, and one that writes the bytes at 0. It is
not in canonical form. -/
def twiceListed (e : Nat) (op : Instr) : State :=
  { cores := [(0, { slots :=
    [(1, { queued := some { op := .mmaF16 0 none 0 0 0 0 0 false, seq := 5 } }),
     (1, { queued := some { op := .mmaF16 0 none 0 0 0 0 0 false, seq := 1, foot := { writes := [(0, 4)] } } }),
     (e, slotsWaiting op)] })] }

/-- Where the queued pass is held on the core as it was, and yet runs afterwards, the slots do not follow. -/
theorem not_frees_of_started {i : Instr} {k e : Nat} {s t : State} {x : Slots} (ht : exec i s = .next t)
    (hx : x.running = none) (hw : x.queued.any (((s.core k).setSlots e x).clearDone.ready e) = false)
    (hr : ((t.core k).slots' e).running.isSome = true) : ¬ Frees i k e s x := by
  rintro ⟨u, hu, ⟨-, hfollows⟩, -⟩
  obtain rfl : t = u := Host.Outcome.next.inj (ht.symm.trans hu)
  have hsame : ((s.core k).setSlots e x).slots' e = x := sget_sput_same ..
  rw [hsame, hw, Bool.and_false, if_neg Bool.false_ne_true, hx] at hfollows
  rw [hfollows.1] at hr
  exact absurd hr Bool.false_ne_true

/-- Refutes O10: with the matrix engine listed twice, a TFILL that waits for bytes of the second entry's pass starts when
the TFILL before it completes. -/
theorem not_tileMovesStoreElements : ¬ Obligations.TileMovesStoreElements := by
  intro ⟨_, _, _, hfrees⟩
  exact not_frees_of_started (t := movePassComplete 0 (twiceListed 3 (.tfill 0 none 0 0))) rfl rfl (by decide +kernel)
    (by decide +kernel) (hfrees (twiceListed 3 (.tfill 0 none 0 0)) 0 { op := .tfill 0 none 0 0 } rfl rfl)

/-- Refutes O16: the same with a VLD that waits behind a VLD. -/
theorem not_vectorMemory : ¬ Obligations.VectorMemory := by
  intro ⟨_, hfrees⟩
  exact not_frees_of_started (t := vectorPassComplete 0 (twiceListed 2 (.vld 0 none 0 0 0 0))) rfl rfl (by decide +kernel)
    (by decide +kernel) (hfrees (twiceListed 2 (.vld 0 none 0 0 0 0)) 0 { op := .vld 0 none 0 0 0 0 } rfl rfl)

end Sys2Proof.Machine
end


section
/-! PROOFS. The vector class (O15). -/

namespace Sys2Proof.Machine

variable {s u : State} {k : Nat} {l : Launch}

/-! ### Register forms -/

/-- The format of a vector operation's lanes (R94). -/
def vecFmt (fp : Bool) : FFmt := if fp then .fp32 else .fp16

theorem fmtFl_vfmt (fp : Bool) : fmtFl (vfmt fp) = vecFmt fp := by
  cases fp <;> rfl

@[simp] theorem Core.setV_foot (c : Core) (n : Nat) (v : BitVec 256) : (c.setV n v).foot = c.foot := rfl

/-- An operation with one rounding gives each enabled lane its result, and leaves the others. -/
theorem vreg_masked (c : Core) (f : Fl → Fl → Fl → Fl) (vd va vb vc : VReg) (m : MReg) (fp : Bool) :
    c.vreg (masked f) vd va vb vc m fp =
      c.setV vd (ofLanes fp ((List.range (if fp then 8 else 16)).map fun n =>
        if (c.mr m).getLsbD n then
          flBits (vecFmt fp) .rne (f (flOf (vecFmt fp) (lane fp (c.vr va) n)) (flOf (vecFmt fp) (lane fp (c.vr vb) n))
            (flOf (vecFmt fp) (lane fp (c.vr vc) n)))
        else lane fp (c.vr vd) n)) := by
  unfold Core.vreg masked
  simp only [fmtFl_vfmt]
  refine congrArg (fun ns => c.setV vd (ofLanes fp ns)) (List.map_congr_left fun n _ => ?_)
  split
  · rfl
  · rfl

/-- The register form of an operation with one rounding. -/
theorem writes_masked {i : Instr} {f : Fl → Fl → Fl → Fl} {vd va vb : VReg} {o : Option VReg} {m : MReg} {bc : Nat} {fp : Bool}
    (h : Issues s k i) (he : exec i s = .next (s.issue k i (vop k (masked f) false vd va vb o m bc fp))) :
    Writes i k s fun c => c.setV vd (ofLanes fp ((List.range (if fp then 8 else 16)).map fun n =>
      if (c.mr m).getLsbD n then
        flBits (vecFmt fp) .rne (f (flOf (vecFmt fp) (lane fp (c.vr va) n)) (flOf (vecFmt fp) (lane fp (c.vr vb) n))
          (flOf (vecFmt fp) (lane fp (c.vr (o.getD va)) n)))
      else lane fp (c.vr vd) n)) := by
  simp only [← vreg_masked]
  exact writes_of he h (fun _ => rfl) rfl

/-- The six predicates by their codes, a NaN false but for NE (R95). -/
theorem vcmpOf_eq {cmp : Nat} (h : cmp ≤ 5) (x y : Fl) :
    vcmpOf cmp x y = match flCmp x y with
      | none => decide (cmp = 1)
      | some o => (decide (cmp = 0) && decide (o = Ordering.eq)) || (decide (cmp = 1) && decide (o ≠ Ordering.eq)) ||
        (decide (cmp = 2) && decide (o = Ordering.lt)) || (decide (cmp = 3) && decide (o ≠ Ordering.gt)) ||
        (decide (cmp = 4) && decide (o = Ordering.gt)) || (decide (cmp = 5) && decide (o ≠ Ordering.lt)) := by
  unfold vcmpOf
  cases flCmp x y with
  | none => rfl
  | some o => interval_cases cmp <;> simp

theorem vcmp_code_le {md : MReg} {va vb : VReg} {cmp : Nat} {fp : Bool} (h : (Instr.vcmp k l md va vb cmp fp).wf = true) :
    cmp ≤ 5 := by
  simp only [Instr.wf, Bool.and_eq_true, decide_eq_true_eq] at h
  exact h.2

/-! ### Tile forms -/

/-- What a tile form does to the state it starts from: each element of w by the operation, all operands read first. -/
def vtileStore (op : Nat → Nat → Nat → Bool → Option Nat) (w a b x : View) (mask : W16) (bc : Nat) (fp : Bool) (u : State) : State :=
  forEach ((grid w.t.cr w.t.cc).map fun p => (p, op (u.elem a p.1 p.2)
    (u.elem b (if bc = 1 then 0 else p.1) (if bc = 2 then 0 else p.2)) (u.elem x p.1 p.2)
    (mask.getLsbD (p.2 % (if fp then 8 else 16))))) u fun t e => match e.2 with
      | some v => t.putElem w e.1.1 e.1.2 v
      | none => t

theorem offCores_vtileStore (op : Nat → Nat → Nat → Bool → Option Nat) (w a b x : View) (mask : W16) (bc : Nat) (fp : Bool) :
    OffCores (vtileStore op w a b x mask bc fp) := by
  intro s cs
  refine offCores_forEach (fun e => ?_) s cs
  match e with
  | (p, some v) => exact offCores_putElem w p.1 p.2 (raw := fun _ => v) fun _ _ => rfl
  | (p, none) => exact offCores_id

section
variable {i : Instr} {op : LaneOp} {vd va vb : VReg} {o : Option VReg} {m : MReg} {bc : Nat} {fp : Bool} {w a b x : View}

/-- A tile form whose operands place and pass their checks, after the folds of its bytes. -/
theorem vtile_settled {tag : Tag} (hbad : s.bad = []) (hw : s.view k ((s.core k).tr vd) false = .ok w)
    (ha : s.view k ((s.core k).tr va) false = .ok a) (hb : s.view k ((s.core k).tr vb) false = .ok b)
    (hx : s.view k ((s.core k).tr (o.getD va)) false = .ok x)
    (hok : s.vtileFault fp (.ok w) ((s.core k).tr vd) [.ok a, .ok b, .ok x] = none)
    (hu : s.settleTap k (a.bytes ++ b.bytes ++ x.bytes) w.bytes = .ok u) :
    vtile k op vd va vb o m bc fp tag s = .next (vtileStore (op fp) w a b x ((s.core k).mr m) bc fp u) := by
  have hclean : [s.viewBad a, s.viewBad b, s.viewBad x, s.viewPart w].findSome? id = none := by
    simp [State.viewBad, State.viewPart, hbad]
  cases o with
  | none =>
    obtain rfl : a = x := Except.ok.inj (ha.symm.trans hx)
    simp only [vtile, hw, ha, hb, hok, hclean, hu]
    rfl
  | some r =>
    rw [Option.getD_some] at hx
    simp only [vtile, hw, ha, hb, hx, hok, hclean, hu]
    rfl

/-- The tile form of an operation. -/
theorem does_vtile (h : Issues s k i) (he : exec i s = .next (s.issue k i (vop k op true vd va vb o m bc fp)))
    (hbad : s.bad = []) (hw : s.view k ((s.core k).tr vd) false = .ok w)
    (ha : s.view k ((s.core k).tr va) false = .ok a) (hb : s.view k ((s.core k).tr vb) false = .ok b)
    (hx : s.view k ((s.core k).tr (o.getD va)) false = .ok x)
    (hok : s.vtileFault fp (.ok w) ((s.core k).tr vd) [.ok a, .ok b, .ok x] = none)
    (hfree : Unblocked s k i (a.bytes ++ b.bytes ++ x.bytes) w.bytes) :
    ((s.core k).tapQ = [] → Does i k s (vtileStore (op fp) w a b x ((s.core k).mr m) bc fp s)) ∧
      (s.settleTap k (a.bytes ++ b.bytes ++ x.bytes) w.bytes = .ok u →
        Does i k s (vtileStore (op fp) w a b x ((s.core k).mr m) bc fp u)) :=
  (does_stores he h (fun tag _ hu => vtile_settled (tag := tag) hbad hw ha hb hx hok hu) hfree fun t cs =>
    offCores_vtileStore _ _ _ _ _ _ _ _ t cs).imp_right fun hd => hd u

/-- An operation with one rounding, of the format of its lanes. -/
theorem masked_eq (f : Fl → Fl → Fl → Fl) (fp : Bool) :
    masked f fp = fun p q r on =>
      if on then some (flBits (vecFmt fp) .rne (f (flOf (vecFmt fp) p) (flOf (vecFmt fp) q) (flOf (vecFmt fp) r))) else none := by
  funext p q r on
  rw [masked, fmtFl_vfmt]

/-- The tile form of an operation with one rounding. -/
theorem does_vtile_masked {f : Fl → Fl → Fl → Fl} (h : Issues s k i)
    (he : exec i s = .next (s.issue k i (vop k (masked f) true vd va vb o m bc fp)))
    (hbad : s.bad = []) (hw : s.view k ((s.core k).tr vd) false = .ok w)
    (ha : s.view k ((s.core k).tr va) false = .ok a) (hb : s.view k ((s.core k).tr vb) false = .ok b)
    (hx : s.view k ((s.core k).tr (o.getD va)) false = .ok x)
    (hok : s.vtileFault fp (.ok w) ((s.core k).tr vd) [.ok a, .ok b, .ok x] = none)
    (hfree : Unblocked s k i (a.bytes ++ b.bytes ++ x.bytes) w.bytes) :
    let op (p q r : Nat) (on : Bool) : Option Nat :=
      if on then some (flBits (vecFmt fp) .rne (f (flOf (vecFmt fp) p) (flOf (vecFmt fp) q) (flOf (vecFmt fp) r))) else none
    ((s.core k).tapQ = [] → Does i k s (vtileStore op w a b x ((s.core k).mr m) bc fp s)) ∧
      (s.settleTap k (a.bytes ++ b.bytes ++ x.bytes) w.bytes = .ok u →
        Does i k s (vtileStore op w a b x ((s.core k).mr m) bc fp u)) := by
  have hd := does_vtile (u := u) h he hbad hw ha hb hx hok hfree
  rwa [masked_eq] at hd

end

/-- Settles O15: each form by the lane operation that it applies. -/
theorem vectorOperations : Obligations.VectorOperations := by
  refine ⟨fun s k l vd va vb vc md m bc cmp fp => ?_, fun s u k l vd va vb vc m bc fp w a b x => ?_⟩
  · refine ⟨fun h => ?_, fun h => ?_, fun h => ?_, fun h => ?_, fun h => ?_, fun h => ?_, fun h => ?_⟩
    · exact writes_masked (f := fun a b _ => flAdd a b) (o := none) h rfl
    · exact writes_masked (f := fun a b _ => flMul a b) (o := none) h rfl
    · exact writes_masked (f := fun a b c => flAdd (flMul a b) c) (o := some vc) h rfl
    · exact writes_masked (f := fun a b _ => flMin a b) (o := none) h rfl
    · exact writes_masked (f := fun a b _ => flMax a b) (o := none) h rfl
    · exact writes_of (f := fun c => c.setV vd _) rfl h (fun _ => rfl) rfl
    · refine writes_of (f := fun c => c.setM md _) rfl h (fun _ => ?_) rfl
      have hcmp := vcmp_code_le h.1.2.1
      unfold doVcmp
      rw [show vcmpOf cmp = _ from funext fun x => funext fun y => vcmpOf_eq hcmp x y]
      cases fp <;> rfl
  · refine ⟨?_, ?_, ?_, ?_, ?_, ?_⟩
    · exact fun h => does_vtile_masked (f := fun a b _ => flAdd a b) (o := none) h rfl
    · exact fun h => does_vtile_masked (f := fun a b _ => flMul a b) (o := none) h rfl
    · exact fun h => does_vtile_masked (f := fun a b c => flAdd (flMul a b) c) (o := some vc) h rfl
    · exact fun h => does_vtile_masked (f := fun a b _ => flMin a b) (o := none) h rfl
    · exact fun h => does_vtile_masked (f := fun a b _ => flMax a b) (o := none) h rfl
    · exact fun h => does_vtile (op := fun _ p q _ on => some (if on then p else q)) (o := none) h rfl

end Sys2Proof.Machine
end


section
/-! PROOFS. The sync class: waits and FENCE (O22), and what a core sends (O20). -/

namespace Sys2Proof.Machine

variable {s : State} {k : Nat} {i : Instr} {l : Launch}

/-! ### What completing issue changes of the cores -/

/-- A core that differs in the slots and counts of its engines alone. -/
def SlotsMoved (c d : Core) : Prop := ∃ slots eng ls, d = { c with slots := slots, eng := eng, lastSlip := ls }

theorem SlotsMoved.refl (c : Core) : SlotsMoved c c := ⟨_, _, _, rfl⟩

theorem SlotsMoved.trans {c d e : Core} (h : SlotsMoved c d) (h' : SlotsMoved d e) : SlotsMoved c e := by
  obtain ⟨_, _, _, rfl⟩ := h
  obtain ⟨_, _, _, rfl⟩ := h'
  exact ⟨_, _, _, rfl⟩

theorem SlotsMoved.kept {α : Type} {c d : Core} (h : SlotsMoved c d) (f : Core → α)
    (hf : ∀ c slots eng ls, f { c with slots := slots, eng := eng, lastSlip := ls } = f c) : f d = f c := by
  obtain ⟨_, _, _, rfl⟩ := h
  exact hf ..

theorem slotsMoved_setCore (c : Core) (h : SlotsMoved (s.core k) c) (j : Nat) : SlotsMoved (s.core j) ((s.setCore k c).core j) := by
  rw [State.setCore_core]
  split
  · next hj => exact hj ▸ h
  · exact .refl _

theorem slotsMoved_slip (c : Core) (e : Nat) (r : EngRec) (ls : Option (W64 × Nat)) :
    SlotsMoved c { c.setEng e r with lastSlip := ls } := ⟨c.slots, (c.setEng e r).eng, ls, rfl⟩

theorem slip_core (e : Nat) (t : W64) (tag : Tag) (held : Bool) (j : Nat) :
    SlotsMoved (s.core j) ((s.slip k e i t tag held).core j) := by
  have h (c : Core) (hc : SlotsMoved (s.core k) c) (n m z : Nat) :
      SlotsMoved (s.core j) (((s.setCore k c).trace k 2 n m z).core j) := by
    rw [State.trace_core]
    exact slotsMoved_setCore c hc j
  unfold State.slip
  dsimp only
  split
  · exact h _ (slotsMoved_slip ..) ..
  · exact h _ (slotsMoved_slip ..) ..

theorem startPass_core (e : Nat) (p : Pass) (held : Bool) (j : Nat) : SlotsMoved (s.core j) ((s.startPass k e p held).core j) := by
  have h (x : Slots) : SlotsMoved (s.core j) ((s.setCore k ((s.core k).setSlots e x)).core j) :=
    slotsMoved_setCore _ ⟨_, _, _, rfl⟩ j
  unfold State.startPass
  dsimp only
  split
  · split
    · exact (h _).trans (slip_core ..)
    · exact h _
  · exact h _

theorem place_core (t : Option W64) (late : Late) (foot : Foot) (j : Nat) :
    SlotsMoved (s.core j) ((s.place k i t late foot).core j) := by
  unfold State.place State.enterSlot
  dsimp only
  split
  · split
    · exact startPass_core ..
    · exact slotsMoved_setCore _ ⟨_, _, _, rfl⟩ j
  · split
    · split
      · exact slip_core ..
      · exact .refl _
    · exact .refl _

/-- Past an instruction a core has another pc and other loops, and halts where a debugger steps it. -/
theorem moveOn_core (jumped : Bool) (j : Nat) : ∃ pc loops lc st one after at_, (s.moveOn k jumped).core j =
    { s.core j with pc := pc, loops := loops, lc := lc, st := st, stepOne := one, after := after, haltAt := at_ } := by
  unfold State.moveOn
  generalize hw : (if jumped = true then s else s.setCore k (s.core k).advance) = w
  have h : ∃ pc loops lc, w.core j = { s.core j with pc := pc, loops := loops, lc := lc } := by
    subst hw
    cases jumped
    · simp only [Bool.false_eq_true, if_false, State.setCore_core]
      split
      · next hj => exact hj ▸ Core.advance_eq _
      · exact ⟨_, _, _, rfl⟩
    · exact ⟨_, _, _, rfl⟩
  obtain ⟨pc, loops, lc, h⟩ := h
  dsimp only
  split
  · split
    · rw [State.setCore_core]
      split
      · next hj => subst hj; rw [h]; exact ⟨_, _, _, _, _, _, _, rfl⟩
      · rw [h]; exact ⟨_, _, _, _, _, _, _, rfl⟩
    · rw [State.setSt_core, State.setCore_core_same, State.setCore_core]
      split
      · next hj => subst hj; rw [h]; exact ⟨_, _, _, _, _, _, _, rfl⟩
      · rw [h]; exact ⟨_, _, _, _, _, _, _, rfl⟩
  · rw [h]
    exact ⟨_, _, _, _, _, _, _, rfl⟩

/-- A core that no debugger steps stays in its state. -/
theorem moveOn_st (jumped : Bool) (h : (s.core k).stepOne = false) (j : Nat) : ((s.moveOn k jumped).core j).st = (s.core j).st := by
  unfold State.moveOn
  cases jumped
  · obtain ⟨_, _, _, ha⟩ := (s.core k).advance_eq
    simp only [Bool.false_eq_true, if_false, State.setCore_core_same, ha, h]
    rw [State.setCore_core]
    split
    · next hj => rw [hj]
    · rfl
  · simp only [if_true, h, Bool.false_eq_true, if_false]

theorem moveOn_kept {α : Type} (f : Core → α) (hf : ∀ c pc loops lc st one after at_,
    f { c with pc := pc, loops := loops, lc := lc, st := st, stepOne := one, after := after, haltAt := at_ } = f c)
    (jumped : Bool) (j : Nat) : f ((s.moveOn k jumped).core j) = f (s.core j) := by
  obtain ⟨_, _, _, _, _, _, _, hm⟩ := moveOn_core (s := s) (k := k) jumped j
  rw [hm]
  exact hf ..

theorem countIssue_core : ((s.countIssue k i).core k).wait = none ∧ ((s.countIssue k i).core k).foot = {} ∧
    ((s.countIssue k i).core k).st = (s.core k).st ∧ ((s.countIssue k i).core k).stepOne = (s.core k).stepOne := by
  unfold State.countIssue
  rw [State.setCore_core_same, State.trace_core]
  exact ⟨rfl, rfl, rfl, rfl⟩

/-- What completing issue leaves of a core: it waits for nothing, has noted no bytes, and is in the state that it was in
unless a debugger steps it. -/
theorem finish_core (t : Option W64) (late : Late) (jumped : Bool) :
    ((s.finish k i t late jumped).core k).wait = none ∧ ((s.finish k i t late jumped).core k).foot = {} ∧
      ((s.core k).stepOne = false → ((s.finish k i t late jumped).core k).st = (s.core k).st) := by
  obtain ⟨hwait, hfoot, hst, hone⟩ := countIssue_core (s := s) (k := k) (i := i)
  have hp := place_core (s := s.countIssue k i) (k := k) (i := i) t late (s.core k).foot k
  unfold State.finish
  refine ⟨?_, ?_, fun h => ?_⟩
  · rw [moveOn_kept Core.wait fun _ _ _ _ _ _ _ _ => rfl, hp.kept Core.wait fun _ _ _ _ => rfl, hwait]
  · rw [moveOn_kept Core.foot fun _ _ _ _ _ _ _ _ => rfl, hp.kept Core.foot fun _ _ _ _ => rfl, hfoot]
  · rw [moveOn_st jumped, hp.kept Core.st fun _ _ _ _ => rfl, hst]
    rw [hp.kept Core.stepOne fun _ _ _ _ => rfl, hone, h]

/-- Other cores keep the bytes that they noted. -/
theorem finish_foot_ne (t : Option W64) (late : Late) (jumped : Bool) {j : Nat} (hj : j ≠ k) :
    ((s.finish k i t late jumped).core j).foot = (s.core j).foot := by
  have hp := place_core (s := s.countIssue k i) (k := k) (i := i) t late (s.core k).foot j
  rw [State.finish, moveOn_kept Core.foot fun _ _ _ _ _ _ _ _ => rfl, hp.kept Core.foot fun _ _ _ _ => rfl, State.countIssue,
    State.setCore_core_ne _ _ _ _ hj, State.trace_core]

/-! ### Waiters served -/

/-- A core with no bytes noted has none after a wait of any core has been satisfied. -/
theorem resume_foot (w : Wait) (tag : Tag) {j : Nat} (h : (s.core j).foot = {}) : ((s.resume k w tag).core j).foot = {} := by
  unfold State.resume
  dsimp only
  by_cases hj : j = k
  · subst hj
    exact (finish_core ..).2.1
  · rw [finish_foot_ne _ _ _ hj, State.setSt_core, if_neg hj, h]

theorem raise_foot (cls code : Nat) (b : Block) (detail : Nat) (uid : W32) (inst cmd : Nat) (lastUid : W32) (ctx : List Byte)
    (flags j : Nat) : ((s.raise cls code b detail uid inst cmd lastUid ctx flags).core j).foot = (s.core j).foot := by
  obtain ⟨e, he⟩ := s.raise_core_eq cls code b detail uid inst cmd lastUid ctx flags j
  rw [he]

/-- A command that completes leaves the bytes that cores have noted; one that a reset has ended may count an error. -/
theorem complete_foot (c : Cmd) (status j : Nat) : ((s.complete c status).core j).foot = (s.core j).foot := by
  unfold State.complete State.completeWith State.stale
  dsimp only
  split
  · exact raise_foot ..
  · rfl

theorem wakeHost_foot (kind : Nat) {j : Nat} (h : (s.core j).foot = {}) : ((s.wakeHost kind).core j).foot = {} := by
  refine forEach_keeps (fun t => (t.core j).foot = {}) _ _ _ (fun t c ht => ?_) h
  split
  · unfold State.finishWait
    rw [complete_foot]
    split <;> exact ht
  · exact ht

theorem wakeCnt_foot (cl idx : Nat) {j : Nat} (h : (s.core j).foot = {}) : ((s.wakeCnt cl idx).core j).foot = {} := by
  refine wakeHost_foot 0 (forEach_keeps (fun t => (t.core j).foot = {}) _ _ _ (fun t x ht => ?_) h)
  split
  · split
    · exact resume_foot _ _ ht
    · exact ht
  · exact ht

theorem putCnt_foot (cl idx v : Nat) {j : Nat} (h : (s.core j).foot = {}) : ((s.putCnt cl idx v).core j).foot = {} :=
  wakeCnt_foot _ _ h

/-! ### Counters and flags -/

@[simp] theorem State.setCnt_cores (cl idx v : Nat) : (s.setCnt cl idx v).cores = s.cores := rfl
@[simp] theorem State.setCntTags_cores (cl idx : Nat) (x : List (Nat × W64 × Tag)) : (s.setCntTags cl idx x).cores = s.cores := rfl
@[simp] theorem State.takeCnt_cores (cl idx v : Nat) : (s.takeCnt cl idx v).cores = s.cores := rfl
@[simp] theorem State.setCnt_insts (cl idx v : Nat) : (s.setCnt cl idx v).insts = s.insts := rfl
@[simp] theorem State.setCntTags_insts (cl idx : Nat) (x : List (Nat × W64 × Tag)) : (s.setCntTags cl idx x).insts = s.insts := rfl

@[simp] theorem State.setCntTags_cnt (cl idx : Nat) (x : List (Nat × W64 × Tag)) (c n : Nat) :
    (s.setCntTags cl idx x).cnt c n = s.cnt c n := by
  unfold State.setCntTags State.cnt
  by_cases h : c = cl
  · rw [h, State.setCluster_cluster_same]
  · rw [State.setCluster_cluster_ne _ _ _ _ h]

theorem State.setCnt_cnt_same {cl idx v : Nat} (h : v < 2 ^ 16) : (s.setCnt cl idx v).cnt cl idx = v := by
  rw [State.setCnt, State.cnt, State.setCluster_cluster_same, sget_sput_same, BitVec.toNat_ofNat, Nat.mod_eq_of_lt h]

theorem State.setCnt_cnt_ne {cl idx v n : Nat} (h : n ≠ idx) : (s.setCnt cl idx v).cnt cl n = s.cnt cl n := by
  rw [State.setCnt, State.cnt, State.setCluster_cluster_same, sget_sput_ne _ _ _ h, State.cnt]

theorem State.cnt_lt (cl idx : Nat) : s.cnt cl idx < 2 ^ 16 := BitVec.isLt _

theorem State.takeCnt_cnt (cl idx v : Nat) : (s.takeCnt cl idx v).cnt cl idx = s.cnt cl idx - v := by
  rw [State.takeCnt, State.setCntTags_cnt, State.setCnt_cnt_same (lt_of_le_of_lt (Nat.sub_le ..) (s.cnt_lt cl idx))]

/-- A counter set while nobody waits. -/
theorem State.putCnt_of_no_waiters (cl idx v : Nat) (hw : s.waiters = []) (hh : s.hostWaits 0 = []) :
    s.putCnt cl idx v = (s.setCnt cl idx v).setCntTags cl idx (if v = 0 then [] else [(v, s.beat, (0, false))]) := by
  have hw' : ((s.setCnt cl idx v).setCntTags cl idx (if v = 0 then [] else [(v, s.beat, (0, false))])).waiters = [] := hw
  have hh' : ((s.setCnt cl idx v).setCntTags cl idx (if v = 0 then [] else [(v, s.beat, (0, false))])).hostWaits 0 = [] := hh
  rw [State.putCnt, State.wakeCnt, hw', State.wakeHost]
  simp only [List.filter_nil, forEach_nil]
  rw [hh', forEach_nil]

theorem State.setFlag_flags (n : Nat) (v : Bool) :
    (s.setFlag n v).flags = if s.flag n = v then s.flags else sput (fun _ => false) s.flags n v := by
  unfold State.setFlag
  split
  · rfl
  · dsimp only
    split
    · rfl
    · split
      · obtain ⟨m, b, h⟩ := State.write_eq { s with flags := sput (fun _ => false) s.flags n v }
          (hostBase + (State.reg { s with flags := sput (fun _ => false) s.flags n v } (R.instMirror ‹_›)).toNat + 4 * (n / 32))
          (leBytes 4 (State.flagMap { s with flags := sput (fun _ => false) s.flags n v } ‹_› (n / 32)))
        rw [State.wr, h]
      · rfl

theorem State.setFlag_flag_same (n : Nat) (v : Bool) : (s.setFlag n v).flag n = v := by
  rw [State.flag, State.setFlag_flags]
  split
  · next h => exact h
  · exact sget_sput_same ..

theorem State.setFlag_flag_ne {n m : Nat} (v : Bool) (h : m ≠ n) : (s.setFlag n v).flag m = s.flag m := by
  rw [State.flag, State.setFlag_flags]
  split
  · rfl
  · exact sget_sput_ne _ _ _ h

theorem State.setFlag_cores (n : Nat) (v : Bool) : (s.setFlag n v).cores = s.cores := by
  unfold State.setFlag
  split
  · rfl
  · dsimp only
    split
    · rfl
    · split
      · exact State.write_cores ..
      · rfl

/-! ### Waits -/

/-- An instruction that a core takes and that waits: the core is WAITING, and nothing else that a program sees has changed. -/
theorem waits_of {act : Tag → State → Act} {w : Wait} (he : exec i s = .next (s.issue k i act)) (h : Issues s k i)
    (ha : ∀ tag, act tag s = .wait s w) :
    Gives i s fun t => (t.core k).st = .waiting ∧ (t.core k).wait = some w ∧ (t.core k).held = none ∧
      (t.core k).arch = (s.core k).arch ∧ OthersKept s t k ∧ MemKept s t ∧ DeviceKept s t := by
  obtain ⟨tag, target, late, hs⟩ := issue_settles act h
  have hq : Quiet s ((s.setCore k { s.core k with held := none, wait := some w, waitTarget := target }).setSt k .waiting) :=
    (quiet_setCore s k _ (by rfl)).trans (quiet_setSt ..)
  refine ⟨_, he.trans (congrArg _ (hs.trans (congrArg (s.settle k i · target late) (ha tag)))), ?_⟩
  obtain ⟨hc, hm, hd⟩ := hq
  refine ⟨?_, ?_, ?_, hc k, fun j _ => hc j, fun a => State.rb_of_mem hm a, hd⟩
  · rw [State.settle, State.setSt_core, if_pos rfl]
  · rw [State.settle, State.setSt_core, if_pos rfl, State.setCore_core_same]
  · rw [State.settle, State.setSt_core, if_pos rfl, State.setCore_core_same]

/-- An instruction whose act answers a state with the same cores. -/
theorem does_of_cores {act : Tag → State → Act} {u : State} (he : exec i s = .next (s.issue k i act)) (h : Issues s k i)
    (ha : ∀ tag, act tag s = .next u) (hu : u.cores = s.cores) : Does i k s u := by
  refine does_of he h ha ?_
  rw [State.core, hu, ← State.core, h.1.2.2.2.1]
  exact unblocked_nil ..

/-- FENCE names the engines 1 to 5 by their bits, or all of them. -/
theorem mem_fenced {imm : W32} {e : Nat} : e ∈ fenced imm ↔ 1 ≤ e ∧ e ≤ 5 ∧ (imm = 0 ∨ imm.getLsbD e = true) := by
  simp only [fenced, List.mem_filter, Bool.or_eq_true, decide_eq_true_eq, ← and_assoc, and_congr_left_iff]
  intro _
  simp only [List.mem_cons, List.not_mem_nil, or_false]
  omega

/-- Settles O22: the acts of the waits and of FENCE by their conditions. -/
theorem waitsCompleteOrWait : Obligations.WaitsCompleteOrWait := by
  intro s k l idx val imm
  refine ⟨fun h => ⟨fun hf => ?_, fun hf hv => ?_, fun hf hv => ?_⟩, fun h => ⟨fun hf => ?_, fun hf hp => ?_, fun hf hp => ?_⟩,
    fun h => ⟨fun ho => ?_, fun ho hf => ?_, fun ho hf hs => ?_, fun ho hf hs => ?_⟩, fun h => ⟨fun hn => ?_, fun hn => ?_⟩⟩
  · exact congrArg _ (issue_hold (act := doWaitCnt k idx val) h fun _ => if_pos hf)
  · refine ⟨does_of_cores (act := doWaitCnt k idx val) rfl h (fun _ => ?_) rfl, rfl, s.takeCnt_cnt ..⟩
    exact (if_neg (by rw [hf]; exact Bool.false_ne_true)).trans (if_pos hv)
  · refine waits_of (act := doWaitCnt k idx val) rfl h fun _ => ?_
    exact (if_neg (by rw [hf]; exact Bool.false_ne_true)).trans (if_neg (not_le.mpr hv))
  · exact congrArg _ (issue_hold (act := doBarWait k idx) h fun _ => if_pos hf)
  · refine writes_id (act := doBarWait k idx) rfl h fun _ => ?_
    exact (if_neg (by rw [hf]; exact Bool.false_ne_true)).trans (if_pos hp)
  · refine waits_of (act := doBarWait k idx) rfl h fun _ => ?_
    exact (if_neg (by rw [hf]; exact Bool.false_ne_true)).trans (if_neg (not_not.mpr hp))
  · exact faults_of (act := doFlagWait k idx) rfl h fun _ => if_pos (by rw [ho]; rfl)
  · refine congrArg _ (issue_hold (act := doFlagWait k idx) h fun _ => ?_)
    exact (if_neg (by rw [ho]; exact Bool.false_ne_true)).trans (if_pos hf)
  · refine writes_id (act := doFlagWait k idx) rfl h fun _ => ?_
    simp [doFlagWait, ho, hf, hs]
  · refine waits_of (act := doFlagWait k idx) rfl h fun _ => ?_
    simp [doFlagWait, ho, hf, hs]
  · refine writes_id (act := doFence k imm) rfl h fun _ => if_neg ?_
    simp only [List.any_eq_true, not_exists, not_and, mem_fenced]
    rintro e ⟨h1, h5, he⟩
    rw [hn e h1 h5 he]
    exact Bool.false_ne_true
  · obtain ⟨e, h1, h5, he, hb⟩ := hn
    exact congrArg _ (issue_hold (act := doFence k imm) h fun _ => if_pos (List.any_eq_true.mpr ⟨e, mem_fenced.mpr ⟨h1, h5, he⟩, hb⟩))

/-! ### Signals sent -/

/-- The tag that an instruction gives its signals does not depend on what it does; without a launch field it is none (R44). -/
theorem issue_tag (s : State) (k : Nat) (i : Instr) (act : Tag → State → Act) :
    ∃ tag : Tag, (launchOf i = none → tag = (0, false)) ∧ s.issue k i act = s.issue k i fun _ => act tag := by
  refine ⟨s.ownTag ((s.core k).target i) ((s.core k).lateness ((s.core k).target i) (s.inputOf k i ((s.core k).target i) {})),
    fun h => ?_, rfl⟩
  simp [Core.target, h, State.ownTag]

/-- A signal of the instruction that core k issues, at the end of those that wait in it (R83). -/
def Core.sends (c : Core) (g : Sig) (tag : Tag) : Core :=
  { c with signals := c.signals ++ [{ sig := g, cause := tag.1, prop := tag.2, seq := c.seq + 1 }] }

/-- An instruction that changes its core and leaves a signal in it. -/
theorem sends_of {act : Tag → State → Act} {f : Core → Core} {g : Sig} (he : exec i s = .next (s.issue k i act)) (h : Issues s k i)
    (ha : ∀ tag, ∃ u, act tag s = .next u ∧ Quiet u (s.setCore k ((f (s.core k)).sends g tag)) ∧
      (u.core k).foot = (s.core k).foot) (hl : launchOf i = l) :
    ∃ z p, (l = none → z = 0 ∧ p = false) ∧ Writes i k s fun c => (f c).sends g (z, p) := by
  obtain ⟨⟨z, p⟩, htag, hi⟩ := issue_tag s k i act
  obtain ⟨u, hu, hq, hfoot⟩ := ha (z, p)
  refine ⟨z, p, fun hn => Prod.mk.inj (htag (hl.trans hn)), Does.writes (Does.congr ?_ hq)⟩
  refine does_of (he.trans (congrArg _ hi)) h (fun _ => hu) ?_
  rw [hfoot, h.1.2.2.2.1]
  exact unblocked_nil ..

/-- A signal that an instruction sends and changes nothing else. -/
theorem sendSig_sends (g : Sig) (tag : Tag) : ∃ u, sendSig k g tag s = .next u ∧ Quiet u (s.setCore k ((s.core k).sends g tag)) ∧
    (u.core k).foot = (s.core k).foot :=
  ⟨_, rfl, Quiet.refl _, by rw [State.setCore_core_same]⟩

/-- A core replaced twice is the core of the second replacement. -/
theorem quiet_setCore_setCore (c d : Core) : Quiet ((s.setCore k c).setCore k d) (s.setCore k d) := by
  refine ⟨fun j => ?_, rfl, device_trans (device_symm ((device_trans (device_setCore ..) (device_setCore ..)))) (device_setCore ..)⟩
  simp only [State.setCore_core]
  split <;> rfl

/-- Settles O20: what the core owns leaves a signal in it or acts at once, and the rest faults with NOT_OWNED. -/
theorem syncSends : Obligations.SyncSends := by
  intro s k l idx gt val
  refine ⟨fun h => ite_prop_iff_and.mpr ⟨fun ho => ?_, fun ho => ?_⟩, fun h => ite_prop_iff_and.mpr ⟨fun ho => ?_, fun ho => ?_⟩,
    fun h => ite_prop_iff_and.mpr ⟨fun ho => ?_, fun ho => ?_⟩, fun h => ite_prop_iff_and.mpr ⟨fun ho => ?_, fun ho => ?_⟩,
    fun h => ite_prop_iff_and.mpr ⟨fun ho => ?_, fun ho => ?_⟩, fun h => ⟨?_, fun hw hh => ⟨?_, fun n hn => ?_⟩⟩⟩
  · refine sends_of (act := doSigCnt k idx gt val) (f := id) rfl h (fun tag => ?_) rfl
    rw [show doSigCnt k idx gt val tag s = _ from if_pos ho]
    exact sendSig_sends _ tag
  · exact faults_of (act := doSigCnt k idx gt val) rfl h fun _ => if_neg ho
  · refine sends_of (act := doBarArrive k idx) (f := fun c => { c with barKept := some (idx, s.barPhase idx) }) rfl h
      (fun tag => ⟨_, if_pos ho, ?_, ?_⟩) rfl
    · rw [State.setCore_core_same]
      exact quiet_setCore_setCore ..
    · rw [State.setCore_core_same, State.setCore_core_same]
  · exact faults_of (act := doBarArrive k idx) rfl h fun _ => if_neg ho
  · refine sends_of (act := doFlagSet k idx) (f := id) rfl h (fun tag => ?_) rfl
    rw [show doFlagSet k idx tag s = _ from if_pos ho]
    exact sendSig_sends _ tag
  · exact faults_of (act := doFlagSet k idx) rfl h fun _ => if_neg ho
  · refine sends_of (act := doHostIrq k idx) (f := id) rfl h (fun tag => ?_) rfl
    rw [show doHostIrq k idx tag s = _ from if_pos ho]
    exact sendSig_sends _ tag
  · exact faults_of (act := doHostIrq k idx) rfl h fun _ => if_neg ho
  · exact ⟨does_of_cores (act := doFlagClr k idx) rfl h (fun _ => if_pos ho) (s.setFlag_cores ..),
      s.setFlag_flag_same .., fun n hn => s.setFlag_flag_ne _ hn⟩
  · exact faults_of (act := doFlagClr k idx) rfl h fun _ => if_neg ho
  · refine does_of (act := doSetCnt k idx val) rfl h (fun _ => rfl) ?_
    rw [putCnt_foot _ _ _ h.1.2.2.2.1]
    exact unblocked_nil ..
  · rw [State.putCnt_of_no_waiters _ _ _ hw hh, State.setCntTags_cnt, State.setCnt_cnt_same val.isLt]
  · rw [State.putCnt_of_no_waiters _ _ _ hw hh, State.setCntTags_cnt, State.setCnt_cnt_ne hn]

end Sys2Proof.Machine
end


section
/-! PROOFS. Signals that take effect, and the waits that they satisfy (O21). -/

namespace Sys2Proof.Machine

/-! ### Entries of a sparse table -/

theorem sget_mem_or_default {α : Type} (d : Nat → α) (m : Sparse α) (a : Nat) : (a, sget d m a) ∈ m ∨ sget d m a = d a := by
  induction m with
  | nil => exact .inr rfl
  | cons e r ih =>
    obtain ⟨k, w⟩ := e
    rw [sget]
    split
    · next h => exact .inl (h ▸ List.mem_cons_self)
    · exact ih.imp (List.mem_cons_of_mem _) id

theorem mem_sdel_ne {α : Type} {m : Sparse α} {a : Nat} {x : Nat × α} (h : x ∈ m) (hx : x.1 ≠ a) : x ∈ sdel m a :=
  List.mem_filter.mpr ⟨h, by simpa using hx⟩

section
variable {α : Type} [DecidableEq α] {d : Nat → α} {m : Sparse α} {a : Nat}

theorem mem_sput {v : α} {x : Nat × α} (h : x ∈ sput d m a v) : x = (a, v) ∨ x ∈ m := by
  induction m with
  | nil =>
    unfold sput at h
    split at h
    · simp at h
    · exact .inl (List.mem_singleton.mp h)
  | cons e r ih =>
    obtain ⟨k, w⟩ := e
    unfold sput at h
    split at h
    · split at h
      · exact .inr (List.mem_of_mem_filter h)
      · exact List.mem_cons.mp h
    · split at h
      · split at h
        · exact .inr (List.mem_cons_of_mem _ (List.mem_of_mem_filter h))
        · exact (List.mem_cons.mp h).imp id (List.mem_cons_of_mem _)
      · rcases List.mem_cons.mp h with h | h
        · exact .inr (h ▸ List.mem_cons_self)
        · exact (ih h).imp id (List.mem_cons_of_mem _)

/-- A value other than the default is listed where it is written, and the entries of the other keys stay. -/
theorem mem_sput_self {v : α} (h : v ≠ d a) : (a, v) ∈ sput d m a v := by
  induction m with
  | nil => rw [sput, if_neg h]; exact List.mem_singleton.mpr rfl
  | cons e r ih =>
    rw [sput, if_neg h, if_neg h]
    split
    · exact List.mem_cons_self
    · split
      · exact List.mem_cons_self
      · exact List.mem_cons_of_mem _ ih

theorem mem_sput_ne {v : α} {x : Nat × α} (h : x ∈ m) (hx : x.1 ≠ a) : x ∈ sput d m a v := by
  induction m with
  | nil => cases h
  | cons e r ih =>
    have hr (h' : x ∈ r) : x ∈ sput d r a v := ih h'
    rw [sput]
    split
    · split
      · exact mem_sdel_ne h hx
      · exact List.mem_cons_of_mem _ h
    · split
      · next hk =>
        have h' : x ∈ r := (List.mem_cons.mp h).resolve_left fun he => hx (by rw [he, hk])
        split
        · exact mem_sdel_ne h' hx
        · exact List.mem_cons_of_mem _ h'
      · exact List.mem_cons.mpr ((List.mem_cons.mp h).imp id hr)

/-- Of the entries of a key, a write replaces the one that is read. -/
theorem mem_sput_or_read {v : α} {x : Nat × α} (hv : v ≠ d a) (h : x ∈ m) : x ∈ sput d m a v ∨ (x.1 = a ∧ sget d m a = x.2) := by
  induction m with
  | nil => cases h
  | cons e r ih =>
    obtain ⟨k, w⟩ := e
    rw [sput, if_neg hv, if_neg hv, sget]
    split
    · exact .inl (List.mem_cons_of_mem _ h)
    · split
      · next hk =>
        rcases List.mem_cons.mp h with rfl | h'
        · exact .inr ⟨hk.symm, rfl⟩
        · exact .inl (List.mem_cons_of_mem _ h')
      · rcases List.mem_cons.mp h with rfl | h'
        · exact .inl List.mem_cons_self
        · exact (ih h').imp (List.mem_cons_of_mem _) id

end

section
variable {s t : State} {k w : Nat} {i : Instr}

/-! ### The cores that wait -/

theorem mem_waiters {x : Nat} : x ∈ s.waiters ↔ ∃ c, (x, c) ∈ s.cores ∧ c.st = .waiting := by
  simp [State.waiters]

theorem mem_waiters_of_st (h : (s.core k).st = .waiting) : k ∈ s.waiters := by
  rcases sget_mem_or_default (fun _ => ({} : Core)) s.cores k with hm | hd
  · exact mem_waiters.mpr ⟨_, hm, h⟩
  · rw [State.core, hd] at h
    cases h

/-- A core replaced by one in the same state brings no new waiter. -/
theorem waiters_setCore_subset {c : Core} (hc : c.st = (s.core k).st) {x : Nat} (h : x ∈ (s.setCore k c).waiters) : x ∈ s.waiters := by
  obtain ⟨e, he, hst⟩ := mem_waiters.mp h
  rcases mem_sput he with hx | hx
  · obtain ⟨rfl, rfl⟩ := Prod.mk.inj hx
    exact mem_waiters_of_st (hc ▸ hst)
  · exact mem_waiters.mpr ⟨e, hx, hst⟩

/-- A core that waits still does when one is replaced by another in the same state that is not that of reset. -/
theorem mem_waiters_setCore {c : Core} (h : w ∈ s.waiters) (hst : c.st = (s.core k).st) (hc : k = w → c ≠ {}) :
    w ∈ (s.setCore k c).waiters := by
  obtain ⟨e, he, hw⟩ := mem_waiters.mp h
  by_cases hk : k = w
  · subst hk
    rcases mem_sput_or_read (d := fun _ => ({} : Core)) (hc rfl) he with hm | ⟨-, hr⟩
    · exact mem_waiters.mpr ⟨e, hm, hw⟩
    · have hcore : s.core k = e := hr
      exact mem_waiters.mpr ⟨c, mem_sput_self (hc rfl), by rw [hst, hcore, hw]⟩
  · exact mem_waiters.mpr ⟨e, mem_sput_ne he fun h => hk h.symm, hw⟩

/-! ### WAIT commands -/

theorem hostWaits_eq_nil {n : Nat} : s.hostWaits n = [] ↔ ∀ e ∈ s.insts, e.2.accepted.filter (fun c =>
    decide (c.opcode = Op.wait) && c.started.isSome && decide (c.fld 0x10 1 = n)) = [] := by
  unfold State.hostWaits
  rw [← List.length_eq_zero_iff, List.length_mergeSort, List.length_eq_zero_iff, List.flatMap_eq_nil_iff]

/-- An owner's record replaced by one that has accepted the same commands brings no WAIT. -/
theorem hostWaits_setInst {i n : Nat} {x : Inst} (hx : x.accepted = (s.inst i).accepted) (h : s.hostWaits n = []) :
    (s.setInst i x).hostWaits n = [] := by
  rw [hostWaits_eq_nil] at h ⊢
  intro e he
  rcases mem_sput he with rfl | hm
  · rw [hx]
    rcases sget_mem_or_default (fun _ => ({} : Inst)) s.insts i with hm | hd
    · exact h _ hm
    · rw [State.inst, hd]
      rfl
  · exact h _ hm

/-! ### What a wait that is satisfied leaves of the waiters -/

/-- No core waits that did not before, but perhaps w, and no WAIT command waits where none did. -/
structure NoNewWaits (w : Nat) (s t : State) : Prop where
  cores : ∀ x ∈ t.waiters, x ∈ s.waiters ∨ x = w
  hosts : ∀ n, s.hostWaits n = [] → t.hostWaits n = []

theorem NoNewWaits.trans {s t u : State} (h : NoNewWaits w s t) (h' : NoNewWaits w t u) : NoNewWaits w s u :=
  ⟨fun x hx => (h'.cores x hx).elim (h.cores x) .inr, fun n hn => h'.hosts n (h.hosts n hn)⟩

theorem noNewWaits_of_eq (hc : t.cores = s.cores) (hi : t.insts = s.insts) : NoNewWaits w s t :=
  ⟨fun x hx => .inl (by rwa [State.waiters, hc, ← State.waiters] at hx), fun n hn => by rwa [State.hostWaits, hi, ← State.hostWaits]⟩

theorem NoNewWaits.refl (s : State) : NoNewWaits w s s := noNewWaits_of_eq rfl rfl

theorem noNewWaits_setCore (c : Core) : NoNewWaits w s (s.setCore w c) := by
  refine ⟨fun x hx => ?_, fun _ h => h⟩
  obtain ⟨e, he, hst⟩ := mem_waiters.mp hx
  exact (mem_sput he).elim (fun h => .inr (Prod.mk.inj h).1) fun h => .inl (mem_waiters.mpr ⟨e, h, hst⟩)

theorem noNewWaits_setInst {i : Nat} {x : Inst} (hx : x.accepted = (s.inst i).accepted) : NoNewWaits w s (s.setInst i x) :=
  ⟨fun _ h => .inl h, fun _ h => hostWaits_setInst hx h⟩

theorem State.trace_insts (kind word n cause : Nat) : (s.trace k kind word n cause).insts = s.insts := by
  unfold State.trace
  dsimp only
  repeat' split
  all_goals rfl

theorem noNewWaits_trace (kind word n cause : Nat) : NoNewWaits w s (s.trace k kind word n cause) :=
  noNewWaits_of_eq (State.trace_cores ..) (State.trace_insts ..)

theorem noNewWaits_slip (e : Nat) (t : W64) (tag : Tag) (held : Bool) : NoNewWaits w s (s.slip w e i t tag held) := by
  unfold State.slip
  dsimp only
  split
  · exact ((noNewWaits_setCore _).trans (noNewWaits_trace ..)).trans (noNewWaits_of_eq rfl rfl)
  · exact (noNewWaits_setCore _).trans (noNewWaits_trace ..)

theorem noNewWaits_startPass (e : Nat) (p : Pass) (held : Bool) : NoNewWaits w s (s.startPass w e p held) := by
  unfold State.startPass
  dsimp only
  split
  · split
    · exact (noNewWaits_setCore _).trans (noNewWaits_slip ..)
    · exact noNewWaits_setCore _
  · exact noNewWaits_setCore _

theorem noNewWaits_place (t : Option W64) (late : Late) (foot : Foot) : NoNewWaits w s (s.place w i t late foot) := by
  unfold State.place State.enterSlot
  dsimp only
  split
  · split
    · exact noNewWaits_startPass ..
    · exact noNewWaits_setCore _
  · split
    · split
      · exact noNewWaits_slip ..
      · exact .refl s
    · exact .refl s

theorem noNewWaits_rearm : NoNewWaits w s (s.rearm k) := by
  unfold State.rearm
  split
  · exact noNewWaits_setInst rfl
  · exact .refl s

theorem noNewWaits_unbind (st : CoreSt) : NoNewWaits w s (s.unbind k st) := by
  unfold State.unbind State.dlBreak
  dsimp only
  split
  · split
    · split
      · exact .refl s
      · exact noNewWaits_setInst rfl
    · exact .refl s
  · exact .refl s

theorem noNewWaits_setSt (st : CoreSt) : NoNewWaits w s (s.setSt w st) := by
  have go {u : State} (h : NoNewWaits w s u) : NoNewWaits w s ((u.setCore w { u.core w with st := st }).trace w 4 st.code 0 0) :=
    (h.trans (noNewWaits_setCore _)).trans (noNewWaits_trace ..)
  unfold State.setSt
  dsimp only
  split
  · exact .refl s
  · split
    · exact go noNewWaits_rearm
    · exact go (noNewWaits_unbind _)

theorem noNewWaits_moveOn (jumped : Bool) : NoNewWaits w s (s.moveOn w jumped) := by
  unfold State.moveOn
  generalize hu : (if jumped = true then s else s.setCore w (s.core w).advance) = u
  have h : NoNewWaits w s u := by
    subst hu
    cases jumped
    · exact noNewWaits_setCore _
    · exact .refl s
  dsimp only
  split
  · split
    · exact h.trans (noNewWaits_setCore _)
    · exact (h.trans (noNewWaits_setCore _)).trans (noNewWaits_setSt _)
  · exact h

theorem noNewWaits_finish (t : Option W64) (late : Late) (jumped : Bool) : NoNewWaits w s (s.finish w i t late jumped) := by
  unfold State.finish State.countIssue
  exact (((noNewWaits_trace ..).trans (noNewWaits_setCore _)).trans (noNewWaits_place ..)).trans (noNewWaits_moveOn _)

theorem noNewWaits_resume (x : Wait) (tag : Tag) : NoNewWaits w s (s.resume w x tag) :=
  (noNewWaits_setSt _).trans (noNewWaits_finish ..)

/-- A core that waited and that no debugger steps runs, and waits for nothing; counters stay. -/
theorem resume_runs (x : Wait) (tag : Tag) (h : (s.core w).stepOne = false) :
    ((s.resume w x tag).core w).st = .running ∧ ((s.resume w x tag).core w).wait = none ∧
      ∀ cl n, (s.resume w x tag).cnt cl n = s.cnt cl n := by
  unfold State.resume
  dsimp only
  obtain ⟨hwait, -, hst⟩ := finish_core (s := s.setSt w .running) (k := w) (i := x.instr w) (s.core w).waitTarget
    ((s.core w).lateness (s.core w).waitTarget
      (if (s.core w).dbgHeld then { late := true, cause := 7, prop := false } else { late := true, cause := tag.1, prop := tag.2 })) false
  obtain ⟨-, -, -, hd⟩ := finish_spec (s.setSt w .running) w (x.instr w) (s.core w).waitTarget
    ((s.core w).lateness (s.core w).waitTarget
      (if (s.core w).dbgHeld then { late := true, cause := 7, prop := false } else { late := true, cause := tag.1, prop := tag.2 })) false
  refine ⟨?_, hwait, fun cl n => ?_⟩
  · rw [hst (by rw [State.setSt_core, if_pos rfl, h]), State.setSt_core, if_pos rfl]
  · obtain ⟨-, -, -, -, -, hc, -⟩ := device_trans (quiet_setSt s w .running).2.2 hd
    rw [State.cnt, hc, State.cnt]

/-! ### The waiters of a counter served -/

/-- What `State.wakeCnt` does with one core that waits. -/
def State.serve (cl idx : Nat) (s : State) (k : Nat) : State :=
  match (s.core k).wait with
  | some (.cnt i v) =>
    if i = idx ∧ v ≤ s.cnt cl idx then
      (s.takeCnt cl idx v).resume k (.cnt i v) (((s.cntInput cl idx v).map (·.2)).getD (0, false))
    else s
  | _ => s

theorem wakeCnt_eq (cl idx : Nat) :
    s.wakeCnt cl idx = (forEach (s.waiters.filter fun k => decide (clOf k = cl)) s (State.serve cl idx)).wakeHost 0 := rfl

theorem wakeHost_idle {n : Nat} (h : s.hostWaits n = []) : s.wakeHost n = s := by rw [State.wakeHost, h, forEach_nil]

/-- Nobody waits for a counter, so serving it changes nothing. -/
theorem wakeCnt_idle {cl idx : Nat} (h : ∀ x ∈ s.waiters, (s.core x).wait = none) (hh : s.hostWaits 0 = []) : s.wakeCnt cl idx = s := by
  rw [wakeCnt_eq, forEach_same _ s _ fun x hx => by rw [State.serve, h x (List.mem_of_mem_filter hx)], wakeHost_idle hh]

/-- One core alone waits, for counter idx of its cluster to reach m, and no debugger steps it. -/
structure Awaits (w idx m : Nat) (s : State) : Prop where
  mem : w ∈ s.waiters
  only : ∀ x ∈ s.waiters, x = w
  wait : (s.core w).wait = some (.cnt idx m)
  stepOne : (s.core w).stepOne = false
  hosts : s.hostWaits 0 = []

theorem Awaits.congr {t : State} {idx m : Nat} (h : Awaits w idx m s) (hc : t.cores = s.cores) (hi : t.insts = s.insts) : Awaits w idx m t := by
  have hw : t.waiters = s.waiters := by rw [State.waiters, hc, State.waiters]
  have hcore : t.core w = s.core w := by rw [State.core, hc, State.core]
  exact ⟨hw ▸ h.mem, hw ▸ h.only, hcore ▸ h.wait, hcore ▸ h.stepOne, by rw [State.hostWaits, hi]; exact h.hosts⟩

/-- One core waits, for a counter that is high enough: the counter loses what it waited for, and the core runs on. -/
theorem wakeCnt_serves {cl idx m : Nat} (ha : Awaits w idx m s) (hcl : clOf w = cl) (hm : m ≤ s.cnt cl idx) :
    (s.wakeCnt cl idx).cnt cl idx = s.cnt cl idx - m ∧ ((s.wakeCnt cl idx).core w).st = .running ∧
      ((s.wakeCnt cl idx).core w).wait = none ∧ NoNewWaits w s (s.wakeCnt cl idx) := by
  obtain ⟨hw, hall, hwait, hone, hh⟩ := ha
  have hserve : State.serve cl idx s w = (s.takeCnt cl idx m).resume w (.cnt idx m) (((s.cntInput cl idx m).map (·.2)).getD (0, false)) := by
    simp only [State.serve, hwait, true_and, if_pos hm]
  generalize ((s.cntInput cl idx m).map (·.2)).getD (0, false) = tag at hserve
  have hnew : NoNewWaits w s ((s.takeCnt cl idx m).resume w (.cnt idx m) tag) :=
    NoNewWaits.trans (t := s.takeCnt cl idx m) (noNewWaits_of_eq rfl rfl) (noNewWaits_resume ..)
  obtain ⟨hst, hnone, hcnt⟩ := resume_runs (s := s.takeCnt cl idx m) (.cnt idx m) tag hone
  obtain ⟨l, hl, hlw⟩ : ∃ l, s.waiters.filter (fun k => decide (clOf k = cl)) = w :: l ∧ ∀ x ∈ l, x = w := by
    have hmem : w ∈ s.waiters.filter (fun k => decide (clOf k = cl)) := List.mem_filter.mpr ⟨hw, decide_eq_true hcl⟩
    have hsub : ∀ x ∈ s.waiters.filter (fun k => decide (clOf k = cl)), x = w := fun x hx => hall x (List.mem_of_mem_filter hx)
    cases hl : s.waiters.filter (fun k => decide (clOf k = cl)) with
    | nil => rw [hl] at hmem; cases hmem
    | cons y l =>
      rw [hl] at hsub
      exact ⟨l, by rw [hsub y List.mem_cons_self], fun x hx => hsub x (List.mem_cons_of_mem _ hx)⟩
  rw [wakeCnt_eq, hl, forEach_cons, hserve, forEach_same l _ _ fun x hx => by rw [State.serve, hlw x hx, hnone],
    wakeHost_idle (hnew.hosts 0 hh)]
  exact ⟨(hcnt ..).trans (s.takeCnt_cnt ..), hst, hnone, hnew⟩

/-! ### A value added to a counter -/

theorem cnt_of_cnts {t : State} {cl : Nat} (h : (t.cluster cl).cnts = (s.cluster cl).cnts) (n : Nat) : t.cnt cl n = s.cnt cl n := by
  rw [State.cnt, h, State.cnt]

/-- Counters, commands and memory are the same, and no core waits that did not before. -/
structure SyncKept (s t : State) : Prop where
  cnts : ∀ cl, (t.cluster cl).cnts = (s.cluster cl).cnts
  insts : t.insts = s.insts
  waiters : ∀ x ∈ t.waiters, x ∈ s.waiters
  mem : t.mem = s.mem

theorem SyncKept.trans {s t u : State} (h : SyncKept s t) (h' : SyncKept t u) : SyncKept s u :=
  ⟨fun cl => (h'.cnts cl).trans (h.cnts cl), h'.insts.trans h.insts, fun x hx => h.waiters x (h'.waiters x hx), h'.mem.trans h.mem⟩

theorem syncKept_refl (s : State) : SyncKept s s := ⟨fun _ => rfl, rfl, fun _ h => h, rfl⟩

theorem SyncKept.noWaiters {t : State} (h : SyncKept s t) (hw : s.waiters = []) : t.waiters = [] :=
  List.eq_nil_iff_forall_not_mem.mpr fun x hx => by simpa [hw] using h.waiters x hx

theorem SyncKept.hostWaits {t : State} (h : SyncKept s t) (n : Nat) : t.hostWaits n = s.hostWaits n := by
  rw [State.hostWaits, h.insts, State.hostWaits]

theorem syncKept_setErr (e : ErrSt) : SyncKept s (s.setErr e) := ⟨fun _ => rfl, rfl, fun _ h => h, rfl⟩

theorem syncKept_setCore {c : Core} (h : c.st = (s.core k).st) : SyncKept s (s.setCore k c) :=
  ⟨fun _ => rfl, rfl, fun _ hx => waiters_setCore_subset h hx, rfl⟩

theorem syncKept_setCluster {c : Cluster} (h : c.cnts = (s.cluster k).cnts) : SyncKept s (s.setCluster k c) := by
  refine ⟨fun cl => ?_, rfl, fun _ hx => hx, rfl⟩
  by_cases hc : cl = k
  · rw [hc, State.setCluster_cluster_same, h]
  · rw [State.setCluster_cluster_ne _ _ _ _ hc]

theorem syncKept_raiseRec (r : ErrRec) : SyncKept s (s.raiseRec r) := by
  unfold State.raiseRec
  dsimp only
  split
  · split
    · exact (syncKept_setErr _).trans (syncKept_setCore rfl)
    · split
      · exact (syncKept_setErr _).trans (syncKept_setCluster rfl)
      · exact syncKept_setErr _
  · exact syncKept_setErr _

theorem cntAdd_fst (old val : Nat) : (cntAdd old val).1 = min 0xFFFF (old + val) := by
  unfold cntAdd
  split <;> simp only <;> omega

theorem cntAdd_lt (old val : Nat) : (cntAdd old val).1 < 2 ^ 16 := by
  rw [cntAdd_fst]
  omega

theorem rootDone_below {cl : Nat} (h : s.cnt cl 62 < 256) : s.rootDone cl = s := by
  unfold State.rootDone
  split
  · rfl
  · exact if_pos h

/-- Adding to a counter: the counter is set, an overflow is recorded, and nothing else, but for counter 62 at 256. -/
theorem bumpCnt_spec {cl idx v : Nat} {who : W32} {tag : Tag} (h : idx ≠ 62 ∨ s.cnt cl idx + v < 256) :
    SyncKept ((s.setCnt cl idx (cntAdd (s.cnt cl idx) v).1).setCntTags cl idx
      (s.cntTags cl idx ++ [((cntAdd (s.cnt cl idx) v).1, s.beat, tag)])) (s.bumpCnt cl idx v who tag) := by
  unfold State.bumpCnt
  dsimp only
  generalize hu : (s.setCnt cl idx (cntAdd (s.cnt cl idx) v).1).setCntTags cl idx
      (s.cntTags cl idx ++ [((cntAdd (s.cnt cl idx) v).1, s.beat, tag)]) = u
  generalize ht : (if (cntAdd (s.cnt cl idx) v).2 = true then
    u.raise 2 St.illegalInState .sync (openDetail .sync St.illegalInState) who ((u.owner cl).getD 0xFF) else u) = t
  have hk : SyncKept u t := by
    subst ht
    split
    · exact syncKept_raiseRec _
    · exact syncKept_refl u
  split
  · next h62 =>
    have hsum : s.cnt cl idx + v < 256 := h.resolve_left fun hn => hn h62
    have hcnt : t.cnt cl 62 < 256 := by
      have hu' : u.cnt cl idx = s.cnt cl idx + v := by
        rw [← hu, State.setCntTags_cnt, State.setCnt_cnt_same (cntAdd_lt ..), cntAdd_fst]
        omega
      rw [cnt_of_cnts (hk.cnts cl), ← h62, hu']
      exact hsum
    rw [rootDone_below hcnt]
    exact hk
  · exact hk

/-- Adding to a counter, but for counter 62 at 256, gives it the sum, or 0xFFFF where the sum exceeds that. -/
theorem bumpCnt_cnt {cl idx v : Nat} {who : W32} {tag : Tag} (h : idx ≠ 62 ∨ s.cnt cl idx + v < 256) :
    (s.bumpCnt cl idx v who tag).cnt cl idx = min 0xFFFF (s.cnt cl idx + v) ∧
      ∀ j, j ≠ idx → (s.bumpCnt cl idx v who tag).cnt cl j = s.cnt cl j := by
  have hk := (bumpCnt_spec (who := who) (tag := tag) h).cnts cl
  refine ⟨?_, fun j hj => ?_⟩
  · rw [cnt_of_cnts hk, State.setCntTags_cnt, State.setCnt_cnt_same (cntAdd_lt ..), cntAdd_fst]
  · rw [cnt_of_cnts hk, State.setCntTags_cnt, State.setCnt_cnt_ne hj]

/-- A sum that fits is all that is added. -/
theorem bumpCnt_fits {cl idx v : Nat} {who : W32} {tag : Tag} (h : idx ≠ 62) (hv : s.cnt cl idx + v ≤ 0xFFFF) :
    s.bumpCnt cl idx v who tag =
      (s.setCnt cl idx (s.cnt cl idx + v)).setCntTags cl idx (s.cntTags cl idx ++ [(s.cnt cl idx + v, s.beat, tag)]) := by
  have hadd : cntAdd (s.cnt cl idx) v = (s.cnt cl idx + v, false) := if_neg (by omega)
  unfold State.bumpCnt
  dsimp only
  rw [hadd, if_neg h, if_neg Bool.false_ne_true]

theorem setCnt_passes (cl idx v : Nat) (l : List (Nat × W64 × Tag)) (c : Nat) :
    (((s.setCnt cl idx v).setCntTags cl idx l).cluster c).passes = (s.cluster c).passes := by
  by_cases h : c = cl
  · rw [h, State.setCntTags, State.setCluster_cluster_same, State.setCnt, State.setCluster_cluster_same]
    rfl
  · rw [State.setCntTags, State.setCluster_cluster_ne _ _ _ _ h, State.setCnt, State.setCluster_cluster_ne _ _ _ _ h]

/-! ### Barriers -/

theorem arrive_below {n inst cause : Nat} {who : W32} {prop : Bool} (h : s.barArrived n + 1 < s.barMembers n) :
    s.arrive n who inst cause prop = s.setFld (R.barArr n) 0 21 (s.barArrived n + 1) := by
  unfold State.arrive
  rw [if_neg (by omega)]
  exact if_neg (by omega)

theorem arrive_last {n inst cause : Nat} {who : W32} {prop : Bool} (h0 : 0 < s.barMembers n) (h : s.barMembers n ≤ s.barArrived n + 1) :
    s.arrive n who inst cause prop = s.completePhase n cause prop := by
  unfold State.arrive
  rw [if_neg (by omega)]
  exact if_pos h

theorem served_none {n : Nat} {f : State → Nat → State} (hw : s.waiters = []) (hh : s.hostWaits n = []) :
    (forEach s.waiters s f).wakeHost n = s := by
  rw [hw, forEach_nil, wakeHost_idle hh]

/-- A phase that completes while nobody waits changes ARRIVED, PHASE and what waits read of the phase. -/
theorem completePhase_idle {n cause : Nat} {prop : Bool} (hw : s.waiters = []) (hh : s.hostWaits 2 = []) :
    ∃ tags, s.completePhase n cause prop =
      { (s.setFld (R.barArr n) 0 21 0).setFld (R.barPhase n) 0 32 (s.barPhase n + 1) with barTags := tags } := by
  exact ⟨_, served_none hw hh⟩

/-- The fields of a barrier lie in registers of their own. -/
theorem barRegs_ne (n : Nat) : R.barCfg n ≠ R.barArr n ∧ R.barPhase n ≠ R.barArr n ∧ R.barCfg n ≠ R.barPhase n := by
  unfold R.barCfg R.barArr R.barPhase
  omega

theorem fld_setFld_ne {off p lo w v lo' w' : Nat} (h : p ≠ off) : (s.setFld off lo w v).fld p lo' w' = s.fld p lo' w' :=
  State.fld_of_reg (s.setFld_reg_ne _ _ _ h) _ _

/-- A field reads the low bits of what was written to it. -/
theorem fld_setFld_same {off lo w : Nat} (v : Nat) (h : lo + w ≤ 64) : (s.setFld off lo w v).fld off lo w = v % 2 ^ w := by
  have hmod : bfSet (s.reg off) lo w v = bfSet (s.reg off) lo w (v % 2 ^ w) := by rw [bfSet, bfSet, Nat.mod_mod]
  rw [State.fld, State.setFld_reg_same, hmod, bfGet_bfSet_same _ h (Nat.mod_lt _ (by positivity))]

theorem State.setFlag_insts (n : Nat) (v : Bool) : (s.setFlag n v).insts = s.insts := by
  unfold State.setFlag
  split
  · rfl
  · dsimp only
    split
    · rfl
    · split
      · obtain ⟨m, b, h⟩ := State.write_eq { s with flags := sput (fun _ => false) s.flags n v }
          (hostBase + (State.reg { s with flags := sput (fun _ => false) s.flags n v } (R.instMirror ‹_›)).toNat + 4 * (n / 32))
          (leBytes 4 (State.flagMap { s with flags := sput (fun _ => false) s.flags n v } ‹_› (n / 32)))
        rw [State.wr, h]
      · rfl

/-- A flag set while nobody waits: the flag, and where it was clear what waits read of its setting. -/
theorem putFlag_idle {n cause : Nat} {prop : Bool} (hw : s.waiters = []) (hh : s.hostWaits 1 = []) :
    ∃ tags, s.putFlag n true cause prop = { s.setFlag n true with flagTags := tags } := by
  unfold State.putFlag
  have hw' : (s.setFlag n true).waiters = [] := by rw [State.waiters, State.setFlag_cores]; exact hw
  have hh' : (s.setFlag n true).hostWaits 1 = [] := by rw [State.hostWaits, State.setFlag_insts]; exact hh
  cases s.flag n
  · exact ⟨_, served_none hw' hh'⟩
  · exact ⟨_, served_none hw' hh'⟩

/-! ### A signal that takes effect -/

theorem signalTakesEffect_none {e : Delayed} (h : s.readySig e = none) : signalTakesEffect [e] s = s := by
  simp [signalTakesEffect, h]

theorem signalTakesEffect_one {e : Delayed} {g : Signal} (h : s.readySig e = some g) :
    signalTakesEffect [e] s = (s.setCore e.id { s.core e.id with signals := (s.core e.id).signals.tail }).takeSig e.id g := by
  simp [signalTakesEffect, h, State.takeSig]

theorem readySig_nil {e : Delayed} (h : (s.core e.id).signals = []) : s.readySig e = none := by rw [State.readySig, h]

theorem readySig_waits {e : Delayed} {x : Signal} {r : List Signal} (h : (s.core e.id).signals = x :: r) (hb : s.writesBefore e.id x = true) :
    s.readySig e = none := by
  simp only [State.readySig, h, hb, if_true]

theorem readySig_ready {e : Delayed} {x : Signal} {r : List Signal} (h : (s.core e.id).signals = x :: r) (hb : s.writesBefore e.id x = false) :
    ∃ g, s.readySig e = some g ∧ g.sig = x.sig := by
  refine ⟨if e.delay = 0 then x else { x with cause := e.delay, prop := false }, ?_, by split <;> rfl⟩
  simp only [State.readySig, h, hb, Bool.false_eq_true, if_false]

/-- The core of which the oldest signal is taken. -/
def State.popSig (s : State) (k : Nat) : State := s.setCore k { s.core k with signals := (s.core k).signals.tail }

theorem signalTakesEffect_two {d e : Delayed} {g g' : Signal} (h : s.readySig d = some g)
    (h' : ((s.popSig d.id).applySig d.id g).readySig e = some g') :
    signalTakesEffect [d, e] s =
      (((((s.popSig d.id).applySig d.id g).popSig e.id).applySig e.id g').wakeSig g).wakeSig g' := by
  have h'' : ((s.setCore d.id { s.core d.id with signals := (s.core d.id).signals.tail }).applySig d.id g).readySig e = some g' := h'
  simp [signalTakesEffect, h, h'', State.popSig]

theorem popSig_core (k j : Nat) : ((s.popSig k).core j).wait = (s.core j).wait ∧ ((s.popSig k).core j).stepOne = (s.core j).stepOne ∧
    ((s.popSig k).core j).st = (s.core j).st := by
  rw [State.popSig, State.setCore_core]
  split
  · next h => rw [h]; exact ⟨rfl, rfl, rfl⟩
  · exact ⟨rfl, rfl, rfl⟩

theorem Awaits.popSig {idx m : Nat} (h : Awaits w idx m s) (k : Nat) : Awaits w idx m (s.popSig k) := by
  obtain ⟨hwait, hone, -⟩ := popSig_core (s := s) k w
  refine ⟨mem_waiters_setCore h.mem rfl fun hk hd => ?_, fun x hx => h.only x (waiters_setCore_subset (s := s) (k := k)
    (c := { s.core k with signals := (s.core k).signals.tail }) rfl hx), hwait.trans h.wait,
    hone.trans h.stepOne, h.hosts⟩
  have hnone : (s.core k).wait = none := congrArg Core.wait hd
  rw [hk, h.wait] at hnone
  cases hnone

/-- A signal that adds to a counter, with a sum that fits: the counter has the sum, its waiters are not served yet, and what
the signals of other cores wait for stays. -/
theorem applySig_cnt {cl idx v : Nat} {g : Signal} (hg : g.sig = .cnt cl idx v) (hidx : idx ≠ 62) (hv : s.cnt cl idx + v ≤ 0xFFFF) :
    (s.applySig k g).cnt cl idx = s.cnt cl idx + v ∧ (s.applySig k g).cores = s.cores ∧ (s.applySig k g).insts = s.insts ∧
      ∀ c, ((s.applySig k g).cluster c).passes = (s.cluster c).passes := by
  simp only [State.applySig, hg]
  rw [bumpCnt_fits hidx hv]
  exact ⟨by rw [State.setCntTags_cnt, State.setCnt_cnt_same (by omega)], rfl, rfl, fun c => setCnt_passes cl idx _ _ c⟩

theorem wakeSig_cnt {cl idx v : Nat} {g : Signal} (hg : g.sig = .cnt cl idx v) : s.wakeSig g = s.wakeCnt cl idx := by
  rw [State.wakeSig, hg]

theorem readySig_congr {t : State} {e : Delayed} (hc : t.core e.id = s.core e.id)
    (hp : ∀ c, (t.cluster c).passes = (s.cluster c).passes) : t.readySig e = s.readySig e := by
  have hb (x : Signal) : t.writesBefore e.id x = s.writesBefore e.id x := by simp only [State.writesBefore, hc, hp]
  simp only [State.readySig, hc, hb]

/-- One signal to a counter, whose one waiter it satisfies. -/
theorem takeSig_serves {cl idx v m : Nat} {g : Signal} (hg : g.sig = .cnt cl idx v) (hidx : idx ≠ 62) (ha : Awaits w idx m s)
    (hcl : clOf w = cl) (hm : m ≤ s.cnt cl idx + v) (hv : s.cnt cl idx + v ≤ 0xFFFF) :
    (s.takeSig k g).cnt cl idx = s.cnt cl idx + v - m ∧ ((s.takeSig k g).core w).st = .running ∧ ((s.takeSig k g).core w).wait = none := by
  obtain ⟨hsum, hc, hi, -⟩ := applySig_cnt (k := k) hg hidx hv
  obtain ⟨hcnt, hst, hnone, -⟩ := wakeCnt_serves (ha.congr hc hi) hcl (by rw [hsum]; exact hm)
  rw [State.takeSig, wakeSig_cnt hg]
  exact ⟨by rw [hcnt, hsum], hst, hnone⟩

/-- Signals of two cores in one instant: a waiter on the counter sees the sum of both (R98). -/
theorem signals_of_one_instant {j cl idx a b m : Nat} {x y : Signal} {r q : List Signal} (hjk : j ≠ k)
    (hx : (s.core k).signals = x :: r) (hy : (s.core j).signals = y :: q) (hxs : x.sig = .cnt cl idx a) (hys : y.sig = .cnt cl idx b)
    (hidx : idx ≠ 62) (hbx : s.writesBefore k x = false) (hby : s.writesBefore j y = false) (ha : Awaits w idx m s) (hcl : clOf w = cl)
    (hm : m ≤ s.cnt cl idx + a + b) (hv : s.cnt cl idx + a + b ≤ 0xFFFF) :
    (signalTakesEffect [{ id := k }, { id := j }] s).cnt cl idx = s.cnt cl idx + a + b - m ∧
      ((signalTakesEffect [{ id := k }, { id := j }] s).core w).st = .running ∧
      ((signalTakesEffect [{ id := k }, { id := j }] s).core w).wait = none := by
  obtain ⟨g, hg, hgs⟩ := readySig_ready (e := { id := k }) hx hbx
  obtain ⟨g', hg', hgs'⟩ := readySig_ready (e := { id := j }) hy hby
  rw [hxs] at hgs
  rw [hys] at hgs'
  obtain ⟨hsum, hc, hi, hp⟩ := applySig_cnt (s := s.popSig k) (k := k) hgs hidx (show s.cnt cl idx + a ≤ _ by omega)
  have hcore : ((s.popSig k).applySig k g).core j = s.core j := by
    rw [State.core, hc, ← State.core]
    exact State.setCore_core_ne _ _ _ _ hjk
  rw [signalTakesEffect_two hg ((readySig_congr (s := s) hcore hp).trans hg'), wakeSig_cnt hgs, wakeSig_cnt hgs']
  have ha' : Awaits w idx m (((s.popSig k).applySig k g).popSig j) := ((ha.popSig k).congr hc hi).popSig j
  have hsum' : (((s.popSig k).applySig k g).popSig j).cnt cl idx = s.cnt cl idx + a := hsum
  obtain ⟨hall, hc', hi', -⟩ := applySig_cnt (s := ((s.popSig k).applySig k g).popSig j) (k := j) hgs' hidx (by rw [hsum']; exact hv)
  rw [hsum'] at hall
  replace ha' := ha'.congr hc' hi'
  obtain ⟨hcnt, hst, hnone, hnew⟩ := wakeCnt_serves ha' hcl (by rw [hall]; exact hm)
  rw [wakeCnt_idle (fun z hz => ?_) (hnew.hosts 0 ha'.hosts)]
  · exact ⟨by rw [hcnt, hall], hst, hnone⟩
  · rw [show z = w from (hnew.cores z hz).elim (ha'.only z) id, hnone]

end

section
variable {s : State} {k d : Nat} {x : Signal} {r : List Signal}

/-- A signal that nothing holds takes effect alone. -/
theorem gives_of_ready (hx : (s.core k).signals = x :: r) (hb : s.writesBefore k x = false) {p : State → Prop}
    (h : ∀ g : Signal, g.sig = x.sig → p ((s.setCore k { s.core k with signals := r }).takeSig k g)) :
    Gives (.signalTakesEffect [{ id := k, delay := d }]) s p := by
  obtain ⟨g, hg, hgs⟩ := readySig_ready (e := { id := k, delay := d }) hx hb
  have ht := signalTakesEffect_one hg
  rw [hx, List.tail_cons] at ht
  exact ⟨_, congrArg Host.Outcome.next ht, h g hgs⟩

end

section
variable {u : State} {k n : Nat} {g : Signal}

/-- An arrival before the last. -/
theorem takeSig_bar_below (hg : g.sig = .bar n) (h : u.barArrived n + 1 < u.barMembers n) :
    (u.takeSig k g).barArrived n = u.barArrived n + 1 ∧ (u.takeSig k g).barPhase n = u.barPhase n ∧
      (u.takeSig k g).barMembers n = u.barMembers n ∧ MemKept u (u.takeSig k g) := by
  obtain ⟨hca, hpa, -⟩ := barRegs_ne n
  rw [State.takeSig, State.wakeSig, hg, State.applySig, hg]
  dsimp only
  rw [arrive_below h]
  have hlt : u.barMembers n < 2 ^ 21 := Nat.mod_lt _ (by positivity)
  refine ⟨?_, fld_setFld_ne hpa, fld_setFld_ne hca, fun _ => rfl⟩
  rw [State.barArrived, fld_setFld_same _ (by decide), Nat.mod_eq_of_lt (by omega)]

end

section
variable {u : State} {k n : Nat} {g : Signal} (hw : u.waiters = []) (hh : ∀ n, u.hostWaits n = [])
include hw hh

/-- A value added to a counter while nobody waits. -/
theorem takeSig_cnt_idle {cl idx v : Nat} (hg : g.sig = .cnt cl idx v) (h : idx ≠ 62 ∨ u.cnt cl idx + v < 256) :
    (u.takeSig k g).cnt cl idx = min 0xFFFF (u.cnt cl idx + v) ∧ MemKept u (u.takeSig k g) ∧
      ∀ j, j ≠ idx → (u.takeSig k g).cnt cl j = u.cnt cl j := by
  have hk := bumpCnt_spec (who := coreUid k 0 0) (tag := (g.cause, g.prop)) h
  obtain ⟨hsum, hne⟩ := bumpCnt_cnt (who := coreUid k 0 0) (tag := (g.cause, g.prop)) h
  rw [State.takeSig, wakeSig_cnt hg, State.applySig, hg]
  dsimp only
  rw [wakeCnt_idle (by rw [hk.noWaiters hw]; simp) ((hk.hostWaits 0).trans (hh 0))]
  exact ⟨hsum, fun a => State.rb_of_mem hk.mem a, hne⟩

/-- The last arrival of a phase while nobody waits. -/
theorem takeSig_bar_last (hg : g.sig = .bar n) (h0 : 0 < u.barMembers n) (h : u.barMembers n ≤ u.barArrived n + 1) :
    (u.takeSig k g).barArrived n = 0 ∧ (u.takeSig k g).barPhase n = (u.barPhase n + 1) % 2 ^ 32 ∧
      (u.takeSig k g).barMembers n = u.barMembers n ∧ MemKept u (u.takeSig k g) := by
  obtain ⟨hca, hpa, hcp⟩ := barRegs_ne n
  obtain ⟨tags, ht⟩ := completePhase_idle (n := n) (cause := g.cause) (prop := g.prop) hw (hh 2)
  rw [State.takeSig, State.wakeSig, hg, State.applySig, hg]
  dsimp only
  rw [arrive_last h0 h, ht]
  exact ⟨(fld_setFld_ne hpa.symm).trans (fld_setFld_same _ (by decide)), fld_setFld_same _ (by decide),
    (fld_setFld_ne hcp).trans (fld_setFld_ne hca), fun _ => rfl⟩

/-- A flag set while nobody waits. -/
theorem takeSig_flag_idle (hg : g.sig = .flag n) :
    (u.takeSig k g).flag n = true ∧ (∀ m, m ≠ n → (u.takeSig k g).flag m = u.flag m) ∧ (u.takeSig k g).cores = u.cores := by
  obtain ⟨tags, ht⟩ := putFlag_idle (n := n) (cause := g.cause) (prop := g.prop) hw (hh 1)
  rw [State.takeSig, State.wakeSig, hg, State.applySig, hg]
  dsimp only
  rw [ht]
  exact ⟨u.setFlag_flag_same n true, fun m hm => u.setFlag_flag_ne true hm, u.setFlag_cores n true⟩

end

/-- Settles O21: the oldest signal of a core alone, by what it is; two of one instant, by the sum that their waiter sees. -/
theorem Signals.signalTakesEffect : Obligations.SignalTakesEffect := by
  unfold Obligations.SignalTakesEffect
  intro s k d x r
  dsimp only
  refine ⟨fun h => ?_, fun hx hb => ?_, fun hx hb => ⟨fun hw hh => ⟨?_, ?_, ?_, ?_⟩, ?_, ?_⟩, ?_⟩
  · exact congrArg Host.Outcome.next (signalTakesEffect_none (readySig_nil (e := { id := k, delay := d }) h))
  · exact congrArg Host.Outcome.next (signalTakesEffect_none (readySig_waits (e := { id := k, delay := d }) hx hb))
  · exact fun cl idx v hs h => gives_of_ready hx hb fun g hg => takeSig_cnt_idle hw hh (hg.trans hs) h
  · exact fun n hs h _ => gives_of_ready hx hb fun g hg => takeSig_bar_below (hg.trans hs) h
  · exact fun n hs h0 h _ => gives_of_ready hx hb fun g hg => takeSig_bar_last hw hh (hg.trans hs) h0 h
  · exact fun n hs => gives_of_ready hx hb fun g hg => takeSig_flag_idle hw hh (hg.trans hs)
  · intro v hs
    obtain ⟨t, ht, hp⟩ := gives_of_ready (d := d) (p := fun t => t =
      { s.setCore k { s.core k with signals := r } with irqs := s.irqs ++ [((s.owner (clOf k)).getD 0, v)] }) hx hb fun g hg => by
        rw [State.takeSig, State.wakeSig, hg.trans hs, State.applySig, hg.trans hs]
        rfl
    exact hp ▸ ht
  · intro cl idx v w m hs hidx hw hcl hwait hone hh hm hv
    have ha : Awaits w idx m (s.setCore k { s.core k with signals := r }) := ⟨by simp [hw], by simp [hw], hwait, hone, hh⟩
    exact gives_of_ready hx hb fun g hg => takeSig_serves (hg.trans hs) hidx ha hcl hm hv
  · intro j y q cl idx a b w m hjk hx hy hxs hys hidx hbx hby hw hcl hwait hone hh hm hv
    exact ⟨_, rfl, signals_of_one_instant hjk hx hy hxs hys hidx hbx hby ⟨by simp [hw], by simp [hw], hwait, hone, hh⟩ hcl hm hv⟩

end Sys2Proof.Machine
end


section
/-! PROOFS. States that differ only in the bytes noted of their cores, and what leaves them so: records raised and
contributions that fail. -/

namespace Sys2Proof.Machine

variable {s t u : State} {k : Nat}

/-! ### States alike -/

/-- A core without its noted bytes. -/
def Core.bare (c : Core) : Core := { c with foot := {} }

/-- The states differ only in the bytes noted of their cores. -/
def Alike (s t : State) : Prop := t = s.withCores t.cores ∧ ∀ j, (t.core j).bare = (s.core j).bare

theorem Alike.refl (s : State) : Alike s s := ⟨rfl, fun _ => rfl⟩

theorem Alike.trans (h : Alike s t) (h' : Alike t u) : Alike s u :=
  ⟨by rw [h'.1, h.1]; rfl, fun j => (h'.2 j).trans (h.2 j)⟩

theorem Alike.symm (h : Alike s t) : Alike t s := ⟨by rw [h.1]; rfl, fun j => (h.2 j).symm⟩

theorem alike_note (s : State) (k : Nat) (r w : List (Nat × Nat)) : Alike s (s.note k r w) := by
  refine ⟨rfl, fun j => ?_⟩
  rw [State.note, State.setCore_core]
  split
  · next h => rw [h]; rfl
  · rfl

/-- What does not read the noted bytes is the same of the cores of states alike. -/
theorem Alike.core_eq {α : Type} (h : Alike s t) {f : Core → α} (hf : ∀ c, f c.bare = f c) (j : Nat) : f (t.core j) = f (s.core j) := by
  rw [← hf, h.2, hf]

theorem Alike.core (h : Alike s t) (j : Nat) : ∃ f, t.core j = { s.core j with foot := f } :=
  ⟨(t.core j).foot, show { (t.core j).bare with foot := (t.core j).foot } = _ by rw [h.2 j]; rfl⟩

theorem Alike.arch (h : Alike s t) (j : Nat) : (t.core j).arch = (s.core j).arch := h.core_eq (f := Core.arch) (fun _ => rfl) j
theorem Alike.prog (h : Alike s t) (j : Nat) : (t.core j).prog = (s.core j).prog := h.core_eq (f := Core.prog) (fun _ => rfl) j

theorem Alike.quiet (h : Alike s t) : Quiet s t := by
  refine ⟨h.arch, ?_, ?_⟩ <;> rw [h.1]
  · rfl
  · exact device_refl s

/-- What does not depend on the cores is the same of states alike. -/
theorem Alike.eq {α : Type} (h : Alike s t) {f : State → α} (hf : ∀ s cs, f (s.withCores cs) = f s) : f t = f s := by rw [h.1, hf]

/-- A function that takes states alike to states alike. -/
def KeepsAlike (f : State → State) : Prop := ∀ s t, Alike s t → Alike (f s) (f t)

theorem OffCores.core {f : State → State} (hf : OffCores f) (s : State) (j : Nat) : (f s).core j = s.core j := by
  rw [State.core, hf.cores, State.core]

theorem OffCores.keepsAlike {f : State → State} (hf : OffCores f) : KeepsAlike f := fun s t h => by
  refine ⟨?_, fun j => by rw [hf.core, hf.core, h.2]⟩
  conv_lhs => rw [h.1, hf]
  rw [hf.cores]

theorem KeepsAlike.forEach {α : Type} {f : State → α → State} (hf : ∀ x, KeepsAlike (f · x)) (l : List α) :
    KeepsAlike (forEach l · f) := by
  induction l with
  | nil => exact fun _ _ h => h
  | cons x l ih => exact fun s t h => ih _ _ (hf x s t h)

theorem Alike.setCore (h : Alike s t) {c d : Core} (hc : d.bare = c.bare) : Alike (s.setCore k c) (t.setCore k d) := by
  refine ⟨by rw [h.1]; rfl, fun j => ?_⟩
  rw [State.setCore_core, State.setCore_core]
  split
  · exact hc
  · exact h.2 j

/-! ### Records -/

theorem Alike.raiseRec (h : Alike s t) (r : ErrRec) : Alike (s.raiseRec r) (t.raiseRec r) := by
  have hn : t.noRetryFlag r = s.noRetryFlag r := h.eq (f := (·.noRetryFlag r)) fun _ _ => rfl
  have he : Alike (s.setErr { s.err with raised := s.err.raised ++ [{ r with flags := r.flags ||| s.noRetryFlag r }] })
      (t.setErr { t.err with raised := t.err.raised ++ [{ r with flags := r.flags ||| t.noRetryFlag r }] }) := by
    rw [hn]
    exact OffCores.keepsAlike (f := fun u => u.setErr { u.err with raised := u.err.raised ++ [{ r with flags := r.flags ||| s.noRetryFlag r }] })
      (fun _ _ => rfl) s t h
  unfold State.raiseRec
  dsimp only
  split
  · split
    · obtain ⟨f, hf⟩ := he.core (uidCore r.uid)
      exact he.setCore (by rw [hf]; rfl)
    · split
      · exact OffCores.keepsAlike (f := fun u => u.setCluster (uidCl r.uid)
          { u.cluster (uidCl r.uid) with eng := { (u.cluster (uidCl r.uid)).eng with errors := satInc 32 (u.cluster (uidCl r.uid)).eng.errors 1 } })
          (fun _ _ => rfl) _ _ he
      · exact he
  · exact he

theorem Alike.beat (h : Alike s t) : t.beat = s.beat := h.eq (f := (·.beat)) fun _ _ => rfl

theorem keepsAlike_raise (cls code : Nat) (b : Block) (detail : Nat) (uid : W32) (inst cmd : Nat) (lastUid : W32) (ctx : List Byte) (flags : Nat) :
    KeepsAlike (·.raise cls code b detail uid inst cmd lastUid ctx flags) := by
  intro s t h
  dsimp only [State.raise]
  rw [h.beat]
  exact h.raiseRec _

/-! ### Contributions that fail -/

section
variable (cs : Sparse Core)
@[simp] theorem withCores_reg (off : Nat) : (s.withCores cs).reg off = s.reg off := rfl
@[simp] theorem withCores_bit (off n : Nat) : (s.withCores cs).bit off n = s.bit off n := rfl
@[simp] theorem withCores_fld (off lo n : Nat) : (s.withCores cs).fld off lo n = s.fld off lo n := rfl
@[simp] theorem withCores_gate (i : Nat) : (s.withCores cs).gate i = s.gate i := rfl
@[simp] theorem withCores_inst (i : Nat) : (s.withCores cs).inst i = s.inst i := rfl
@[simp] theorem withCores_gateOn (i : Nat) : (s.withCores cs).gateOn i = s.gateOn i := rfl
@[simp] theorem withCores_s0 (i : Nat) : (s.withCores cs).s0 i = s.s0 i := rfl
end

theorem offCores_setReg (off : Nat) (v : W64) : OffCores (·.setReg off v) := fun _ _ => rfl

theorem OffCores.comp {f g : State → State} (hf : OffCores f) (hg : OffCores g) : OffCores fun s => g (f s) := fun s cs =>
  (congrArg g (hf s cs)).trans (hg _ cs)

theorem OffCores.ite {p : State → Prop} [∀ s, Decidable (p s)] {f g : State → State} (hp : ∀ s cs, p (s.withCores cs) = p s)
    (hf : OffCores f) (hg : OffCores g) : OffCores fun s => if p s then f s else g s := fun s cs => by
  simp only [hp]
  split
  · exact hf s cs
  · exact hg s cs

theorem offCores_setNf (i : Nat) (st : W64) : OffCores (·.setNf i st) :=
  .ite (fun _ _ => rfl) (fun _ _ => rfl) offCores_id

theorem offCores_setBit (off n : Nat) (b : Bool) : OffCores (·.setBit off n b) := fun _ _ => rfl

theorem offCores_gateEvent (i coord b : Nat) : OffCores (·.gateEvent i coord b) :=
  (offCores_setBit _ b true).comp (offCores_setReg _ _)

theorem offCores_relay (m : Message) (out : Option Nat) : OffCores (·.relay m out) := fun s cs => by
  have hp : (s.withCores cs).routePort m.dst = s.routePort m.dst := rfl
  simp only [State.relay, hp]
  split <;> rfl

theorem offCores_send (m : Message) : OffCores (·.send m) := fun s cs => offCores_relay _ none s cs

theorem offCores_incReg (off n : Nat) : OffCores (·.incReg off n) := fun _ _ => rfl

theorem offCores_sendClove (i : Nat) (st : W64) (first last : Nat) : OffCores (·.sendClove i st first last) := by
  intro s cs
  have h (c : Nat) : OffCores fun s => s.send { s.header i Msg.clove 0 c st with payload := leBytes 4 first ++ leBytes 4 last } :=
    fun s cs => offCores_send { s.header i Msg.clove 0 c st with payload := leBytes 4 first ++ leBytes 4 last } s cs
  have hl : (s.withCores cs).jobModules i = s.jobModules i := rfl
  have hc : (s.withCores cs).coord = s.coord := rfl
  have hf := offCores_forEach (l := (s.jobModules i).filter fun c => decide (c ≠ s.coord)) h s cs
  unfold State.sendClove
  dsimp only at hf ⊢
  rw [hl, hc, hf]
  exact offCores_incReg (R.cloveCount i) 1 _ cs

theorem offCores_undoWork (i : Nat) : OffCores (·.undoWork i) := fun _ _ => rfl

theorem offCores_putShardBit (a b v : Nat) : OffCores (·.putShardBit a b v) := fun s cs => offCores_write _ _ s cs

theorem offCores_newestIsActive (i : Nat) : OffCores (·.newestIsActive i) := by
  intro s cs
  refine offCores_forEach (l := List.range (s.shards i)) (fun n => ?_) s cs
  exact .ite (fun _ _ => rfl) offCores_id fun s cs => offCores_putShardBit _ 2 _ s cs

/-! ### The tap entries of an undone step -/

/-- A core whose tap keeps the entries of other steps and those whose folds have begun (R167, R205). -/
def Core.dropTaps (c : Core) (st : W64) : Core :=
  { c with tapQ := c.tapQ.take c.folding ++ (c.tapQ.drop c.folding).filter fun e => decide (e.step ≠ st) }

theorem Core.dropTaps_idem (c : Core) (st : W64) : (c.dropTaps st).dropTaps st = c.dropTaps st := by
  unfold Core.dropTaps
  dsimp only
  rcases le_total c.folding c.tapQ.length with h | h
  · have hl : (c.tapQ.take c.folding).length = c.folding := by rw [List.length_take, Nat.min_eq_left h]
    rw [List.take_left' hl, List.drop_left' hl, List.filter_filter]
    simp
  · simp [List.take_of_length_le h, List.drop_of_length_le h]

/-- What `State.undoTaps` does to one core. -/
def State.dropTaps (st : W64) (s : State) (k : Nat) : State :=
  if ((s.core k).dropTaps st).tapQ = (s.core k).tapQ then s else s.setCore k ((s.core k).dropTaps st)

theorem undoTaps_eq (i : Nat) : s.undoTaps i = forEach (s.coresOf i) s (State.dropTaps (s.s0 i + 1)) := rfl

theorem dropTaps_core (st : W64) (k j : Nat) : (s.dropTaps st k).core j = if j = k then (s.core k).dropTaps st else s.core j := by
  unfold State.dropTaps
  split
  · next h =>
    split
    · next hj =>
      rw [hj, show (s.core k).dropTaps st = { s.core k with tapQ := ((s.core k).dropTaps st).tapQ } from rfl, h]
    · rfl
  · rw [State.setCore_core]

theorem forEach_dropTaps_core (st : W64) (l : List Nat) (j : Nat) :
    (forEach l s (State.dropTaps st)).core j = if j ∈ l then (s.core j).dropTaps st else s.core j := by
  induction l generalizing s with
  | nil => rfl
  | cons k l ih =>
    rw [forEach_cons, ih, dropTaps_core]
    by_cases hk : j = k
    · subst hk
      simp [Core.dropTaps_idem]
    · simp [hk]

theorem forEach_dropTaps_off (st : W64) (l : List Nat) : ∃ cs, forEach l s (State.dropTaps st) = s.withCores cs := by
  induction l generalizing s with
  | nil => exact ⟨_, rfl⟩
  | cons k l ih =>
    obtain ⟨cs, hcs⟩ : ∃ cs, s.dropTaps st k = s.withCores cs := by
      unfold State.dropTaps
      split <;> exact ⟨_, rfl⟩
    obtain ⟨cs', h⟩ := ih (s := s.dropTaps st k)
    exact ⟨cs', by rw [forEach_cons, h, hcs]; rfl⟩

/-- A core that no entry lists is that of reset. -/
theorem core_of_unlisted {j : Nat} (h : j ∉ s.cores.map (·.1)) : s.core j = {} :=
  (sget_mem_or_default (fun _ => ({} : Core)) s.cores j).resolve_left fun hm => h (List.mem_map.mpr ⟨_, hm, rfl⟩)

theorem undoTaps_core (i j : Nat) :
    (s.undoTaps i).core j = if s.owns i (clOf j) then (s.core j).dropTaps (s.s0 i + 1) else s.core j := by
  rw [undoTaps_eq, forEach_dropTaps_core]
  by_cases hj : j ∈ s.cores.map (·.1)
  · simp [State.coresOf, hj]
  · have hd : (s.core j).dropTaps (s.s0 i + 1) = s.core j := by rw [core_of_unlisted hj]; rfl
    rw [hd, ite_self, ite_self]

theorem keepsAlike_undoTaps (i : Nat) : KeepsAlike (·.undoTaps i) := by
  intro s t h
  dsimp only
  refine ⟨?_, fun j => ?_⟩
  · obtain ⟨cs, hs⟩ := forEach_dropTaps_off (s := s) (s.s0 i + 1) (s.coresOf i)
    obtain ⟨ct, ht⟩ := forEach_dropTaps_off (s := t) (t.s0 i + 1) (t.coresOf i)
    rw [undoTaps_eq, undoTaps_eq, hs, ht, State.withCores_cores, h.1]
    rfl
  · have ho : t.owns i (clOf j) = s.owns i (clOf j) := h.eq (f := (·.owns i (clOf j))) fun _ _ => rfl
    have h0 : t.s0 i = s.s0 i := h.eq (f := (·.s0 i)) fun _ _ => rfl
    obtain ⟨f, hf⟩ := h.core j
    rw [undoTaps_core, undoTaps_core, ho, h0, hf]
    split <;> rfl

theorem keepsAlike_beginTaint (i : Nat) : KeepsAlike (·.beginTaint i) := by
  intro s t h
  have htaint : OffCores fun s => s.setGate i { s.gate i with st := .tainted, tainted := true } := fun _ _ => rfl
  have hundo : OffCores fun s => s.setGate i
    { s.gate i with undo := true, posts := (s.gate i).posts.map fun p => { p with discard := true }, updated := [], moments := [] } :=
    fun _ _ => rfl
  have hoff := ((htaint.comp hundo).comp (offCores_undoWork i)).comp (offCores_newestIsActive i)
  exact keepsAlike_undoTaps i _ _ (hoff.keepsAlike s t h)

theorem KeepsAlike.ite {f : State → State} (hf : KeepsAlike f) (p : Prop) [Decidable p] : KeepsAlike fun s => if p then f s else s := by
  intro s t h
  dsimp only
  split
  · exact hf s t h
  · exact h

theorem keepsAlike_setGate (i : Nat) (g : Gate) : KeepsAlike (·.setGate i g) := OffCores.keepsAlike fun _ _ => rfl

theorem keepsAlike_failContribution (i : Nat) (st : W64) (unit : W32) : KeepsAlike (·.failContribution i st unit) := by
  intro s t h
  have hon : t.gateOn i = s.gateOn i := h.eq (f := (·.gateOn i)) fun _ _ => rfl
  have hg : t.gate i = s.gate i := h.eq (f := (·.gate i)) fun _ _ => rfl
  have h0 : t.s0 i = s.s0 i := h.eq (f := (·.s0 i)) fun _ _ => rfl
  have hc : t.coord = s.coord := h.eq (f := (·.coord)) fun _ _ => rfl
  have he : Alike (s.gateEvent i s.coord 2) (t.gateEvent i s.coord 2) := (offCores_gateEvent i s.coord 2).keepsAlike s t h
  have clove {u v : State} (hu : Alike u v) (g : Gate) (p : Prop) [Decidable p] (first last : Nat) :
      Alike (if p then (u.setGate i g).sendClove i st first last else u.setGate i g)
        (if p then (v.setGate i g).sendClove i st first last else v.setGate i g) :=
    KeepsAlike.ite (offCores_sendClove i st first last).keepsAlike p _ _ (keepsAlike_setGate i g u v hu)
  unfold State.failContribution
  dsimp only
  rw [hon, hg, h0, hc]
  split
  · split
    · exact KeepsAlike.ite (keepsAlike_beginTaint i) _ _ _ (clove he ..)
    · split
      · exact clove he ..
      · exact he
  · exact h

theorem offCores_modLaunch (id : Nat) (f : LaunchRec → LaunchRec) : OffCores (·.modLaunch id f) := fun _ _ => rfl

theorem offCores_markLaunch (i id : Nat) : OffCores (·.markLaunch i id) :=
  .ite (fun _ _ => rfl) (offCores_modLaunch id _) offCores_id

theorem keepsAlike_failCore (k : Nat) (unit : W32) : KeepsAlike (·.failCore k unit) := by
  intro s t h
  dsimp only [State.failCore]
  rw [h.prog]
  split
  · exact keepsAlike_failContribution _ _ _ _ _ ((offCores_markLaunch _ _).keepsAlike s t h)
  · exact h

/-! ### What failures leave of the noted bytes -/

theorem undoTaps_foot (i j : Nat) : ((s.undoTaps i).core j).foot = (s.core j).foot := by
  rw [undoTaps_core]
  split <;> rfl

theorem beginTaint_foot (i j : Nat) : ((s.beginTaint i).core j).foot = (s.core j).foot := by
  unfold State.beginTaint State.beginUndo
  dsimp only
  rw [undoTaps_foot, (offCores_newestIsActive i).core]
  rfl

theorem failContribution_foot (i : Nat) (st : W64) (unit : W32) (j : Nat) :
    ((s.failContribution i st unit).core j).foot = (s.core j).foot := by
  have he : (s.gateEvent i s.coord 2).core j = s.core j := (offCores_gateEvent i s.coord 2).core s j
  have clove {e : State} (he : e.core j = s.core j) (g : Gate) (p : Prop) [Decidable p] (first last : Nat) :
      ((if p then (e.setGate i g).sendClove i st first last else e.setGate i g).core j).foot = (s.core j).foot := by
    rw [← he]
    split
    · exact congrArg Core.foot ((offCores_sendClove i st first last).core (e.setGate i g) j)
    · rfl
  unfold State.failContribution
  dsimp only
  split
  · split
    · split
      · rw [beginTaint_foot]
        exact clove he ..
      · exact clove he ..
    · split
      · exact clove he ..
      · rw [he]
  · rfl

theorem failCore_foot (k : Nat) (unit : W32) (j : Nat) : ((s.failCore k unit).core j).foot = (s.core j).foot := by
  unfold State.failCore
  split
  · exact (failContribution_foot ..).trans (congrArg Core.foot ((offCores_markLaunch _ _).core s j))
  · rfl

/-- An instruction whose act starts the folds of its bytes and then answers `f`, of either state that the statements name. -/
theorem does_after {act : Tag → State → Act} {r w : List (Nat × Nat)} {f : State → State} {i : Instr}
    (he : exec i s = .next (s.issue k i act)) (h : Issues s k i)
    (ha : ∀ tag u, s.settleTap k r w = .ok u → act tag s = .next (f u)) (hb : Unblocked s k i r w)
    (hfoot : ∀ t, ((f t).core k).foot = (t.core k).foot) (hf : KeepsAlike f)
    (hu : ((s.core k).tapQ = [] ∧ u = s) ∨ s.settleTap k r w = .ok u) : Does i k s (f u) := by
  obtain ⟨hs, hd⟩ := does_settled he h ha hb hfoot (hf _ _ (alike_note s k r w)).symm.quiet
  rcases hu with ⟨hn, rfl⟩ | hu
  · exact hs hn
  · exact hd u hu

end Sys2Proof.Machine
end


section
/-! PROOFS. Checks of tiles and digests (O25). -/

namespace Sys2Proof.Machine

variable {s t u : State} {k : Nat} {i : Instr} {t1 : TReg} {v : View} {tag : Tag}

/-! ### Tiles examined -/

section
variable {go : State → View → Act} {f : Nat}

theorem examine_error (h : s.view k ((s.core k).tr t1) false = .error f) : examine k t1 go tag s = .fault f := by
  simp only [examine, h]

theorem examine_bad (h : s.view k ((s.core k).tr t1) false = .ok v) (hb : s.viewBad v = some f) :
    examine k t1 go tag s = .fault f := by
  simp only [examine, h, hb]

theorem examine_settled (h : s.view k ((s.core k).tr t1) false = .ok v) (hb : s.viewBad v = none)
    (hu : s.settleTap k v.bytes [] = .ok u) : examine k t1 go tag s = go u v := by
  simp only [examine, h, hb, hu]

/-- An instruction that examines a tile and then answers `f`. -/
theorem does_examined {g : State → View → State} (he : exec i s = .next (s.issue k i (examine k t1 fun u v => .next (g u v))))
    (h : Issues s k i) (hv : s.view k ((s.core k).tr t1) false = .ok v) (hb : s.viewBad v = none)
    (hu : ((s.core k).tapQ = [] ∧ u = s) ∨ s.settleTap k v.bytes [] = .ok u) (hk : Unblocked s k i v.bytes [])
    (hfoot : ∀ t, ((g t v).core k).foot = (t.core k).foot) (hg : KeepsAlike (g · v)) : Does i k s (g u v) :=
  does_after (f := (g · v)) he h (fun _ _ hu => examine_settled hv hb hu) hk hfoot hg hu

end

/-! ### Registers of states alike -/

theorem keepsAlike_setCore {f : State → Core} (h : ∀ s t, Alike s t → (f t).bare = (f s).bare) :
    KeepsAlike fun s => s.setCore k (f s) := fun s t ha => ha.setCore (h s t ha)

theorem Core.setG_bare (c : Core) (g : Nat) (w : W32) : (c.setG g w).bare = c.bare.setG g w := by
  unfold Core.setG
  split <;> rfl

theorem Core.setPair_bare (c : Core) (g : GReg) (w : W64) : (c.setPair g w).bare = c.bare.setPair g w := by
  unfold Core.setPair
  rw [Core.setG_bare, Core.setG_bare]

/-- A register g written with a value that memory decides. -/
theorem keepsAlike_setG {g : GReg} {w : State → W32} (hw : ∀ s t, Alike s t → w t = w s) :
    KeepsAlike fun s => s.setCore k ((s.core k).setG g (w s)) :=
  keepsAlike_setCore fun s t h => by rw [Core.setG_bare, Core.setG_bare, h.2, hw s t h]

theorem keepsAlike_setPair {g : GReg} {w : State → W64} (hw : ∀ s t, Alike s t → w t = w s) :
    KeepsAlike fun s => s.setCore k ((s.core k).setPair g (w s)) :=
  keepsAlike_setCore fun s t h => by rw [Core.setPair_bare, Core.setPair_bare, h.2, hw s t h]

/-! ### What the checks write -/

theorem Alike.elem (h : Alike s t) (v : View) (i j : Nat) : t.elem v i j = s.elem v i j := h.eq (f := (·.elem v i j)) fun _ _ => rfl
theorem Alike.rbs (h : Alike s t) (a n : Nat) : t.rbs a n = s.rbs a n := h.eq (f := (·.rbs a n)) fun _ _ => rfl
theorem Alike.instOf (h : Alike s t) (k : Nat) : t.instOf k = s.instOf k := h.eq (f := (·.instOf k)) fun _ _ => rfl
theorem Alike.gr (h : Alike s t) (k : Nat) (g : GReg) : (t.core k).gr g = (s.core k).gr g := h.core_eq (f := (·.gr g)) (fun _ => rfl) k

theorem Alike.tileCheck (h : Alike s t) (v : View) : t.tileCheck v = s.tileCheck v := h.eq (f := (·.tileCheck v)) fun _ _ => rfl
theorem Alike.firstNf (h : Alike s t) (v : View) : t.firstNf v = s.firstNf v := h.eq (f := (·.firstNf v)) fun _ _ => rfl

/-- What CHK.NF writes. -/
def nfWord (p : Option (Nat × Nat)) : W32 :=
  match p with
  | some p => BitVec.ofNat 32 (2 ^ 31 + p.1 % 2 ^ 15 * 2 ^ 16 + p.2 % 2 ^ 16)
  | none => 0

/-- Whether an element of a tile exceeds the bound in a register. -/
def State.hot (s : State) (k : Nat) (gs : GReg) (v : View) : Bool :=
  v.indices.any fun p => exceeds v.t.fmt (s.elem v p.1 p.2) ((s.core k).gr gs)

theorem Alike.hot (h : Alike s t) (k : Nat) (gs : GReg) (v : View) : t.hot k gs v = s.hot k gs v := by
  unfold State.hot
  simp only [h.elem, h.gr]

/-- What CHK.RANGE does after the folds. -/
def rangeCheck (k : Nat) (g gs : GReg) (s : State) (v : View) : State :=
  let u := s.setCore k ((s.core k).setG g (if s.hot k gs v then 1 else 0))
  if s.hot k gs v then (u.raise 3 St.plausibility .upd 2 (coreUid k 3 0) (u.instOf k)).failCore k (coreUid k 3 0) else u

/-- What UPD.NF does after the folds. -/
def nfCheck (k : Nat) (s : State) (v : View) : State :=
  match s.firstNf v, (s.core k).prog with
  | some _, some p => s.setNf p.inst p.step
  | _, _ => s

theorem keepsAlike_rangeCheck (g gs : GReg) (v : View) : KeepsAlike (rangeCheck k g gs · v) := by
  intro s t h
  have hh := h.hot k gs v
  have hset : Alike (s.setCore k ((s.core k).setG g (if s.hot k gs v then 1 else 0)))
      (t.setCore k ((t.core k).setG g (if t.hot k gs v then 1 else 0))) :=
    keepsAlike_setG (w := fun u => if u.hot k gs v then 1 else 0) (fun s t h => by rw [h.hot]) s t h
  dsimp only [rangeCheck]
  rw [hh] at hset ⊢
  generalize s.setCore k ((s.core k).setG g (if s.hot k gs v then 1 else 0)) = a at hset ⊢
  generalize t.setCore k ((t.core k).setG g (if s.hot k gs v then 1 else 0)) = b at hset ⊢
  rw [hset.instOf]
  split
  · exact keepsAlike_failCore k (coreUid k 3 0) _ _ (keepsAlike_raise _ _ _ _ _ _ _ _ _ _ _ _ hset)
  · exact hset

theorem rangeCheck_cold {g gs : GReg} (h : s.hot k gs v = false) : rangeCheck k g gs s v = s.setCore k ((s.core k).setG g 0) := by
  unfold rangeCheck
  simp [h]

theorem rangeCheck_hot {g gs : GReg} (h : s.hot k gs v = true) : rangeCheck k g gs s v =
    ((s.setCore k ((s.core k).setG g 1)).raise 3 0x52 .upd 2 (coreUid k 3 0) (s.instOf k)).failCore k (coreUid k 3 0) := by
  have hi : (s.setCore k ((s.core k).setG g 1)).instOf k = s.instOf k := rfl
  have hc : St.plausibility = 0x52 := rfl
  unfold rangeCheck
  simp only [h, if_true, hi, hc]

theorem nfCheck_none (h : s.firstNf v = none ∨ (s.core k).prog = none) : nfCheck k s v = s := by
  unfold nfCheck
  split
  · next hf hp => simp [hf, hp] at h
  · rfl

theorem nfCheck_some {p : Prog} (h : (s.firstNf v).isSome = true) (hp : (s.core k).prog = some p) : nfCheck k s v = s.setNf p.inst p.step := by
  obtain ⟨q, hq⟩ := Option.isSome_iff_exists.mp h
  simp only [nfCheck, hq, hp]

theorem rangeCheck_foot (g gs : GReg) (v : View) (t : State) : ((rangeCheck k g gs t v).core k).foot = (t.core k).foot := by
  have hset : ((t.setCore k ((t.core k).setG g (if t.hot k gs v then 1 else 0))).core k).foot = (t.core k).foot := by
    rw [State.setCore_core_same, Core.setG_foot]
  dsimp only [rangeCheck]
  generalize t.setCore k ((t.core k).setG g (if t.hot k gs v then 1 else 0)) = u at hset ⊢
  split
  · rw [failCore_foot, raise_foot, hset]
  · exact hset

theorem keepsAlike_nfCheck (v : View) : KeepsAlike (nfCheck k · v) := by
  intro s t h
  dsimp only [nfCheck]
  rw [h.firstNf, h.prog]
  split
  · exact (offCores_setNf _ _).keepsAlike s t h
  · exact h

theorem nfCheck_foot (v : View) (t : State) : ((nfCheck k t v).core k).foot = (t.core k).foot := by
  unfold nfCheck
  split
  · exact congrArg Core.foot ((offCores_setNf _ _).core t k)
  · rfl

/-- Settles O25: each check by what it answers after the folds of its footprint; the digests as changes of one core. -/
theorem checksAndDigests : Obligations.ChecksAndDigests := by
  intro s k l t1 g gs acc
  refine ⟨fun f hv => ?_, fun v f hv hb => ?_, fun v u hv hb hu => ?_, fun h => ?_, fun h => ?_, fun h => ?_⟩
  · have ex {i : Instr} {go : State → View → Act} (he : exec i s = .next (s.issue k i (examine k t1 go))) (h : Issues s k i) :
        exec i s = .next (s.fault k f (causeEngine f (engOf i))) := faults_of he h fun _ => examine_error hv
    exact ⟨ex rfl, ex rfl, ex rfl, ex rfl⟩
  · have ex {i : Instr} {go : State → View → Act} (he : exec i s = .next (s.issue k i (examine k t1 go))) (h : Issues s k i) :
        exec i s = .next (s.fault k f (causeEngine f (engOf i))) := faults_of he h fun _ => examine_bad hv hb
    exact ⟨ex rfl, ex rfl, ex rfl, ex rfl⟩
  · have hrange (h : Issues s k (.chkRange k l t1 g gs)) (hk : Unblocked s k (.chkRange k l t1 g gs) v.bytes []) :
        Does (.chkRange k l t1 g gs) k s (rangeCheck k g gs u v) :=
      does_examined rfl h hv hb hu hk (rangeCheck_foot g gs v) (keepsAlike_rangeCheck g gs v)
    have hnf (h : Issues s k (.updNf k l t1)) (hk : Unblocked s k (.updNf k l t1) v.bytes []) : Does (.updNf k l t1) k s (nfCheck k u v) :=
      does_examined rfl h hv hb hu hk (nfCheck_foot v) (keepsAlike_nfCheck v)
    refine ⟨fun h hk => ?_, fun hh h hk => ?_, fun hh h hk => ?_, fun h hk => ?_, fun hn h hk => ?_, fun p hf hp h hk => ?_⟩
    · exact does_examined (g := fun u v => u.setCore k ((u.core k).setPair g (u.tileCheck v))) rfl h hv hb hu hk
        (fun t => by rw [State.setCore_core_same, Core.setPair_foot]) (keepsAlike_setPair fun s t h => h.tileCheck v)
    · rw [← rangeCheck_cold hh]
      exact hrange h hk
    · rw [← rangeCheck_hot hh]
      exact hrange h hk
    · exact does_examined (g := fun u v => u.setCore k ((u.core k).setG g (nfWord (u.firstNf v)))) rfl h hv hb hu hk
        (fun t => by rw [State.setCore_core_same, Core.setG_foot]) (keepsAlike_setG fun s t h => by rw [h.firstNf])
    · have hd := hnf h hk
      rwa [nfCheck_none hn] at hd
    · rw [← nfCheck_some hf hp]
      exact hnf h hk
  · exact writes_of rfl h (fun _ => rfl) rfl
  · exact writes_of rfl h (fun _ => rfl) (Core.setPair_foot ..)
  · exact writes_of rfl h (fun _ => rfl) rfl

end Sys2Proof.Machine
end


section
/-! PROOFS. What posts reach: transfers, collectives and the messages that start them, none of which reads or changes the
bytes noted of a core. -/

namespace Sys2Proof.Machine

variable {s t u : State} {k : Nat}

/-! ### Functions that do not see noted bytes -/

/-- A function that neither reads nor changes the bytes noted of the cores. -/
structure FootBlind (f : State → State) : Prop where
  alike : KeepsAlike f
  foot : ∀ s j, ((f s).core j).foot = (s.core j).foot

/-- The same of one that gives a value too. -/
structure FootBlindWith {α : Type} (f : State → State × α) : Prop where
  alike : ∀ s t, Alike s t → Alike (f s).1 (f t).1 ∧ (f t).2 = (f s).2
  foot : ∀ s j, ((f s).1.core j).foot = (s.core j).foot

theorem OffCores.footBlind {f : State → State} (hf : OffCores f) : FootBlind f :=
  ⟨hf.keepsAlike, fun s j => congrArg Core.foot (hf.core s j)⟩

theorem footBlind_id : FootBlind id := offCores_id.footBlind

theorem FootBlind.comp {f g : State → State} (hf : FootBlind f) (hg : FootBlind g) : FootBlind fun s => g (f s) :=
  ⟨fun s t h => hg.alike _ _ (hf.alike s t h), fun s j => (hg.foot _ j).trans (hf.foot s j)⟩

theorem FootBlind.ite {f g : State → State} (hf : FootBlind f) (hg : FootBlind g) (p : Prop) [Decidable p] :
    FootBlind fun s => if p then f s else g s := by
  split
  · exact hf
  · exact hg

theorem FootBlind.forEach {α : Type} {f : State → α → State} (hf : ∀ x, FootBlind (f · x)) (l : List α) : FootBlind (forEach l · f) :=
  ⟨KeepsAlike.forEach (fun x => (hf x).alike) l, fun s j =>
    forEach_keeps (fun t => (t.core j).foot = (s.core j).foot) l s f (fun t x ht => ((hf x).foot t j).trans ht) rfl⟩

/-- What a function does may depend on what the cores do not decide. -/
theorem FootBlind.dep {α : Type} {g : State → α} {f : α → State → State} (hg : ∀ s cs, g (s.withCores cs) = g s)
    (hf : ∀ x, FootBlind (f x)) : FootBlind fun s => f (g s) s :=
  ⟨fun s t h => by
    have he : g t = g s := h.eq hg
    rw [he]
    exact (hf _).alike s t h, fun s j => (hf _).foot s j⟩

theorem FootBlindWith.dep {α β : Type} {g : State → α} {f : α → State → State × β} (hg : ∀ s cs, g (s.withCores cs) = g s)
    (hf : ∀ x, FootBlindWith (f x)) : FootBlindWith fun s => f (g s) s :=
  ⟨fun s t h => by
    have he : g t = g s := h.eq hg
    rw [he]
    exact (hf _).alike s t h, fun s j => (hf _).foot s j⟩

theorem FootBlind.pair {α : Type} {f : State → State} (hf : FootBlind f) (x : α) : FootBlindWith fun s => (f s, x) :=
  ⟨fun s t h => ⟨hf.alike s t h, rfl⟩, hf.foot⟩

theorem FootBlindWith.ite {α : Type} {p : State → Prop} [∀ s, Decidable (p s)] {f g : State → State × α}
    (hp : ∀ s cs, p (s.withCores cs) = p s) (hf : FootBlindWith f) (hg : FootBlindWith g) :
    FootBlindWith fun s => if p s then f s else g s :=
  ⟨fun s t h => by
    have he : p t = p s := h.eq hp
    simp only [he]
    split
    · exact hf.alike s t h
    · exact hg.alike s t h, fun s j => by
    split
    · exact hf.foot s j
    · exact hg.foot s j⟩

theorem footBlindWith_of_off {α : Type} {f : State → State × α} (h : ∀ s cs, f (s.withCores cs) = ((f s).1.withCores cs, (f s).2)) :
    FootBlindWith f := by
  have h1 : OffCores fun s => (f s).1 := fun s cs => congrArg Prod.fst (h s cs)
  have h2 (s : State) (cs : Sparse Core) : (f (s.withCores cs)).2 = (f s).2 := by rw [h]
  exact ⟨fun s t ha => ⟨h1.keepsAlike s t ha, ha.eq (f := fun s => (f s).2) h2⟩, fun s j => congrArg Core.foot (h1.core s j)⟩

theorem FootBlindWith.fst {α : Type} {f : State → State × α} {g : α → State → State} (hf : FootBlindWith f) (hg : ∀ x, FootBlind (g x)) :
    FootBlind fun s => g (f s).2 (f s).1 :=
  ⟨fun s t h => by
    obtain ⟨ha, hv⟩ := hf.alike s t h
    rw [hv]
    exact (hg _).alike _ _ ha, fun s j => ((hg _).foot _ j).trans (hf.foot s j)⟩

theorem FootBlindWith.bind {α β : Type} {f : State → State × α} {g : α → State → State × β} (hf : FootBlindWith f)
    (hg : ∀ x, FootBlindWith (g x)) : FootBlindWith fun s => g (f s).2 (f s).1 :=
  ⟨fun s t h => by
    obtain ⟨ha, hv⟩ := hf.alike s t h
    rw [hv]
    exact (hg _).alike _ _ ha, fun s j => ((hg _).foot _ j).trans (hf.foot s j)⟩

theorem FootBlindWith.map {α β : Type} {f : State → State × α} (hf : FootBlindWith f) (g : α → β) : FootBlindWith fun s => ((f s).1, g (f s).2) :=
  ⟨fun s t h => ⟨(hf.alike s t h).1, congrArg g (hf.alike s t h).2⟩, hf.foot⟩

theorem footBlindWith_same {α : Type} (x : α) : FootBlindWith fun s => (s, x) := footBlind_id.pair x

/-- A value carried through a list of steps. -/
theorem FootBlindWith.foldl {α β : Type} {f : State × β → α → State × β} (hf : ∀ x b, FootBlindWith fun s => f (s, b) x) (l : List α) (b : β) :
    FootBlindWith fun s => l.foldl f (s, b) := by
  induction l generalizing b with
  | nil => exact footBlind_id.pair b
  | cons x l ih => exact FootBlindWith.bind (f := fun s => f (s, b) x) (g := fun b s => l.foldl f (s, b)) (hf x b) ih

/-! ### Records and contributions -/

theorem footBlind_raise (cls code : Nat) (b : Block) (detail : Nat) (uid : W32) (inst cmd : Nat) (lastUid : W32) (ctx : List Byte) (flags : Nat) :
    FootBlind (·.raise cls code b detail uid inst cmd lastUid ctx flags) := ⟨keepsAlike_raise _ _ _ _ _ _ _ _ _ _, fun _ _ => raise_foot ..⟩

theorem footBlind_failContribution (i : Nat) (st : W64) (unit : W32) : FootBlind (·.failContribution i st unit) :=
  ⟨keepsAlike_failContribution _ _ _, fun _ _ => failContribution_foot ..⟩

theorem footBlind_sticky (b : Block) (off bit code inst : Nat) (uid : W32) (cmd : Nat) : FootBlind (·.sticky b off bit code inst uid cmd) :=
  (offCores_setBit off bit true).footBlind.comp (footBlind_raise ..)

theorem footBlind_solvEvent (i tag b code : Nat) : FootBlind (·.solvEvent i tag b code) :=
  ((offCores_setBit _ b true).comp (offCores_setReg _ _)).footBlind.comp (footBlind_raise ..)

theorem footBlind_solveWrite (i : Nat) (tag : Option Nat) (a : Nat) (bs : List Byte) : FootBlind (·.solveWrite i tag a bs) := by
  refine FootBlind.dep (g := (·.fencing i tag a bs.length)) (f := fun r s => match r with
    | some r => (s.putSolve i { r with lateWrites := satInc 32 r.lateWrites 1 }).solvEvent i r.tag 3 St.internal
    | none => s.write a bs) (fun _ _ => rfl) fun r => ?_
  cases r with
  | some r => exact FootBlind.comp (OffCores.footBlind fun _ _ => rfl) (footBlind_solvEvent ..)
  | none => exact (offCores_write a bs).footBlind

/-! ### Collectives -/

theorem offCores_postUncorrectable (p : Poster) : OffCores (·.postUncorrectable p) := fun s cs => by
  dsimp only [State.postUncorrectable]
  split <;> rfl

theorem footBlind_collUncorrectable (c : Coll) : FootBlind (·.collUncorrectable c) :=
  FootBlind.forEach (f := fun s (p : Poster × Nat × Bool) => s.postUncorrectable p.1) (fun p => (offCores_postUncorrectable p.1).footBlind) c.posters

theorem offCores_putColl (c : Coll) : OffCores (·.putColl c) := fun _ _ => rfl

theorem offCores_chunkLeft (i : Nat) (st : W64) (seq : Nat) : OffCores (·.chunkLeft i st seq) := fun s cs => by
  dsimp only [State.chunkLeft]
  rw [withCores_s0, withCores_gate]
  split
  · rfl
  · split <;> rfl

/-- The message that carries chunk x of a collective. -/
def State.chunkMessage (s : State) (c : Coll) (ax x : Nat) (down : Bool) (n : Int) (bytes : List Byte) (rel : Nat) : Message :=
  { s.header c.inst Msg.chunk (if c.desc.vc ≠ 0 then c.desc.vc else if 4 ≤ c.desc.kind then 6 else 1) (s.atRel c.inst s.coord ax rel) c.step with
    src := s.coord, seq := c.desc.seq, chunk := x, payload := bytes,
    attr := wrapInt 8 n + (if !c.desc.fl then 6 else if s.narrow c ax then 4 else 0) * 2 ^ 8 + ax * 2 ^ 11 + down.toNat * 2 ^ 13
      + c.tokenOff (x * chunkElems c.desc.fl (s.narrow c ax)) % 2 ^ 20 * 2 ^ 14 }

theorem sendChunk_eq (s : State) (c : Coll) (ax x : Nat) (down : Bool) (n : Int) (bytes : List Byte) (rel : Nat) :
    s.sendChunk c ax x down n bytes rel =
      if s.routeFailed (s.atRel c.inst s.coord ax rel) = true then
        (s.sticky .coll (R.collStat c.inst) 2 St.linkFailed c.inst, c.fail St.linkFailed)
      else ((s.chunkLeft c.inst c.step c.desc.seq).send (s.chunkMessage c ax x down n bytes rel),
        { c with kept := c.kept ++ [(s.chunkMessage c ax x down n bytes rel, 0)] }) := rfl

theorem footBlind_sendChunk (c : Coll) (ax x : Nat) (down : Bool) (n : Int) (bytes : List Byte) (rel : Nat) :
    FootBlindWith (·.sendChunk c ax x down n bytes rel) := by
  simp only [sendChunk_eq]
  refine FootBlindWith.ite (fun _ _ => rfl) ((footBlind_sticky ..).pair _) (footBlindWith_of_off fun s cs => ?_)
  have hm : (s.withCores cs).chunkMessage c ax x down n bytes rel = s.chunkMessage c ax x down n bytes rel := rfl
  have hc := offCores_chunkLeft c.inst c.step c.desc.seq s cs
  have hs := offCores_send (s.chunkMessage c ax x down n bytes rel) (s.chunkLeft c.inst c.step c.desc.seq) cs
  dsimp only at hc hs ⊢
  rw [hm, hc, hs]

theorem footBlind_writeDst (c : Coll) (first : Nat) (l : List W64) : FootBlind (·.writeDst c first l) := footBlind_solveWrite ..

theorem FootBlindWith.iteConst {α : Type} {f g : State → State × α} (hf : FootBlindWith f) (hg : FootBlindWith g) (p : Prop) [Decidable p] :
    FootBlindWith fun s => if p then f s else g s := FootBlindWith.ite (p := fun _ => p) (fun _ _ => rfl) hf hg

/-- What a collective does that meets an uncorrectable word (R303). -/
theorem footBlind_collMemory (c : Coll) (w : Nat) : FootBlind fun s => (((s.raise 1 St.memoryUncorrectable .coll
    (openDetail .coll St.memoryUncorrectable) (memUid w) c.inst 0xFFFF (memUid w) [] 2).collUncorrectable c).failContribution c.inst c.step (memUid w)) :=
  ((footBlind_raise ..).comp (footBlind_collUncorrectable c)).comp (footBlind_failContribution ..)

theorem footBlind_writeResult (c : Coll) (K : Nat) : FootBlindWith (·.writeResult c K) := by
  refine FootBlindWith.dep (g := fun s : State =>
    (c.finals.map fun e => (c.desc.dst + e.1 * K * fmtSize c.desc.dstFmt, e.2.length * fmtSize c.desc.dstFmt)).findSome?
      fun r => s.bad.find? fun w => decide (w < r.1 + r.2 ∧ r.1 < w + 8 ∧ ¬(r.1 ≤ w ∧ w + 8 ≤ r.1 + r.2)))
    (f := fun o s => match o with
      | some w => (((s.raise 1 St.memoryUncorrectable .coll (openDetail .coll St.memoryUncorrectable) (memUid w) c.inst 0xFFFF
          (memUid w) [] 2).collUncorrectable c).failContribution c.inst c.step (memUid w), c.fail St.memoryUncorrectable)
      | none => (if c.desc.kind = 4 then s else forEach c.finals s fun s e => s.writeDst c (e.1 * K) e.2, { c with done := true }))
    (fun _ _ => rfl) fun o => ?_
  cases o with
  | some w => exact (footBlind_collMemory c w).pair _
  | none => exact ((FootBlind.ite footBlind_id (FootBlind.forEach (fun e => footBlind_writeDst c (e.1 * K) e.2) c.finals) (c.desc.kind = 4))).pair _

/-- Both of what `FootBlindWith` says, for one pair of states. -/
def BothBlind {α : Type} (s s' : State × α) (u : State) : Prop :=
  (Alike s.1 s'.1 ∧ s'.2 = s.2) ∧ ∀ j, (s.1.core j).foot = (u.core j).foot

theorem FootBlindWith.both {α : Type} {f : State → State × α} (hf : FootBlindWith f) (h : Alike s t) : BothBlind (f s) (f t) s :=
  ⟨hf.alike s t h, hf.foot s⟩

theorem FootBlindWith.of_both {α : Type} {f : State → State × α} (h : ∀ s t, Alike s t → BothBlind (f s) (f t) s) : FootBlindWith f :=
  ⟨fun s t ha => (h s t ha).1, fun s => (h s s (.refl s)).2⟩

theorem footBlind_startAxis (c : Coll) (ax K chunks : Nat) : FootBlindWith (·.startAxis c ax K chunks) := by
  refine .of_both fun s t h => ?_
  have hn : t.jobExt c.inst ax = s.jobExt c.inst ax := h.eq (f := (·.jobExt c.inst ax)) fun _ _ => rfl
  have hp : t.myPos c.inst ax = s.myPos c.inst ax := h.eq (f := (·.myPos c.inst ax)) fun _ _ => rfl
  have hr : t.narrow c ax = s.narrow c ax := h.eq (f := (·.narrow c ax)) fun _ _ => rfl
  unfold State.startAxis
  dsimp only
  rw [hn, hp, hr]
  have stay : BothBlind (s, c) (t, c) s := (footBlind_id.pair c).both h
  split
  · exact (FootBlindWith.foldl (fun x b => footBlindWith_same (b.final x (c.slice K x))) (List.range chunks) c).both h
  · split
    · exact (FootBlindWith.foldl (fun x b => (footBlind_sendChunk ..).map fun d =>
        if c.desc.kind = 1 then { d with passed := d.passed ++ [x] } else d) _ c).both h
    · exact (FootBlindWith.foldl (fun x b => (footBlind_sendChunk ..).map fun d =>
        if c.desc.kind = 1 then { d with passed := d.passed ++ [x] } else d) _ c).both h
    · exact (FootBlindWith.foldl (fun x b => footBlind_sendChunk (b.final x (c.slice K x)) ..) _ c).both h
    · split
      · exact (FootBlindWith.foldl (fun x b => footBlind_sendChunk (b.final x (c.slice K x)) ..) _ c).both h
      · exact stay
    · exact (FootBlindWith.foldl (fun x b => footBlind_sendChunk ..) _ c).both h
    · exact stay

/-- What follows once an axis has started: where it has nothing to wait for, the next axis, or the result. -/
def axisStarted (K chunks : Nat) (r : List Nat) (d : Coll) (s : State) : State × Coll :=
  if d.done then (s, d)
  else if d.axisDone chunks then
    match r with
    | [] => s.writeResult d K
    | _ => s.runAxes { d with vec := d.finals.flatMap (·.2) } r
  else (s, d)

/-- The chunks of an axis, and what follows. -/
def axisRun (c : Coll) (ax : Nat) (r : List Nat) (K : Nat) (s : State) : State × Coll :=
  let a := s.startAxis { c with axes := ax :: r, finals := [], passed := [] } ax K (cdiv c.desc.elems K)
  axisStarted K (cdiv c.desc.elems K) r a.2 a.1

theorem footBlind_runAxes (c : Coll) (l : List Nat) : FootBlindWith (·.runAxes c l) := by
  induction l generalizing c with
  | nil => exact footBlindWith_same c
  | cons ax r ih =>
    have hstarted (K chunks : Nat) (d : Coll) : FootBlindWith (axisStarted K chunks r d) := by
      refine (footBlindWith_same d).iteConst (FootBlindWith.iteConst ?_ (footBlindWith_same d) _) _
      cases r with
      | nil => exact footBlind_writeResult d K
      | cons _ _ => exact ih _
    exact FootBlindWith.dep (g := fun s => chunkElems c.desc.fl (s.narrow c ax)) (f := axisRun c ax r) (fun _ _ => rfl) fun K =>
      (footBlind_startAxis ..).bind (hstarted K _)

theorem footBlind_linkFailed (c : Coll) : FootBlind (·.linkFailed c) :=
  (footBlind_sticky ..).comp (offCores_putColl _).footBlind

/-! ### A collective that is formed -/

/-- The axes of a value, as `State.formColl` starts them. -/
def axesOn (c : Coll) (v : List W64) (s : State) : State :=
  if s.routeNeeds c (s.axesOf c.inst c.desc.cuts) fun p => decide (s.fld (R.linkStat p) 0 2 = 3) then s.linkFailed c
  else
    let r := s.runAxes { c with vec := v, axes := s.axesOf c.inst c.desc.cuts } (s.axesOf c.inst c.desc.cuts)
    r.1.putColl r.2

/-- The value that starts the axes: rounded to FP16 when floating (R269). -/
def axisVec (d : CDesc) (v : List W64) : List W64 := if d.fl then decodeChunk true false 0 (encodeChunk true false v).2 else v

/-- What follows the trees: the result where the descriptor has no cut, else the axes. -/
def axesFrom (c : Coll) (res : List (List W64)) (s : State) : State :=
  if c.desc.cuts = 0 then
    let r := s.writeResult { c with finals := (List.range res.length).zip res } c.desc.elems
    r.1.putColl r.2
  else
    axesOn c (axisVec c.desc (res.getD 0 [])) (if vecNf c.desc.fl (axisVec c.desc (res.getD 0 [])) then s.setNf c.inst c.step else s)

/-- The collective noted as formed, and what follows. -/
def formedNow (c : Coll) (res : List (List W64)) (s : State) : State := axesFrom { c with formed := true, since := s.beat } res s

/-- The cores' contributions, each with its number. -/
def State.contributions (s : State) (c : Coll) : List (Nat × List W64) :=
  (if c.desc.levels = 0 then c.srcs else c.srcs.filter fun e => (s.contributors c.desc).contains e.1).map fun e =>
    (if c.desc.levels = 0 then 0 else e.1, s.readVec c.desc e.2)

/-- The value that a list of contributions gives a core. -/
def valueOf (l : List (Nat × List W64)) (k : Nat) : Option (List W64) := (l.find? fun e => e.1 = k).map (·.2)

theorem formColl_eq (s : State) (c : Coll) : s.formColl c =
    if c.formed ∨ c.done ∨ !(if c.desc.levels = 0 then true else (s.contributors c.desc).all fun k => c.srcs.any fun e => e.1 = k) then s.putColl c
    else match c.srcs.findSome? fun e => s.bad.find? fun w => decide (w < e.2 + c.desc.srcLen ∧ e.2 < w + 8) with
    | some w => (((s.raise 1 St.memoryUncorrectable .coll (openDetail .coll St.memoryUncorrectable) (memUid w) c.inst 0xFFFF (memUid w) [] 2).putColl
        (c.fail St.memoryUncorrectable)).collUncorrectable c).failContribution c.inst c.step (memUid w)
    | none => formedNow c (c.treeVals (valueOf (s.contributions c)))
        (if c.treeNf (valueOf (s.contributions c)) then s.setNf c.inst c.step else s) := rfl

theorem footBlind_setNf (i : Nat) (st : W64) : FootBlind (·.setNf i st) := (offCores_setNf i st).footBlind

theorem footBlind_putCollOf {f : State → State × Coll} (hf : FootBlindWith f) : FootBlind fun s => (f s).1.putColl (f s).2 :=
  hf.fst fun c => (offCores_putColl c).footBlind

theorem FootBlind.iteOf {p : State → Prop} [∀ s, Decidable (p s)] {f g : State → State} (hp : ∀ s cs, p (s.withCores cs) = p s)
    (hf : FootBlind f) (hg : FootBlind g) : FootBlind fun s => if p s then f s else g s :=
  ⟨fun s t h => by
    have he : p t = p s := h.eq hp
    simp only [he]
    split
    · exact hf.alike s t h
    · exact hg.alike s t h, fun s j => by
    split
    · exact hf.foot s j
    · exact hg.foot s j⟩

theorem footBlind_axesOn (c : Coll) (v : List W64) : FootBlind (axesOn c v) := by
  refine FootBlind.iteOf (fun _ _ => rfl) (footBlind_linkFailed c) ?_
  exact FootBlind.dep (g := fun s => s.axesOf c.inst c.desc.cuts) (f := fun axes s =>
    (s.runAxes { c with vec := v, axes := axes } axes).1.putColl (s.runAxes { c with vec := v, axes := axes } axes).2) (fun _ _ => rfl)
    fun axes => footBlind_putCollOf (footBlind_runAxes ..)

theorem footBlind_axesFrom (c : Coll) (res : List (List W64)) : FootBlind (axesFrom c res) :=
  FootBlind.ite (footBlind_putCollOf (footBlind_writeResult ..))
    (((footBlind_setNf ..).ite footBlind_id _).comp (footBlind_axesOn ..)) _

theorem footBlind_formedNow (c : Coll) (res : List (List W64)) : FootBlind (formedNow c res) :=
  FootBlind.dep (g := fun s => s.beat) (f := fun b s => axesFrom { c with formed := true, since := b } res s) (fun _ _ => rfl) fun _ =>
    footBlind_axesFrom ..

theorem footBlind_formColl (c : Coll) : FootBlind (·.formColl c) := by
  have hmem (w : Nat) : FootBlind fun s => (((s.raise 1 St.memoryUncorrectable .coll (openDetail .coll St.memoryUncorrectable) (memUid w)
      c.inst 0xFFFF (memUid w) [] 2).putColl (c.fail St.memoryUncorrectable)).collUncorrectable c).failContribution c.inst c.step (memUid w) :=
    (((footBlind_raise ..).comp (offCores_putColl _).footBlind).comp (footBlind_collUncorrectable c)).comp (footBlind_failContribution ..)
  have hvals : FootBlind fun s => formedNow c (c.treeVals (valueOf (s.contributions c)))
      (if c.treeNf (valueOf (s.contributions c)) then s.setNf c.inst c.step else s) :=
    FootBlind.dep (g := fun s => s.contributions c) (f := fun l s => formedNow c (c.treeVals (valueOf l))
      (if c.treeNf (valueOf l) then s.setNf c.inst c.step else s)) (fun _ _ => rfl)
      fun l => ((footBlind_setNf ..).ite footBlind_id _).comp (footBlind_formedNow ..)
  simp only [formColl_eq]
  refine FootBlind.iteOf (fun _ _ => rfl) (offCores_putColl c).footBlind ?_
  refine ⟨fun s t h => ?_, fun s j => ?_⟩
  · have hbad : t.bad = s.bad := h.eq (f := (·.bad)) fun _ _ => rfl
    rw [hbad]
    split
    · exact (hmem _).alike s t h
    · exact hvals.alike s t h
  · split
    · exact (hmem _).foot s j
    · exact hvals.foot s j

/-! ### Posts -/

theorem Alike.solveTag (h : Alike s t) (k : Nat) : (t.core k).solveTag = (s.core k).solveTag := h.core_eq (f := Core.solveTag) (fun _ => rfl) k

theorem Alike.coreUndone (h : Alike s t) (k : Nat) : t.coreUndone k = s.coreUndone k := by
  have hl : t.launches = s.launches := h.eq (f := (·.launches)) fun _ _ => rfl
  rw [State.coreUndone, h.prog, hl, State.coreUndone]

theorem Alike.posterUndone (h : Alike s t) (p : Poster) : t.posterUndone p = s.posterUndone p := by
  cases p with
  | core => exact h.coreUndone _
  | cmd => rfl

/-- The solve whose program made a post. -/
def State.postTag (s : State) (p : Poster) : Option Nat :=
  match p with
  | .core k .. => (s.core k).solveTag
  | .cmd _ => none

theorem Alike.postTag (h : Alike s t) (p : Poster) : t.postTag p = s.postTag p := by
  cases p with
  | core => exact h.solveTag _
  | cmd => rfl

/-- The transfer of a post, before its first chunk. -/
def State.newXfer (s : State) (i : Nat) (p : Poster) (d : XDesc) (step : W64) (tag : Nat × Bool) : Xfer :=
  { id := s.nextXfer, inst := i, gen := s.gen i, poster := p, desc := d, step := step, prov := s.provisional i step,
    cause := tag.1, prop := tag.2, solve := s.postTag p }

/-- A transfer added to those that the engine knows. -/
def State.addXfer (s : State) (x : Xfer) : State := { s with xfers := s.xfers ++ [x], nextXfer := s.nextXfer + 1 }

/-- What a transfer that meets one under way in another order does (R154). -/
def State.conflictX (s : State) (i : Nat) (p : Poster) (step : W64) (x y : Xfer) : State :=
  let s := s.addXfer { x with done := true, dropped := true, status := St.plausibility }
  let s := (s.setBit R.poolErr 3 true).raise 2 St.plausibility .mem 3 p.uid i (s.posterCmd p) y.poster.uid [] (noRetry p true)
  s.failPost i p step p.uid

theorem postX_eq (s : State) (i : Nat) (p : Poster) (d : XDesc) (step : W64) (tag : Nat × Bool) :
    s.postX i p d step tag =
      if s.posterUndone p then s.addXfer { s.newXfer i p d step tag with done := true, abandon := true, status := St.tainted }
      else match s.orderConflict i p d with
      | none => s.addXfer (s.newXfer i p d step tag)
      | some y => s.conflictX i p step (s.newXfer i p d step tag) y := by
  unfold State.postX
  cases p <;> rfl

theorem offCores_addXfer (x : Xfer) : OffCores (·.addXfer x) := fun _ _ => rfl

theorem footBlind_failPost (i : Nat) (p : Poster) (step : W64) (unit : W32) : FootBlind (·.failPost i p step unit) := by
  refine FootBlind.comp (f := fun s => match p with | .core _ _ _ _ (some l) => s.markLaunch i l | _ => s) ?_ (footBlind_failContribution i step unit)
  split
  · exact (offCores_markLaunch i _).footBlind
  · exact footBlind_id

theorem footBlind_conflictX (i : Nat) (p : Poster) (step : W64) (x y : Xfer) : FootBlind (·.conflictX i p step x y) := by
  refine FootBlind.comp (FootBlind.dep (g := (·.posterCmd p)) (f := fun n s =>
    ((s.addXfer { x with done := true, dropped := true, status := St.plausibility }).setBit R.poolErr 3 true).raise 2 St.plausibility .mem 3 p.uid i n
      y.poster.uid [] (noRetry p true)) (fun _ _ => ?_) fun n => ?_) (footBlind_failPost i p step p.uid)
  · cases p <;> rfl
  · exact (((offCores_addXfer _).comp (offCores_setBit R.poolErr 3 true)).footBlind).comp (footBlind_raise ..)

theorem footBlind_postX (i : Nat) (p : Poster) (d : XDesc) (step : W64) (tag : Nat × Bool) : FootBlind (·.postX i p d step tag) := by
  simp only [postX_eq]
  refine ⟨fun s t h => ?_, fun s j => ?_⟩
  · have hx : t.newXfer i p d step tag = s.newXfer i p d step tag := by
      have h1 : t.nextXfer = s.nextXfer := h.eq (f := (·.nextXfer)) fun _ _ => rfl
      have h2 : t.gen i = s.gen i := h.eq (f := (·.gen i)) fun _ _ => rfl
      have h3 : t.provisional i step = s.provisional i step := h.eq (f := (·.provisional i step)) fun _ _ => rfl
      rw [State.newXfer, h1, h2, h3, h.postTag, State.newXfer]
    have ho : t.orderConflict i p d = s.orderConflict i p d := h.eq (f := (·.orderConflict i p d)) fun _ _ => rfl
    rw [h.posterUndone, hx, ho]
    split
    · exact (offCores_addXfer _).keepsAlike s t h
    · split
      · exact (offCores_addXfer _).keepsAlike s t h
      · exact (footBlind_conflictX ..).alike s t h
  · split
    · rfl
    · split
      · rfl
      · exact (footBlind_conflictX ..).foot s j

/-- The collective that a post opens. -/
def State.newColl (s : State) (i : Nat) (p : Poster) (key : Nat) (d : CDesc) (src : Nat) (step : W64) (tag : Nat × Bool) : Coll :=
  { id := s.nextXfer, inst := i, gen := s.gen i, desc := d, posters := [(p, tag.1, tag.2)], srcs := [(key, src)], step := step,
    since := s.beat, solve := s.postTag p }

/-- A collective added to those that the engine knows. -/
def State.addColl (s : State) (c : Coll) : State := { s with colls := s.colls ++ [c], nextXfer := s.nextXfer + 1 }

/-- The open collective of an owner's sequence number. -/
def State.openColl (s : State) (i seq : Nat) : Option Coll :=
  s.colls.find? fun c => decide (c.inst = i ∧ c.gen = s.gen i ∧ c.desc.seq = seq ∧ ¬c.done)

/-- A collective that another post joins. -/
def Coll.join (c : Coll) (p : Poster) (key src : Nat) (tag : Nat × Bool) (solve : Option Nat) : Coll :=
  { c with solve := c.solve.or solve, posters := c.posters ++ [(p, tag.1, tag.2)],
           srcs := if c.srcs.any fun e => e.1 = key then c.srcs else c.srcs ++ [(key, src)] }

theorem postC_eq (s : State) (i : Nat) (p : Poster) (key : Nat) (d : CDesc) (src : Nat) (step : W64) (tag : Nat × Bool) :
    s.postC i p key d src step tag =
      if s.posterUndone p then s.addColl (s.newColl i p key d src step tag).undo
      else match s.openColl i d.seq with
      | some c => s.formColl (c.join p key src tag (s.postTag p))
      | none => (s.addColl (s.newColl i p key d src step tag)).formColl (s.newColl i p key d src step tag) := by
  unfold State.postC
  cases p <;> rfl

theorem footBlind_postC (i : Nat) (p : Poster) (key : Nat) (d : CDesc) (src : Nat) (step : W64) (tag : Nat × Bool) :
    FootBlind (·.postC i p key d src step tag) := by
  have hadd (c : Coll) : OffCores (·.addColl c) := fun _ _ => rfl
  simp only [postC_eq]
  refine ⟨fun s t h => ?_, fun s j => ?_⟩
  · have hx : t.newColl i p key d src step tag = s.newColl i p key d src step tag := by
      have h1 : t.nextXfer = s.nextXfer := h.eq (f := (·.nextXfer)) fun _ _ => rfl
      have h2 : t.gen i = s.gen i := h.eq (f := (·.gen i)) fun _ _ => rfl
      rw [State.newColl, h1, h2, h.beat, h.postTag, State.newColl]
    have ho : t.openColl i d.seq = s.openColl i d.seq := h.eq (f := (·.openColl i d.seq)) fun _ _ => rfl
    rw [h.posterUndone, hx, ho, h.postTag]
    split
    · exact (hadd _).keepsAlike s t h
    · split
      · exact (footBlind_formColl _).alike s t h
      · exact (footBlind_formColl _).alike _ _ ((hadd _).keepsAlike s t h)
  · split
    · rfl
    · split
      · exact (footBlind_formColl _).foot s j
      · exact (footBlind_formColl _).foot _ j

end Sys2Proof.Machine
end


section
/-! PROOFS. Posts to the engines (O30). -/

namespace Sys2Proof.Machine

variable {s t u : State} {k : Nat} {an : AReg} {gt : GReg} {go : List Byte → Nat → State → Act} {tag : Tag}

/-! ### The state after the folds -/

/-- The state that an access leaves is, but for the noted bytes, that of either case of the statements. -/
theorem alike_settled {r w : List (Nat × Nat)} (hu : ((s.core k).tapQ = [] ∧ u = s) ∨ s.settleTap k r w = .ok u)
    (ht : s.settleTap k r w = .ok t) : Alike u t := by
  rcases hu with ⟨hn, rfl⟩ | hu
  · rw [settleTap_noTaps hn] at ht
    exact Except.ok.inj ht ▸ alike_note ..
  · rw [hu] at ht
    exact Except.ok.inj ht ▸ .refl u

theorem settles_of {r w : List (Nat × Nat)} (hu : ((s.core k).tapQ = [] ∧ u = s) ∨ s.settleTap k r w = .ok u) :
    ∃ t, s.settleTap k r w = .ok t ∧ Alike u t := by
  rcases hu with ⟨hn, rfl⟩ | hu
  · exact ⟨_, settleTap_noTaps hn r w, alike_note ..⟩
  · exact ⟨u, hu, .refl u⟩

/-! ### The descriptor of a post -/

/-- One more post of a core in flight. -/
def State.countPost (s : State) (k : Nat) : State := s.setCore k { s.core k with posts := (s.core k).posts + 1 }

/-- The answer of a post, which counts where the engine takes it. -/
def Act.countPost (k : Nat) : Act → Act
  | .next s => .next (s.countPost k)
  | a => a

theorem postAt_hold (h : 16 ≤ (s.core k).posts) : postAt k an gt go tag s = .hold := if_pos h

theorem postAt_range (hn : (s.core k).posts < 16) (ha : ((s.core k).ar an).toNat % 64 ≠ 0 ∨ 0xC000 < ((s.core k).ar an).toNat + 64) :
    postAt k an gt go tag s = .fault 0x02 := (if_neg (not_le.mpr hn)).trans (if_pos ha)

section
variable (hn : (s.core k).posts < 16) (ha : ((s.core k).ar an).toNat % 64 = 0) (hl : ((s.core k).ar an).toNat + 64 ≤ 0xC000)
include hn ha hl

theorem postAt_bad {w : Nat} (hw : s.badWord (spBase k + ((s.core k).ar an).toNat) 64 = some w) :
    postAt k an gt go tag s = .fault (Cause.atWord Cause.spadUncorr w) := by
  simp only [postAt, hw]
  rw [if_neg (by omega), if_neg (by omega)]

theorem postAt_settled (hw : s.badWord (spBase k + ((s.core k).ar an).toNat) 64 = none)
    (hu : s.settleTap k [(spBase k + ((s.core k).ar an).toNat, 64)] [] = .ok u) :
    postAt k an gt go tag s =
      Act.countPost k (go (u.rbs (spBase k + ((s.core k).ar an).toNat) 64) ((s.core k).target' k gt) u) := by
  simp only [postAt, hw, hu]
  rw [if_neg (by omega), if_neg (by omega)]
  generalize go (u.rbs (spBase k + ((s.core k).ar an).toNat) 64) ((s.core k).target' k gt) u = a
  cases a <;> rfl

end

/-! ### Posts in flight -/

theorem footBlind_countPost : FootBlind (·.countPost k) := by
  refine ⟨fun s t h => ?_, fun s j => ?_⟩
  · obtain ⟨f, hf⟩ := h.core k
    exact h.setCore (by rw [hf]; rfl)
  · dsimp only [State.countPost]
    rw [State.setCore_core]
    split
    · next h => rw [h]
    · rfl

/-- A post that is handed to its engine. -/
theorem posts_of {act : Tag → State → Act} {r w : List (Nat × Nat)} {v : Nat × Bool → State → State} {i : Instr} {l : Launch}
    (he : exec i s = .next (s.issue k i act)) (h : Issues s k i) (hl : launchOf i = l)
    (ha : ∀ tag t, s.settleTap k r w = .ok t → act tag s = .next ((v tag t).countPost k)) (hb : Unblocked s k i r w)
    (hv : ∀ z, FootBlind (v z)) (hu : ((s.core k).tapQ = [] ∧ u = s) ∨ s.settleTap k r w = .ok u) :
    ∃ z : Nat × Bool, (l = none → z = (0, false)) ∧ Does i k s ((v z u).countPost k) := by
  obtain ⟨z, hz, hi⟩ := issue_tag s k i act
  have hf : FootBlind fun t => (v z t).countPost k := (hv z).comp footBlind_countPost
  exact ⟨z, fun hn => hz (hl.trans hn),
    does_after (f := fun t => (v z t).countPost k) (he.trans (congrArg _ hi)) h (fun _ t ht => ha z t ht) hb (fun t => hf.foot t k) hf.alike hu⟩

/-! ### What the posts' checks read -/

theorem Alike.launchOn (h : Alike s t) (k : Nat) : t.launchOn k = s.launchOn k := by rw [State.launchOn, h.prog, State.launchOn]

theorem Alike.coreStep (h : Alike s t) (k : Nat) : t.coreStep k = s.coreStep k := by
  have hr : t.reg (R.updStep (t.instOf k)) = s.reg (R.updStep (s.instOf k)) := h.eq (f := fun s => s.reg (R.updStep (s.instOf k))) fun _ _ => rfl
  rw [State.coreStep, h.prog, hr, State.coreStep]

theorem Alike.owns (h : Alike s t) (i cl : Nat) : t.owns i cl = s.owns i cl := h.eq (f := (·.owns i cl)) fun _ _ => rfl

theorem Alike.checkX (h : Alike s t) (i : Nat) (k : Option Nat) (b : List Byte) : t.checkX i k b = s.checkX i k b :=
  h.eq (f := (·.checkX i k b)) fun _ _ => rfl

theorem Alike.checkC (h : Alike s t) (i : Nat) (k : Option Nat) (b : List Byte) : t.checkC i k b = s.checkC i k b :=
  h.eq (f := (·.checkC i k b)) fun _ _ => rfl

theorem Alike.checkU (h : Alike s t) (i k cnt cl val : Nat) (tag : Nat × Bool) (b : List Byte) :
    t.checkU i k cnt cl val tag b = s.checkU i k cnt cl val tag b := by
  have h1 : t.gen i = s.gen i := h.eq (f := (·.gen i)) fun _ _ => rfl
  have h2 (n : Nat) : t.shard i n = s.shard i n := h.eq (f := (·.shard i n)) fun _ _ => rfl
  have h3 : t.shards i = s.shards i := h.eq (f := (·.shards i)) fun _ _ => rfl
  have h4 (a n : Nat) : t.ownsHbm i a n = s.ownsHbm i a n := h.eq (f := (·.ownsHbm i a n)) fun _ _ => rfl
  simp only [State.checkU, h1, h2, h3, h4, h.launchOn, h.coreStep]

/-- The tag of an update only goes with it. -/
theorem checkU_tag (s : State) (i k cnt cl val : Nat) (tag : Nat × Bool) (b : List Byte) :
    s.checkU i k cnt cl val tag b = (s.checkU i k cnt cl val (0, false) b).map fun q => { q with cause := tag.1, prop := tag.2 } := by
  unfold State.checkU
  dsimp only
  split
  · rfl
  · split <;> rfl

theorem Alike.postDiscarded (h : Alike s t) (i k : Nat) : t.postDiscarded i k = s.postDiscarded i k := by
  have h1 : t.gateOn i = s.gateOn i := h.eq (f := (·.gateOn i)) fun _ _ => rfl
  have h2 : t.s0 i = s.s0 i := h.eq (f := (·.s0 i)) fun _ _ => rfl
  have h3 : t.gate i = s.gate i := h.eq (f := (·.gate i)) fun _ _ => rfl
  have h4 (st : W64) : t.provisional i st = s.provisional i st := h.eq (f := (·.provisional i st)) fun _ _ => rfl
  simp only [State.postDiscarded, h1, h2, h3, h4, h.coreStep, h.coreUndone]

/-! ### The three engines -/

section
variable {l : Launch} {cnt : Nat} {val : W16} {b : List Byte} {cl : Nat}

/-- What XFER.POST does with its descriptor. -/
def xferGo (k cnt : Nat) (val : W16) (tag : Tag) (b : List Byte) (cl : Nat) (s : State) : Act :=
  match s.checkX (s.instOf k) (some k) b with
  | .error f => .fault f
  | .ok d =>
    if s.signalOwned k cl then .next (s.postX (s.instOf k) (.core k cnt cl val.toNat (s.launchOn k)) d (s.coreStep k) tag)
    else .fault Cause.notOwned

/-- What COLL.POST does with its descriptor. -/
def collGo (k cnt : Nat) (val : W16) (tag : Tag) (b : List Byte) (cl : Nat) (s : State) : Act :=
  match s.checkC (s.instOf k) (some k) b with
  | .error f =>
    if f = 0x100 then .faultIn (s.sticky .coll (R.collStat (s.instOf k)) 3 St.sequenceLimit (s.instOf k)) Cause.tileRange else .fault f
  | .ok (d, src) =>
    if s.signalOwned k cl then .next (s.postC (s.instOf k) (.core k cnt cl val.toNat (s.launchOn k)) k d src (s.coreStep k) tag)
    else .fault Cause.notOwned

/-- A post for the update unit, at the end of its queue. -/
def State.queueU (s : State) (k : Nat) (q : UpdPost) : State :=
  s.setGate (s.instOf k) { s.gate (s.instOf k) with posts := (s.gate (s.instOf k)).posts ++ [{ q with discard := s.postDiscarded (s.instOf k) k }] }

/-- What UPD.APPLY does with its descriptor. -/
def updGo (k cnt : Nat) (val : W16) (tag : Tag) (b : List Byte) (cl : Nat) (s : State) : Act :=
  match s.checkU (s.instOf k) k cnt cl val.toNat tag b with
  | .error f => .fault f
  | .ok p => if !s.signalOwned k cl then .fault Cause.notOwned else .next (s.queueU k p)

theorem doXferPost_eq : doXferPost k an cnt gt val = fun tag => postAt k an gt (xferGo k cnt val tag) tag := by
  funext tag s
  unfold doXferPost xferGo
  rfl

theorem doCollPost_eq : doCollPost k an cnt gt val = fun tag => postAt k an gt (collGo k cnt val tag) tag := by
  funext tag s
  unfold doCollPost collGo
  rfl

theorem doUpdApply_eq : doUpdApply k an cnt gt val = fun tag => postAt k an gt (updGo k cnt val tag) tag := by
  funext tag s
  unfold doUpdApply updGo State.queueU
  rfl

/-! ### What the engines answer -/

section
variable {f : Nat} {z : Tag}

theorem xferGo_fault (h : s.checkX (s.instOf k) (some k) b = .error f ∨
    ∃ d, s.checkX (s.instOf k) (some k) b = .ok d ∧ s.owns (s.instOf k) cl = false ∧ f = 0x0B) : xferGo k cnt val z b cl s = .fault f := by
  rcases h with h | ⟨d, h, ho, rfl⟩
  · unfold xferGo
    simp only [h]
  · unfold xferGo
    simp only [h, State.signalOwned, ho]
    rfl

theorem xferGo_ok {d : XDesc} (h : s.checkX (s.instOf k) (some k) b = .ok d) (ho : s.owns (s.instOf k) cl = true) :
    xferGo k cnt val z b cl s = .next (s.postX (s.instOf k) (.core k cnt cl val.toNat (s.launchOn k)) d (s.coreStep k) z) := by
  unfold xferGo
  simp only [h, State.signalOwned, ho, if_true]

theorem collGo_fault (hf : f ≠ 0x100) (h : s.checkC (s.instOf k) (some k) b = .error f ∨
    ∃ d, s.checkC (s.instOf k) (some k) b = .ok d ∧ s.owns (s.instOf k) cl = false ∧ f = 0x0B) : collGo k cnt val z b cl s = .fault f := by
  rcases h with h | ⟨d, h, ho, rfl⟩
  · unfold collGo
    simp only [h, if_neg hf]
  · unfold collGo
    simp only [h, State.signalOwned, ho]
    rfl

theorem collGo_conflict (h : s.checkC (s.instOf k) (some k) b = .error 0x100) :
    collGo k cnt val z b cl s = .faultIn (s.sticky .coll (R.collStat (s.instOf k)) 3 St.sequenceLimit (s.instOf k)) Cause.tileRange := by
  unfold collGo
  simp only [h, if_true]

theorem collGo_ok {d : CDesc} {src : Nat} (h : s.checkC (s.instOf k) (some k) b = .ok (d, src)) (ho : s.owns (s.instOf k) cl = true) :
    collGo k cnt val z b cl s = .next (s.postC (s.instOf k) (.core k cnt cl val.toNat (s.launchOn k)) k d src (s.coreStep k) z) := by
  unfold collGo
  simp only [h, State.signalOwned, ho, if_true]

theorem updGo_fault (h : s.checkU (s.instOf k) k cnt cl val.toNat (0, false) b = .error f ∨
    ∃ q, s.checkU (s.instOf k) k cnt cl val.toNat (0, false) b = .ok q ∧ s.owns (s.instOf k) cl = false ∧ f = 0x0B) :
    updGo k cnt val z b cl s = .fault f := by
  rcases h with h | ⟨d, h, ho, rfl⟩
  · unfold updGo
    simp only [checkU_tag (tag := z), h, Except.map]
  · unfold updGo
    simp only [checkU_tag (tag := z), h, Except.map, State.signalOwned, ho]
    rfl

theorem updGo_ok {q : UpdPost} (h : s.checkU (s.instOf k) k cnt cl val.toNat (0, false) b = .ok q) (ho : s.owns (s.instOf k) cl = true) :
    updGo k cnt val z b cl s = .next (s.queueU k { q with cause := z.1, prop := z.2 }) := by
  unfold updGo
  simp only [checkU_tag (tag := z), h, Except.map, State.signalOwned, ho]
  rfl

end

/-! ### What a post leaves in its engine -/

theorem footBlind_postedX (d : XDesc) (z : Tag) :
    FootBlind fun s => s.postX (s.instOf k) (.core k cnt cl val.toNat (s.launchOn k)) d (s.coreStep k) z :=
  ⟨fun s t h => by
    rw [h.instOf, h.launchOn, h.coreStep]
    exact (footBlind_postX ..).alike s t h, fun s j => (footBlind_postX ..).foot s j⟩

theorem footBlind_postedC (d : CDesc) (src : Nat) (z : Tag) :
    FootBlind fun s => s.postC (s.instOf k) (.core k cnt cl val.toNat (s.launchOn k)) k d src (s.coreStep k) z :=
  ⟨fun s t h => by
    rw [h.instOf, h.launchOn, h.coreStep]
    exact (footBlind_postC ..).alike s t h, fun s j => (footBlind_postC ..).foot s j⟩

theorem footBlind_queueU (q : UpdPost) : FootBlind (·.queueU k q) :=
  ⟨fun s t h => by
    have hg : t.gate (s.instOf k) = s.gate (s.instOf k) := h.eq (f := (·.gate (s.instOf k))) fun _ _ => rfl
    dsimp only [State.queueU]
    rw [h.instOf, hg, h.postDiscarded]
    exact keepsAlike_setGate _ _ s t h, fun _ _ => rfl⟩

/-- A transfer in no conflict waits at its start, at the end of the engine's list. -/
theorem postX_appends {i : Nat} {c : Nat} {L : Option Nat} {d : XDesc} {step : W64} (z : Tag) (hu : s.coreUndone k = false)
    (ho : s.orderConflict i (.core k cnt cl c L) d = none) :
    (s.postX i (.core k cnt cl c L) d step z).xfers = s.xfers ++ [s.newXfer i (.core k cnt cl c L) d step z] := by
  have hp : s.posterUndone (.core k cnt cl c L) = false := hu
  rw [postX_eq, hp, ho]
  rfl

theorem formColl_waits {c : Coll} (hl : c.desc.levels ≠ 0) {j : Nat} (hj : j ∈ s.contributors c.desc) (hn : ∀ e ∈ c.srcs, e.1 ≠ j) :
    s.formColl c = s.putColl c := by
  rw [formColl_eq]
  refine if_pos (.inr (.inr ?_))
  have hany : (c.srcs.any fun e => decide (e.1 = j)) = false := by simpa using hn
  rw [if_neg hl, Bool.not_eq_true', List.all_eq_false]
  exact ⟨j, hj, by rw [hany]; exact Bool.false_ne_true⟩

/-- A collective that other cores contribute to is not formed by its first contribution. -/
theorem postC_appends {i : Nat} {c : Nat} {L : Option Nat} {d : CDesc} {src : Nat} {step : W64} (z : Tag) (hu : s.coreUndone k = false)
    (hl : d.levels ≠ 0) (ho : s.openColl i d.seq = none) (hid : ∀ e ∈ s.colls, e.id ≠ s.nextXfer) (hc : ∃ j ∈ s.contributors d, j ≠ k) :
    (s.postC i (.core k cnt cl c L) k d src step z).colls = s.colls ++ [s.newColl i (.core k cnt cl c L) k d src step z] := by
  have hp : s.posterUndone (.core k cnt cl c L) = false := hu
  obtain ⟨j, hj, hjk⟩ := hc
  rw [postC_eq, hp, ho]
  generalize hn : s.newColl i (.core k cnt cl c L) k d src step z = n
  obtain ⟨hd, hs, hi⟩ : n.desc = d ∧ n.srcs = [(k, src)] ∧ n.id = s.nextXfer := by subst hn; exact ⟨rfl, rfl, rfl⟩
  have hw : (s.addColl n).formColl n = (s.addColl n).putColl n :=
    formColl_waits (j := j) (by rw [hd]; exact hl) (by rw [hd]; exact hj) (by rw [hs]; simpa using hjk.symm)
  have hm : s.colls.map (fun e => if e.id = n.id then n else e) = s.colls := by
    exact (List.map_congr_left fun e he => if_neg (by rw [hi]; exact hid e he)).trans (List.map_id' _)
  refine Eq.trans (congrArg State.colls hw) ?_
  rw [State.putColl, State.addColl, List.map_append, hm]
  simp

/-! ### The instructions -/

section
variable {i : Instr} {g : Tag → List Byte → Nat → State → Act}
  (he : exec i s = .next (s.issue k i fun tag => postAt k an gt (g tag) tag)) (h : Issues s k i)
include he h

theorem post_holds (hn : 16 ≤ (s.core k).posts) : exec i s = .next (s.hold k i) :=
  he.trans (congrArg _ (issue_hold h fun _ => postAt_hold hn))

theorem post_range (hn : (s.core k).posts < 16) (hi : engOf i = 3)
    (ha : ((s.core k).ar an).toNat % 64 ≠ 0 ∨ 0xC000 < ((s.core k).ar an).toNat + 64) : exec i s = .next (s.fault k 0x02 3) := by
  have hf := faults_of he h fun _ => postAt_range hn ha
  rwa [hi] at hf

variable (hn : (s.core k).posts < 16) (ha : ((s.core k).ar an).toNat % 64 = 0) (hl : ((s.core k).ar an).toNat + 64 ≤ 0xC000)
include hn ha hl

theorem post_bad (hi : engOf i = 3) {w : Nat} (hw : s.badWord (spBase k + ((s.core k).ar an).toNat) 64 = some w) :
    exec i s = .next (s.fault k (Cause.atWord Cause.spadUncorr w) (causeEngine (Cause.atWord Cause.spadUncorr w) 3)) := by
  have hf := faults_of he h fun _ => postAt_bad hn ha hl hw
  rwa [hi] at hf

variable (hw : s.badWord (spBase k + ((s.core k).ar an).toNat) 64 = none)
include hw

theorem post_conflict {f : Nat} {v : State} (hu : s.settleTap k [(spBase k + ((s.core k).ar an).toNat, 64)] [] = .ok u)
    (hg : ∀ tag, g tag (u.rbs (spBase k + ((s.core k).ar an).toNat) 64) ((s.core k).target' k gt) u = .faultIn v f) :
    exec i s = .next (v.fault k f (causeEngine f (engOf i))) := by
  obtain ⟨tag, t, late, hs⟩ := issue_settles (fun tag => postAt k an gt (g tag) tag) h
  rw [he, hs, postAt_settled hn ha hl hw hu, hg]
  rfl

variable (hu : ((s.core k).tapQ = [] ∧ u = s) ∨ s.settleTap k [(spBase k + ((s.core k).ar an).toNat, 64)] [] = .ok u)
include hu

theorem post_faults {f : Nat} (hi : engOf i = 3)
    (hg : ∀ tag t, Alike u t → g tag (u.rbs (spBase k + ((s.core k).ar an).toNat) 64) ((s.core k).target' k gt) t = .fault f) :
    exec i s = .next (s.fault k f (causeEngine f 3)) := by
  obtain ⟨t, ht, hut⟩ := settles_of hu
  have hf := faults_of he h (cause := f) fun tag => by
    rw [postAt_settled hn ha hl hw ht, hut.rbs, hg tag t hut]
    rfl
  rwa [hi] at hf

theorem post_goes {l : Launch} (hll : launchOf i = l) {v : Tag → State → State} (hv : ∀ z, FootBlind (v z))
    (hb : Unblocked s k i [(spBase k + ((s.core k).ar an).toNat, 64)] [])
    (hg : ∀ tag t, Alike u t → g tag (u.rbs (spBase k + ((s.core k).ar an).toNat) 64) ((s.core k).target' k gt) t = .next (v tag t)) :
    ∃ z : Nat × Bool, (l = none → z = (0, false)) ∧ Does i k s ((v z u).countPost k) := by
  refine posts_of he h hll (fun tag t ht => ?_) hb hv hu
  have hut := alike_settled hu ht
  rw [postAt_settled hn ha hl hw ht, hut.rbs, hg tag t hut]
  rfl

end

/-- Settles O30: what each engine answers to the descriptor, after the checks that all posts share. -/
theorem postsToEngines : Obligations.PostsToEngines := by
  intro s k l an cnt gt val
  have hx : exec (.xferPost k l an cnt gt val) s = .next (s.issue k (.xferPost k l an cnt gt val) fun tag => postAt k an gt (xferGo k cnt val tag) tag) := by
    rw [← doXferPost_eq]; rfl
  have hc : exec (.collPost k l an cnt gt val) s = .next (s.issue k (.collPost k l an cnt gt val) fun tag => postAt k an gt (collGo k cnt val tag) tag) := by
    rw [← doCollPost_eq]; rfl
  have hp : exec (.updApply k l an cnt gt val) s = .next (s.issue k (.updApply k l an cnt gt val) fun tag => postAt k an gt (updGo k cnt val tag) tag) := by
    rw [← doUpdApply_eq]; rfl
  refine ⟨⟨fun h => post_holds hx h, fun h => post_holds hc h, fun h => post_holds hp h⟩,
    ⟨fun h hn => post_range hx h hn rfl, fun h hn => post_range hc h hn rfl, fun h hn => post_range hp h hn rfl⟩, fun hn ha hl => ⟨fun w hw =>
    ⟨fun h => post_bad hx h hn ha hl rfl hw, fun h => post_bad hc h hn ha hl rfl hw, fun h => post_bad hp h hn ha hl rfl hw⟩, fun u hw hu => ?_⟩⟩
  dsimp only
  refine ⟨fun f hf h => ?_, fun d hd ho => ⟨fun h hb => ?_, fun z hu ho => ?_⟩, fun f h100 hf h => ?_, fun hs hf h => ?_,
    fun d src hd ho => ⟨fun h hb => ?_, fun z hu hl ho hid hj => ?_⟩, fun f hf h => ?_, fun q hq ho h hb => ?_⟩
  · exact post_faults hx h hn ha hl hw hu rfl fun _ t ht => xferGo_fault (by rw [ht.instOf, ht.checkX]; simp only [ht.owns]; exact hf)
  · exact post_goes hx h hn ha hl hw hu rfl (fun z => footBlind_postedX d z) hb fun tag t ht =>
      xferGo_ok (by rw [ht.instOf, ht.checkX, hd]) (by rw [ht.instOf, ht.owns]; exact ho)
  · exact ⟨_, postX_appends z hu ho, rfl, rfl, rfl, rfl, rfl, rfl, rfl, rfl, rfl⟩
  · exact post_faults hc h hn ha hl hw hu rfl fun _ t ht => collGo_fault h100 (by rw [ht.instOf, ht.checkC]; simp only [ht.owns]; exact hf)
  · exact post_conflict hc h hn ha hl hw hs fun _ => collGo_conflict hf
  · exact post_goes hc h hn ha hl hw hu rfl (fun z => footBlind_postedC d src z) hb fun tag t ht =>
      collGo_ok (by rw [ht.instOf, ht.checkC, hd]) (by rw [ht.instOf, ht.owns]; exact ho)
  · exact ⟨_, postC_appends z hu hl ho hid hj, rfl, rfl, rfl, rfl, rfl, rfl, rfl⟩
  · exact post_faults hp h hn ha hl hw hu rfl fun _ t ht => updGo_fault (by rw [ht.instOf, ht.checkU]; simp only [ht.owns]; exact hf)
  · exact post_goes hp h hn ha hl hw hu rfl (v := fun z s => s.queueU k { q with cause := z.1, prop := z.2 })
      (fun z => footBlind_queueU _) hb fun tag t ht => updGo_ok (by rw [ht.instOf, ht.checkU]; exact hq) (by rw [ht.instOf, ht.owns]; exact ho)

end

end Sys2Proof.Machine
end


section
/-! PROOFS. Matrix passes that leave the slots of a core and of the gang controller (O13). -/

namespace Sys2Proof.Machine

variable {s t u : State} {k e : Nat}

/-! ### What the end of a pass leaves -/

/-- Registers that software sees and memory are as before; of the cores but k, all registers. -/
structure EndsOn (k : Nat) (s t : State) : Prop where
  soft : (t.core k).soft = (s.core k).soft
  others : ∀ j, j ≠ k → (t.core j).arch = (s.core j).arch
  mem : t.mem = s.mem

theorem Core.soft_of_arch {c d : Core} (h : d.arch = c.arch) : d.soft = c.soft := by rw [Core.soft, h, Core.soft]

theorem endsOn_of_quiet (h : Quiet s t) : EndsOn k s t := ⟨Core.soft_of_arch (h.1 k), fun j _ => h.1 j, h.2.1⟩

theorem EndsOn.trans (h : EndsOn k s t) (h' : EndsOn k t u) : EndsOn k s u :=
  ⟨h'.soft.trans h.soft, fun j hj => (h'.others j hj).trans (h.others j hj), h'.mem.trans h.mem⟩

theorem endsOn_setCore {c : Core} (h : c.soft = (s.core k).soft) : EndsOn k s (s.setCore k c) :=
  ⟨by rw [State.setCore_core_same, h], fun j hj => by rw [State.setCore_core_ne _ _ _ _ hj], rfl⟩

theorem EndsOn.all_soft (h : EndsOn k s t) (j : Nat) : (t.core j).soft = (s.core j).soft := by
  by_cases hj : j = k
  · rw [hj, h.soft]
  · exact Core.soft_of_arch (h.others j hj)

theorem quiet_promote (s : State) (k e : Nat) : Quiet s (s.promote k e) := by
  unfold State.promote
  dsimp only
  split
  · split
    · exact (quiet_setCore _ _ _ (by rfl)).trans (quiet_startPass ..)
    · exact .refl s
  · exact .refl s

theorem endsOn_goOn : EndsOn k s (s.goOn k) := by
  unfold State.goOn
  simp only [List.foldl]
  exact (endsOn_setCore (by rfl)).trans (endsOn_of_quiet
    ((((quiet_promote _ k 1).trans (quiet_promote _ k 2)).trans (quiet_promote _ k 3)).trans (quiet_promote _ k 5)))

theorem endsOn_inputDone (foot : Foot) (tag : Tag) : EndsOn k s (s.inputDone k e foot tag) :=
  endsOn_setCore (by rfl)

theorem endsOn_completed (p : Pass) (counts : Bool) : EndsOn k s (s.completed k e p counts) := by
  unfold State.completed
  refine EndsOn.trans ?_ endsOn_goOn
  refine EndsOn.trans ?_ (endsOn_inputDone ..)
  split
  · exact endsOn_setCore (by rfl)
  · exact endsOn_of_quiet (.refl s)

/-! ### Slots after a promotion -/

theorem slip_slots (i : Instr) (t : W64) (tag : Tag) (held : Bool) (j : Nat) : ((s.slip k e i t tag held).core j).slots = (s.core j).slots := by
  have h (c : Core) (hc : c.slots = (s.core k).slots) (n m z : Nat) : (((s.setCore k c).trace k 2 n m z).core j).slots = (s.core j).slots := by
    rw [State.trace_core, State.setCore_core]
    split
    · next hj => rw [hc, hj]
    · rfl
  unfold State.slip
  dsimp only
  split
  · exact h _ (by rfl) ..
  · exact h _ (by rfl) ..

theorem startPass_slots (p : Pass) (held : Bool) : ((s.startPass k e p held).core k).slots =
    ((s.core k).setSlots e { (s.core k).slots' e with running := some { p with tag := s.ownTag p.target p.late } }).slots := by
  unfold State.startPass
  dsimp only
  split
  · split
    · rw [slip_slots, State.setCore_core_same]
    · rw [State.setCore_core_same]
  · rw [State.setCore_core_same]

theorem Core.slots'_of_slots {c d : Core} (h : d.slots = c.slots) (e : Nat) : d.slots' e = c.slots' e := by rw [Core.slots', h, Core.slots']
theorem Core.setSlots_slots'_same (c : Core) (e : Nat) (x : Slots) : (c.setSlots e x).slots' e = x := sget_sput_same ..
theorem Core.setSlots_slots'_ne (c : Core) {e e' : Nat} (h : e' ≠ e) (x : Slots) : (c.setSlots e x).slots' e' = c.slots' e' := sget_sput_ne _ _ _ h

/-- A promotion leaves the slots of the other engines. -/
theorem promote_slots_ne {e' : Nat} (h : e' ≠ e) : ((s.promote k e).core k).slots' e' = (s.core k).slots' e' := by
  unfold State.promote
  dsimp only
  split
  · split
    · rw [Core.slots'_of_slots (startPass_slots ..), Core.setSlots_slots'_ne _ h, State.setCore_core_same, Core.setSlots_slots'_ne _ h]
    · rfl
  · rfl

/-- A pass but for its bookkeeping. -/
def passId (p : Option Pass) : Option (Instr × Nat) := p.map fun q => (q.op, q.seq)

/-- A promotion starts the queued pass where the running slot is free and nothing holds it. -/
theorem promote_slots_same : (((s.promote k e).core k).slots' e).tail = ((s.core k).slots' e).tail ∧
    if ((s.core k).slots' e).running.isNone && ((s.core k).slots' e).queued.any ((s.core k).ready e) then
      passId (((s.promote k e).core k).slots' e).running = passId ((s.core k).slots' e).queued ∧ (((s.promote k e).core k).slots' e).queued = none
    else ((s.promote k e).core k).slots' e = (s.core k).slots' e := by
  unfold State.promote
  dsimp only
  split
  · next p hr hq =>
    rw [hr, hq]
    by_cases hready : (s.core k).ready e p = true
    · rw [if_pos hready, Core.slots'_of_slots (startPass_slots ..), Core.setSlots_slots'_same, State.setCore_core_same, Core.setSlots_slots'_same]
      simp [hready, passId]
    · rw [if_neg hready]
      simp [hready]
  · next h =>
    refine ⟨rfl, ?_⟩
    rw [if_neg]
    rw [Bool.and_eq_true, Option.isNone_iff_eq_none, Option.any_eq_true]
    rintro ⟨hr, p, hq, -⟩
    exact h p hr hq

theorem goOn_slots_one : ((s.goOn k).core k).slots' 1 = (((s.setCore k (s.core k).clearDone).promote k 1).core k).slots' 1 := by
  unfold State.goOn
  simp only [List.foldl]
  rw [promote_slots_ne (by decide), promote_slots_ne (by decide), promote_slots_ne (by decide)]

/-! ### Inputs heard of leave what passes wait for -/

/-- Slots whose queued pass has heard of an input. -/
def Slots.hear (f : Pass → Pass) (x : Slots) : Slots := { x with queued := x.queued.map f }

/-- A core whose queued passes have heard of an input. -/
def Core.hear (f : Pass → Pass) (c : Core) : Core := { c with slots := c.slots.map fun x => (x.1, x.2.hear f) }

section
variable {f : Pass → Pass} (hf : ∀ p, (f p).op = p.op ∧ (f p).seq = p.seq ∧ (f p).foot = p.foot) (c : Core)

theorem Core.hear_slots' (f : Pass → Pass) (c : Core) (e : Nat) : (c.hear f).slots' e = (c.slots' e).hear f := by
  unfold Core.hear Core.slots'
  induction c.slots with
  | nil => rfl
  | cons x l ih =>
    obtain ⟨n, y⟩ := x
    rw [List.map_cons, sget, sget]
    split
    · rfl
    · exact ih

theorem Slots.hear_passes_any {g : Pass → Bool} (hg : ∀ p, g (f p) = g p) (x : Slots) : (x.hear f).passes.any g = x.passes.any g := by
  unfold Slots.passes Slots.hear
  cases hq : x.queued with
  | none => rfl
  | some q => simp [hg]

theorem Core.hear_passes_any {g : Nat × Pass → Bool} (hg : ∀ e p, g (e, f p) = g (e, p)) : (c.hear f).passes.any g = c.passes.any g := by
  unfold Core.passes Core.hear
  induction c.slots with
  | nil => rfl
  | cons x l ih =>
    have hx := Slots.hear_passes_any (f := f) (g := fun p => g (x.1, p)) (fun p => hg x.1 p) x.2
    simp only [List.map_cons, List.flatMap_cons, List.any_append, List.any_map] at ih ⊢
    rw [ih]
    exact congrArg (· || _) hx

theorem Slots.hear_queued_any {g g' : Pass → Bool} (hg : ∀ p, g (f p) = g' p) (x : Slots) : (x.hear f).queued.any g = x.queued.any g' := by
  unfold Slots.hear
  cases x.queued with
  | none => rfl
  | some q => exact hg q

include hf

theorem Slots.hear_sums (x : Slots) (set n : Nat) : (x.hear f).sums set n = x.sums set n :=
  Slots.hear_passes_any (fun p => by obtain ⟨ho, hs, -⟩ := hf p; rw [ho, hs]) x

theorem Core.hear_ready (e : Nat) (p : Pass) : (c.hear f).ready e (f p) = c.ready e p := by
  obtain ⟨ho, hs, hft⟩ := hf p
  have hsums (a : Nat) : ((c.hear f).slots' 1).sums a p.seq = (c.slots' 1).sums a p.seq := by rw [Core.hear_slots', Slots.hear_sums hf]
  have hset : (c.hear f).setReady (f p) = c.setReady p := by
    unfold Core.setReady
    simp only [ho, hs, hsums]
  have hclear : (c.hear f).clearWaits (f p) = c.clearWaits p := by
    unfold Core.clearWaits
    simp only [ho, hs]
    rfl
  have harray : (c.hear f).arrayWaits e (f p) = c.arrayWaits e p := by
    have other (x : Slots) : (x.hear f).queued.any (fun q => decide (q.seq < p.seq)) = x.queued.any fun q => decide (q.seq < p.seq) := by
      unfold Slots.hear
      cases x.queued with
      | none => rfl
      | some q => simp [(hf q).2.1]
    unfold Core.arrayWaits
    simp only [hs, Core.hear_slots', other]
    rfl
  have hwaits : (c.hear f).waitsFor (some e) p.seq p.foot = c.waitsFor (some e) p.seq p.foot := by
    unfold Core.waitsFor
    rw [Core.hear_passes_any c fun e p => by rw [(hf p).2.1, (hf p).2.2]]
    rfl
  unfold Core.ready
  rw [hset, hclear, harray, hs, hft, hwaits]
  rfl

theorem Core.hear_clearDone : (c.hear f).clearDone = c.clearDone.hear f := by
  unfold Core.clearDone
  simp only [Core.hear_slots', Slots.hear_sums hf]
  rfl

theorem Slots.hear_passId (x : Slots) : passId (x.hear f).queued = passId x.queued := by
  unfold passId Slots.hear
  cases x.queued with
  | none => rfl
  | some q => simp [(hf q).1, (hf q).2.1]

/-- When a core goes on whose queued passes have heard of an input, what its slots were is followed. -/
theorem goOn_follows (hu : ∃ hi da en, u.core k = { c.hear f with heldInput := hi, doneAt := da, eng := en }) :
    Follows c 1 (((u.goOn k).core k).slots' 1) := by
  obtain ⟨hi, da, en, hu⟩ := hu
  have hclear : ((u.setCore k (u.core k).clearDone).core k) = { c.clearDone.hear f with heldInput := hi, doneAt := da, eng := en } := by
    rw [State.setCore_core_same, hu, ← Core.hear_clearDone hf]
    rfl
  have hslots : ((u.setCore k (u.core k).clearDone).core k).slots' 1 = (c.slots' 1).hear f := by
    rw [hclear]
    exact Core.hear_slots' f c.clearDone 1
  have hready : ((c.slots' 1).hear f).queued.any (((u.setCore k (u.core k).clearDone).core k).ready 1) = (c.slots' 1).queued.any (c.clearDone.ready 1) := by
    refine Slots.hear_queued_any (fun p => ?_) _
    rw [hclear]
    exact Core.hear_ready hf c.clearDone 1 p
  obtain ⟨htail, hrest⟩ := promote_slots_same (s := u.setCore k (u.core k).clearDone) (k := k) (e := 1)
  rw [← goOn_slots_one, hslots] at htail hrest
  rw [hready] at hrest
  refine ⟨htail, ?_⟩
  have hrun : ((c.slots' 1).hear f).running = (c.slots' 1).running := rfl
  rw [hrun, Slots.hear_passId hf] at hrest
  dsimp only
  split at hrest
  · next h =>
    rw [if_pos h]
    exact hrest
  · next h =>
    rw [if_neg h, hrest]
    exact ⟨hrun, Slots.hear_passId hf _⟩

end

theorem Core.hear_id (c : Core) : c.hear id = c := by
  have h (x : Slots) : x.hear id = x := by
    unfold Slots.hear
    rw [Option.map_id, id]
  unfold Core.hear
  simp only [h, Prod.eta, List.map_id']

/-- When a core goes on after a change of its slots alone, that is followed. -/
theorem goOn_follows_self : Follows (s.core k) 1 (((s.goOn k).core k).slots' 1) :=
  goOn_follows (f := id) (fun _ => ⟨rfl, rfl, rfl⟩) (s.core k)
    ⟨(s.core k).heldInput, (s.core k).doneAt, (s.core k).eng, by rw [Core.hear_id]⟩

/-- A queued pass that may have waited for the bytes of one that has completed. -/
def Pass.heardOf (beat : W64) (foot : Foot) (tag : Tag) (p : Pass) : Pass :=
  if p.foot.clash foot then { p with late := p.late.hear beat p.target tag } else p

theorem Pass.heardOf_kept (beat : W64) (foot : Foot) (tag : Tag) (p : Pass) :
    (p.heardOf beat foot tag).op = p.op ∧ (p.heardOf beat foot tag).seq = p.seq ∧ (p.heardOf beat foot tag).foot = p.foot := by
  unfold Pass.heardOf
  split <;> exact ⟨rfl, rfl, rfl⟩

theorem inputDone_core (e : Nat) (foot : Foot) (tag : Tag) : ∃ hi da,
    (s.inputDone k e foot tag).core k = { (s.core k).hear (Pass.heardOf s.beat foot tag) with heldInput := hi, doneAt := da } :=
  ⟨_, _, State.setCore_core_same ..⟩

/-- A pass that completes: what was in the slots is followed. -/
theorem completed_follows (e : Nat) (p : Pass) (counts : Bool) : Follows (s.core k) 1 (((s.completed k e p counts).core k).slots' 1) := by
  refine goOn_follows (Pass.heardOf_kept s.beat p.foot p.tag) (s.core k) ?_
  cases counts
  · obtain ⟨hi, da, h⟩ := inputDone_core (s := s) (k := k) e p.foot p.tag
    exact ⟨hi, da, (s.core k).eng, h⟩
  · obtain ⟨hi, da, h⟩ := inputDone_core (s := s.countExtra k e) (k := k) e p.foot p.tag
    refine ⟨hi, da, ((s.countExtra k e).core k).eng, h.trans ?_⟩
    rw [State.countExtra, State.setCore_core_same]
    rfl

theorem frees_of {i : Instr} {x : Slots} (ht : exec i s = .next t)
    (hf : Follows ((s.setCore k ((s.core k).setSlots 1 x)).core k) 1 ((t.core k).slots' 1))
    (he : EndsOn k (s.setCore k ((s.core k).setSlots 1 x)) t) : Frees i k 1 s x := by
  rw [State.setCore_core_same] at hf
  have h : EndsOn k s t := EndsOn.trans (t := s.setCore k ((s.core k).setSlots 1 x)) (endsOn_setCore (by rfl)) he
  exact ⟨t, ht, hf, h.soft, h.others, fun a => State.rb_of_mem h.mem a⟩

/-- The end of entry of a running matrix pass. -/
theorem entryEnd_frees {p : Pass} (hs : (s.core k).suspended = false) (hp : ((s.core k).slots' 1).running = some p) :
    Frees (.matrixEntryEnd k false) k 1 s { (s.core k).slots' 1 with
      running := none, tail := if staysInFlight p.op then ((s.core k).slots' 1).tail ++ [p] else ((s.core k).slots' 1).tail } := by
  cases hstay : staysInFlight p.op
  · have he : s.entryEnd k = (s.setCore k ((s.core k).setSlots 1 { (s.core k).slots' 1 with running := none })).completed k 1 p true := by
      simp only [State.entryEnd, State.passDone, hp, hs, hstay, Bool.false_eq_true, if_false]
    refine frees_of (t := s.entryEnd k) rfl ?_ ?_ <;> rw [he]
    · exact completed_follows ..
    · exact endsOn_completed ..
  · have he : s.entryEnd k =
        (s.setCore k ((s.core k).setSlots 1 { (s.core k).slots' 1 with running := none, tail := ((s.core k).slots' 1).tail ++ [p] })).goOn k := by
      simp only [State.entryEnd, hp, hs, hstay, Bool.false_eq_true, if_false, if_true]
    refine frees_of (t := s.entryEnd k) rfl ?_ ?_ <;> rw [he]
    · exact goOn_follows_self
    · exact endsOn_goOn

/-- The end of the oldest pass in flight. -/
theorem passEnd_frees {p : Pass} {r : List Pass} (hs : (s.core k).suspended = false) (hp : ((s.core k).slots' 1).tail = p :: r) :
    Frees (.matrixPassComplete k false) k 1 s { (s.core k).slots' 1 with tail := r } := by
  have he : s.passEnd k = (s.setCore k ((s.core k).setSlots 1 { (s.core k).slots' 1 with tail := r })).completed k 1 p true := by
    simp only [State.passEnd, hp, hs, Bool.false_eq_true, if_false]
  refine frees_of (t := s.passEnd k) rfl ?_ ?_ <;> rw [he]
  · exact completed_follows ..
  · exact endsOn_completed ..

/-! ### The gang controller -/

section
variable {cl : Nat}

theorem putElem_clusters (v : View) (i j raw : Nat) : (s.putElem v i j raw).clusters = s.clusters := by
  unfold State.putElem
  split
  · obtain ⟨m, b, h⟩ := State.write_eq s (v.at i j) (leBytes v.t.size raw)
    rw [State.wr, h]
  · rfl

theorem foldEntry_clusters {e : TapEntry} (h : s.foldEntry k e = .ok t) : t.clusters = s.clusters := by
  unfold State.foldEntry at h
  split at h
  · cases h
  · cases h
  · dsimp only at h
    split at h
    · cases h
    · split at h
      · cases h
      · rw [← Except.ok.inj h]
        split
        · rfl
        · exact forEach_eq State.clusters _ _ _ fun u _ _ => putElem_clusters ..

theorem foldFirst_clusters {n : Nat} {auto : Bool} (h : s.foldFirst k n auto = .ok t) : t.clusters = s.clusters := by
  induction n generalizing s with
  | zero => exact congrArg State.clusters (Except.ok.inj h).symm
  | succ n ih =>
    rw [State.foldFirst] at h
    split at h
    · exact congrArg State.clusters (Except.ok.inj h).symm
    · split at h
      · cases h
      · next hu => exact (ih h).trans (Eq.trans (State.setCore_clusters ..) (foldEntry_clusters hu))

theorem settleFolds_clusters {r w : List (Nat × Nat)} (h : s.settleFolds k r w = .ok t) : t.clusters = s.clusters := by
  unfold State.settleFolds at h
  dsimp only at h
  split at h
  · exact congrArg State.clusters (Except.ok.inj h).symm
  · exact foldFirst_clusters h

theorem cluster_of_clusters (h : t.clusters = s.clusters) (cl : Nat) : t.cluster cl = s.cluster cl := by rw [State.cluster, h, State.cluster]

/-- The products of a ganged pass leave the slots of the gang controllers. -/
theorem applyMma_gang {ac n m : Nat} {kind : PassKind} {v : View × View × Option View} {sh : Share} (h : s.applyMma k ac kind v n m sh = .ok t)
    (cl : Nat) : (t.cluster cl).gang = (s.cluster cl).gang := by
  unfold State.applyMma at h
  split at h
  · cases h
  · next u hu =>
    rw [← Except.ok.inj h, ← cluster_of_clusters (settleFolds_clusters hu) cl]
    exact ((gangKept_runPass u kind v.1 v.2.1 v.2.2 n m sh ((u.core k).acc' ac)).trans (gangKept_setCore _ _ _ (by rfl))).gang_eq cl

theorem fault_gang (cause eng cl : Nat) : ((s.fault k cause eng).cluster cl).gang = (s.cluster cl).gang := by
  unfold State.fault
  dsimp only
  split
  · split
    · exact faultOne_gang ..
    · rw [(gangKept_scopeHalts ..).gang_eq]
      split
      · refine Eq.trans ?_ (faultOne_gang (s := s) (k := k) cause eng cl)
        refine forEach_eq (fun u => (u.cluster cl).gang) _ _ _ fun u j _ => ?_
        split
        · exact faultOne_gang ..
        · rfl
      · exact faultOne_gang ..
  · rfl

theorem gangAccum_gang (p : GangPass) (m : Nat) : ((s.gangAccum cl p m).cluster cl).gang = (s.cluster cl).gang := by
  unfold State.gangAccum
  split
  · rfl
  · refine forEach_eq (fun u => (u.cluster cl).gang) _ s _ fun u j _ => ?_
    split
    · rfl
    · split
      · next h => exact applyMma_gang h cl
      · exact fault_gang ..

theorem promoteGang_empty (h : (s.cluster cl).gangQueued = none) : s.promoteGang cl = s := by
  unfold State.promoteGang
  dsimp only
  rw [h]
  split
  · next h => cases h
  · rfl

/-- What every core of a cluster hears of leaves the gang controllers and the folds. -/
theorem forEach_inputDone_kept (l : List Nat) (e : Nat) (foot : Foot) (tag : Tag) :
    (∀ j, ((forEach l s fun s k => s.inputDone k e foot tag).core j).soft = (s.core j).soft) ∧
      (∀ j, ((forEach l s fun s k => s.inputDone k e foot tag).core j).folding = (s.core j).folding) ∧
      (forEach l s fun s k => s.inputDone k e foot tag).mem = s.mem ∧ (forEach l s fun s k => s.inputDone k e foot tag).clusters = s.clusters := by
  induction l generalizing s with
  | nil => exact ⟨fun _ => rfl, fun _ => rfl, rfl, rfl⟩
  | cons k l ih =>
    obtain ⟨h1, h2, h3, h4⟩ := ih (s := s.inputDone k e foot tag)
    have he : EndsOn k s (s.inputDone k e foot tag) := endsOn_inputDone foot tag
    have hf (j : Nat) : ((s.inputDone k e foot tag).core j).folding = (s.core j).folding := by
      rw [State.inputDone, State.setCore_core]
      split
      · next hj => rw [hj]
      · rfl
    exact ⟨fun j => (h1 j).trans (he.all_soft j), fun j => (h2 j).trans (hf j), h3.trans he.mem, h4⟩

/-- What the gang controller has done once its cores have heard that a pass is done, before the queued pass. -/
def State.gangHeard (s : State) (cl : Nat) (p : GangPass) : State :=
  let u := s.cluster cl
  let s := s.setCluster cl { u with eng := { u.eng with extra := satInc 32 u.eng.extra 1 } }
  forEach (s.coresIn cl) s fun s k => s.inputDone k (if (factorPlanOf p.op).isSome then 5 else 1) p.foot p.tag

theorem gangDone_eq (p : GangPass) : s.gangDone cl p = (s.gangHeard cl p).promoteGang cl := rfl

/-- Registers that software sees and memory are as before, and so are the folds and the slots of a gang controller. -/
structure GangEnds (cl : Nat) (s t : State) : Prop where
  soft : ∀ j, (t.core j).soft = (s.core j).soft
  folding : ∀ j, (t.core j).folding = (s.core j).folding
  mem : t.mem = s.mem
  gang : (t.cluster cl).gang = (s.cluster cl).gang

theorem gangEnds_gangHeard (p : GangPass) : GangEnds cl s (s.gangHeard cl p) := by
  obtain ⟨h1, h2, h3, h4⟩ := forEach_inputDone_kept (s := s.setCluster cl
      { s.cluster cl with eng := { (s.cluster cl).eng with extra := satInc 32 (s.cluster cl).eng.extra 1 } })
    ((s.setCluster cl { s.cluster cl with eng := { (s.cluster cl).eng with extra := satInc 32 (s.cluster cl).eng.extra 1 } }).coresIn cl)
    (if (factorPlanOf p.op).isSome then 5 else 1) p.foot p.tag
  refine ⟨h1, h2, h3, ?_⟩
  rw [State.gangHeard, cluster_of_clusters h4, State.setCluster_cluster_same]
  rfl

theorem GangEnds.run (h : GangEnds cl s t) : (t.cluster cl).gangRun = (s.cluster cl).gangRun := congrArg (·.2.1) h.gang
theorem GangEnds.queued (h : GangEnds cl s t) : (t.cluster cl).gangQueued = (s.cluster cl).gangQueued := congrArg (·.2.2.1) h.gang
theorem GangEnds.tail (h : GangEnds cl s t) : (t.cluster cl).gangTail = (s.cluster cl).gangTail := congrArg (·.2.2.2) h.gang

theorem gangDone_idle (p : GangPass) (h : (s.cluster cl).gangQueued = none) : s.gangDone cl p = s.gangHeard cl p := by
  rw [gangDone_eq, promoteGang_empty ((gangEnds_gangHeard p).queued.trans h)]

theorem quiet_gangSlip (i : Instr) (target : W64) (tag : Tag) (held : Bool) : Quiet s (s.gangSlip cl i target tag held) := by
  have each (l : List Nat) (u : State) :
      Quiet u (forEach l u fun s k => s.setCore k { s.core k with lastSlip := some (s.beat, tag.1) }) := by
    induction l generalizing u with
    | nil => exact .refl u
    | cons k l ih => exact Quiet.trans (quiet_setCore u k _ (by rfl)) (ih _)
  unfold State.gangSlip
  dsimp only
  generalize hu : s.setCluster cl { s.cluster cl with eng := _ } = u
  have h : Quiet s u := by
    subst hu
    exact quiet_setCluster _ _ _ rfl
  generalize hw : (if held = true then forEach (clusterCores cl) u _ else u) = w
  have hw : Quiet s w := by
    subst hw
    cases held
    · exact h
    · exact h.trans (each (clusterCores cl) u)
  have h := fun a b c d e => hw.trans (quiet_trace w a b c d e)
  split
  · exact (h _ _ _ _ _).trans (quiet_modLaunch ..)
  · exact h _ _ _ _ _

/-- A ganged pass that stores no output begins: it takes the running slot. -/
theorem gangBegin_runs (p : GangPass) (held : Bool) (ho : outOf p.op = none) :
    (∃ z, ((s.gangBegin cl p held).cluster cl).gangRun = some z ∧ z.op = p.op ∧ z.tiles = p.tiles) ∧
      ((s.gangBegin cl p held).cluster cl).gangQueued = (s.cluster cl).gangQueued ∧
      ((s.gangBegin cl p held).cluster cl).gangTail = (s.cluster cl).gangTail ∧
      (∀ j, ((s.gangBegin cl p held).core j).soft = (s.core j).soft) ∧ (s.gangBegin cl p held).mem = s.mem := by
  have hout (t : State) : t.gangOut cl p = t := by rw [State.gangOut, ho]
  unfold State.gangBegin
  extract_lets bad u s₁ s₂
  rw [hout]
  have hq : Quiet s₁ s₂ ∧ GangKept s₁ s₂ := by
    unfold s₂
    split
    · split
      · exact ⟨quiet_gangSlip .., (passKept_gangSlip ..).1⟩
      · exact ⟨.refl _, .refl _⟩
    · exact ⟨.refl _, .refl _⟩
  have hgang := hq.2.gang_eq cl
  rw [show s₁.cluster cl = _ from State.setCluster_cluster_same ..] at hgang
  exact ⟨⟨{ p with badAt := bad, tag := s.ownTag p.target p.late }, congrArg (·.2.1) hgang, rfl, rfl⟩,
    congrArg (·.2.2.1) hgang, congrArg (·.2.2.2) hgang,
    fun j => Core.soft_of_arch (hq.1.1 j), hq.1.2.1⟩

/-- A queued ganged pass that stores no output starts when the slot is free and no core folds. -/
theorem promoteGang_starts {q : GangPass} (hr : (s.cluster cl).gangRun = none) (hq : (s.cluster cl).gangQueued = some q)
    (ho : outOf q.op = none) (hf : ∀ k, (s.core k).folding = 0) :
    (∃ z, ((s.promoteGang cl).cluster cl).gangRun = some z ∧ z.op = q.op ∧ z.tiles = q.tiles) ∧
      ((s.promoteGang cl).cluster cl).gangQueued = none ∧ ((s.promoteGang cl).cluster cl).gangTail = (s.cluster cl).gangTail ∧
      (∀ j, ((s.promoteGang cl).core j).soft = (s.core j).soft) ∧ (s.promoteGang cl).mem = s.mem := by
  have hready : s.gangReady cl q = true := by
    unfold State.gangReady
    rw [ho, Bool.and_eq_true, List.all_eq_true]
    exact ⟨rfl, fun k _ => decide_eq_true (hf k)⟩
  have he : s.promoteGang cl = (s.setCluster cl { s.cluster cl with gangQueued := none }).gangBegin cl q false := by
    unfold State.promoteGang
    simp only [hr, hq, hready, if_true]
  obtain ⟨hrun, hqueued, htail, hsoft, hmem⟩ := gangBegin_runs (s := s.setCluster cl { s.cluster cl with gangQueued := none }) (cl := cl) q false ho
  rw [State.setCluster_cluster_same] at hqueued htail
  rw [he]
  exact ⟨hrun, hqueued, htail, hsoft, hmem⟩

end

/-- Settles O13: the slots of a core by what goes on in them, those of the gang controller by what its end of entry and end of
pass do. -/
theorem matrixPassesLeaveSlots : Obligations.MatrixPassesLeaveSlots := by
  refine ⟨fun s k p hs => ⟨fun hp => entryEnd_frees hs hp, fun r hp => passEnd_frees hs hp⟩, fun s cl p hs =>
    ⟨fun hr hq hb hf => ⟨fun hstay => ?_, fun hstay => ?_⟩, fun r ht => ⟨fun hq => ?_, fun q hr hq ho hfold => ?_⟩⟩⟩
  · refine congrArg Host.Outcome.next ?_
    have he : s.gangEntryEnd cl = ((s.setCluster cl { s.cluster cl with
        gangRun := none, gangTail := (s.cluster cl).gangTail ++ [p] }).gangAccum cl p (p.tile 0 0).cols.toNat).promoteGang cl := by
      simp [State.gangEntryEnd, hr, hb, hf, hs, hstay]
    refine Eq.trans he (promoteGang_empty ?_)
    have hg := gangAccum_gang (s := s.setCluster cl { s.cluster cl with gangRun := none, gangTail := (s.cluster cl).gangTail ++ [p] })
      (cl := cl) p (p.tile 0 0).cols.toNat
    rw [State.setCluster_cluster_same] at hg
    exact (congrArg (·.2.2.1) hg).trans hq
  · have he : s.gangEntryEnd cl = (s.setCluster cl { s.cluster cl with gangRun := none }).gangDone cl p := by
      simp [State.gangEntryEnd, hr, hb, hf, hs, hstay]
    have h := gangEnds_gangHeard (s := s.setCluster cl { s.cluster cl with gangRun := none }) (cl := cl) p
    rw [gangDone_idle p (by rw [State.setCluster_cluster_same]; exact hq)] at he
    refine ⟨_, congrArg Host.Outcome.next he, h.run.trans ?_, h.tail.trans ?_, h.soft, fun a => State.rb_of_mem h.mem a⟩ <;>
      rw [State.setCluster_cluster_same]
  · have he : s.gangPassEnd cl = (s.setCluster cl { s.cluster cl with gangTail := r }).gangDone cl p := by
      simp [State.gangPassEnd, ht, hs]
    have h := gangEnds_gangHeard (s := s.setCluster cl { s.cluster cl with gangTail := r }) (cl := cl) p
    rw [gangDone_idle p (by rw [State.setCluster_cluster_same]; exact hq)] at he
    refine ⟨_, congrArg Host.Outcome.next he, h.tail.trans ?_, h.run.trans ?_, h.soft, fun a => State.rb_of_mem h.mem a⟩ <;>
      rw [State.setCluster_cluster_same]
  · have he : s.gangPassEnd cl = ((s.setCluster cl { s.cluster cl with gangTail := r }).gangHeard cl p).promoteGang cl := by
      simp [State.gangPassEnd, ht, hs, gangDone_eq]
    have h := gangEnds_gangHeard (s := s.setCluster cl { s.cluster cl with gangTail := r }) (cl := cl) p
    obtain ⟨hrun, hqueued, htail, hsoft, hmem⟩ := promoteGang_starts (h.run.trans (by rw [State.setCluster_cluster_same]; exact hr))
      (h.queued.trans (by rw [State.setCluster_cluster_same]; exact hq)) ho (fun k => (h.folding k).trans (hfold k))
    refine ⟨_, congrArg Host.Outcome.next he, (htail.trans h.tail).trans ?_, hqueued, hrun, fun j => (hsoft j).trans (h.soft j),
      fun a => State.rb_of_mem (hmem.trans h.mem) a⟩
    rw [State.setCluster_cluster_same]

end Sys2Proof.Machine
end


section
/-! PROOFS. The factor class: an operation runs on the memory and registers that its plan names (O18). -/

namespace Sys2Proof.Machine

variable {s t u : State} {k : Nat} {i : Instr}

/-! ### A comparison leaves what plans read -/

/-- The states differ at most in a cluster and in a core's number of the next comparison. -/
def Compared (s : State) (k : Nat) (u : State) : Prop :=
  u = s ∨ ∃ x n, u = (s.setCluster (clOf k) x).setCore k { s.core k with gangNo := n }

theorem compared_of_compares (h : Compares s k i u) : Compared s k u := by
  unfold Compares at h
  split at h
  · exact .inl h
  · obtain ⟨x, -, hu⟩ := next_of_gangCompare (h Act.next)
    exact .inr ⟨x, _, hu⟩

theorem Compared.core (h : Compared s k u) : ∃ n, u.core k = { s.core k with gangNo := n } := by
  obtain rfl | ⟨x, n, rfl⟩ := h
  · exact ⟨(u.core k).gangNo, rfl⟩
  · exact ⟨n, State.setCore_core_same ..⟩

/-- What depends on no core and no cluster is the same after a comparison. -/
theorem Compared.eq {α : Type} (h : Compared s k u) {f : State → α}
    (hf : ∀ (s : State) cs cls, f { s with cores := cs, clusters := cls } = f s) : f u = f s := by
  obtain rfl | ⟨x, n, rfl⟩ := h
  · rfl
  · exact hf s ((s.setCluster (clOf k) x).setCore k _).cores (s.setCluster (clOf k) x).clusters

section
variable (h : Compared s k u)
include h

theorem Compared.tr (t : TReg) : (u.core k).tr t = (s.core k).tr t := by
  obtain ⟨n, hn⟩ := h.core
  rw [hn]; rfl

theorem Compared.gr (g : GReg) : (u.core k).gr g = (s.core k).gr g := by
  obtain ⟨n, hn⟩ := h.core
  rw [hn]; rfl

theorem Compared.tapQ : (u.core k).tapQ = (s.core k).tapQ := by
  obtain ⟨n, hn⟩ := h.core
  rw [hn]

theorem Compared.bad : u.bad = s.bad := h.eq (f := (·.bad)) fun _ _ _ => rfl

theorem Compared.facTile (t : Tile) (r c : Nat) (w : Bool) : u.facTile k t r c w = s.facTile k t r c w :=
  h.eq (f := (·.facTile k t r c w)) fun _ _ _ => rfl

theorem Compared.matOf (v : View) (r c : Nat) : u.matOf v r c = s.matOf v r c := h.eq (f := (·.matOf v r c)) fun _ _ _ => rfl
theorem Compared.reg (off : Nat) : u.reg off = s.reg off := h.eq (f := (·.reg off)) fun _ _ _ => rfl
theorem Compared.owner (cl : Nat) : u.owner cl = s.owner cl := h.eq (f := (·.owner cl)) fun _ _ _ => rfl

end

/-! ### Plans -/

/-- Without uncorrectable words no tile meets one. -/
theorem tilesBad_none (h : s.bad = []) (rs ws : List View) : s.tilesBad rs ws = none := by
  have hr : s.viewBad = fun _ => none := funext fun v => by simp [State.viewBad, h]
  have hw : s.viewPart = fun _ => none := funext fun v => by simp [State.viewPart, h]
  rw [State.tilesBad, hr, hw]
  simp

@[simp] theorem matOf_withCores (cs : Sparse Core) (v : View) (r c : Nat) : (s.withCores cs).matOf v r c = s.matOf v r c := rfl

theorem putMat_withCores (cs : Sparse Core) (v : View) (r c : Nat) (m : Mat) :
    (s.withCores cs).putMat v r c m = (s.putMat v r c m).withCores cs :=
  offCores_forEach (l := grid r c) (f := fun s p => s.putElem v p.1 p.2 (m.at p.1 p.2).toNat)
    (fun p => offCores_putElem v p.1 p.2 (raw := fun _ => (m.at p.1 p.2).toNat) fun _ _ => rfl) s cs

theorem offCores_scribble (a n : Nat) : OffCores (·.scribble a n) := fun s cs => by
  have hw := offCores_write a ((List.range n).map fun i => (Config.freeValue (s.freeCtr + i)).truncate 8) s cs
  exact congrArg (fun t : State => { t with freeCtr := s.freeCtr + n }) hw

theorem scribbles_withCores (cs : Sparse Core) (l : List Nat) (n : Nat) :
    l.foldl (fun y a => y.scribble a n) (s.withCores cs) = (l.foldl (fun y a => y.scribble a n) s).withCores cs :=
  offCores_forEach (l := l) (f := fun y a => y.scribble a n) (fun a => offCores_scribble a n) s cs

theorem pOf_eq (code : Nat) : pOf code = if code = 0 then 1 else if code = 1 then 2 else 4 :=
  match code with
  | 0 => rfl
  | 1 => rfl
  | _ + 2 => rfl

theorem alike_putGs (h : Alike s t) (gs : GReg) (v : Option W32) : Alike (s.putGs k gs v) (t.putGs k gs v) := by
  cases v with
  | none => exact h
  | some w => exact keepsAlike_setG (w := fun _ => w) (fun _ _ _ => rfl) _ _ h

theorem putGs_foot (gs : GReg) (v : Option W32) : ((s.putGs k gs v).core k).foot = (s.core k).foot := by
  cases v with
  | none => rfl
  | some w => rw [State.putGs, State.setCore_core_same, Core.setG_foot]

/-- A factor operation whose plan passes on an unganged array, with no fold in its way, does what the plan says to memory,
and writes the plan's word to gs. -/
theorem does_factor {p : FactorPlan} {gs : GReg} {r w : List (Nat × Nat)} {f : State → State × Option W32}
    (he : exec i s = .next (s.issue k i (doFactor k i gs p))) (h : Issues s k i) (hc : Compares s k i u)
    (hwait : (s.core k).gangWait = false) (hshape : (s.cluster (clOf k)).shape = 0) (htaps : (s.core k).tapQ = [])
    (hb : Unblocked s k i r w) (hp : p k u = .ok { reads := r, writes := w, run := f })
    (hf : OffCores fun t => (f t).1) (hv : ∀ t cs, (f (t.withCores cs)).2 = (f t).2) :
    Does i k s ((f u).1.putGs k gs (f u).2) := by
  generalize hn : u.note k r w = n
  have hrun : u.runFactor k p = .ok (f n) := by
    rw [State.runFactor, hp]
    dsimp only
    rw [settleTap_noTaps ((compared_of_compares hc).tapQ.trans htaps), hn]
  have hact (tag : Tag) : doFactor k i gs p tag s = .next ((f n).1.putGs k gs (f n).2) := by
    unfold doFactor
    extract_lets c run
    rw [if_neg (by simp [c, hwait, hshape])]
    have hgo : run u = .next ((f n).1.putGs k gs (f n).2) := by simp only [run, hrun]
    unfold Compares at hc
    split at hc
    · next hg => rw [if_neg (by rw [hg]; decide), ← hc, hgo]
    · next hg => rw [if_pos (by simpa using hg), hc, hgo]
  have halike : Alike u n := hn ▸ alike_note u k r w
  have hvalue : (f n).2 = (f u).2 := by rw [halike.1, hv]
  refine Does.congr (does_of he h hact ?_) ?_
  · rw [putGs_foot, hf.core n k, ← hn, State.note_core_same]
    exact hb
  · rw [hvalue]
    exact (alike_putGs (hf.keepsAlike u n halike) gs _).quiet.symm

/-- Settles O18: each operation by its plan, which reads the state before the comparison and runs on the one after it. -/
theorem rootIterations : Obligations.RootIterations := by
  intro s u k l t1 t2 t3 t4 p gs v w x z
  dsimp only
  rw [← pOf_eq]
  intro hwait hshape hbad htaps
  have clean {u : State} (hc : Compared s k u) (rs ws : List View) := tilesBad_none (hc.bad.trans hbad) rs ws
  refine ⟨?_, ?_, ?_, ?_, ?_⟩
  · rintro ⟨h, hcmp, hb⟩ hv hw
    have hc := compared_of_compares hcmp
    have hd := does_factor (p := planNsiScale t1 t2 p gs) (gs := gs) rfl h hcmp hwait hshape htaps hb
      (by simp only [planNsiScale, hc.tr, hc.gr, hc.facTile, hv, hw, clean hc]; rfl)
      (fun t cs => by simp only [putMat_withCores, matOf_withCores]) (fun t cs => rfl)
    rw [hc.matOf] at hd
    exact hd
  · rintro ⟨h, hcmp, hb⟩ hv hw hz hfit
    have hc := compared_of_compares hcmp
    have hd := does_factor (p := planNsiStep t1 t2 t3 p) (gs := 0) rfl h hcmp hwait hshape htaps hb
      (by simp only [planNsiStep, hc.tr, hc.facTile, hv, hw, hz, if_neg (Nat.not_lt.mpr hfit), clean hc]; rfl)
      (fun t cs => by simp only [putMat_withCores, scribbles_withCores, matOf_withCores]) (fun t cs => rfl)
    rw [hc.matOf, hc.matOf] at hd
    exact hd
  · rintro ⟨h, hcmp, hb⟩ hv hw
    have hc := compared_of_compares hcmp
    have hd := does_factor (p := planNsiResid t1 t2 p) (gs := gs) rfl h hcmp hwait hshape htaps hb
      (by simp only [planNsiResid, hc.tr, hc.facTile, hv, hw, clean hc]; rfl) (fun t cs => rfl) (fun t cs => rfl)
    rw [hc.matOf, hc.matOf] at hd
    exact hd
  · rintro ⟨h, hcmp, hb⟩ hv hw hz hle
    have hc := compared_of_compares hcmp
    have hd := does_factor (p := planUpdNs t1 t2 t3) (gs := 0) rfl h hcmp hwait hshape htaps hb
      (by simp only [planUpdNs, hc.tr, hc.facTile, hc.reg, hc.owner, hv, hw, hz, if_neg (Nat.not_lt.mpr hle), clean hc]; rfl)
      (fun t cs => by simp only [putMat_withCores, matOf_withCores]) (fun t cs => rfl)
    rw [hc.matOf] at hd
    exact hd
  · rintro ⟨h, hcmp, hb⟩ hdense hv hw hx hz
    have hc := compared_of_compares hcmp
    have hd := does_factor (p := planRefine t1 t2 t3 t4) (gs := 0) rfl h hcmp hwait hshape htaps hb
      (by simp only [planRefine, hc.tr, hc.facTile, if_neg hdense, hv, hw, hx, hz, clean hc]; rfl)
      (fun t cs => by simp only [putMat_withCores, matOf_withCores]) (fun t cs => rfl)
    rw [hc.matOf, hc.matOf, hc.matOf] at hd
    exact hd

end Sys2Proof.Machine
end


section
/-! PROOFS. The accumulating passes of the matrix class (O11). -/

namespace Sys2Proof.Machine

variable {s t u : State} {k : Nat} {i : Instr} {ac : AcReg} {kind : PassKind} {ta tb tc : TReg} {n : Nat} {intg : Bool}

/-! ### What a pass adds to an accumulator -/

/-- An accumulator with the product of two operands added, as the array takes them (R116, R117). -/
def addedProduct (intg : Bool) (x y : Nat) (v : W32) : W32 :=
  if intg then BitVec.ofInt 32 (satInt 32 (v.toInt + sext 16 x * sext 16 y)).1
  else fma32 (BitVec.ofNat 32 x) (BitVec.ofNat 32 y) v

theorem AccSet.put_get (a : AccSet) (n m : Nat) (v : W32) : (a.put n v).get m = if m = n then v else a.get m := by
  unfold AccSet.get AccSet.put
  split
  · next h => rw [h, sget_sput_same]
  · next h => exact sget_sput_ne _ _ _ h

theorem AccSet.noteSat_get (a : AccSet) (n m : Nat) : (a.noteSat n).get m = a.get m := by
  unfold AccSet.noteSat
  split <;> rfl

theorem AccSet.noteSat_kind (a : AccSet) (n : Nat) : (a.noteSat n).kind = a.kind := by
  unfold AccSet.noteSat
  split <;> rfl

theorem AccSet.addProduct_get (a : AccSet) (n m x y : Nat) :
    (a.addProduct intg n x y).get m = if m = n then addedProduct intg x y (a.get m) else a.get m := by
  have hput (v : W32) (hv : v = addedProduct intg x y (a.get n)) :
      (a.put n v).get m = if m = n then addedProduct intg x y (a.get m) else a.get m := by
    rw [AccSet.put_get, hv]
    split
    · next h => rw [h]
    · rfl
  unfold AccSet.addProduct
  cases intg with
  | false => exact hput _ rfl
  | true =>
    dsimp only
    rw [if_pos rfl]
    split
    · rw [AccSet.noteSat_get]
      exact hput _ rfl
    · exact hput _ rfl

theorem AccSet.addProduct_kind (a : AccSet) (n x y : Nat) : (a.addProduct intg n x y).kind = a.kind := by
  unfold AccSet.addProduct
  cases intg with
  | false => rfl
  | true =>
    dsimp only
    rw [if_pos rfl]
    split
    · exact AccSet.noteSat_kind ..
    · rfl

/-- A product step adds one product to each of the sixteen accumulators. -/
theorem productStep_get (va vb : View) (sh : Share) (a : AccSet) (q : Nat) {x : Nat} (hx : x < 16) :
    (s.productStep intg va vb sh a q).get x =
      addedProduct intg (s.operand intg va (sh.row0 + x / 4) q) (s.operand intg vb q (sh.col0 + x % 4)) (a.get x) := by
  have upTo (m : Nat) : ((List.range m).foldl (fun a n =>
      a.addProduct intg n (s.operand intg va (sh.row0 + n / 4) q) (s.operand intg vb q (sh.col0 + n % 4))) a).get x =
      if x < m then
        addedProduct intg (s.operand intg va (sh.row0 + x / 4) q) (s.operand intg vb q (sh.col0 + x % 4)) (a.get x)
      else a.get x := by
    induction m with
    | zero => rfl
    | succ m ih =>
      rw [List.range_succ, List.foldl_append, List.foldl_cons, List.foldl_nil, AccSet.addProduct_get, ih]
      by_cases hm : x = m
      · subst hm
        simp
      · have hlt : x < m + 1 ↔ x < m := by omega
        simp only [hm, hlt, if_false]
  exact (upTo 16).trans (if_pos hx)

theorem productStep_kind (va vb : View) (sh : Share) (a : AccSet) (q : Nat) : (s.productStep intg va vb sh a q).kind = a.kind :=
  List.foldl_hom (f := AccSet.kind) (g₂ := fun k _ => k) (l := List.range 16) (init := a)
    (fun a _ => (AccSet.addProduct_kind a ..).symm) |>.symm.trans (List.foldl_fixed _)

/-- The set after the products of a pass that does not spill. -/
def State.passSet (s : State) (kind : PassKind) (va vb : View) (m : Nat) (a : AccSet) : AccSet :=
  (List.range m).foldl (s.productStep kind.intg va vb {}) { a with kind := if kind.intg then .integer else .floating }

theorem runPass_none (va vb : View) (n m : Nat) (a : AccSet) :
    s.runPass kind va vb none n m {} a = (s, s.passSet kind va vb m a) :=
  List.foldl_hom (f := fun a => (s, a)) (g₁ := s.productStep kind.intg va vb {}) fun _ _ => rfl

theorem passSet_kind (va vb : View) (m : Nat) (a : AccSet) :
    (s.passSet kind va vb m a).kind = if kind.intg then .integer else .floating :=
  List.foldl_hom (f := AccSet.kind) (g₂ := fun k _ => k) (l := List.range m)
    (fun a _ => (productStep_kind va vb {} a _).symm) |>.symm.trans (List.foldl_fixed _)

/-- Each accumulator receives its products in order. -/
theorem passSet_get (va vb : View) (m : Nat) (a : AccSet) {x : Nat} (hx : x < 16) :
    (s.passSet kind va vb m a).get x = (List.range m).foldl (fun v q =>
      addedProduct kind.intg (s.operand kind.intg va (x / 4) q) (s.operand kind.intg vb q (x % 4)) v) (a.get x) :=
  (List.foldl_hom (f := fun a => AccSet.get a x) (g₁ := s.productStep kind.intg va vb {}) fun a q => by
    rw [productStep_get va vb {} a q hx, Nat.zero_add, Nat.zero_add]).symm

theorem addedProduct_operand (va vb : View) (r q c : Nat) (v : W32) :
    addedProduct intg (s.operand intg va r q) (s.operand intg vb q c) v =
      if intg then BitVec.ofInt 32 (satInt 32 (v.toInt + sext 16 (s.elem va r q) * sext 16 (s.elem vb q c))).1
      else fma32 (s.elem32 va r q) (s.elem32 vb q c) v := by
  cases intg <;> simp [addedProduct, State.operand]

/-! ### An accumulating pass -/

theorem keepsAlike_capture (ta tb : Tile) (wide : Bool) (sh : Share) : KeepsAlike (·.capture k ta tb wide sh) := by
  intro s t h
  have hreg (off : Nat) : t.reg off = s.reg off := h.eq (f := (·.reg off)) fun _ _ => rfl
  have howner : t.owner (clOf k) = s.owner (clOf k) := h.eq (f := (·.owner (clOf k))) fun _ _ => rfl
  have hseed : t.seedOf k = s.seedOf k := by simp only [State.seedOf, h.prog, hreg, howner]
  have hstep : t.stepOf k = s.stepOf k := by simp only [State.stepOf, h.prog]
  obtain ⟨f, hf⟩ := h.core k
  simp only [State.capture, hseed, hstep, hf]
  split
  · exact h
  · exact h.setCore rfl

theorem capture_foot (ta tb : Tile) (wide : Bool) (sh : Share) : ((s.capture k ta tb wide sh).core k).foot = (s.core k).foot := by
  unfold State.capture
  dsimp only
  split
  · rfl
  · rw [State.setCore_core_same]

theorem capture_none (h : (s.core k).tap = none) (ta tb : Tile) (wide : Bool) (sh : Share) : s.capture k ta tb wide sh = s := by
  simp only [State.capture, h]

/-- The state that an accumulating pass stores: that of its folds, products and spills, with the capture of an armed tap. -/
def State.captured (s : State) (k : Nat) (kind : PassKind) (ta tb : Tile) : State :=
  if kind.intg then s else s.capture k ta tb (decide (kind = kindF32)) {}

/-- An accumulating pass that passes its checks and that nothing holds does what `applyMma` says. -/
theorem does_mma {v : View × View × Option View} (he : exec i s = .next (s.issue k i (doMma k ac kind ta tb tc n false)))
    (h : Issues s k i) (hwait : (s.core k).gangWait = false) (hshape : (s.cluster (clOf k)).shape = 0)
    (hv : s.mmaCheck k ((s.core k).acc' ac) kind ((s.core k).tr ta) ((s.core k).tr tb) ((s.core k).tr tc) n {} = .ok v)
    (hbad : s.bad = []) (hfull : kind.intg = true ∨ (s.core k).tapFull = false) (hb : Unblocked s k i (mmaReads v) (mmaWrites v))
    (hu : s.applyMma k ac kind v n ((s.core k).tr ta).cols.toNat {} = .ok u) :
    Does i k s (u.captured k kind ((s.core k).tr ta) ((s.core k).tr tb)) := by
  have hgang : s.gangFault k false = none := by simp [State.gangFault, hshape, faultIf]
  have hclean : s.mmaBad v = none := by
    have hr : s.viewBad = fun _ => none := funext fun v => by simp [State.viewBad, hbad]
    simp [State.mmaBad, hr]
  have hroom : (!kind.intg && (s.core k).tapFull) = false := by
    rcases hfull with h | h <;> simp [h]
  have hact (tag : Tag) : doMma k ac kind ta tb tc n false tag s =
      .next ((u.note k (mmaReads v) (mmaWrites v)).captured k kind ((s.core k).tr ta) ((s.core k).tr tb)) := by
    simp only [doMma, hwait, hgang, hv, hclean, hroom, hu, State.captured]
    rfl
  refine Does.congr (does_of he h hact ?_) ?_
  · unfold State.captured
    split
    · rw [State.note_core_same]
      exact hb
    · rw [capture_foot, State.note_core_same]
      exact hb
  · unfold State.captured
    split
    · exact (quiet_note ..).symm
    · exact (keepsAlike_capture _ _ _ _ _ _ (alike_note ..)).quiet.symm

/-- A pass that does not spill, with no tap: each accumulator receives its products in order. -/
theorem writes_mma {a b : View} (he : exec i s = .next (s.issue k i (doMma k ac kind ta tb tc n false)))
    (h : Issues s k i) (hwait : (s.core k).gangWait = false) (hshape : (s.cluster (clOf k)).shape = 0)
    (hv : s.mmaCheck k ((s.core k).acc' ac) kind ((s.core k).tr ta) ((s.core k).tr tb) ((s.core k).tr tc) n {} = .ok (a, b, none))
    (hbad : s.bad = []) (htaps : (s.core k).tapQ = []) (htap : (s.core k).tap = none) (hb : Unblocked s k i (a.bytes ++ b.bytes) []) :
    ∃ r : AccSet, Writes i k s (fun c => c.setAcc ac r) ∧ r.kind = (if kind.intg then .integer else .floating) ∧
      ∀ x, x < 16 → r.get x = (List.range ((s.core k).tr ta).cols.toNat).foldl (fun v q =>
        if kind.intg then
          BitVec.ofInt 32 (satInt 32 (v.toInt + sext 16 (s.elem a (x / 4) q) * sext 16 (s.elem b q (x % 4)))).1
        else fma32 (s.elem32 a (x / 4) q) (s.elem32 b q (x % 4)) v) (((s.core k).acc' ac).get x) := by
  refine ⟨s.passSet kind a b ((s.core k).tr ta).cols.toNat ((s.core k).acc' ac), Does.writes ?_, passSet_kind .., fun x hx => ?_⟩
  · have hu : s.applyMma k ac kind (a, b, none) n ((s.core k).tr ta).cols.toNat {} =
        .ok (s.setCore k ((s.core k).setAcc ac (s.passSet kind a b ((s.core k).tr ta).cols.toNat ((s.core k).acc' ac)))) := by
      rw [State.applyMma, settleFolds_noTaps htaps]
      dsimp only
      rw [runPass_none]
    have hd := does_mma he h hwait hshape hv hbad (.inr (by simp [Core.tapFull, htap]))
      (by simpa [mmaReads, mmaWrites] using hb) hu
    unfold State.captured at hd
    rw [capture_none (by rw [State.setCore_core_same]; exact htap), ite_self] at hd
    exact hd
  · rw [passSet_get a b _ _ hx]
    simp only [addedProduct_operand]

/-- MMA.CLR of a set that no ganged pass is in flight into clears it, and waits for the passes into it (log 43). -/
theorem writes_mmaClr {l : Launch} (h : Issues s k (.mmaClr k l ac)) (hwait : (s.core k).gangWait = false)
    (hp : ∀ p ∈ (s.cluster (clOf k)).passes, setOf p.op ≠ some ac.val) :
    Writes (.mmaClr k l ac) k s fun c => { c.setAcc ac {} with
      clears := if (c.slots' 1).sums ac ((s.core k).seq + 1) then c.clears ++ [(ac.val, (s.core k).seq + 1)] else c.clears } := by
  refine writes_of (act := doMmaClr k ac) rfl h (fun tag => ?_) rfl
  have hany : ((s.cluster (clOf k)).passes.any fun p => decide (setOf p.op = some ac.val)) = false :=
    List.any_eq_false.mpr fun p hm => by simpa using hp p hm
  unfold doMmaClr
  dsimp only
  rw [hwait, hany]
  rfl

/-- Settles O11: MMA.CLR by itself, and each accumulating pass by the state that `applyMma` gives. -/
theorem matrixAccumulates : Obligations.MatrixAccumulates := by
  refine ⟨fun s k l ac ta tb tc n a b => ⟨?_, ?_, ?_, fun h hw hp => writes_mmaClr h hw hp⟩,
    fun s u k l ac ta tb tc n v => ⟨?_, ?_, ?_⟩⟩
  iterate 3
    · exact fun h hw hs hv _ hbad htaps htap hb => writes_mma rfl h hw hs hv hbad htaps htap hb
  iterate 3
    · exact fun h hw hs hv hbad hfull hb hu => does_mma rfl h hw hs hv hbad hfull hb hu

end Sys2Proof.Machine
end


section
/-! PROOFS. The output passes of the matrix class (O12). -/

namespace Sys2Proof.Machine

variable {s t u : State} {k ac : Nat} {i : Instr} {ta tb : TReg} {tc : Option TReg} {rnd ep : Nat} {gid : GReg}

/-! ### Elements stored -/

theorem State.putElem_eq (s : State) (v : View) (i j raw : Nat) : ∃ m b, s.putElem v i j raw = { s with mem := m, bad := b } := by
  unfold State.putElem
  split
  · exact State.write_eq ..
  · exact ⟨s.mem, s.bad, rfl⟩

/-- An element stored leaves every byte outside it. -/
theorem putElem_kept_but (s : State) (v : View) (i j raw : Nat) : MemKeptBut s (s.putElem v i j raw) (v.at i j) v.t.size := by
  unfold State.putElem
  split
  · exact wr_kept_but s (v.at i j) v.t.size raw
  · exact fun _ _ => rfl

theorem offCores_putRaw (v : View) (i j raw : Nat) : OffCores (·.putElem v i j raw) :=
  offCores_putElem v i j (raw := fun _ => raw) fun _ _ => rfl

/-! ### What the folds of an access leave -/

/-- The states differ at most in memory and in the tap queues and noted bytes of cores. -/
structure Folded (s t : State) : Prop where
  rest : t = { s with mem := t.mem, bad := t.bad, cores := t.cores }
  core : ∀ j, ∃ q n f, t.core j = { s.core j with tapQ := q, folding := n, foot := f }

theorem Folded.refl (s : State) : Folded s s := ⟨rfl, fun _ => ⟨_, _, _, rfl⟩⟩

theorem Folded.trans (h : Folded s t) (h' : Folded t u) : Folded s u := by
  refine ⟨by rw [h'.rest, h.rest], fun j => ?_⟩
  obtain ⟨_, _, _, ht⟩ := h.core j
  obtain ⟨q, n, f, hu⟩ := h'.core j
  exact ⟨q, n, f, by rw [hu, ht]⟩

theorem folded_putElem (s : State) (v : View) (i j raw : Nat) : Folded s (s.putElem v i j raw) := by
  obtain ⟨m, b, h⟩ := s.putElem_eq v i j raw
  rw [h]
  exact ⟨rfl, fun _ => ⟨_, _, _, rfl⟩⟩

theorem folded_setCore (s : State) (k : Nat) (q : List TapEntry) (n : Nat) (f : Foot) :
    Folded s (s.setCore k { s.core k with tapQ := q, folding := n, foot := f }) := by
  refine ⟨rfl, fun j => ?_⟩
  rw [State.setCore_core]
  split
  · next h => exact ⟨q, n, f, by rw [h]⟩
  · exact ⟨_, _, _, rfl⟩

theorem folded_foldEntry {e : TapEntry} (h : s.foldEntry k e = .ok t) : Folded s t := by
  unfold State.foldEntry at h
  split at h
  · cases h
  · cases h
  · dsimp only at h
    split at h
    · cases h
    · split at h
      · cases h
      · rw [← Except.ok.inj h]
        split
        · exact .refl s
        · exact forEach_keeps (Folded s) _ _ _ (fun u _ hu => hu.trans (folded_putElem u ..)) (.refl s)

theorem folded_foldFirst {n : Nat} {auto : Bool} (h : s.foldFirst k n auto = .ok t) : Folded s t := by
  induction n generalizing s with
  | zero => exact Except.ok.inj h ▸ .refl s
  | succ n ih =>
    rw [State.foldFirst] at h
    split at h
    · exact Except.ok.inj h ▸ .refl s
    · split at h
      · cases h
      · next hu => exact ((folded_foldEntry hu).trans (folded_setCore ..)).trans (ih h)

theorem folded_settleTap {r w : List (Nat × Nat)} (h : s.settleTap k r w = .ok t) : Folded s t := by
  unfold State.settleTap at h
  split at h
  · cases h
  · next u hu =>
    rw [← Except.ok.inj h]
    refine Folded.trans ?_ (folded_setCore u k _ _ _)
    unfold State.settleFolds at hu
    dsimp only at hu
    split at hu
    · exact Except.ok.inj hu ▸ .refl s
    · exact folded_foldFirst hu

section
variable (h : Folded s t)
include h

theorem Folded.acc (k ac : Nat) : (t.core k).acc' ac = (s.core k).acc' ac := by
  obtain ⟨_, _, _, hc⟩ := h.core k
  rw [hc]
  rfl

theorem Folded.prog (k : Nat) : (t.core k).prog = (s.core k).prog := by
  obtain ⟨_, _, _, hc⟩ := h.core k
  rw [hc]

theorem Folded.stepOf (k : Nat) : t.stepOf k = s.stepOf k := by
  unfold State.stepOf
  rw [h.prog]

theorem Folded.seedOf (k : Nat) : t.seedOf k = s.seedOf k := by
  have hreg (off : Nat) : t.reg off = s.reg off := by rw [h.rest]; rfl
  have howner (cl : Nat) : t.owner cl = s.owner cl := by rw [h.rest]; rfl
  unfold State.seedOf
  simp only [h.prog, hreg, howner]

end

/-! ### The values of an output pass -/

section
variable (ctl : OutCtl) (o : View) (b c : Option View) (sh : Share)

@[simp] theorem AccSet.noteSat_vals (a : AccSet) (n : Nat) : (a.noteSat n).vals = a.vals := by
  unfold AccSet.noteSat
  split <;> rfl

@[simp] theorem AccSet.noteNf_vals (a : AccSet) (r q : Nat) : (a.noteNf r q).vals = a.vals := by
  unfold AccSet.noteNf
  split <;> rfl

/-- One accumulator gives one value and leaves the accumulators. -/
theorem outOne_spec (r : OutRes) (n : Nat) : (s.outOne ctl o b c sh r n).acc.vals = r.acc.vals ∧
    (s.outOne ctl o b c sh r n).vals.length = r.vals.length + 1 := by
  unfold State.outOne
  dsimp only
  split
  · refine ⟨?_, List.length_append⟩
    simp only [apply_ite AccSet.vals, AccSet.noteSat_vals, ite_self]
  · refine ⟨?_, List.length_append⟩
    simp only [apply_ite AccSet.vals, AccSet.noteSat_vals, AccSet.noteNf_vals, ite_self]

theorem outOnes_spec (l : List Nat) (r : OutRes) : (l.foldl (s.outOne ctl o b c sh) r).acc.vals = r.acc.vals ∧
    (l.foldl (s.outOne ctl o b c sh) r).vals.length = r.vals.length + l.length := by
  induction l generalizing r with
  | nil => exact ⟨rfl, rfl⟩
  | cons n l ih =>
    obtain ⟨hacc, hlen⟩ := outOne_spec (s := s) ctl o b c sh r n
    obtain ⟨hacc', hlen'⟩ := ih (s.outOne ctl o b c sh r n)
    exact ⟨hacc'.trans hacc, by rw [List.foldl_cons, hlen', hlen, List.length_cons]; omega⟩

theorem outAll_acc_vals (a : AccSet) : (s.outAll ctl o b c sh a).acc.vals = a.vals := by
  rw [State.outAll, (outOnes_spec ctl o b c sh (List.range 16) _).1]

theorem outAll_length (a : AccSet) : (s.outAll ctl o b c sh a).vals.length = 16 := by
  rw [State.outAll, (outOnes_spec ctl o b c sh (List.range 16) _).2]
  rfl

end

/-! ### The stores of an output pass -/

/-- The elements of a tile of four columns stored, as an output pass does it. -/
def State.putShare (v : View) (l : List Nat) (s : State) : State :=
  forEach ((List.range 16).zip l) s fun s x => s.putElem v (x.1 / 4) (x.1 % 4) x.2

theorem offCores_putShare (v : View) (l : List Nat) : OffCores (State.putShare v l) :=
  offCores_forEach fun x => offCores_putRaw v (x.1 / 4) (x.1 % 4) x.2

/-- Stores of sixteen elements leave the bytes outside them. -/
theorem putShare_rb (v : View) (l : List Nat) {a : Nat}
    (h : ∀ n, n < 16 → a < v.at (n / 4) (n % 4) ∨ v.at (n / 4) (n % 4) + v.t.size ≤ a) : (s.putShare v l).rb a = s.rb a := by
  refine forEach_eq (State.rb · a) _ s _ fun u x hx => putElem_kept_but u _ _ _ _ a (h x.1 ?_)
  exact List.mem_range.mp (List.of_mem_zip hx).1

/-- The stores of an output pass into the output tile and the spill buffer. -/
def State.putOut (o : View) (c : Option View) (r : OutRes) (s : State) : State :=
  (match c with
    | none => s
    | some v => s.putShare v r.spill).putShare o r.vals

theorem offCores_putOut (o : View) (c : Option View) (r : OutRes) : OffCores (State.putOut o c r) := by
  cases c with
  | none => exact offCores_putShare o r.vals
  | some v => exact (offCores_putShare v r.spill).comp (offCores_putShare o r.vals)

/-- An output pass stores its elements and updates its set. -/
theorem outStore_eq (o : View) (c : Option View) (r : OutRes) :
    s.outStore k ac o c {} r = (s.putOut o c r).setCore k ((s.core k).setAcc ac r.acc) := by
  have hput (s : State) : (forEach ((List.range 16).zip r.vals) s fun s x =>
      s.putElem o (0 + x.1 / 4) (0 + x.1 % 4) x.2) = s.putShare o r.vals := by
    simp only [Nat.zero_add]
    rfl
  rw [← (offCores_putOut o c r).core s k]
  unfold State.outStore
  dsimp only
  rw [hput]
  cases c <;> rfl

theorem outStore_rb (o : View) (c : Option View) (r : OutRes) {a : Nat}
    (h : ∀ n, n < 16 → (a < o.at (n / 4) (n % 4) ∨ o.at (n / 4) (n % 4) + o.t.size ≤ a) ∧
      ∀ v, c = some v → a < v.at (n / 4) (n % 4) ∨ v.at (n / 4) (n % 4) + v.t.size ≤ a) :
    (s.outStore k ac o c {} r).rb a = s.rb a := by
  rw [outStore_eq, State.setCore_rb]
  refine (putShare_rb o r.vals fun n hn => (h n hn).1).trans ?_
  cases c with
  | none => rfl
  | some v => exact putShare_rb v r.spill fun n hn => (h n hn).2 v rfl

theorem footBlind_setAcc (a : AccSet) : FootBlind fun s => s.setCore k ((s.core k).setAcc ac a) := by
  refine ⟨keepsAlike_setCore fun s t h => ?_, fun s j => ?_⟩
  · obtain ⟨f, hf⟩ := h.core k
    rw [hf]
    rfl
  · rw [State.setCore_core]
    split
    · next h => rw [h]; rfl
    · rfl

theorem footBlind_outStore (o : View) (c : Option View) (r : OutRes) : FootBlind (·.outStore k ac o c {} r) := by
  have h := (offCores_putOut o c r).footBlind.comp (footBlind_setAcc (k := k) (ac := ac) r.acc)
  simp only [(offCores_putOut o c r).core] at h
  simpa only [outStore_eq] using h

/-! ### An output pass -/

/-- What an output pass stores, of a set that the state after its folds has too. -/
def State.outStored (k ac : Nat) (ctl : OutCtl) (o : View) (b c : Option View) (a : AccSet) (s : State) : State :=
  s.outStore k ac o c {} (s.outAll ctl o b c {} a)

theorem footBlind_outStored (ctl : OutCtl) (o : View) (b c : Option View) (a : AccSet) :
    FootBlind (State.outStored k ac ctl o b c a) :=
  FootBlind.dep (g := fun s => s.outAll ctl o b c {} a) (f := fun r s => s.outStore k ac o c {} r)
    (fun _ _ => rfl) fun r => footBlind_outStore o c r

theorem outBad_none (h : s.bad = []) (v : View × Option View × Option View) : s.outBad v = none := by
  have hr : s.viewBad = fun _ => none := funext fun v => by simp [State.viewBad, h]
  have hw : s.viewPart = fun _ => none := funext fun v => by simp [State.viewPart, h]
  simp [State.outBad, hr, hw]

/-- An output pass that passes its checks and that nothing holds stores its values, in either state that the statement
names. -/
theorem does_out {o : View} {b c : Option View}
    (he : exec i s = .next (s.issue k i (doOut k ac ta tb tc rnd ep gid false)))
    (h : Issues s k i) (hwait : (s.core k).gangWait = false) (hshape : (s.cluster (clOf k)).shape = 0)
    (hv : s.outCheck k ((s.core k).acc' ac) ((s.core k).tr ta) ((s.core k).tr tb) (tc.map fun t => (s.core k).tr t) ep {} = .ok (o, b, c))
    (hbad : s.bad = []) (hb : Unblocked s k i (outReads (o, b, c)) (outWrites (o, b, c)))
    (hu : ((s.core k).tapQ = [] ∧ u = s) ∨ s.settleTap k (outReads (o, b, c)) (outWrites (o, b, c)) = .ok u) :
    Does i k s (u.outStored k ac (outCtl rnd ep ((s.core k).tapKeys gid.val) (s.seedOf k) (s.stepOf k)) o b c ((s.core k).acc' ac)) := by
  have hgang : s.gangFault k false = none := by simp [State.gangFault, hshape, faultIf]
  have hf := footBlind_outStored (k := k) (ac := ac) (outCtl rnd ep ((s.core k).tapKeys gid.val) (s.seedOf k) (s.stepOf k)) o b c
    ((s.core k).acc' ac)
  refine does_after he h (fun tag t ht => ?_) hb (fun t => hf.foot t k) hf.alike hu
  have hfold := folded_settleTap ht
  unfold State.outStored
  rw [← hfold.acc k ac, ← hfold.seedOf k, ← hfold.stepOf k]
  simp only [doOut, hwait, hgang, hv, outBad_none hbad, ht]
  rfl

/-- The values of an output pass are sixteen, it leaves the accumulators, and the bytes outside its elements. -/
theorem outStored_spec (ctl : OutCtl) (o : View) (b c : Option View) (a : AccSet) :
    (u.outAll ctl o b c {} a).acc.vals = a.vals ∧ (u.outAll ctl o b c {} a).vals.length = 16 ∧
      ∀ x, (∀ n, n < 16 → (x < o.at (n / 4) (n % 4) ∨ o.at (n / 4) (n % 4) + o.t.size ≤ x) ∧
        ∀ v, c = some v → (x < v.at (n / 4) (n % 4) ∨ v.at (n / 4) (n % 4) + v.t.size ≤ x)) →
        (u.outStored k ac ctl o b c a).rb x = u.rb x :=
  ⟨outAll_acc_vals ctl o b c {} a, outAll_length ctl o b c {} a, fun _ hx => outStore_rb o c _ hx⟩

/-- Settles O12: an output pass by what it stores after its folds; its values and its frame by its sixteen elements. -/
theorem matrixOutputStores : Obligations.MatrixOutputStores := by
  intro s u k l ac ta tb tc rnd ep gid o b c
  refine ⟨?_, ?_⟩
  · rintro rfl h hwait hshape hv hbad hb
    dsimp only
    exact ⟨fun hn => does_out rfl h hwait hshape hv hbad hb (.inl ⟨hn, rfl⟩),
      fun hu => does_out rfl h hwait hshape hv hbad hb (.inr hu), outStored_spec _ o b c _⟩
  · rintro t rfl h hwait hshape hv hbad hb
    dsimp only
    exact ⟨fun hn => does_out rfl h hwait hshape hv hbad hb (.inl ⟨hn, rfl⟩),
      fun hu => does_out rfl h hwait hshape hv hbad hb (.inr hu), outStored_spec _ o b c _⟩

end Sys2Proof.Machine
end


section
/-! PROOFS. Chunks of the DMA engine and transfers that end (O31). -/

namespace Sys2Proof.Machine

variable {s : State} {x : Side} {y : Xfer} {k r c n : Nat}

/-! ### Pieces of bytes one behind the other -/

/-- Pieces of bytes with the address of each, where each begins at the end of the one before. -/
def runsFrom (a : Nat) : List (List Byte) → List (Nat × List Byte)
  | [] => []
  | b :: l => (a, b) :: runsFrom (a + b.length) l

theorem joinRuns_runsFrom (a : Nat) (b : List Byte) (l : List (List Byte)) :
    joinRuns (runsFrom a (b :: l)) = [(a, (b :: l).flatten)] := by
  induction l generalizing a b with
  | nil => simp [runsFrom, joinRuns]
  | cons c l ih =>
    have h := ih (a + b.length) c
    unfold joinRuns at h ⊢
    rw [runsFrom, List.foldr_cons, h]
    exact if_pos rfl

theorem State.write_nil (s : State) (a : Nat) : s.write a [] = s := by
  have h : s.bad.filter (fun w => !decide (a ≤ w ∧ w + 8 ≤ a + 0)) = s.bad :=
    List.filter_eq_self.mpr fun w _ => by simp only [Bool.not_eq_true', decide_eq_false_iff_not]; omega
  rw [State.write, List.length_nil, h, State.wbs]

theorem State.write_of_bad_nil (h : s.bad = []) (a : Nat) (l : List Byte) : s.write a l = s.wbs a l := by
  rw [State.write, h, List.filter_nil, ← h]

/-- The joined pieces are one write. -/
theorem write_joinRuns (a : Nat) (l : List (List Byte)) :
    (forEach (joinRuns (runsFrom a l)) s fun s e => s.write e.1 e.2) = s.write a l.flatten := by
  cases l with
  | nil => exact (s.write_nil a).symm
  | cons b l => rw [joinRuns_runsFrom, forEach_cons, forEach_nil]

theorem State.wbs_append (s : State) (a : Nat) (l m : List Byte) : s.wbs a (l ++ m) = (s.wbs a l).wbs (a + l.length) m := by
  induction l generalizing s a with
  | nil => rfl
  | cons v l ih => rw [List.cons_append, State.wbs, State.wbs, ih, List.length_cons, Nat.add_assoc, Nat.add_comm 1]

/-- Of pieces of one length z, written one behind the other, piece j reads back at offset j * z. -/
theorem wbs_flatten_rbs {a z j : Nat} {l : List (List Byte)} (h : s.bad = []) (hz : ∀ b ∈ l, b.length = z) (hj : j < l.length) :
    (s.wbs a l.flatten).rbs (a + j * z) z = l[j] := by
  induction l generalizing s a j with
  | nil => exact absurd hj (Nat.not_lt_zero _)
  | cons b l ih =>
    obtain ⟨rfl, hl⟩ := List.forall_mem_cons.mp hz
    rw [List.flatten_cons, State.wbs_append]
    cases j with
    | zero =>
      rw [Nat.zero_mul, Nat.add_zero, State.rbs_congr fun i hi => State.wbs_rb_out _ _ _ _ (by omega)]
      exact State.wbs_rbs s a b h
    | succ j =>
      rw [Nat.succ_mul, Nat.add_comm (j * b.length), ← Nat.add_assoc]
      exact ih ((State.wbs_bad ..).trans h) hl (Nat.lt_of_succ_lt_succ hj)

/-! ### The elements of a side in HBM -/

/-- Whether element (r, c) of a side does not lie below address zero. -/
def Side.fromZero (x : Side) (r c : Nat) : Prop := 0 ≤ (x.addr : Int) + ((r : Int) * x.stride + c) * x.size

theorem Side.offset_add (x : Side) (r c j : Nat) : (x.addr : Int) + ((r : Int) * x.stride + (c + j : Nat)) * x.size =
    (x.addr : Int) + ((r : Int) * x.stride + c) * x.size + (j * x.size : Nat) := by
  push_cast
  ring

theorem Side.fromZero_add (h : x.fromZero r c) (j : Nat) : x.fromZero r (c + j) := by
  rw [Side.fromZero, Side.offset_add]
  exact Int.add_nonneg h (Int.natCast_nonneg _)

/-- In HBM the elements of a row follow one another. -/
theorem Side.at_add (hx : x.space = 0) (h : x.fromZero r c) (j : Nat) : x.at k r (c + j) = x.at k r c + j * x.size := by
  simp only [Side.at, hx, Side.offset_add]
  exact Int.toNat_add_nat h _

theorem Side.run_succ (x : Side) (k r c n : Nat) : x.run k r c (n + 1) = x.at k r c :: x.run k r (c + 1) n := by
  simp only [Side.run, List.range_succ_eq_map, List.map_cons, List.map_map, Nat.add_zero, Function.comp_def, Nat.succ_eq_add_one]
  simp only [Nat.add_assoc, Nat.add_comm 1]

/-- What is stored to the elements of a row in HBM are pieces one behind the other. -/
theorem Side.zip_run (f : Nat → List Byte) (hf : ∀ v, (f v).length = x.size) (hx : x.space = 0) (h : x.fromZero r c) (raws : List Nat) :
    ((raws.zip (x.run k r c raws.length)).map fun e => (e.2, f e.1)) = runsFrom (x.at k r c) (raws.map f) := by
  induction raws generalizing c with
  | nil => rfl
  | cons v l ih =>
    rw [List.length_cons, Side.run_succ, List.zip_cons_cons, List.map_cons, ih (Side.fromZero_add h 1), Side.at_add hx h,
      List.map_cons, runsFrom, hf, Nat.one_mul]

/-! ### A chunk of a COPY on this module -/

/-- One part of a chunk: its source elements read, then stored. -/
def State.copyPart (y : Xfer) (s : State) (p : Nat × Nat × Nat) : State :=
  s.storePart y p.1 p.2.1 ((y.desc.src.run y.poster.core? p.1 p.2.1 p.2.2).map fun e => s.rd e y.desc.src.size)

theorem State.partMeets_none (h : s.bad = []) (y : Xfer) : s.partMeets y = fun _ => none :=
  funext fun _ => by simp [State.partMeets, h]

/-- A transfer without an index list stores the parts of its chunk in order and goes past the chunk. -/
theorem chunkLocal_copy (h : s.bad = []) (hk : y.desc.kind = 0) :
    s.chunkLocal y = (y.parts.foldl (State.copyPart y) s).putX (y.past y.chunkLen) := by
  have hrow (a : State) (r : Nat) : a.xRow y r = some (r, r) := if_pos hk
  have hmeets : y.parts.findSome? (s.partMeets y) = none := by
    rw [State.partMeets_none h]
    exact List.findSome?_eq_none_iff.mpr fun _ _ => rfl
  unfold State.chunkLocal
  simp only [hmeets, hrow]
  rw [List.foldl_hom (fun a : State => (a, y)) (g₁ := State.copyPart y) (fun _ _ => rfl)]

/-- A part of a COPY into HBM that does not accumulate is one write. -/
theorem storePart_write {q : Cmd} (hq : y.poster = .cmd q) (hwm : y.desc.wm = false) (hsp : y.desc.dstSpace = 0)
    (h : y.desc.dst.fromZero r c) (raws : List Nat) :
    s.storePart y r c raws = s.write (y.desc.dst.at y.poster.core? r c)
      (raws.map fun v => leBytes y.desc.dst.size (y.desc.value v 0)).flatten := by
  have hval (v old : Nat) : y.desc.value v old = y.desc.value v 0 := by simp only [XDesc.value, hwm, Bool.false_eq_true, if_false]
  have hx (u : State) (a : Nat) (bs : List Byte) : u.xWrite y a bs = u.write a bs := by rw [State.xWrite, hq]
  unfold State.storePart
  simp only [hval, hx]
  rw [Side.zip_run (fun v => leBytes y.desc.dst.size (y.desc.value v 0)) (fun _ => leBytes_length ..) hsp h, write_joinRuns]

/-- The bytes of the converted source element for element j of a part from (r, c). -/
def State.converted (s : State) (y : Xfer) (r c j : Nat) : List Byte :=
  leBytes y.desc.dst.size (y.desc.value (s.rd (y.desc.src.at 0 r (c + j)) y.desc.src.size) 0)

theorem copyPart_write {q : Cmd} (hq : y.poster = .cmd q) (hwm : y.desc.wm = false) (hsp : y.desc.dstSpace = 0)
    (h : y.desc.dst.fromZero r c) :
    s.copyPart y (r, c, n) = s.write (y.desc.dst.at 0 r c) ((List.range n).map (s.converted y r c)).flatten := by
  have hk : y.poster.core? = 0 := by rw [hq]; rfl
  rw [State.copyPart, storePart_write hq hwm hsp h, hk, Side.run, List.map_map, List.map_map]
  rfl

/-- A part of a COPY into HBM: each element receives the converted source element as it stood before, and no other byte
changes. -/
theorem copyPart_spec {q : Cmd} (hq : y.poster = .cmd q) (hwm : y.desc.wm = false) (hsp : y.desc.dstSpace = 0)
    (h : y.desc.dst.fromZero r c) (hb : s.bad = []) :
    MemKeptBut s (s.copyPart y (r, c, n)) (y.desc.dst.at 0 r c) (n * y.desc.dst.size) ∧
      (s.copyPart y (r, c, n)).cores = s.cores ∧ (s.copyPart y (r, c, n)).xfers = s.xfers ∧
      ∀ j, j < n → (s.copyPart y (r, c, n)).rd (y.desc.dst.at 0 r c + j * y.desc.dst.size) y.desc.dst.size =
        y.desc.value (s.rd (y.desc.src.at 0 r (c + j)) y.desc.src.size) 0 % 2 ^ (8 * y.desc.dst.size) := by
  have hz : ∀ b ∈ (List.range n).map (s.converted y r c), b.length = y.desc.dst.size :=
    List.forall_mem_map.mpr fun _ _ => leBytes_length ..
  have hlen : ((List.range n).map (s.converted y r c)).flatten.length = n * y.desc.dst.size := by
    rw [List.length_flatten, List.map_congr_left hz, List.map_const', List.sum_replicate, List.length_map, List.length_range, smul_eq_mul]
  rw [copyPart_write hq hwm hsp h]
  refine ⟨hlen ▸ write_kept_but s _ _, State.write_cores .., ?_, fun j hj => ?_⟩
  · obtain ⟨m, b, he⟩ := State.write_eq s (y.desc.dst.at 0 r c) ((List.range n).map (s.converted y r c)).flatten
    rw [he]
  · rw [State.rd, State.write_of_bad_nil hb, wbs_flatten_rbs hb hz (by simpa using hj), List.getElem_map, List.getElem_range,
      State.converted, leNat_leBytes, Nat.pow_mul]

/-! ### DMA_CHUNK_DONE -/

section
variable {z : Xfer} {dl : Nat} (hf : s.xfers.find? (fun w => w.id = z.id) = some z) (hd : z.done = false)
  (hy : y = if dl = 0 then z else { z with cause := dl, prop := false })

include hy in
theorem id_delayed : y.id = z.id := by
  rw [hy]
  split <;> rfl

include hd hy in
theorem done_delayed : y.done = false := by
  rw [hy]
  split <;> exact hd

include hf hd hy

theorem dmaChunkDone_stale (hg : y.gen ≠ s.gen y.inst) : dmaChunkDone { id := z.id, delay := dl } s =
    (s.stale y.inst).putX { y with done := true, awaiting := 0, held := [] } := by
  simp only [dmaChunkDone, hf, ← hy, done_delayed hd hy, Bool.false_eq_true, if_false, if_pos hg]

variable (hg : y.gen = s.gen y.inst)
include hg

theorem dmaChunkDone_awaits (ha : y.awaiting ≠ 0) : dmaChunkDone { id := z.id, delay := dl } s = s := by
  simp only [dmaChunkDone, hf, ← hy, done_delayed hd hy, Bool.false_eq_true, if_false, if_neg (not_not.mpr hg), if_pos ha]

variable (ha : y.awaiting = 0)
include ha

theorem dmaChunkDone_outOfTurn (hp : s.dmaPick y.die ≠ some y.inst) : dmaChunkDone { id := z.id, delay := dl } s = s := by
  simp only [dmaChunkDone, hf, ← hy, done_delayed hd hy, Bool.false_eq_true, if_false, if_neg (not_not.mpr hg),
    if_neg (not_not.mpr ha), if_pos hp]

theorem dmaChunkDone_local (hp : s.dmaPick y.die = some y.inst) (hs : y.desc.src.remote = false) (ht : y.desc.dst.remote = false) :
    dmaChunkDone { id := z.id, delay := dl } s = (s.takeDma y).chunkLocal y := by
  simp only [dmaChunkDone, hf, ← hy, done_delayed hd hy, Bool.false_eq_true, if_false, if_neg (not_not.mpr hg),
    if_neg (not_not.mpr ha), if_neg (not_not.mpr hp), hs, ht, Bool.or_self]

end

/-! ### TRANSFER_COMPLETE -/

/-- A transfer taken from those that the engine knows. -/
def State.dropXfer (s : State) (n : Nat) : State := { s with xfers := s.xfers.filter fun w => decide (w.id ≠ n) }

section
variable (hf : s.xfers.find? (fun w => w.id = y.id) = some y)
include hf

theorem transferComplete_unfinished (hd : y.done = false) : transferComplete y.id s = s := by
  simp only [transferComplete, hf, hd, Bool.not_false, if_true]

variable (hd : y.done = true)
include hd

theorem transferComplete_stale (hg : y.gen ≠ s.gen y.inst) :
    transferComplete y.id s = ((s.dropXfer y.id).stale y.inst).orphanGone y.inst := by
  simp only [transferComplete, hf, hd, Bool.not_true, Bool.false_eq_true, if_false]
  exact if_pos hg

variable (hg : y.gen = s.gen y.inst)
include hg

theorem transferComplete_core {cnt cl val : Nat} {ln : Option Nat} (hp : y.poster = .core k cnt cl val ln) :
    transferComplete y.id s = (s.dropXfer y.id).postDone k cnt cl val y.tag.1 y.tag.2 := by
  simp only [transferComplete, hf, hd, Bool.not_true, Bool.false_eq_true, if_false, hp]
  exact if_neg (not_not.mpr hg)

theorem transferComplete_cmd {q : Cmd} (hp : y.poster = .cmd q) :
    transferComplete y.id s = (s.dropXfer y.id).complete q y.status := by
  simp only [transferComplete, hf, hd, Bool.not_true, Bool.false_eq_true, if_false, hp]
  exact if_neg (not_not.mpr hg)

end

/-! ### The signal of a finished post -/

theorem raise_xfers (cls code : Nat) (b : Block) (detail : Nat) (uid : W32) (inst : Nat) :
    (s.raise cls code b detail uid inst).xfers = s.xfers := by
  unfold State.raise State.raiseRec
  dsimp only
  repeat' split
  all_goals rfl

/-- Adding to a counter other than 62 leaves the transfers, and of each core all but the errors counted for its engines. -/
theorem bumpCnt_leaves {cl idx v : Nat} {who : W32} {tag : Tag} (h : idx ≠ 62) :
    (s.bumpCnt cl idx v who tag).xfers = s.xfers ∧ ∃ e, (s.bumpCnt cl idx v who tag).core k = { s.core k with eng := e } := by
  unfold State.bumpCnt
  dsimp only
  rw [if_neg h]
  split
  · exact ⟨raise_xfers .., State.raise_core_eq ..⟩
  · exact ⟨rfl, _, rfl⟩

/-- A value added to a counter other than 62 while nobody waits. -/
theorem addCnt_idle {cl idx v cause : Nat} {who : W32} {prop : Bool} (h : idx ≠ 62) (hw : s.waiters = []) (hh : s.hostWaits 0 = []) :
    let t := s.addCnt cl idx v who cause prop
    t.cnt cl idx = min 0xFFFF (s.cnt cl idx + v) ∧ t.mem = s.mem ∧ t.xfers = s.xfers ∧ ∃ e, t.core k = { s.core k with eng := e } := by
  have hk := bumpCnt_spec (s := s) (cl := cl) (v := v) (who := who) (tag := (cause, prop)) (.inl h)
  dsimp only
  rw [State.addCnt, wakeCnt_idle (by rw [hk.noWaiters hw]; simp) ((hk.hostWaits 0).trans hh)]
  exact ⟨(bumpCnt_cnt (.inl h)).1, hk.mem, bumpCnt_leaves h⟩

/-- The signal of a post is added to its counter while nobody waits, and its core has one post fewer in flight. -/
theorem postDone_spec {cnt cl val cause : Nat} {prop : Bool} (h : cnt ≠ 62) (hw : s.waiters = []) (hh : s.hostWaits 0 = []) :
    let t := s.postDone k cnt cl val cause prop
    t.xfers = s.xfers ∧ t.cnt cl cnt = min 0xFFFF (s.cnt cl cnt + val) ∧ (t.core k).posts = (s.core k).posts - 1 ∧
      (t.core k).g = (s.core k).g ∧ MemKept s t := by
  dsimp only [State.postDone]
  have hu : SyncKept s (s.setCore k { s.core k with posts := (s.core k).posts - 1 }) := syncKept_setCore rfl
  obtain ⟨hcnt, hmem, hx, e, hc⟩ := addCnt_idle (k := k) (cl := cl) (v := val) (cause := cause) (who := coreUid k 0 0) (prop := prop) h
    (hu.noWaiters hw) hh
  rw [hc, State.setCore_core_same]
  exact ⟨hx, hcnt, rfl, rfl, fun a => State.rb_of_mem hmem a⟩

/-- Settles O31: a chunk by what the engine finds of its transfer, a finished transfer by who posted it. -/
theorem transfersMoveAndComplete : Obligations.TransfersMoveAndComplete := by
  unfold Obligations.TransfersMoveAndComplete
  refine ⟨fun s x y q r c0 n dl hf hd hy => ?_, fun s y hf => ?_⟩
  · refine ⟨fun hg => congrArg _ (dmaChunkDone_stale hf hd hy hg), fun hg ha => congrArg _ (dmaChunkDone_awaits hf hd hy hg ha),
      fun hg ha hp => congrArg _ (dmaChunkDone_outOfTurn hf hd hy hg ha hp), fun hg ha hp hs ht hb => ?_⟩
    have hcopy (hk : y.desc.kind = 0) : dmaChunkDone { id := x.id, delay := dl } s =
        (y.parts.foldl (State.copyPart y) (s.takeDma y)).putX (y.past y.chunkLen) :=
      (dmaChunkDone_local hf hd hy hg ha hp hs ht).trans (chunkLocal_copy (s := s.takeDma y) hb hk)
    refine ⟨fun hk => congrArg _ (hcopy hk), fun hq hk hwm hsp hparts h0 => ⟨_, congrArg Host.Outcome.next (hcopy hk), ?_⟩⟩
    obtain ⟨hmem, hcores, hxfers, hval⟩ := copyPart_spec (s := s.takeDma y) (n := n) hq hwm hsp h0 hb
    rw [hparts, List.foldl_cons, List.foldl_nil]
    refine ⟨hmem, hcores, hval, ?_⟩
    rw [← id_delayed hy]
    exact congrArg (List.map _) hxfers
  · refine ⟨fun hd => congrArg _ (transferComplete_unfinished hf hd), fun hd hg => congrArg _ (transferComplete_stale hf hd hg),
      fun hd hg => ⟨fun k cnt cl val ln hp => ?_, fun q hp => congrArg _ (transferComplete_cmd hf hd hg hp)⟩⟩
    have ht := transferComplete_core hf hd hg hp
    exact ⟨congrArg _ ht, fun hcnt hw hh => ⟨_, congrArg Host.Outcome.next ht, postDone_spec (s := s.dropXfer y.id) hcnt hw hh⟩⟩

end Sys2Proof.Machine
end


section
/-! PROOFS. Host commands that move data and manage HBM buffers (O38). -/

namespace Sys2Proof.Machine

variable {s : State} {q : Nat} {c : Cmd}

/-! ### The descriptor of a command -/

@[simp] theorem State.startCmd_bad (s : State) (c : Cmd) : (s.startCmd c).bad = s.bad := rfl
@[simp] theorem State.startCmd_buffers (s : State) (c : Cmd) : (s.startCmd c).buffers = s.buffers := rfl

section
variable {a : Nat} (ha : c.fld 0x10 8 = a)
include ha

theorem cmdDesc_ok (h64 : a % 64 = 0) (htop : a + 64 ≤ hbmTop) (hown : s.ownsHbm c.inst a 64 = true) (hb : s.bad = []) :
    s.cmdDesc c = .ok (s.rbs a 64) := by
  subst ha
  unfold State.cmdDesc
  dsimp only
  rw [if_neg (not_not.mpr h64), if_neg (by simp [hown, Nat.not_lt.mpr htop]), hb]
  rfl

theorem cmdDesc_unaligned (h64 : a % 64 ≠ 0) : s.cmdDesc c = .error (0x11, none) := by
  subst ha
  exact if_pos h64

theorem cmdDesc_foreign (h64 : a % 64 = 0) (h : hbmTop < a + 64 ∨ s.ownsHbm c.inst a 64 = false) :
    s.cmdDesc c = .error (0x13, none) := by
  subst ha
  unfold State.cmdDesc
  dsimp only
  rw [if_neg (not_not.mpr h64), if_pos (by simpa using h)]
  rfl

end

/-! ### COPY and COLLECTIVE -/

section
variable (h : s.nextOf q Op.copy (fun _ => true) = some c)
include h

theorem copy_refused {code : Nat} (hd : (s.startCmd c).cmdDesc c = .error (code, none)) :
    copy q s = (s.startCmd c).complete c code := by
  simp only [copy, h, hd]
  rfl

variable {b : List Byte} (hd : (s.startCmd c).cmdDesc c = .ok b)
include hd

theorem copy_posted {d : XDesc} (hx : (s.startCmd c).checkX c.inst none b = .ok d) :
    copy q s = (s.startCmd c).postX c.inst (.cmd c) d c.step (0, false) := by
  simp only [copy, h, hd, hx]

theorem copy_flawed {f : Nat} (hx : (s.startCmd c).checkX c.inst none b = .error f) :
    copy q s = (s.startCmd c).complete c (faultCode f) := by
  simp only [copy, h, hd, hx]

end

section
variable (h : s.nextOf q Op.collective (fun _ => true) = some c)
include h

theorem collective_refused {code : Nat} (hd : (s.startCmd c).cmdDesc c = .error (code, none)) :
    collective q s = (s.startCmd c).complete c code := by
  simp only [collective, h, hd]
  rfl

variable {b : List Byte} (hd : (s.startCmd c).cmdDesc c = .ok b)
include hd

theorem collective_posted {d : CDesc} {p : Nat} (hx : (s.startCmd c).checkC c.inst none b = .ok (d, p)) :
    collective q s = (s.startCmd c).postC c.inst (.cmd c) 0 d p c.step (0, false) := by
  simp only [collective, h, hd, hx]

theorem collective_flawed {f : Nat} (hf : f ≠ 0x100) (hx : (s.startCmd c).checkC c.inst none b = .error f) :
    collective q s = (s.startCmd c).complete c (faultCode f) := by
  simp only [collective, h, hd, hx, if_neg hf]

end

/-! ### ALLOC -/

/-- A free index is that of no buffer. -/
theorem freeIndex_free {j : Nat} (h : s.freeIndex = some j) : ∀ x ∈ s.buffers, x.idx ≠ j := by
  intro x hx hj
  have hfind := List.find?_some (Option.eq_some_of_filter_eq_some h)
  simp only [Bool.not_eq_true', List.any_eq_false, decide_eq_true_eq] at hfind
  exact hfind x hx hj

/-- A free run lies in the pool and meets no buffer. -/
theorem freeRun_free {n b : Nat} (h : s.freeRun n = some b) :
    b + n ≤ s.poolGranules ∧ ∀ x ∈ s.buffers, b + n ≤ x.base / 2 ^ 21 ∨ x.base / 2 ^ 21 + x.granules ≤ b := by
  have hfind := List.find?_some h
  simp only [Bool.and_eq_true, decide_eq_true_eq, List.all_eq_true, List.mem_map, forall_exists_index, and_imp,
    forall_apply_eq_imp_iff₂] at hfind
  exact hfind

/-- The buffer that an ALLOC of n granules makes at granule b with index j. -/
def State.newBuffer (s : State) (c : Cmd) (j b n : Nat) : Buffer :=
  { idx := j, owner := c.inst, ownerGen := (s.reg (R.instGen c.inst)).truncate 32, base := b * 2 ^ 21, granules := n }

section
variable (h : s.nextOf q Op.alloc (fun _ => true) = some c) {n : Nat} (hn : c.fld 0x10 4 = n)
include h hn

theorem alloc_none (h0 : n = 0) : alloc q s = (s.startCmd c).complete c 0x11 := by
  simp only [alloc, h, hn, if_pos h0]
  rfl

variable (h0 : n ≠ 0)
include h0

theorem alloc_taken {j b : Nat} (hj : (s.startCmd c).freeIndex = some j) (hb : (s.startCmd c).freeRun n = some b)
    (hquota : (s.startCmd c).heldGranules c.inst + n ≤ (s.startCmd c).fld (R.instQuota c.inst) 0 18) :
    alloc q s = ({ s.startCmd c with buffers := s.buffers ++ [(s.startCmd c).newBuffer c j b n] } : State).completeWith c 0
      (j + sget (fun _ => 0) (s.startCmd c).bufGen j % 16 * 2 ^ 16) (BitVec.ofNat 64 (b * 2 ^ 21)) none := by
  simp only [alloc, h, hn, if_neg h0, hj, hb, if_neg (Nat.not_lt.mpr hquota)]
  rfl

theorem alloc_noSpace (hno : (s.startCmd c).freeIndex = none ∨ (s.startCmd c).freeRun n = none ∨
      (s.startCmd c).fld (R.instQuota c.inst) 0 18 < (s.startCmd c).heldGranules c.inst + n) :
    alloc q s = (s.startCmd c).noSpace c := by
  simp only [alloc, h, hn, if_neg h0]
  split
  · next hj hb =>
    rw [hj, hb] at hno
    exact if_pos (by simpa using hno)
  · rfl

end

/-! ### FREE -/

/-- The buffer of index j is being freed for a command. -/
def Buffer.freed (j : Nat) (c : Cmd) (x : Buffer) : Buffer := if x.idx = j then { x with freeing := true, freer := some c } else x

theorem Buffer.freed_freeing {j : Nat} {x : Buffer} (h : (x.freed j c).idx = j) : (x.freed j c).freeing = true := by
  by_cases hx : x.idx = j
  · rw [Buffer.freed, if_pos hx]
  · rw [Buffer.freed, if_neg hx] at h
    exact absurd h hx

section
variable (h : s.nextOf q Op.free (fun _ => true) = some c) {j : Nat} (hj : c.fld 0x10 4 % 65536 = j)
include h hj

theorem free_unknown (hb : s.buffers.find? (fun b => b.idx = j) = none) :
    free q s = (s.startCmd c).refuseFree c 0 0x14 (sget (fun _ => 0) (s.startCmd c).lastOwner j) j := by
  simp only [free, h, hj, State.startCmd_buffers, hb]
  rfl

variable {b : Buffer} (hb : s.buffers.find? (fun b => b.idx = j) = some b)
include hb

theorem free_dead (hd : b.freeing = true ∨ c.fld 0x10 4 / 65536 % 16 ≠ sget (fun _ => 0) (s.startCmd c).bufGen j % 16) :
    free q s = (s.startCmd c).refuseFree c 0 0x14 b.owner j := by
  simp only [free, h, hj, State.startCmd_buffers, hb]
  exact if_pos hd

variable (hf : b.freeing = false) (hg : c.fld 0x10 4 / 65536 % 16 = sget (fun _ => 0) (s.startCmd c).bufGen j % 16)
include hf hg

theorem free_foreign (ho : b.owner ≠ c.inst ∨ b.ownerGen ≠ ((s.startCmd c).reg (R.instGen c.inst)).truncate 32) :
    free q s = (s.startCmd c).refuseFree c 1 0x13 b.owner j := by
  simp only [free, h, hj, State.startCmd_buffers, hb]
  rw [if_neg (by simp [hf, hg])]
  exact if_pos ho

theorem free_taken (ho : b.owner = c.inst) (hog : b.ownerGen = ((s.startCmd c).reg (R.instGen c.inst)).truncate 32) :
    free q s = { s.startCmd c with buffers := s.buffers.map (Buffer.freed j c) } := by
  simp only [free, h, hj, State.startCmd_buffers, hb]
  rw [if_neg (by simp [hf, hg]), if_neg (by simp [ho, hog])]
  rfl

end

/-! ### FREE_COMPLETE -/

section
variable {b : Buffer} (hb : s.buffers.find? (fun x => x.idx = b.idx) = some b)
include hb

theorem freeComplete_inFlight (h : s.inFlight b = true) : freeComplete b.idx s = s := by
  simp only [freeComplete, hb, h, Bool.or_true, if_true]

theorem freeComplete_idle (hf : b.freeing = true) (hc : b.freer = some c) (h : s.inFlight b = false) :
    freeComplete b.idx s = (s.dropBuffer b).complete c 0 := by
  simp only [freeComplete, hb, h, hf, hc, Bool.not_true, Bool.or_self, Bool.false_eq_true, if_false]
  rfl

end

theorem dropBuffer_spec (s : State) (b : Buffer) : (∀ x ∈ (s.dropBuffer b).buffers, x.idx ≠ b.idx) ∧
    sget (fun _ => 0) (s.dropBuffer b).bufGen b.idx = (sget (fun _ => 0) s.bufGen b.idx + 1) % 16 :=
  ⟨fun _ hx => of_decide_eq_true (List.mem_filter.mp hx).2, sget_sput_same ..⟩

/-- Settles O38: COPY and COLLECTIVE by what becomes of their descriptor, ALLOC by what the pool has free, FREE and
FREE_COMPLETE by the buffer that is named. -/
theorem hostTransfersAndBuffers : Obligations.HostTransfersAndBuffers := by
  unfold Obligations.HostTransfersAndBuffers
  refine ⟨fun s q c => ⟨fun h => ?_, fun h => ?_, fun h => ?_, fun h => ?_⟩, fun s b c hb hf hc => ?_⟩
  · exact ⟨fun h64 htop hown hb d hx => congrArg _ (copy_posted h (cmdDesc_ok rfl h64 htop hown hb) hx),
      fun h64 htop hown hb f hx => congrArg _ (copy_flawed h (cmdDesc_ok rfl h64 htop hown hb) hx),
      fun h64 => congrArg _ (copy_refused h (cmdDesc_unaligned rfl h64)),
      fun h64 ho => congrArg _ (copy_refused h (cmdDesc_foreign rfl h64 ho))⟩
  · exact ⟨fun h64 htop hown hb d p hx => congrArg _ (collective_posted h (cmdDesc_ok rfl h64 htop hown hb) hx),
      fun h64 htop hown hb f hf hx => congrArg _ (collective_flawed h (cmdDesc_ok rfl h64 htop hown hb) hf hx),
      fun h64 => congrArg _ (collective_refused h (cmdDesc_unaligned rfl h64)),
      fun h64 ho => congrArg _ (collective_refused h (cmdDesc_foreign rfl h64 ho))⟩
  · refine ⟨fun h0 => congrArg _ (alloc_none h rfl h0), fun j b h0 hj hb hquota => ?_,
      fun h0 hno => congrArg _ (alloc_noSpace h rfl h0 hno)⟩
    obtain ⟨hpool, hapart⟩ := freeRun_free hb
    exact ⟨⟨(s.startCmd c).newBuffer c j b _, rfl, rfl, rfl, rfl, rfl, rfl, congrArg _ (alloc_taken h rfl h0 hj hb hquota)⟩, hpool,
      fun x hx => ⟨freeIndex_free hj x hx, hapart x hx⟩⟩
  · refine ⟨fun hb => congrArg _ (free_unknown h rfl hb), fun b hb hd => congrArg _ (free_dead h rfl hb hd),
      fun b hb hf hg ho => congrArg _ (free_foreign h rfl hb hf hg ho),
      fun b hb hf hg ho hog => ⟨_, congrArg Host.Outcome.next (free_taken h rfl hb hf hg ho hog), ?_, List.length_map .., fun _ => rfl⟩⟩
    exact List.forall_mem_map.mpr fun x _ => Buffer.freed_freeing
  · exact ⟨fun h => congrArg _ (freeComplete_inFlight hb h),
      fun h => ⟨congrArg _ (freeComplete_idle hb hf hc h), dropBuffer_spec s b⟩⟩

end Sys2Proof.Machine
end


section
/-! PROOFS. The curvature tap: the tap's registers, its folds, and their ends (O17). -/

namespace Sys2Proof.Machine

variable {s t u : State} {k : Nat} {i : Instr} {tag : Tag} {tf : TReg} {e : TapEntry} {r : List TapEntry}

/-! ### The oldest entry whose fold has not begun -/

theorem Core.unfolded_of_getElem? {c : Core} (h : c.tapQ[c.folding]? = some e) : c.unfolded = e :: c.tapQ.drop (c.folding + 1) := by
  obtain ⟨hlt, rfl⟩ := List.getElem?_eq_some_iff.mp h
  exact List.drop_eq_getElem_cons hlt

/-- The fold of one entry leaves the entry begun. -/
theorem foldFirst_one {auto : Bool} (hq : (s.core k).unfolded = e :: r) (hu : s.foldEntry k e = .ok u) :
    s.foldFirst k 1 auto = .ok (u.setCore k ((u.core k).beginFold (s.foldFoot k e) auto)) := by
  rw [Core.unfolded] at hq
  simp only [State.foldFirst, hq, hu]

/-! ### SYRK.TAP and TAP.DRAIN by what is queued (R163, R166) -/

theorem doSyrkTap_empty (h : (s.core k).unfolded = []) : doSyrkTap k tf tag s = .next (s.countExtra k 4) := by
  simp only [doSyrkTap, h]

theorem doSyrkTap_otherSlice (hq : (s.core k).unfolded = e :: r) (hs : e.slice ≠ (s.core k).tr tf) :
    doSyrkTap k tf tag s = .fault Cause.tileRange := by
  simp only [doSyrkTap, hq, if_pos hs]

theorem doSyrkTap_folds (hq : (s.core k).unfolded = e :: r) (hs : e.slice = (s.core k).tr tf) (hu : s.foldEntry k e = .ok u) :
    doSyrkTap k tf tag s = .next ((u.setCore k ((u.core k).beginFold (s.foldFoot k e) false)).note k
      (s.foldFoot k e).reads (s.foldFoot k e).writes) := by
  simp only [doSyrkTap, hq, if_neg (not_not.mpr hs), foldFirst_one hq hu]

theorem doTapDrain_empty (h : (s.core k).tapQ = []) : doTapDrain k tf tag s = .next s := by simp [doTapDrain, h]

section
variable (hq : (s.core k).tapQ ≠ []) (hs : ∀ e ∈ (s.core k).unfolded, e.slice = (s.core k).tr tf)
include hq hs

theorem doTapDrain_holds (hw : ∃ e ∈ (s.core k).unfolded, s.foldWaits k e = true) : doTapDrain k tf tag s = .hold := by
  unfold doTapDrain
  dsimp only
  rw [if_neg (by simpa using hq), if_neg (by simpa using hs), if_pos (List.any_eq_true.mpr hw)]

theorem doTapDrain_folds (hw : ∀ e ∈ (s.core k).unfolded, s.foldWaits k e = false)
    (hu : s.foldFirst k (s.core k).unfolded.length = .ok u) : doTapDrain k tf tag s = .holdWith u := by
  unfold doTapDrain
  dsimp only
  rw [if_neg (by simpa using hq), if_neg (by simpa using hs), if_neg (by simpa using hw), hu]

end

/-- An instruction that a core takes, and whose act holds with a mark. -/
theorem issue_holdWith {act : Tag → State → Act} (h : Issues s k i) (ha : ∀ tag, act tag s = .holdWith u) :
    s.issue k i act = u.hold k i := by
  obtain ⟨tag, target, late, he⟩ := issue_settles act h
  rw [he, ha, State.settle]

/-- An instruction that a core takes, and whose act changes nothing that a program sees, changes nothing but its core's pc. -/
theorem writes_id_of_quiet {act : Tag → State → Act} (he : exec i s = .next (s.issue k i act)) (h : Issues s k i)
    (ha : ∀ tag, act tag s = .next u) (hq : Quiet s u) (hfoot : (u.core k).foot = (s.core k).foot) : Writes i k s id := by
  obtain ⟨⟨-, -, -, hnone, -⟩, -⟩ := id h
  have hd : Does i k s u := does_of he h ha (by rw [hfoot, hnone]; exact unblocked_nil ..)
  exact Does.writes (f := id) (Does.congr hd (hq.symm.trans (quiet_setCore s k (s.core k) rfl)))

theorem quiet_countExtra (s : State) (k e : Nat) : Quiet s (s.countExtra k e) := quiet_setCore _ _ _ (by rfl)

/-- TAP.AUTO names its slice outside strict mode, and does nothing in it (R163). -/
theorem writes_tapAuto {l : Launch} (h : Issues s k (.tapAuto k l tf)) : Writes (.tapAuto k l tf) k s fun c =>
    if s.strict = true then c else { c with tapAuto := some (c.tr tf) } := by
  by_cases hm : s.strict = true
  · simp only [if_pos hm]
    exact writes_id (act := doTapAuto k tf) rfl h fun _ => congrArg Act.next (if_pos hm)
  · simp only [if_neg hm]
    exact writes_of (act := doTapAuto k tf) (f := fun c => { c with tapAuto := some (c.tr tf) }) rfl h
      (fun _ => congrArg Act.next (if_neg hm)) rfl

/-! ### Folds in idle beats (R163, R164) -/

/-- An idle matrix array, of a core outside strict mode, folds the oldest entry of the slice that TAP.AUTO named. -/
theorem tapAutoFold_folds (hst : (s.core k).st = .running ∨ (s.core k).st = .waiting) (hstrict : s.strict = false)
    (hrun : ((s.core k).slots' 1).running = none) (hqueued : ((s.core k).slots' 1).queued = none) (hfold : (s.core k).folding = 0)
    (hgang : (s.cluster (clOf k)).shape = 0 ∨ ((s.cluster (clOf k)).gangRun = none ∧ (s.cluster (clOf k)).gangQueued = none))
    (hauto : (s.core k).tapAuto = some e.slice) (hq : (s.core k).tapQ = e :: r) (hw : s.foldWaits k e = false)
    (hu : s.foldEntry k e = .ok u) :
    tapAutoFold k s = u.setCore k ((u.core k).beginFold (s.foldFoot k e) true) := by
  have hidle : ¬(decide ((s.cluster (clOf k)).shape ≠ 0) &&
      ((s.cluster (clOf k)).gangRun.isSome || (s.cluster (clOf k)).gangQueued.isSome)) = true := by
    rcases hgang with h | ⟨h, h'⟩
    · simp [h]
    · simp [h, h']
  have hfirst : (s.core k).unfolded = e :: r := by rw [Core.unfolded, hfold, hq, List.drop_zero]
  unfold tapAutoFold
  dsimp only
  rw [if_pos ⟨hst, by simp [hstrict], by simp [hrun], by simp [hqueued], hidle, hfold⟩]
  simp only [hauto, hq, hw, foldFirst_one hfirst hu, Bool.false_eq_true, not_false_eq_true, and_self, if_true]

/-! ### The end of a fold (R164) -/

theorem GangKept.gangQueued (h : GangKept s t) {cl : Nat} : (t.cluster cl).gangQueued = (s.cluster cl).gangQueued :=
  congrArg (·.2.2.1) (h.gang_eq cl)

theorem gangKept_promote (e : Nat) : GangKept s (s.promote k e) := by
  unfold State.promote
  dsimp only
  split
  · split
    · exact (gangKept_setCore _ _ _ (by rfl)).trans (gangKept_startPass ..)
    · exact .refl s
  · exact .refl s

theorem gangKept_goOn : GangKept s (s.goOn k) := by
  unfold State.goOn
  simp only [List.foldl]
  exact ((((gangKept_setCore _ _ _ (by rfl)).trans (gangKept_promote 1)).trans (gangKept_promote 2)).trans
    (gangKept_promote 3)).trans (gangKept_promote 5)

/-- What the core and what waits for it have heard once its oldest fold, of entry e, is over. -/
def State.foldHeard (s : State) (k : Nat) (e : TapEntry) : State :=
  let s := s.inputDone k 4 e.foot (0, false)
  (if e.auto then s.autoFoldDone k else s).goOn k

theorem endsOn_foldHeard : EndsOn k s (s.foldHeard k e) := by
  unfold State.foldHeard
  dsimp only
  refine (endsOn_inputDone (e := 4) e.foot (0, false)).trans (EndsOn.trans ?_ endsOn_goOn)
  split
  · exact endsOn_setCore (by rfl)
  · exact endsOn_of_quiet (.refl _)

theorem gangKept_foldHeard : GangKept s (s.foldHeard k e) := by
  unfold State.foldHeard
  dsimp only
  have hinput : GangKept s (s.inputDone k 4 e.foot (0, false)) := gangKept_setCore _ _ _ (by rfl)
  refine (hinput.trans ?_).trans gangKept_goOn
  split
  · exact gangKept_setCore _ _ _ (by rfl)
  · exact .refl _

/-- The queued ganged pass of a cluster hears of a fold that an idle beat began. -/
def State.gangHearsFold (s : State) (cl : Nat) (auto : Bool) : State :=
  let u := s.cluster cl
  let hear (p : GangPass) : GangPass := if auto then { p with late := p.late.hear s.beat p.target (4, false) } else p
  s.setCluster cl { u with gangQueued := u.gangQueued.map hear }

theorem gangHearsFold_gangQueued {cl : Nat} (auto : Bool) (h : (s.cluster cl).gangQueued = none) :
    ((s.gangHearsFold cl auto).cluster cl).gangQueued = none := by
  rw [State.gangHearsFold, State.setCluster_cluster_same, h]
  rfl

theorem quiet_gangHearsFold (s : State) (cl : Nat) (auto : Bool) : Quiet s (s.gangHearsFold cl auto) := quiet_setCluster _ _ _ rfl

/-- The state with the oldest fold of core k over. -/
def State.endFold (s : State) (k : Nat) (r : List TapEntry) : State :=
  s.setCore k { s.core k with tapQ := r, folding := (s.core k).folding - 1 }

section
variable (hq : (s.core k).tapQ = e :: r) (hf : (s.core k).folding ≠ 0) (hs : (s.core k).suspended = false)
include hq hf hs

theorem tapFoldComplete_eq :
    tapFoldComplete k s = (((s.endFold k r).foldHeard k e).gangHearsFold (clOf k) e.auto).promoteGang (clOf k) := by
  have hgo : ¬((s.core k).folding = 0 ∨ (s.core k).suspended = true) := by simp [hf, hs]
  unfold tapFoldComplete
  dsimp only
  rw [hq]
  exact if_neg hgo

/-- Without a ganged pass queued, the end of a fold frees its entry, and no other register that software sees changes. -/
theorem tapFoldComplete_frees (hg : (s.cluster (clOf k)).gangQueued = none) :
    Gives (.tapFoldComplete k) s fun t => OthersKept s t k ∧ MemKept s t ∧
      (t.core k).soft = ({ s.core k with tapQ := r, folding := (s.core k).folding - 1 } : Core).soft := by
  have hnone : (((s.endFold k r).foldHeard k e).cluster (clOf k)).gangQueued = none := gangKept_foldHeard.gangQueued.trans hg
  obtain ⟨hsoft, hothers, hmem⟩ := (endsOn_foldHeard (s := s.endFold k r) (k := k) (e := e)).trans
    (endsOn_of_quiet (quiet_gangHearsFold _ (clOf k) e.auto))
  refine ⟨_, congrArg Host.Outcome.next ((tapFoldComplete_eq hq hf hs).trans (promoteGang_empty (gangHearsFold_gangQueued _ hnone))),
    fun j hj => ?_, fun a => State.rb_of_mem hmem a, ?_⟩
  · rw [hothers j hj, State.endFold, State.setCore_core_ne _ _ _ _ hj]
  · rw [hsoft, State.endFold, State.setCore_core_same]

end

/-- Settles O17: the acts of the tap class by what is queued, the fold of an idle beat, and the end of a fold. -/
theorem curvatureTap : Obligations.CurvatureTap := by
  refine ⟨fun s k l tf side n gid => ⟨fun h => ?_, fun h => ?_, fun h => ?_, fun h hn => ?_, fun h e he => ⟨fun hs => ?_, fun hs hb u hu => ?_⟩,
    fun h hn => ?_, fun h hq hs => ⟨fun hw => ?_, fun hw u hu => ?_⟩⟩, fun s u k tf e r hst hstrict hrun hqueued hfold hgang hauto hq hs hw hu => ?_,
    fun s k e r hq hf hs hg => tapFoldComplete_frees hq hf hs hg⟩
  · exact writes_of (act := doTapArm k tf side n gid)
      (f := fun c => { c with tap := some { slice := c.tr tf, side := side, s := n, gid := gid.val } }) rfl h (fun _ => rfl) rfl
  · exact writes_of (act := doTapOff k) (f := fun c => { c with tap := none }) rfl h (fun _ => rfl) rfl
  · exact writes_tapAuto h
  · exact writes_id_of_quiet (act := doSyrkTap k tf) rfl h (fun _ => doSyrkTap_empty (List.drop_eq_nil_of_le hn)) (quiet_countExtra s k 4)
      (by rw [State.countExtra, State.setCore_core_same]; rfl)
  · exact faults_of (act := doSyrkTap k tf) rfl h fun _ => doSyrkTap_otherSlice (Core.unfolded_of_getElem? he) hs
  · refine Does.congr (does_of (act := doSyrkTap k tf) rfl h (fun _ => doSyrkTap_folds (Core.unfolded_of_getElem? he) hs hu) ?_)
      (quiet_note ..).symm
    rw [State.note_core_same]
    exact hb
  · exact writes_id (act := doTapDrain k tf) rfl h fun _ => doTapDrain_empty hn
  · exact congrArg _ (issue_hold (act := doTapDrain k tf) h fun _ => doTapDrain_holds hq hs hw)
  · exact congrArg _ (issue_holdWith (act := doTapDrain k tf) h fun _ => doTapDrain_folds hq hs hw hu)
  · exact congrArg _ (tapAutoFold_folds hst hstrict hrun hqueued hfold hgang (hs ▸ hauto) hq hw hu)

end Sys2Proof.Machine
end


section
/-! PROOFS. Root dispatch and the fold of a factor element (O45). -/

namespace Sys2Proof.Machine

variable {s : State} {i cl : Nat} {j : RootJob} {r : List RootJob}

/-- A value added to a counter other than 62 while nobody waits leaves the owners' records. -/
theorem addCnt_insts {idx v cause : Nat} {who : W32} {prop : Bool} (h : idx ≠ 62) (hw : s.waiters = []) (hh : s.hostWaits 0 = []) :
    (s.addCnt cl idx v who cause prop).insts = s.insts := by
  have hk := bumpCnt_spec (s := s) (cl := cl) (v := v) (who := who) (tag := (cause, prop)) (.inl h)
  rw [State.addCnt, wakeCnt_idle (by rw [hk.noWaiters hw]; simp) ((hk.hostWaits 0).trans hh)]
  exact hk.insts

/-- A dispatch word has 64 bytes (Table 8.3). -/
theorem dispatchWord_length (y : Layer) (l g : Nat) : (s.dispatchWord y l g).length = 64 := by
  simp [State.dispatchWord]

/-- An owner's record once its first queued block j has gone to cluster cl. -/
def Inst.dispatch (x : Inst) (j : RootJob) (r : List RootJob) (cl : Nat) : Inst :=
  { x with jobs := r, outstanding := x.outstanding ++ [{ j with cl := cl }], dispatched := x.dispatched + 1 }

/-- The state with the block's dispatch word written to its cluster, before the cluster's counter hears of it. -/
def State.dispatched (s : State) (i : Nat) (j : RootJob) (r : List RootJob) (cl : Nat) : State :=
  (s.setInst i ((s.inst i).dispatch j r cl)).write (cbBase cl + 0x3FFFC0) (s.dispatchWord (s.layer i j.layer) j.layer j.block)

theorem rootDispatch_sends (hj : (s.inst i).jobs.mergeSort RootJob.le = j :: r) (hcl : s.rootCluster i = some cl) :
    rootDispatch i s = (s.dispatched i j r cl).addCnt cl 63 256 (gangUid cl 3) 4 false := by
  simp only [rootDispatch, hj, hcl]
  rfl

theorem rootDispatch_idle (h : (s.inst i).jobs = [] ∨ s.rootCluster i = none) : rootDispatch i s = s := by
  unfold rootDispatch
  dsimp only
  split
  · next hj hcl =>
    rcases h with h | h
    · rw [h, List.mergeSort_nil] at hj
      cases hj
    · rw [h] at hcl
      cases hcl
  · rfl

/-- What a dispatch does while nobody waits: the word is written, and the counter gains 256 (R183). -/
theorem dispatched_spec (hb : s.bad = []) (hw : s.waiters = []) (hh : s.hostWaits 0 = []) :
    let b := s.dispatchWord (s.layer i j.layer) j.layer j.block
    let t := (s.dispatched i j r cl).addCnt cl 63 256 (gangUid cl 3) 4 false
    t.rbs (cbBase cl + 0x3FFFC0) b.length = b ∧ MemKeptBut s t (cbBase cl + 0x3FFFC0) b.length ∧
      t.cnt cl 63 = min 0xFFFF (s.cnt cl 63 + 256) ∧ t.inst i = (s.inst i).dispatch j r cl := by
  intro b t
  obtain ⟨m, bad, hd⟩ : ∃ m bad, s.dispatched i j r cl = { s.setInst i ((s.inst i).dispatch j r cl) with mem := m, bad := bad } :=
    State.write_eq ..
  have hhosts : (s.dispatched i j r cl).hostWaits 0 = [] := hd ▸ hostWaits_setInst (i := i) (x := (s.inst i).dispatch j r cl) rfl hh
  have hwaiters : (s.dispatched i j r cl).waiters = [] := hd ▸ hw
  have hinsts : t.insts = (s.dispatched i j r cl).insts := addCnt_insts (by decide) hwaiters hhosts
  obtain ⟨hcnt, hmem, -⟩ := addCnt_idle (k := 0) (s := s.dispatched i j r cl) (cl := cl) (idx := 63) (v := 256) (cause := 4)
    (who := gangUid cl 3) (prop := false) (by decide) hwaiters hhosts
  refine ⟨?_, fun a ha => ?_, hcnt.trans (by rw [hd]; rfl), ?_⟩
  · exact (State.rbs_of_mem hmem ..).trans (write_rbs _ _ b hb)
  · exact (State.rb_of_mem hmem a).trans (write_kept_but _ _ b a ha)
  · rw [State.inst, hinsts, hd]
    exact State.setInst_inst_same ..

/-- Settles O45: a dispatch writes its word and adds to counter 63; the fold of an element is R171's. -/
theorem Roots.rootDispatch : Obligations.RootDispatch := by
  refine ⟨fun s i cl j r hj hcl hb hw hh => ?_, fun s i h => congrArg _ (rootDispatch_idle h), fun beta omb scale f st => ⟨rfl, rfl⟩⟩
  obtain ⟨hword, hkept, hcnt, hinst⟩ := dispatched_spec (i := i) (j := j) (r := r) (cl := cl) hb hw hh
  rw [dispatchWord_length] at hword hkept
  exact ⟨_, congrArg Host.Outcome.next (rootDispatch_sends hj hcl), dispatchWord_length .., hword, hkept, hcnt,
    congrArg Inst.jobs hinst, congrArg Inst.outstanding hinst⟩

end Sys2Proof.Machine
end


section
/-! PROOFS. What the updates of a step window leave of gates, registers and memory (used for O34 and O43). -/

namespace Sys2Proof.Machine

/-! ### A key written twice -/

/-- A listed value that is written over leaves nothing behind, in every table. -/
theorem sput_sput {α : Type} [DecidableEq α] (d : Nat → α) (m : Sparse α) (a : Nat) {v : α} (w : α) (hv : v ≠ d a) :
    sput d (sput d m a v) a w = sput d m a w := by
  induction m with
  | nil => simp [sput, sdel, hv]
  | cons e r ih =>
    obtain ⟨k, x⟩ := e
    rcases Nat.lt_trichotomy a k with h | rfl | h
    · simp [sput, hv, h]
    · simp [sput, hv]
    · simp [sput, h.not_gt, h.ne', ih]

variable {s : State} {i : Nat}

theorem State.setInst_setInst {x : Inst} (y : Inst) (hx : x ≠ {}) : (s.setInst i x).setInst i y = s.setInst i y := by
  simp only [State.setInst, sput_sput (fun _ => {}) _ _ y hx]

@[simp] theorem State.setGate_gate_same (g : Gate) : (s.setGate i g).gate i = g := congrArg Inst.gate (State.setInst_inst_same ..)

theorem State.setGate_setGate {g : Gate} (h : Gate) (hg : g ≠ {}) : (s.setGate i g).setGate i h = s.setGate i h := by
  have hx : ({ s.inst i with gate := g } : Inst) ≠ {} := fun he => hg (congrArg Inst.gate he)
  rw [State.setGate, State.setGate, State.setInst_inst_same, State.setInst_setInst _ hx]
  rfl

/-! ### The gates after a change elsewhere -/

theorem State.gate_of_insts {s t : State} (h : t.insts = s.insts) (i : Nat) : t.gate i = s.gate i := by
  rw [State.gate, State.inst, h]
  rfl

theorem State.raise_insts (cls code : Nat) (b : Block) (detail : Nat) (uid : W32) (inst cmd : Nat) (lastUid : W32) (ctx : List Byte)
    (flags : Nat) : (s.raise cls code b detail uid inst cmd lastUid ctx flags).insts = s.insts := by
  unfold State.raise
  simp only [State.raiseRec]
  repeat' split
  all_goals simp

theorem State.markLaunch_insts (id : Nat) : (s.markLaunch i id).insts = s.insts := by
  unfold State.markLaunch
  split <;> rfl

theorem State.rawWrite_insts (off : Nat) (v : W64) : (s.rawWrite off v).insts = s.insts := by
  unfold State.rawWrite
  split <;> rfl

theorem State.newestIsActive_insts : (s.newestIsActive i).insts = s.insts := by
  refine forEach_keeps (fun t => t.insts = s.insts) _ _ _ (fun t n ht => ?_) rfl
  dsimp only
  split
  · exact ht
  · exact (State.write_insts ..).trans ht

theorem State.undoTaps_insts : (s.undoTaps i).insts = s.insts := by
  refine forEach_keeps (fun t => t.insts = s.insts) _ _ _ (fun t k ht => ?_) rfl
  dsimp only
  split <;> exact ht

theorem State.undoWork_gate : (s.undoWork i).gate i = s.gate i := by
  simp [State.undoWork, State.gate, State.inst, State.setInst]

/-! ### Undo, taint and skip (R205) -/

/-- The gate of a step whose undo has begun. -/
def Gate.undoing (g : Gate) : Gate :=
  { g with undo := true, posts := g.posts.map fun p => { p with discard := true }, updated := [], moments := [] }

theorem State.beginUndo_gate : (s.beginUndo i).gate i = (s.gate i).undoing := by
  unfold State.beginUndo
  rw [State.gate_of_insts State.undoTaps_insts, State.gate_of_insts State.newestIsActive_insts, State.undoWork_gate]
  exact State.setGate_gate_same _

theorem State.beginTaint_gate : (s.beginTaint i).gate i = Gate.undoing { s.gate i with st := .tainted, tainted := true } := by
  rw [State.beginTaint, State.beginUndo_gate, State.setGate_gate_same]

/-- A step that becomes TAINTED has its undo under way. -/
theorem State.beginTaint_tainted :
    let g := (s.beginTaint i).gate i
    g.st = .tainted ∧ g.tainted = true ∧ g.undo = true := by
  rw [State.beginTaint_gate]
  exact ⟨rfl, rfl, rfl⟩

/-- A step to be skipped names its code, and its undo is under way. -/
theorem State.beginSkip_gate (code : Nat) :
    let g := (s.beginSkip i code).gate i
    g.st = .skipped ∧ g.skipCode = code ∧ g.undo = true := by
  unfold State.beginSkip
  dsimp only
  split
  · next hu =>
    rw [State.setGate_gate_same]
    exact ⟨rfl, rfl, hu⟩
  · rw [State.beginUndo_gate, State.setGate_gate_same]
    exact ⟨rfl, rfl, rfl⟩

end Sys2Proof.Machine
end


section
/-! PROOFS. The post that the update unit performs (O34). -/

namespace Sys2Proof.Machine

variable {s : State} {i : Nat} {p : UpdPost}

/-! ### Which post is next (R199) -/

theorem postMeetsExport_none (h : (s.inst i).exports = []) : s.postMeetsExport i p = false := by simp [State.postMeetsExport, h]

theorem postMeetsCkpt_none (h : s.ckpt.src = none) : s.postMeetsCkpt i p = false := by simp [State.postMeetsCkpt, h]

theorem postStopped_none (hx : (s.inst i).exports = []) (hk : s.ckpt.src = none) : s.postStopped i p = false := by
  rw [State.postStopped, postMeetsExport_none hx, postMeetsCkpt_none hk]
  rfl

/-- The state with a post taken from its queue. -/
def State.takePost (s : State) (i : Nat) (p : UpdPost) : State :=
  s.setGate i { s.gate i with posts := (s.gate i).posts.erase p }

/-- What is done with a post that has been taken. -/
def State.servePost (s : State) (i : Nat) (p : UpdPost) : State :=
  if p.gen ≠ s.gen i then (s.stale i).orphanGone i
  else (if p.discard then s else s.performPost i p).postDone p.core p.cnt p.cl p.val p.cause p.prop

section
variable (hx : (s.inst i).exports = []) (hk : s.ckpt.src = none)
include hx hk

/-- With nothing under way that reads the slots, only step S holds a post, and no post is marked. -/
theorem updatePostPerform_unstopped :
    updatePostPerform i s = (((s.gate i).posts.find? fun p => !s.postHeld i p).elim (s.setGate i (s.gate i)) fun p =>
      ((s.setGate i (s.gate i)).setGate i { s.gate i with posts := (s.gate i).posts.erase p }).servePost i p) := by
  have hstopped (p : UpdPost) : (s.setGate i (s.gate i)).postStopped i p = false :=
    postStopped_none (by rw [State.setGate, State.setInst_inst_same]; exact hx) hk
  have hheld (p : UpdPost) : (s.setGate i (s.gate i)).postHeld i p = s.postHeld i p := rfl
  have hfind : ((s.gate i).posts.find? fun p => !(s.setGate i (s.gate i)).postHeld i p && !(s.setGate i (s.gate i)).postStopped i p) =
      (s.gate i).posts.find? fun p => !s.postHeld i p := by
    simp only [hstopped, hheld, Bool.not_false, Bool.and_true]
  have hengine : ((s.gate i).posts.any fun _ => false) = false := by simp
  unfold updatePostPerform
  simp only [postMeetsExport_none hx, postMeetsCkpt_none hk, Bool.false_eq_true, if_false, ite_self, List.map_id_fun', id_eq, Bool.and_false,
    hengine]
  split
  · next hnone =>
    rw [hfind.symm.trans hnone]
    rfl
  · next hsome =>
    rw [hfind.symm.trans hsome]
    rfl

theorem updatePostPerform_empty (hp : (s.gate i).posts = []) : updatePostPerform i s = s.setGate i (s.gate i) := by
  rw [updatePostPerform_unstopped hx hk, hp]
  rfl

theorem updatePostPerform_serves (hp : (s.gate i).posts.find? (fun p => !s.postHeld i p) = some p) :
    updatePostPerform i s = (s.takePost i p).servePost i p := by
  have hne : s.gate i ≠ {} := fun h => by
    rw [h] at hp
    cases hp
  rw [updatePostPerform_unstopped hx hk, hp, Option.elim_some, State.setGate_setGate _ hne]
  rfl

end

/-! ### What becomes of it (R188, R190, R199, R205, R241) -/

/-- The state after a post that passes every check has been applied to a shard that is not frozen. -/
def State.ruleApplied (s : State) (i : Nat) (h : Shard) (rule : Nat) (p : UpdPost) : State :=
  let a := s.applyRule i h rule p
  let v := if a.nf then a.s.setNf i p.step else a.s
  let b := v.setShardBit h 2 (1 - h.active)
  if p.op = 1 then v.setGate i { v.gate i with moments := (v.gate i).moments ++ [(p.shard, p.rowFirst, p.rows)] }
  else b.setGate i { b.gate i with
    updated := if (b.gate i).updated.contains p.shard then (b.gate i).updated else (b.gate i).updated ++ [p.shard] }

theorem badAmong_nil (h : s.bad = []) (l : List (Nat × Nat)) (part : Bool) : s.badAmong l part = none := by
  simp [State.badAmong, h]

theorem servePost_stale (h : p.gen ≠ s.gen i) : s.servePost i p = (s.stale i).orphanGone i := if_pos h

theorem servePost_discarded (h : p.gen = s.gen i) (hd : p.discard = true) :
    s.servePost i p = s.postDone p.core p.cnt p.cl p.val p.cause p.prop := by
  rw [State.servePost, if_neg (not_not.mpr h), if_pos hd]

theorem servePost_performs (h : p.gen = s.gen i) (hd : p.discard = false) :
    s.servePost i p = (s.performPost i p).postDone p.core p.cnt p.cl p.val p.cause p.prop := by
  rw [State.servePost, if_neg (not_not.mpr h), hd]
  rfl

theorem performPost_memory {w : Nat} (hw : s.badWord (s.shard i p.shard).at_ 128 = some w) : s.performPost i p = s.postMemory i p w := by
  unfold State.performPost
  dsimp only
  rw [hw]

section
variable {h : Shard} {rule : Nat} (hh : s.shard i p.shard = h) (hr : s.selected i h = rule) (hw : s.badWord h.at_ 128 = none)
include hh hr hw

theorem performPost_badShard (hb : s.badShard i h rule = true) : s.performPost i p = s.refusePost i p 5 := by
  subst hh hr
  unfold State.performPost
  dsimp only
  rw [hw, if_pos hb]

variable (hb : s.badShard i h rule = false)
include hb

theorem performPost_mismatch (hm : rule ≠ p.rule ∨ opAllowed rule p.op = false ∨ s.inTurn i p = false) :
    s.performPost i p = s.refusePost i p 4 := by
  subst hh hr
  unfold State.performPost
  dsimp only
  rw [hw, hb, if_neg Bool.false_ne_true, if_pos (by simpa using hm)]

/-- A post that passes every check: a frozen shard is left as it is, any other one is changed by the rule. -/
theorem performPost_valid (hrule : rule = p.rule) (hop : opAllowed rule p.op = true) (hturn : s.inTurn i p = true) :
    (h.frozen = true → s.performPost i p = s) ∧ (h.frozen = false → s.bad = [] → s.performPost i p = s.ruleApplied i h rule p) := by
  have hm : ¬(rule ≠ p.rule ∨ ¬opAllowed rule p.op = true ∨ ¬s.inTurn i p = true) := by simp [← hrule, hop, hturn]
  subst hh hr
  unfold State.performPost
  dsimp only
  rw [hw, hb, if_neg Bool.false_ne_true, if_neg hm]
  refine ⟨fun hf => if_pos hf, fun hf hbad => ?_⟩
  rw [hf, if_neg Bool.false_ne_true, badAmong_nil hbad, badAmong_nil hbad]
  rfl

end

/-! ### A refused post leaves memory alone -/

theorem failContribution_mem {st : W64} {unit : W32} (h : (s.gate i).st ≠ .computed) : (s.failContribution i st unit).mem = s.mem := by
  unfold State.failContribution
  simp only [h, false_and, if_false]
  split
  · split
    · split <;> simp
    · split
      · split <;> simp
      · simp
  · rfl

theorem refusePost_mem {b : Nat} (h : (s.gate i).st ≠ .computed) : (s.refusePost i p b).mem = s.mem := by
  unfold State.refusePost State.failPost
  rw [failContribution_mem]
  · split <;> simp
  · split
    · rwa [State.gate_of_insts (State.markLaunch_insts _), State.gate_of_insts (State.raise_insts ..)]
    · rwa [State.gate_of_insts (State.raise_insts ..)]

/-- Settles O34: the post is taken, and what becomes of it follows its checks one by one. -/
theorem updatePosts : Obligations.UpdatePosts := by
  refine fun s i p => ⟨fun hp hx hk t ht => ?_, fun hp hx hk => ?_⟩
  · have ht : s.setGate i (s.gate i) = t := (updatePostPerform_empty hx hk hp).symm.trans (Host.Outcome.next.inj ht)
    subst ht
    exact ⟨rfl, rfl, by rw [State.setGate_gate_same, hp]⟩
  intro u h rule done gives
  have hserve : exec (.updatePostPerform i) s = .next (u.servePost i p) := congrArg _ (updatePostPerform_serves hx hk hp)
  refine ⟨fun hg => hserve.trans (congrArg _ (servePost_stale hg)), fun hg hd => hserve.trans (congrArg _ (servePost_discarded hg hd)),
    fun hg hd => ?_⟩
  have hgives {v : State} (hv : u.performPost i p = v) : gives v :=
    hserve.trans (congrArg _ ((servePost_performs (s := u) hg hd).trans (congrArg done hv)))
  have hmem {b : Nat} (ho : (s.gate i).st = .open_) : MemKept s (u.refusePost i p b) := by
    refine fun a => State.rb_of_mem ((refusePost_mem ?_).trans rfl) a
    rw [State.setGate_gate_same, ho]
    exact StepSt.noConfusion
  refine ⟨fun w hw => hgives (performPost_memory hw), fun hw hb => ⟨hgives (performPost_badShard rfl rfl hw hb), hmem⟩,
    fun hw hb hm => ⟨hgives (performPost_mismatch rfl rfl hw hb hm), hmem⟩, fun hw hb hr hop ht => ?_⟩
  obtain ⟨hfrozen, happlied⟩ := performPost_valid (s := u) rfl rfl hw hb hr hop ht
  refine ⟨fun hf => hgives (hfrozen hf), fun hf hbad => ⟨fun h1 => ?_, fun h1 => ?_⟩⟩
  · exact hgives ((happlied hf hbad).trans (if_pos h1))
  · exact hgives ((happlied hf hbad).trans (if_neg h1))

end Sys2Proof.Machine
end


section
/-! PROOFS. STEP_COMMIT, the window's opening, verdicts, notices and the timeout of the gate (O43). -/

namespace Sys2Proof.Machine

variable {s : State} {i q : Nat} {c : Cmd}

/-! ### STEP_COMMIT (R200, R206, R207) -/

/-- A command finds its gate enabled, at the step that it names, in a given state. -/
def State.Awaits (u : State) (c : Cmd) (st : StepSt) : Prop :=
  (u.gateOn c.inst = true ∧ c.fld 0x10 8 = (u.s0 c.inst).toNat) ∧ (u.gate c.inst).st = st

theorem not_awaits_iff {u : State} {st : StepSt} :
    ((!u.gateOn c.inst) = true ∨ c.fld 0x10 8 ≠ (u.s0 c.inst).toNat ∨ (u.gate c.inst).st ≠ st) ↔ ¬u.Awaits c st := by
  rw [State.Awaits, and_assoc, not_and_or, not_and_or, Bool.not_eq_true', Bool.not_eq_true]

/-- The gate of a step that its STEP_COMMIT has made COMPUTED. -/
def Gate.compute (g : Gate) (beat : W64) (c : Cmd) : Gate :=
  { g with st := .computed, computedAt := beat, commitCmd := some c, runAhead := true }

/-- The state once the STEP_COMMIT of step S has been accepted and the resolution flag cleared, before a taint is acted on. -/
def State.computeStep (u : State) (c : Cmd) : State :=
  (u.setGate c.inst ((u.gate c.inst).compute u.beat c)).resFlag c.inst false

theorem State.resFlag_clear (s : State) (i : Nat) : (s.resFlag i false).insts = s.insts ∧ (s.resFlag i false).cores = s.cores := by
  unfold State.resFlag
  dsimp only
  split
  · exact ⟨s.setFlag_insts _ false, s.setFlag_cores _ false⟩
  · exact ⟨rfl, rfl⟩

theorem computeStep_gate (u : State) : (u.computeStep c).gate c.inst = (u.gate c.inst).compute u.beat c :=
  (State.gate_of_insts (State.resFlag_clear ..).1 _).trans (State.setGate_gate_same _)

theorem computeStep_cores (u : State) : (u.computeStep c).cores = u.cores := (State.resFlag_clear ..).2

section
variable (hn : s.nextOf q Op.stepCommit (fun c => !c.replayDone) = some c)
include hn

theorem stepCommit_refused (h : ¬(s.startCmd c).Awaits c .open_) : stepCommit q s = (s.startCmd c).complete c St.illegalInState := by
  unfold stepCommit
  rw [hn]
  exact if_pos (not_awaits_iff.mpr h)

theorem stepCommit_computes (h : (s.startCmd c).Awaits c .open_) :
    stepCommit q s = if (((s.startCmd c).gate c.inst).tainted || ((s.startCmd c).gate c.inst).failed) = true then
      ((s.startCmd c).computeStep c).beginTaint c.inst else (s.startCmd c).computeStep c := by
  unfold stepCommit
  rw [hn]
  exact if_neg fun hx => not_awaits_iff.mp hx h

end

section
variable (hn : s.nextOf q Op.stepCommit Cmd.replayDone = some c)
include hn

theorem stepCommitReplayDone_refused (h : ¬(s.startCmd c).Awaits c .replaying) :
    stepCommitReplayDone q s = (s.startCmd c).complete c St.illegalInState := by
  unfold stepCommitReplayDone
  rw [hn]
  exact if_pos (not_awaits_iff.mpr h)

theorem stepCommitReplayDone_returns (h : (s.startCmd c).Awaits c .replaying) :
    stepCommitReplayDone q s = ((s.startCmd c).setGate c.inst
      { (s.startCmd c).gate c.inst with st := .computed, computedAt := s.beat }).complete c St.ok := by
  unfold stepCommitReplayDone
  rw [hn]
  exact if_neg fun hx => not_awaits_iff.mp hx h

end

/-! ### The window opens (R200) -/

/-- UPD_CFG of every page is a register that a write stores (Table 9.7). -/
theorem regInfo_updCfg (hi : i < 64) : regInfo (R.updCfg i) = some (rw32 0x0FFFFFF7) := by
  have hb : blockAt (R.updCfg i) = some (.upd, 0xC00000) := by
    unfold blockAt R.updCfg
    repeat rw [if_neg (by omega)]
    exact if_pos (by omega)
  have ho : (R.updCfg i - 0xC00000) % 0x1000 = 0 := by
    unfold R.updCfg
    omega
  unfold regInfo
  rw [hb]
  dsimp only
  rw [updInfo, ho]
  rfl

theorem gateOn_rawWrite_updCfg (hi : i < 64) (v : W32) : (s.rawWrite (R.updCfg i) (v.zeroExtend 64)).gateOn i = v.getLsbD 0 := by
  rw [State.rawWrite_eq (regInfo_updCfg hi), State.gateOn, State.bit, State.setReg_reg_same]
  simp [rw32]

theorem updCfgWrite_stays (hi : i < 64) {v : W32} (h : s.gateOn i = true ∨ v.getLsbD 0 = false) :
    s.updCfgWrite i v = s.rawWrite (R.updCfg i) (v.zeroExtend 64) := by
  unfold State.updCfgWrite
  dsimp only
  rw [gateOn_rawWrite_updCfg hi]
  refine if_neg ?_
  rcases h with h | h <;> rw [h]
  · rw [Bool.not_true, Bool.false_and]
    exact Bool.false_ne_true
  · rw [Bool.and_false]
    exact Bool.false_ne_true

theorem updCfgWrite_opens (hi : i < 64) {v : W32} (h : s.gateOn i = false) (hv : v.getLsbD 0 = true) :
    s.updCfgWrite i v = (s.rawWrite (R.updCfg i) (v.zeroExtend 64)).openGate i := by
  unfold State.updCfgWrite
  dsimp only
  rw [gateOn_rawWrite_updCfg hi]
  exact if_pos (by rw [h, hv]; rfl)

/-- A window that opens with no STEP_COMMIT left over: step S is OPEN, with the posts that wait. -/
theorem openGate_fresh (h : (s.gate i).commitCmd = none) :
    (s.openGate i).gateOn i = s.gateOn i ∧ (s.openGate i).gate i = { posts := (s.gate i).posts } ∧ (s.openGate i).mem = s.mem := by
  unfold State.openGate
  dsimp only
  rw [h]
  refine ⟨rfl, ?_, rfl⟩
  rw [State.gate, State.setInst_inst_same]
  exact State.setGate_gate_same _

/-! ### The combined verdict decides (R201) -/

section
variable (ckpt : Bool) (at_ : W64)

theorem decideStep_nonfinite (fail : Bool) : s.decideStep i true fail ckpt at_ =
    (s.setGate i { s.gate i with combined := true, combinedCkpt := ckpt }).beginSkip i St.nonfiniteSkip := rfl

theorem decideStep_failed (hr : (s.gate i).replayed = false) (ht : (s.gate i).st ≠ .tainted) : s.decideStep i false true ckpt at_ =
    (s.setGate i { s.gate i with combined := true, combinedCkpt := ckpt }).beginTaint i := by
  unfold State.decideStep
  dsimp only
  rw [if_neg Bool.false_ne_true, if_pos rfl, hr, if_neg Bool.false_ne_true, if_neg ht]

/-- A clean verdict makes a step CHECKED at its commit beat, and changes nothing but its gate. -/
theorem decideStep_clean (ht : (s.gate i).st ≠ .tainted) :
    let t := s.decideStep i false false ckpt at_
    (t.gate i).st = .checked ∧ (t.gate i).commitAt = some at_ ∧ t.cores = s.cores ∧ t.mem = s.mem := by
  unfold State.decideStep
  dsimp only
  rw [if_neg Bool.false_ne_true, if_neg Bool.false_ne_true, if_neg ht, State.setGate_gate_same]
  exact ⟨rfl, rfl, rfl, rfl⟩

end

/-! ### VERDICT_SEND (R201, R276) -/

theorem verdictSend_idle (h : s.verdictReady i = false) : verdictSend i s = s := by
  unfold verdictSend
  rw [h]
  rfl

theorem verdictReady_eq_false (h : s.gateOn i = false ∨ (s.gate i).sent = true ∨ (s.gate i).st = .open_ ∨ (s.gate i).st = .checked ∨
    ((s.gate i).st = .computed ∧ s.stepBusy i = true ∧ (s.gate i).failed = false ∧ (s.gate i).tainted = false ∧ (s.gate i).cloveSent = false)) :
    s.verdictReady i = false := by
  unfold State.verdictReady
  dsimp only
  rcases h with h | h | h | h | ⟨h, hb, hf, ht, hc⟩
  · rw [h]; rfl
  · rw [h, Bool.not_true, Bool.and_false]; rfl
  · rw [h, Bool.and_false]
  · rw [h, Bool.and_false]
  · rw [h, hb, hf, ht, hc]
    exact Bool.and_false _

theorem verdictReady_computed (hon : s.gateOn i = true) (hs : (s.gate i).sent = false) (hc : (s.gate i).st = .computed)
    (hb : s.stepBusy i = false) : s.verdictReady i = true := by
  unfold State.verdictReady
  dsimp only
  rw [hon, hs, hc, hb]
  exact Bool.or_true _

/-- The gate once its own verdict has been given. -/
def Gate.own (g : Gate) (ckpt : Bool) : Gate :=
  let fail := g.failed || g.tainted || g.cloveSent || decide (g.st = .tainted)
  { g with sent := true, upNf := g.upNf || g.nf, upFail := g.upFail || fail, upCkpt := g.upCkpt || ckpt }

theorem verdictSend_sends (h : s.verdictReady i = true) (hr : (s.gate i).replayed = false) :
    verdictSend i s = (s.setGate i ((s.gate i).own (s.ckptCalled i (s.reg (R.updCommits i) + 1)))).forwardVerdict i := by
  unfold verdictSend
  dsimp only
  rw [h, if_neg (by decide), if_neg (by rw [hr, Bool.false_and]; exact Bool.false_ne_true)]
  rfl

/-- At the one module of a job a verdict that has been given is the combined one. -/
theorem forwardVerdict_alone (hp : s.parent i = none) (hc : s.children i = []) (hs : (s.gate i).sent = true)
    (hf : (s.gate i).forwarded = false) :
    s.forwardVerdict i = (s.setGate i { s.gate i with forwarded := true }).decideStep i (s.gate i).upNf (s.gate i).upFail (s.gate i).upCkpt
      (s.beat + BitVec.ofNat 64 (s.reg (R.verdictLead i)).toNat) := by
  have hp' (g : Gate) : (s.setGate i g).parent i = none := hp
  have hc' (g : Gate) : (s.setGate i g).children i = [] := hc
  unfold State.forwardVerdict
  dsimp only
  rw [if_pos (by rw [hs, hf, hc]; rfl), hp', State.downVerdict, hc']
  rfl

theorem forwardVerdict_unsent (hs : (s.gate i).sent = false) : s.forwardVerdict i = s := by
  unfold State.forwardVerdict
  dsimp only
  rw [hs]
  rfl

/-! ### Delivered messages (R264) -/

/-- Handing over a message changes the messages delivered and the credit of its port. -/
theorem State.consume_eq (s : State) (m : Message) : ∃ b l, s.consume m = { s with inbox := b, links := l } := by
  unfold State.consume State.freeFlits
  split <;> exact ⟨_, _, rfl⟩

/-- The one delivered message, of this generation and no undone step, is handed over when it can be handled. -/
theorem State.take_only {m : Message} {typ : Nat} {ok : Nat → Message → Bool} (hin : s.inbox = [m]) (ht : m.typ = typ)
    (hj : s.jobInst m.job = some i) (hg : m.gen = s.gen i) (hu : s.undone i m = false) (hok : ok i m = true) :
    s.take typ ok = .got m i (s.consume m) := by
  have hstale : s.staleFor m = none := by
    unfold State.staleFor
    rw [hj]
    exact if_neg (not_not.mpr hg)
  unfold State.take
  simp only [hin, ht, List.filter_cons, List.filter_nil, decide_true, if_true, List.find?_cons, hj, hok, Bool.or_true]
  unfold State.deliverTo
  rw [hstale, hj]
  dsimp only
  rw [hu, if_neg Bool.false_ne_true]

theorem undone_verdictOrClove {m : Message} (h : Msg.verdict ≤ m.typ) : s.undone i m = false := by
  have hn : ¬m.typ ≤ Msg.refused := by
    unfold Msg.verdict Msg.refused at *
    omega
  simp [State.undone, hn]

/-! ### VERDICT (R276) -/

/-- The gate once a verdict of the subtree has been heard. -/
def Gate.hear (g : Gate) (src f : Nat) : Gate :=
  { g with heard := g.heard ++ [src], upNf := g.upNf || nbit f 0, upFail := g.upFail || nbit f 1, upCkpt := g.upCkpt || nbit f 2 }

section
variable {m : Message} (ht : s.take Msg.verdict s.verdictOk = .got m i (s.consume m)) (hstep : m.step = (s.s0 i).toNat % 4)
include ht hstep

theorem verdict_fromSubtree (hsrc : some m.src ≠ s.parent i) :
    verdict s = ((s.consume m).setGate i ((s.gate i).hear m.src (fieldAt m.payload 0 8))).forwardVerdict i := by
  obtain ⟨b, l, he⟩ := s.consume_eq m
  unfold verdict
  rw [ht, he]
  exact (if_neg (not_not.mpr hstep)).trans (if_neg hsrc)

theorem verdict_fromParent (hsrc : some m.src = s.parent i) (hs : (s.gate i).sent = true) (hc : (s.gate i).combined = false) :
    let f := fieldAt m.payload 0 8
    verdict s = (s.consume m).downVerdict i (nbit f 0) (nbit f 1) (nbit f 2) (BitVec.ofNat 64 (fieldAt m.payload 8 8)) := by
  obtain ⟨b, l, he⟩ := s.consume_eq m
  unfold verdict
  rw [ht, he]
  refine ((if_neg (not_not.mpr hstep)).trans (if_pos hsrc)).trans (if_neg ?_)
  change ¬((s.gate i).combined = true ∨ (!(s.gate i).sent) = true)
  rw [hs, hc]
  decide

end

/-! ### CLOVE (R204 to R206) -/

/-- A notice counted, with its event and its record. -/
def State.hearClove (s : State) (i src : Nat) : State :=
  ((s.incReg (R.cloveCount i)).gateEvent i src 1).raise 3 St.tainted .upd 1 pcieUid i

theorem hearClove_gate (src : Nat) : (s.hearClove i src).gate i = s.gate i := State.gate_of_insts (State.raise_insts ..) i

theorem hearClove_reg (src : Nat) {off : Nat} (hc : off ≠ R.cloveCount i) (he : off ≠ R.gateErr i) (hl : off ≠ R.gateLast i) :
    (s.hearClove i src).reg off = s.reg off := by
  rw [State.hearClove, State.raise_reg, State.gateEvent, State.setReg_reg_ne _ _ _ _ hl, State.setBit, State.setFld,
    State.setReg_reg_ne _ _ _ _ he, State.incReg, State.setReg_reg_ne _ _ _ _ hc]

/-- The state once the notice m has been handed over and counted: the gate, whether it runs, and step S are as before. -/
theorem hearClove_keeps (m : Message) :
    let u := (s.consume m).hearClove i m.src
    u.gate i = s.gate i ∧ u.gateOn i = s.gateOn i ∧ u.s0 i = s.s0 i := by
  obtain ⟨b, l, he⟩ := s.consume_eq m
  rw [he]
  refine ⟨hearClove_gate _, State.bit_of_reg (hearClove_reg _ ?_ ?_ ?_) 0, hearClove_reg _ ?_ ?_ ?_⟩
  all_goals
    simp only [R.updCfg, R.updStep, R.cloveCount, R.gateErr, R.gateLast]
    omega

section
variable {m : Message} (ht : s.take Msg.clove (fun _ _ => true) = .got m i (s.consume m)) (hon : s.gateOn i = true)
include ht hon

/-- What a notice does at an enabled gate, by the step that it names and the state of step S. -/
theorem clove_effects :
    let u := (s.consume m).hearClove i m.src
    let g := s.gate i
    (m.step = (s.s0 i).toNat % 4 → (g.st = .open_ ∨ g.st = .computed ∨ g.st = .checked) →
      clove s = if g.replayed = true then u.beginSkip i St.tainted else u.beginTaint i) ∧
    (m.step = (s.s0 i).toNat % 4 → g.st = .replaying → clove s = u.beginSkip i St.tainted) ∧
    (m.step ≠ (s.s0 i).toNat % 4 → m.step = (s.s0 i + 1).toNat % 4 → clove s = u.setGate i { g with taintedNext := true }) := by
  intro u g
  obtain ⟨hgate, hgon, hs0⟩ := hearClove_keeps (s := s) (i := i) m
  have hrun : clove s = if (!u.gateOn i) = true then u else if m.step = (u.s0 i).toNat % 4 then
      (match (u.gate i).st with
      | .open_ | .computed | .checked => if (u.gate i).replayed then u.beginSkip i St.tainted else u.beginTaint i
      | .replaying => u.beginSkip i St.tainted
      | _ => u)
    else if m.step = (u.s0 i + 1).toNat % 4 then u.setGate i { u.gate i with taintedNext := true } else u := by
    unfold clove
    rw [ht]
    rfl
  rw [hrun, hgate, hgon, hon, hs0, if_neg (by decide)]
  refine ⟨fun hm hst => ?_, fun hm hst => ?_, fun hm hm' => ?_⟩
  · rw [if_pos hm]
    rcases hst with hst | hst | hst <;> rw [hst]
  · rw [if_pos hm, hst]
  · rw [if_neg hm, if_pos hm']

end

/-! ### GATE_TIMEOUT (R201) -/

theorem gateTimeout_idle (h : s.gateOn i = false ∨ (s.gate i).combined = true ∨ (s.gate i).st = .open_ ∨ (s.gate i).st = .checked ∨
    (s.beat - (s.gate i).computedAt).toNat < (s.reg (R.gateTimeout i)).toNat) : gateTimeout i s = s := by
  unfold gateTimeout
  dsimp only
  refine if_neg fun ⟨hon, hwaits, hc, hle⟩ => ?_
  rcases h with h | h | h | h | h
  · simp [h] at hon
  · simp [h] at hc
  · simp [h] at hwaits
  · simp [h] at hwaits
  · exact absurd hle (by omega)

theorem gateTimeout_skips (hon : s.gateOn i = true) (hst : (s.gate i).st = .computed ∨ (s.gate i).st = .replaying ∨ (s.gate i).st = .tainted)
    (hw : (s.gate i).commitCmd.isSome = true ∨ (s.gate i).replayed = true) (hc : (s.gate i).combined = false)
    (hle : (s.reg (R.gateTimeout i)).toNat ≤ (s.beat - (s.gate i).computedAt).toNat) :
    gateTimeout i s = ((s.gateEvent i s.coord 6).raise 1 St.linkFailed .upd 6 pcieUid i).beginSkip i St.linkFailed := by
  unfold gateTimeout
  exact if_pos ⟨hon, by simpa [hst] using hw, by simp [hc], hle⟩

/-! ### The clauses together -/

theorem stepCommit_gives (q : Nat) (c : Cmd) :
    let u := s.startCmd c
    let i := c.inst
    let g := u.gate i
    let mine := u.gateOn i = true ∧ c.fld 0x10 8 = (u.s0 i).toNat
    s.nextOf q 4 (fun c => !c.replayDone) = some c → mine → g.st = .open_ → Gives (.stepCommit q) s fun t =>
      (t.gate i).computedAt = s.beat ∧ (t.gate i).commitCmd = some c ∧ (t.gate i).runAhead = true ∧
        (g.tainted = false → g.failed = false → (t.gate i).st = .computed ∧ t.cores = s.cores) ∧
        (g.tainted = true ∨ g.failed = true → (t.gate i).st = .tainted ∧ (t.gate i).undo = true) := by
  intro u i g mine hn hmine hst
  refine ⟨_, congrArg Host.Outcome.next (stepCommit_computes hn ⟨hmine, hst⟩), ?_⟩
  by_cases hbad : (g.tainted || g.failed) = true
  · rw [if_pos hbad]
    dsimp only
    rw [State.beginTaint_gate, computeStep_gate]
    refine ⟨rfl, rfl, rfl, fun ht hf => ?_, fun _ => ⟨rfl, rfl⟩⟩
    rw [ht, hf] at hbad
    cases hbad
  · rw [if_neg hbad]
    dsimp only
    rw [computeStep_gate]
    exact ⟨rfl, rfl, rfl, fun _ _ => ⟨rfl, computeStep_cores u⟩, fun h => absurd (by simpa using h) hbad⟩

/-- A COMPUTED step of first execution with nothing under way, at the one module of its job, of which no check has failed
but by what the gate itself has noted in `nf` and `failed`. -/
structure State.DecidesAlone (s : State) (i : Nat) : Prop where
  on : s.gateOn i = true
  unsent : (s.gate i).sent = false
  computed : (s.gate i).st = .computed
  idle : s.stepBusy i = false
  first : (s.gate i).replayed = false
  noParent : s.parent i = none
  noChildren : s.children i = []
  upNf : (s.gate i).upNf = false
  upFail : (s.gate i).upFail = false
  untainted : (s.gate i).tainted = false
  noClove : (s.gate i).cloveSent = false
  unforwarded : (s.gate i).forwarded = false

/-- There VERDICT_SEND decides the step by what the gate has noted; until then only the gate changes. -/
theorem State.DecidesAlone.verdictSend (h : s.DecidesAlone i) :
    ∃ (u : State) (ckpt : Bool), (u.gate i).st = .computed ∧ (u.gate i).replayed = false ∧ u.cores = s.cores ∧ u.mem = s.mem ∧
      Runs (.verdictSend i) s (u.decideStep i (s.gate i).nf (s.gate i).failed ckpt
        (s.beat + BitVec.ofNat 64 (s.reg (R.verdictLead i)).toNat)) := by
  generalize hg : (s.gate i).own (s.ckptCalled i (s.reg (R.updCommits i) + 1)) = g
  have hnf : g.upNf = (s.gate i).nf := by simp [← hg, Gate.own, h.upNf]
  have hfail : g.upFail = (s.gate i).failed := by simp [← hg, Gate.own, h.upFail, h.untainted, h.noClove, h.computed]
  have hsent : g.sent = true := by rw [← hg]; rfl
  have hfwd : g.forwarded = false := by rw [← hg]; exact h.unforwarded
  have hst : g.st = .computed := by rw [← hg]; exact h.computed
  have hfirst : g.replayed = false := by rw [← hg]; exact h.first
  have hsend := verdictSend_sends (verdictReady_computed h.on h.unsent h.computed h.idle) h.first
  have hgate := State.setGate_gate_same (s := s) (i := i) g
  rw [hg, forwardVerdict_alone (s := s.setGate i g) h.noParent h.noChildren (by rw [hgate, hsent]) (by rw [hgate, hfwd]), hgate, hnf,
    hfail] at hsend
  refine ⟨(s.setGate i g).setGate i { g with forwarded := true }, g.upCkpt, ?_, ?_, rfl, rfl, congrArg Host.Outcome.next hsend⟩
  · rw [State.setGate_gate_same, hst]
  · rw [State.setGate_gate_same, hfirst]

/-- A notice at an enabled gate (R204 to R206). -/
theorem clove_gives {m : Message} (ht : s.take Msg.clove (fun _ _ => true) = .got m i (s.consume m)) (hon : s.gateOn i = true) :
    let g := s.gate i
    (m.step = (s.s0 i).toNat % 4 → (g.st = .open_ ∨ g.st = .computed ∨ g.st = .checked) → Gives .clove s fun t =>
      (t.gate i).undo = true ∧ (g.replayed = false → (t.gate i).tainted = true ∧ (t.gate i).st = .tainted) ∧
        (g.replayed = true → (t.gate i).st = .skipped ∧ (t.gate i).skipCode = 0x21)) ∧
    (m.step = (s.s0 i).toNat % 4 → g.st = .replaying → Gives .clove s fun t =>
      (t.gate i).undo = true ∧ (t.gate i).st = .skipped ∧ (t.gate i).skipCode = 0x21) ∧
    (m.step ≠ (s.s0 i).toNat % 4 → m.step = (s.s0 i + 1).toNat % 4 → Gives .clove s fun t => (t.gate i).taintedNext = true) := by
  intro g
  obtain ⟨hnow, hreplaying, hnext⟩ := clove_effects ht hon
  refine ⟨fun hm hst => ⟨_, congrArg Host.Outcome.next (hnow hm hst), ?_⟩,
    fun hm hst => ⟨_, congrArg Host.Outcome.next (hreplaying hm hst), ?_⟩,
    fun hm hm' => ⟨_, congrArg Host.Outcome.next (hnext hm hm'), congrArg Gate.taintedNext (State.setGate_gate_same _)⟩⟩
  · obtain ⟨hst, hcode, hundo⟩ := State.beginSkip_gate (s := (s.consume m).hearClove i m.src) (i := i) St.tainted
    obtain ⟨hst', htaint, hundo'⟩ := State.beginTaint_tainted (s := (s.consume m).hearClove i m.src) (i := i)
    cases (s.gate i).replayed
    · exact ⟨hundo', fun _ => ⟨htaint, hst'⟩, nofun⟩
    · exact ⟨hundo, nofun, fun _ => ⟨hst, hcode⟩⟩
  · obtain ⟨hst, hcode, hundo⟩ := State.beginSkip_gate (s := (s.consume m).hearClove i m.src) (i := i) St.tainted
    exact ⟨hundo, hst, hcode⟩

/-- A verdict that can be handled, of step S (R201, R276). -/
theorem verdict_gives {m : Message} (ht : s.take Msg.verdict s.verdictOk = .got m i (s.consume m)) (hstep : m.step = (s.s0 i).toNat % 4) :
    let g := s.gate i
    (some m.src ≠ s.parent i → g.sent = false → Gives .verdict s fun t => (t.gate i).heard = g.heard ++ [m.src] ∧ (t.gate i).st = g.st ∧
      (t.gate i).upNf = (g.upNf || nbit (fieldAt m.payload 0 8) 0) ∧ (t.gate i).upFail = (g.upFail || nbit (fieldAt m.payload 0 8) 1)) ∧
    (some m.src = s.parent i → g.sent = true → g.combined = false → s.children i = [] → g.st ≠ .tainted →
      nbit (fieldAt m.payload 0 8) 0 = false → nbit (fieldAt m.payload 0 8) 1 = false → Gives .verdict s fun t => (t.gate i).st = .checked ∧
        (t.gate i).commitAt = some (BitVec.ofNat 64 (fieldAt m.payload 8 8))) := by
  intro g
  refine ⟨fun hsrc hs => ?_, fun hsrc hs hc hch hst hnf hfail => ?_⟩
  · have hgate := State.setGate_gate_same (s := s.consume m) (i := i) ((s.gate i).hear m.src (fieldAt m.payload 0 8))
    refine ⟨_, congrArg Host.Outcome.next ((verdict_fromSubtree ht hstep hsrc).trans (forwardVerdict_unsent ?_)), ?_⟩
    · rw [hgate]
      exact hs
    · dsimp only
      rw [hgate]
      exact ⟨rfl, rfl, rfl, rfl⟩
  · have hrun := verdict_fromParent ht hstep hsrc hs hc
    dsimp only at hrun
    rw [hnf, hfail] at hrun
    obtain ⟨b, l, he⟩ := s.consume_eq m
    have hch' : (s.consume m).children i = [] := by
      rw [he]
      exact hch
    have hst' : ((s.consume m).gate i).st ≠ .tainted := by
      rw [he]
      exact hst
    rw [State.downVerdict, hch', forEach_nil] at hrun
    obtain ⟨hchecked, hat, -⟩ := decideStep_clean (nbit (fieldAt m.payload 0 8) 2) (BitVec.ofNat 64 (fieldAt m.payload 8 8)) hst'
    exact ⟨_, congrArg Host.Outcome.next hrun, hchecked, hat⟩

/-- A write of UPD_CFG (R200, R209). -/
theorem updEnableWrite_gives (fn i : Nat) (v : W32) :
    (fnMay fn i = false → exec (.updEnableWrite fn i v) s = .next s) ∧
    (fnMay fn i = true → (s.gateOn i = true ∨ v.getLsbD 0 = false) →
      exec (.updEnableWrite fn i v) s = .next (s.rawWrite (R.updCfg i) (v.zeroExtend 64))) ∧
    (fnMay fn i = true → s.gateOn i = false → v.getLsbD 0 = true →
      exec (.updEnableWrite fn i v) s = .next ((s.rawWrite (R.updCfg i) (v.zeroExtend 64)).openGate i)) ∧
    (fnMay fn i = true → s.gateOn i = false → v.getLsbD 0 = true → (s.gate i).commitCmd = none →
      Gives (.updEnableWrite fn i v) s fun t => t.gateOn i = true ∧ t.gate i = { posts := (s.gate i).posts } ∧ MemKept s t) := by
  have hlt (h : fnMay fn i = true) : i < 64 := of_decide_eq_true ((Bool.and_eq_true _ _).mp h).1
  have hmay (h : fnMay fn i = true) : updEnableWrite fn i v s = s.updCfgWrite i v := if_pos h
  have hopens (h : fnMay fn i = true) (hoff : s.gateOn i = false) (hv : v.getLsbD 0 = true) := (hmay h).trans (updCfgWrite_opens (hlt h) hoff hv)
  refine ⟨fun h => congrArg Host.Outcome.next (if_neg (by simp [h])),
    fun h hv => congrArg Host.Outcome.next ((hmay h).trans (updCfgWrite_stays (hlt h) hv)),
    fun h hoff hv => congrArg Host.Outcome.next (hopens h hoff hv),
    fun h hoff hv hc => ⟨_, congrArg Host.Outcome.next (hopens h hoff hv), ?_⟩⟩
  have hgate := State.gate_of_insts (s.rawWrite_insts (R.updCfg i) (v.zeroExtend 64)) i
  obtain ⟨hon, hg, hm⟩ := openGate_fresh (s := s.rawWrite (R.updCfg i) (v.zeroExtend 64)) (i := i) (by rw [hgate, hc])
  exact ⟨hon.trans ((gateOn_rawWrite_updCfg (hlt h) v).trans hv), by rw [hg, hgate],
    fun a => State.rb_of_mem (hm.trans (State.rawWrite_mem ..)) a⟩

/-- Settles O43, clause by clause with the lemma of each event. -/
theorem stepWindow : Obligations.StepWindow := by
  refine ⟨fun s q c => ?_, fun s fn i v => updEnableWrite_gives fn i v,
    fun s i h => congrArg Host.Outcome.next (verdictSend_idle (verdictReady_eq_false h)), fun s i => ?_, fun s m i => ?_, fun s i => ?_⟩
  · exact ⟨fun hn => ⟨fun h => congrArg Host.Outcome.next (stepCommit_refused hn h), stepCommit_gives q c hn⟩,
      fun hn => ⟨fun h => congrArg Host.Outcome.next (stepCommitReplayDone_refused hn h),
        fun hm hst => congrArg Host.Outcome.next (stepCommitReplayDone_returns hn ⟨hm, hst⟩)⟩⟩
  · intro g hon hs hc hb hr hp hch hnf hfl ht hcs hf
    obtain ⟨u, ckpt, hst, hfirst, hcores, hmem, hrun⟩ :=
      State.DecidesAlone.verdictSend ⟨hon, hs, hc, hb, hr, hp, hch, hnf, hfl, ht, hcs, hf⟩
    have hut : (u.gate i).st ≠ .tainted := by rw [hst]; exact StepSt.noConfusion
    refine ⟨fun hn hfail => ⟨_, hrun, ?_⟩, fun hn => ⟨_, hrun, ?_⟩, fun hn hfail => ⟨_, hrun, ?_⟩⟩
    · rw [show (s.gate i).nf = false from hn, show (s.gate i).failed = false from hfail]
      obtain ⟨hchecked, hat, hc, hm⟩ := decideStep_clean ckpt (s.beat + BitVec.ofNat 64 (s.reg (R.verdictLead i)).toNat) hut
      exact ⟨hchecked, hat, hc.trans hcores, hm.trans hmem⟩
    · rw [show (s.gate i).nf = true from hn, decideStep_nonfinite]
      exact State.beginSkip_gate _
    · rw [show (s.gate i).nf = false from hn, show (s.gate i).failed = true from hfail, decideStep_failed _ _ hfirst hut]
      obtain ⟨hst, -, hundo⟩ := State.beginTaint_tainted (s := u.setGate i { u.gate i with combined := true, combinedCkpt := ckpt }) (i := i)
      exact ⟨hst, hundo⟩
  · intro g hin hj hg
    refine ⟨fun htyp hok hstep => verdict_gives ?_ hstep, fun htyp hon _ => clove_gives ?_ hon⟩
    · exact State.take_only hin htyp hj hg (undone_verdictOrClove htyp.ge) hok
    · exact State.take_only hin htyp hj hg (undone_verdictOrClove (by rw [htyp]; decide)) rfl
  · intro g
    refine ⟨fun h => congrArg Host.Outcome.next (gateTimeout_idle ?_), fun hon hst hw hc =>
      ⟨fun hlt => congrArg Host.Outcome.next (gateTimeout_idle (.inr (.inr (.inr (.inr hlt))))), fun hle => ?_⟩⟩
    · rcases h with h | h | h | h
      · exact .inl h
      · exact .inr (.inl h)
      · exact .inr (.inr (.inl h))
      · exact .inr (.inr (.inr (.inl h)))
    · exact ⟨_, congrArg Host.Outcome.next (gateTimeout_skips hon hst hw hc hle), State.beginSkip_gate _⟩

end Sys2Proof.Machine
end


section
/-! PROOFS. Deadline solves: the checks of SOLVE, the start, announcements, the freeze and the result (O46). -/

namespace Sys2Proof.Machine

variable {s : State} {i tag : Nat} {r : SolveRec}

/-! ### What an event of the solver page leaves -/

/-- A record that names the PCIe controller, a unit of no compute die, changes the error state alone. -/
theorem State.raise_pcie (cls code : Nat) (b : Block) (detail inst : Nat) :
    ∃ e, s.raise cls code b detail pcieUid inst = { s with err := e } :=
  ⟨_, if_neg (by decide : ¬uidDie pcieUid < 16)⟩

/-- A sticky bit of SOLV_STAT with its record changes registers and the error state alone. -/
theorem solvEvent_eq (b code : Nat) : ∃ regs e, s.solvEvent i tag b code = { s with regs := regs, err := e } := by
  obtain ⟨e, he⟩ := State.raise_pcie (s := (s.setBit (R.solvStat i) b true).setReg (R.solvLast i)
    (BitVec.ofNat 64 (tag % 65536 + (b + 1) * 2 ^ 16))) 3 code .solv b i
  exact ⟨_, e, he⟩

theorem solvEvent_reg_ne {off : Nat} (b code : Nat) (hs : off ≠ R.solvStat i) (hl : off ≠ R.solvLast i) :
    (s.solvEvent i tag b code).reg off = s.reg off := by
  rw [State.solvEvent, State.raise_reg, State.setReg_reg_ne _ _ _ _ hl, State.setBit, State.setFld_reg_ne _ _ _ _ hs]

theorem solvEvent_insts (b code : Nat) : (s.solvEvent i tag b code).insts = s.insts := by
  obtain ⟨regs, e, h⟩ := solvEvent_eq (s := s) (i := i) (tag := tag) b code
  rw [h]

theorem solvEvent_cores (b code : Nat) : (s.solvEvent i tag b code).cores = s.cores := by
  obtain ⟨regs, e, h⟩ := solvEvent_eq (s := s) (i := i) (tag := tag) b code
  rw [h]

theorem syncKept_solvEvent (b code : Nat) : SyncKept s (s.solvEvent i tag b code) := by
  obtain ⟨regs, e, h⟩ := solvEvent_eq (s := s) (i := i) (tag := tag) b code
  rw [h]
  exact ⟨fun _ => rfl, rfl, fun _ hx => hx, rfl⟩

/-! ### The inputs of a solve's record (R291) -/

theorem syncKept_hashRanges (l : List (Nat × Nat)) (f : Unit → List Byte) : SyncKept s (s.hashRanges i l f).1 := by
  unfold State.hashRanges
  split
  · exact syncKept_refl s
  · exact (syncKept_raiseRec _).trans ⟨fun _ => rfl, rfl, fun _ hx => hx, rfl⟩

theorem syncKept_solveInputs : SyncKept s (s.solveInputs i).1 := by
  unfold State.solveInputs State.hashInputs
  dsimp only
  split
  · split
    · exact syncKept_refl s
    · split
      · exact syncKept_hashRanges ..
      · exact SyncKept.trans (t := s.setBit (R.audStat i) 1 true) ⟨fun _ => rfl, rfl, fun _ hx => hx, rfl⟩ (syncKept_raiseRec _)
  · exact syncKept_refl s

/-- While no word is uncorrectable, hashing changes nothing. -/
theorem hashRanges_clean (hb : s.bad = []) (l : List (Nat × Nat)) (f : Unit → List Byte) : (s.hashRanges i l f).1 = s := by
  have hnone : s.badAmong l false = none := List.findSome?_eq_none_iff.mpr fun _ _ => by rw [hb, List.find?_nil]
  rw [State.hashRanges, hnone]

/-- While no word is uncorrectable, hashing the inputs leaves the beat and the cores. -/
theorem solveInputs_clean (hb : s.bad = []) : (s.solveInputs i).1.beat = s.beat ∧ (s.solveInputs i).1.cores = s.cores := by
  unfold State.solveInputs State.hashInputs
  dsimp only
  split
  · split
    · exact ⟨rfl, rfl⟩
    · split
      · exact ⟨congrArg State.beat (hashRanges_clean hb ..), congrArg State.cores (hashRanges_clean hb ..)⟩
      · obtain ⟨e, he⟩ := State.raise_pcie (s := s.setBit (R.audStat i) 1 true) 2 St.internal .dev 1 i
        rw [he]
        exact ⟨rfl, rfl⟩
  · exact ⟨rfl, rfl⟩

/-- The inputs of a solve that ends now, or of one that goes on: none. -/
def State.finalInputs (s : State) (i : Nat) (final : Bool) : State × Option Hashed := if final then s.solveInputs i else (s, none)

theorem syncKept_finalInputs (final : Bool) : SyncKept s (s.finalInputs i final).1 := by
  cases final
  · exact syncKept_refl s
  · exact syncKept_solveInputs

/-! ### A solve's record, found by its tag -/

/-- The record of the solve with a tag, as every event of a solve finds it. -/
def State.findSolve (s : State) (i tag : Nat) : Option SolveRec := (s.inst i).solves.find? fun r => decide (r.tag = tag)

theorem findSolve_tag (h : s.findSolve i tag = some r) : r.tag = tag :=
  of_decide_eq_true (List.find?_some (p := fun r : SolveRec => decide (r.tag = tag)) h)

theorem findSolve_of_insts {t : State} (h : t.insts = s.insts) : t.findSolve i tag = s.findSolve i tag := by
  rw [State.findSolve, State.inst, h]
  rfl

/-- A change of the records that keeps their tags changes the record found. -/
theorem findSolve_map {f : SolveRec → SolveRec} (hf : ∀ q, (f q).tag = q.tag) :
    (s.setInst i { s.inst i with solves := (s.inst i).solves.map f }).findSolve i tag = (s.findSolve i tag).map f := by
  rw [State.findSolve, State.setInst_inst_same, List.find?_map, State.findSolve]
  congr 2
  funext q
  exact congrArg (fun n => decide (n = tag)) (hf q)

/-- A record put in the place of one with its tag is the one found. -/
theorem findSolve_putSolve (h : s.findSolve i tag = some r) {z : SolveRec} (hz : z.tag = tag) :
    (s.putSolve i z).findSolve i tag = some z := by
  have hkeeps (q : SolveRec) : (if q.tag = z.tag then z else q).tag = q.tag := by
    split
    · next hq => exact hq.symm
    · rfl
  rw [State.putSolve, findSolve_map hkeeps, h, Option.map_some, if_pos ((findSolve_tag h).trans hz.symm)]

/-! ### SOLVE (R219, R220) -/

/-- What SOLVE does with the image it has read, once its owner may solve on the clusters that it names. -/
def State.takeSolve (u : State) (c : Cmd) : ImageRead → State
  | .bad => u.complete c St.badDescriptor
  | .memory w => u.imageMemory c w
  | .ok x => if !x.certOk || solveFieldsBad c then u.complete c St.badDescriptor else u.doSolve c x

section
variable {q : Nat} {c : Cmd} (hn : s.nextOf q Op.solve (fun _ => true) = some c)
include hn

theorem solve_disabled (he : (s.startCmd c).bit (R.solvCfg c.inst) 0 = false) :
    solve q s = (s.startCmd c).complete c St.illegalInState := by
  unfold solve
  rw [hn]
  exact if_pos (by rw [he]; rfl)

variable (he : (s.startCmd c).bit (R.solvCfg c.inst) 0 = true)
include he

theorem solve_foreign (ho : (s.startCmd c).ownsSet c.inst c.setFirst c.setCount = false) :
    solve q s = (s.startCmd c).complete c St.ownership := by
  unfold solve
  rw [hn]
  exact (if_neg (by rw [he]; decide)).trans (if_pos (by rw [ho]; rfl))

theorem solve_takes (ho : (s.startCmd c).ownsSet c.inst c.setFirst c.setCount = true) :
    solve q s = (s.startCmd c).takeSolve c ((s.startCmd c).readImage (c.fld 0x18 8) c.setFirst c.setCount) := by
  unfold solve
  rw [hn]
  exact ((if_neg (by rw [he]; decide)).trans (if_neg (by rw [ho]; decide))).trans (by unfold State.takeSolve; rfl)

end

theorem takeSolve_malformed {c : Cmd} {x : Image} (h : x.certOk = false ∨ solveFieldsBad c = true) :
    s.takeSolve c (.ok x) = s.complete c St.badDescriptor :=
  if_pos (by rcases h with h | h <;> simp [h])

theorem takeSolve_wellFormed {c : Cmd} {x : Image} (hx : x.certOk = true) (hf : solveFieldsBad c = false) :
    s.takeSolve c (.ok x) = s.doSolve c x :=
  if_neg (by simp [hx, hf])

/-! ### SOLVE_START (R220) -/

theorem solveStart_none (h : ((s.purgeSolves i).inst i).solves.find? ((s.purgeSolves i).solveCan i) = none) :
    solveStart i s = s.purgeSolves i := by
  simp only [solveStart, h]

theorem solveStart_starts (h : ((s.purgeSolves i).inst i).solves.find? ((s.purgeSolves i).solveCan i) = some r) :
    solveStart i s = (s.purgeSolves i).startSolve i r := by
  simp only [solveStart, h]

/-- A solve that can start waits, is not frozen, and finds its set free. -/
theorem solveCan_waits (h : s.solveCan i r = true) : r.started = false ∧ r.frozen = false ∧ s.setBusy i r = false := by
  simp only [State.solveCan, Bool.and_eq_true, Bool.not_eq_true'] at h
  obtain ⟨⟨⟨hs, hf⟩, -⟩, hb⟩ := h
  exact ⟨hs, hf, hb⟩

/-! ### Announcements (R221, R222) -/

/-- An announcement changes what the solve has published, and with FINAL ends it in this beat. -/
theorem SolveRec.announce_spec (hf : r.final = false) (b : Nat → Nat → Nat) (beat : W64) :
    let z := (r.announce b beat).1
    z.tag = r.tag ∧ z.final = nbit (b 0x29 1) 1 ∧ (z.final = true → z.endBeat = beat) := by
  unfold SolveRec.announce
  dsimp only
  cases nbit (b 0x29 1) 1
  · rw [if_neg Bool.false_ne_true]
    split <;> exact ⟨rfl, hf, fun h => absurd (hf.symm.trans h) Bool.false_ne_true⟩
  · rw [if_pos rfl]
    split <;> exact ⟨rfl, rfl, fun _ => rfl⟩

/-- The record after an announcement that the controller reads now. -/
def State.announced (s : State) (r : SolveRec) : SolveRec × Bool := r.announce (fun o n => s.rd (solveWord r + o) n) s.beat

/-- The state once the controller has taken an announcement, before the counters hear of it. -/
def State.noteAnnounce (s : State) (i tag : Nat) (r : SolveRec) : State :=
  let z := s.announced r
  let h := s.finalInputs i z.1.final
  let u := h.1.putSolve i { z.1 with inputs := h.2 }
  if z.2 then u.solvEvent i tag 4 St.internal else u

section
variable (hr : s.findSolve i tag = some r)
include hr

theorem solveAnnounce_late (h : r.deadline ≤ s.beat) : solveAnnounce i tag s = s := by
  unfold State.findSolve at hr
  simp only [solveAnnounce, hr]
  exact if_pos (.inr (.inr (.inr (.inl h))))

theorem solveAnnounce_counts (hs : r.started = true) (hf : r.final = false) (hz : r.frozen = false) (hd : s.beat < r.deadline)
    (hc : s.cnt r.first 61 ≠ 0) :
    solveAnnounce i tag s = ((s.noteAnnounce i tag r).takeCnt r.first 61 1).addCnt r.first 60 1 (gangUid r.first 3) 0 false := by
  unfold State.findSolve at hr
  simp only [solveAnnounce, hr]
  exact if_neg (by simp [hs, hf, hz, hc, hd])

/-- The record that an announcement leaves: it has ended in this beat, if the announcement is a FINAL. -/
theorem noteAnnounce_record (hf : r.final = false) : ∃ z, (s.noteAnnounce i tag r).findSolve i tag = some z ∧
    z.final = nbit (s.rd (solveWord r + 0x29) 1) 1 ∧ (z.final = true → z.endBeat = s.beat) := by
  obtain ⟨htag, hfinal, hend⟩ := SolveRec.announce_spec hf (fun o n => s.rd (solveWord r + o) n) s.beat
  unfold State.noteAnnounce
  dsimp only
  have hk := syncKept_finalInputs (s := s) (i := i) (s.announced r).1.final
  generalize s.finalInputs i (s.announced r).1.final = h at *
  have hput := findSolve_putSolve ((findSolve_of_insts hk.insts).trans hr) (z := { (s.announced r).1 with inputs := h.2 })
    (htag.trans (findSolve_tag hr))
  refine ⟨{ (s.announced r).1 with inputs := h.2 }, ?_, hfinal, hend⟩
  split
  · exact (findSolve_of_insts (solvEvent_insts ..)).trans hput
  · exact hput

end

/-- Taking an announcement leaves counters and memory, and nobody waits who did not. -/
theorem noteAnnounce_keeps (hw : s.waiters = []) (hh : s.hostWaits 0 = []) :
    let u := s.noteAnnounce i tag r
    u.waiters = [] ∧ u.hostWaits 0 = [] ∧ (∀ cl n, u.cnt cl n = s.cnt cl n) ∧ u.mem = s.mem := by
  intro u
  have hk := syncKept_finalInputs (s := s) (i := i) (s.announced r).1.final
  have hu : SyncKept ((s.finalInputs i (s.announced r).1.final).1.putSolve i
      { (s.announced r).1 with inputs := (s.finalInputs i (s.announced r).1.final).2 }) u := by
    unfold u State.noteAnnounce
    dsimp only
    split
    · exact syncKept_solvEvent ..
    · exact syncKept_refl _
  generalize s.finalInputs i (s.announced r).1.final = h at hk hu
  exact ⟨hu.noWaiters (hk.noWaiters hw), (hu.hostWaits 0).trans (hostWaits_setInst rfl ((hk.hostWaits 0).trans hh)),
    fun cl n => (cnt_of_cnts (hu.cnts cl) n).trans (cnt_of_cnts (hk.cnts cl) n), hu.mem.trans hk.mem⟩

theorem takeCnt_cnt_ne {cl idx v n : Nat} (h : n ≠ idx) : (s.takeCnt cl idx v).cnt cl n = s.cnt cl n := by
  rw [State.takeCnt, State.setCntTags_cnt, State.setCnt_cnt_ne h]

/-- A value added to a counter while nobody waits leaves the other counters of the cluster. -/
theorem addCnt_cnt_ne {cl idx v cause n : Nat} {who : W32} {prop : Bool} (h : idx ≠ 62) (hw : s.waiters = []) (hh : s.hostWaits 0 = [])
    (hn : n ≠ idx) : (s.addCnt cl idx v who cause prop).cnt cl n = s.cnt cl n := by
  have hk := bumpCnt_spec (s := s) (cl := cl) (v := v) (who := who) (tag := (cause, prop)) (.inl h)
  rw [State.addCnt, wakeCnt_idle (by rw [hk.noWaiters hw]; simp) ((hk.hostWaits 0).trans hh)]
  exact (bumpCnt_cnt (.inl h)).2 n hn

/-- One counter loses a value and another of its cluster gains one, while nobody waits. -/
theorem takeCnt_addCnt_idle {cl a b v w cause : Nat} {who : W32} {prop : Bool} (hab : a ≠ b) (hb : b ≠ 62) (hw : s.waiters = [])
    (hh : s.hostWaits 0 = []) :
    let t := (s.takeCnt cl a v).addCnt cl b w who cause prop
    t.cnt cl a = s.cnt cl a - v ∧ t.cnt cl b = min 0xFFFF (s.cnt cl b + w) ∧ t.mem = s.mem ∧ t.insts = s.insts := by
  have hw' : (s.takeCnt cl a v).waiters = [] := hw
  have hh' : (s.takeCnt cl a v).hostWaits 0 = [] := hh
  obtain ⟨hcnt, hmem, -⟩ := addCnt_idle (k := 0) (cl := cl) (v := w) (cause := cause) (who := who) (prop := prop) hb hw' hh'
  refine ⟨?_, ?_, hmem, addCnt_insts hb hw' hh'⟩
  · rw [addCnt_cnt_ne hb hw' hh' hab, State.takeCnt_cnt]
  · rw [hcnt, takeCnt_cnt_ne hab.symm]

theorem solveAnnounce_gives (hr : s.findSolve i tag = some r) (hs : r.started = true) (hf : r.final = false) (hz : r.frozen = false)
    (hd : s.beat < r.deadline) (hc : s.cnt r.first 61 ≠ 0) (hw : s.waiters = []) (hh : s.hostWaits 0 = []) :
    let t := solveAnnounce i tag s
    t.cnt r.first 61 = s.cnt r.first 61 - 1 ∧ t.cnt r.first 60 = min 0xFFFF (s.cnt r.first 60 + 1) ∧ t.mem = s.mem ∧
      ∃ z, t.findSolve i tag = some z ∧ z.final = nbit (s.rd (solveWord r + 0x29) 1) 1 ∧ (z.final = true → z.endBeat = s.beat) := by
  obtain ⟨huw, huh, hucnt, humem⟩ := noteAnnounce_keeps (i := i) (tag := tag) (r := r) hw hh
  obtain ⟨z, hz', hzs⟩ := noteAnnounce_record hr hf
  obtain ⟨h61, h60, hmem, hinsts⟩ := takeCnt_addCnt_idle (cl := r.first) (a := 61) (b := 60) (v := 1) (w := 1) (cause := 0)
    (who := gangUid r.first 3) (prop := false) (by decide) (by decide) huw huh
  rw [solveAnnounce_counts hr hs hf hz hd hc]
  exact ⟨h61.trans (by rw [hucnt]), h60.trans (by rw [hucnt]), hmem.trans humem, z, (findSolve_of_insts hinsts).trans hz', hzs⟩

/-! ### The freeze (R222) -/

section
variable (hr : s.findSolve i tag = some r)
include hr

theorem solveFreeze_idle (h : r.final = true ∨ r.frozen = true ∨ s.beat < r.deadline) : solveFreeze i tag s = s := by
  unfold State.findSolve at hr
  simp only [solveFreeze, hr]
  exact if_pos h

theorem solveFreeze_freezes (hf : r.final = false) (hz : r.frozen = false) (hd : r.deadline ≤ s.beat) :
    solveFreeze i tag s = ((s.freezeSolve i tag none).dropUnstarted i tag).solvEvent i tag 0 St.deadlineMiss := by
  unfold State.findSolve at hr
  simp only [solveFreeze, hr]
  exact if_neg (by simp [hf, hz, hd])

/-- The record of a solve frozen now, while no word is uncorrectable. -/
theorem freezeSolve_record (hb : s.bad = []) (forced : Option Nat) : ∃ z, (s.freezeSolve i tag forced).findSolve i tag = some z ∧
    z.frozen = true ∧ z.endBeat = s.beat ∧ z.forced = forced := by
  obtain ⟨hbeat, -⟩ := solveInputs_clean (i := i) hb
  unfold State.freezeSolve
  dsimp only
  rw [findSolve_map (fun q => by split <;> rfl), findSolve_of_insts syncKept_solveInputs.insts, hr, Option.map_some,
    if_pos (findSolve_tag hr)]
  exact ⟨_, rfl, rfl, hbeat, rfl⟩

end

theorem solveFreeze_gives (hr : s.findSolve i tag = some r) (hf : r.final = false) (hz : r.frozen = false) (hd : r.deadline ≤ s.beat)
    (hb : s.bad = []) :
    let t := solveFreeze i tag s
    t.cores = s.cores ∧ ∃ z, t.findSolve i tag = some z ∧ z.frozen = true ∧ z.endBeat = s.beat ∧ z.forced = none := by
  intro t
  have ht : t = _ := solveFreeze_freezes hr hf hz hd
  obtain ⟨-, hcores⟩ := solveInputs_clean (i := i) hb
  obtain ⟨z, hz', hzs⟩ := freezeSolve_record hr hb none
  refine ⟨?_, z, ?_, hzs⟩
  · rw [ht]
    exact (solvEvent_cores ..).trans hcores
  · rw [ht]
    exact (findSolve_of_insts (solvEvent_insts ..)).trans hz'

/-! ### SOLVE_ABANDON_TIMEOUT (R222) -/

/-- A solve is marked slow, with ABANDON_SLOW and the last event of the page. -/
def State.markSlow (s : State) (i tag : Nat) (r : SolveRec) : State :=
  ((s.putSolve i { r with slow := true }).setBit (R.solvStat i) 5 true).setReg (R.solvLast i)
    (BitVec.ofNat 64 (tag % 65536 + 6 * 2 ^ 16))

theorem solveAbandonTimeout_slow (hr : s.findSolve i tag = some r) (hz : r.frozen = true) (hs : r.slow = false)
    (hrun : (s.dropUnstarted i tag).solveRuns i tag = true) (hle : (s.reg (R.abandonMax i)).toNat ≤ (s.beat - r.endBeat).toNat) :
    solveAbandonTimeout i tag s = ((s.dropUnstarted i tag).markSlow i tag r).raise 1 St.internal .solv 5 pcieUid i := by
  unfold State.findSolve at hr
  unfold solveAbandonTimeout
  rw [hr]
  dsimp only
  rw [if_pos hz]
  refine if_neg fun h => ?_
  rcases h with h | h | h | h
  · simp [hz] at h
  · simp [hs] at h
  · simp [hrun] at h
  · exact absurd hle (Nat.not_le.mpr h)

theorem solveAbandonTimeout_gives (hr : s.findSolve i tag = some r) (hz : r.frozen = true) (hs : r.slow = false)
    (hrun : (s.dropUnstarted i tag).solveRuns i tag = true) (hle : (s.reg (R.abandonMax i)).toNat ≤ (s.beat - r.endBeat).toNat) :
    let t := solveAbandonTimeout i tag s
    (∃ z, t.findSolve i tag = some z ∧ z.slow = true) ∧ ∃ e, t.err.raised = s.err.raised ++ [e] ∧ e.cls = 1 := by
  have hfind : ((s.dropUnstarted i tag).markSlow i tag r).findSolve i tag = some { r with slow := true } :=
    findSolve_putSolve (s := s.dropUnstarted i tag) (r := r) hr (findSolve_tag (r := r) hr)
  rw [solveAbandonTimeout_slow hr hz hs hrun hle]
  exact ⟨⟨_, (findSolve_of_insts (State.raise_insts ..)).trans hfind, rfl⟩, State.raise_class ..⟩

/-! ### SOLVE_RESULT_POST (R224, R289, R292) -/

/-- A launch record that counts, as a slip with cause HOST, the time for which its solve's audit record was held. -/
def SolveRec.held (r : SolveRec) (beat : W64) (l : LaunchRec) : LaunchRec :=
  match r.ringHeld with
  | some b => l.slip 5 (beat - b).toNat false
  | none => l

/-- The completion of a solve whose result area is written: it is counted, and posted with its slips. -/
def State.finishSolve (s : State) (i tag : Nat) (r : SolveRec) : State :=
  let st := r.status.getD 0
  let u := (s.putSolve i { r with posted := true }).incReg (R.solvCount i)
  let u := if st = St.deadlineMiss then u.incReg (R.solvMiss i) else u
  (u.completeWith r.cmd st 0 0 ((u.solveLaunch i tag).map (r.held u.beat))).purgeSolves i

/-- What SOLVE_RESULT_POST does once the status is known: it waits for the audit record, or finishes the solve. -/
def State.postSolve (s : State) (i tag : Nat) : State :=
  if (s.inst i).audits.any fun j => decide (j.tag = some tag) then
    if s.fld (R.audSize i) 0 16 ≤ (s.inst i).auditUsed then s.holdSolve i tag else s
  else
    match s.findSolve i tag with
    | none => s
    | some r => s.finishSolve i tag r

/-- The audit record of a solve whose result has been fixed, where it needs one. -/
def State.auditClosed (s : State) (i tag : Nat) : State :=
  match s.findSolve i tag with
  | some r => if s.auditSolves i then s.auditSolve i r (r.status.getD 0) else s
  | none => s

theorem auditClosed_none (h : s.auditSolves i = false) : s.auditClosed i tag = s := by
  unfold State.auditClosed
  split
  · exact if_neg (by rw [h]; exact Bool.false_ne_true)
  · rfl

theorem postSolve_finishes (hr : s.findSolve i tag = some r) (ha : (s.inst i).audits.any (fun j => decide (j.tag = some tag)) = false) :
    s.postSolve i tag = s.finishSolve i tag r := by
  rw [State.postSolve, ha, if_neg Bool.false_ne_true, hr]

theorem finishSolve_inTime {st : Nat} (hst : r.status = some st) (h : st ≠ St.deadlineMiss) :
    let u := (s.putSolve i { r with posted := true }).incReg (R.solvCount i)
    s.finishSolve i tag r = (u.completeWith r.cmd st 0 0 ((u.solveLaunch i tag).map (r.held s.beat))).purgeSolves i := by
  have hget : r.status.getD 0 = st := by rw [hst, Option.getD_some]
  rw [State.finishSolve, hget, if_neg h]
  rfl

section
variable (hr : s.findSolve i tag = some r)
include hr

theorem solveResultPost_running (hf : r.final = false) (hz : r.frozen = false) : solveResultPost i tag s = s := by
  unfold State.findSolve at hr
  unfold solveResultPost
  rw [hr]
  exact if_pos (.inr (by rw [hf, hz]; rfl))

variable (hf : r.final = true) (hz : r.frozen = false) (hp : r.posted = false)
include hf hz hp

/-- A solve that FINAL has ended has its result fixed, unless that is done, and is then posted. -/
theorem solveResultPost_ended :
    solveResultPost i tag s = (if r.status.isSome then s else (s.closeSolve i r).auditClosed i tag).postSolve i tag := by
  have hends : ¬(r.posted = true ∨ (!(r.final || r.frozen)) = true) := by simp [hf, hp]
  unfold State.findSolve at hr
  unfold solveResultPost
  rw [hr]
  refine (if_neg hends).trans ?_
  extract_lets u v w
  have hu : u = s := if_neg (by simp [hz])
  have hv : v = u.closeSolve i r := rfl
  clear_value v
  have hw : w = if r.status.isSome then u else v.auditClosed i tag := rfl
  clear_value w
  rw [← hu, ← hv, ← hw]
  rfl

theorem solveResultPost_known (h : r.status.isSome = true) : solveResultPost i tag s = s.postSolve i tag := by
  rw [solveResultPost_ended hr hf hz hp, if_pos h]

theorem solveResultPost_unknown (h : r.status = none) :
    solveResultPost i tag s = ((s.closeSolve i r).auditClosed i tag).postSolve i tag := by
  rw [solveResultPost_ended hr hf hz hp, if_neg (by rw [h]; exact Bool.false_ne_true)]

end

/-! ### A result that is fixed -/

/-- The entries of a batch table that report RANGE, counted on the solver page (R226). -/
def State.countRanges (s : State) (i : Nat) (r : SolveRec) : State :=
  if s.batchRanges r.cmd = 0 then s else (s.solvEvent i r.tag 1 St.rangeViolation).incReg (R.solvViol i) (s.batchRanges r.cmd)

theorem countRanges_insts : (s.countRanges i r).insts = s.insts := by
  unfold State.countRanges
  split
  · rfl
  · exact (State.setReg_insts ..).trans (solvEvent_insts ..)

theorem countRanges_reg {off : Nat} (hs : off ≠ R.solvStat i) (hl : off ≠ R.solvLast i) (hv : off ≠ R.solvViol i) :
    (s.countRanges i r).reg off = s.reg off := by
  unfold State.countRanges
  split
  · rfl
  · exact (State.setReg_reg_ne _ _ _ _ hv).trans (solvEvent_reg_ne _ _ hs hl)

/-- The slots that the sets of an owner returned last, replaced. -/
def State.setWarmSlots (s : State) (i : Nat) (l : List (Nat × Nat × Nat)) : State := s.setInst i { s.inst i with warmSlots := l }

theorem setWarmSlots_findSolve (l : List (Nat × Nat × Nat)) : (s.setWarmSlots i l).findSolve i tag = s.findSolve i tag := by
  rw [State.findSolve, State.setWarmSlots, State.setInst_inst_same]
  rfl

/-- Fixing the result counts violations, gives the record its status, notes the set's slot and writes the result area. -/
theorem closeSolve_eq (s : State) (i : Nat) (r : SolveRec) : ∃ viol st slots area, s.closeSolve i r =
    (((s.countRanges i r).putSolve i { r with viol := viol, status := some st }).setWarmSlots i slots).write r.cmd.resultAddr area :=
  ⟨_, _, _, _, rfl⟩

theorem closeSolve_reg {off : Nat} (hs : off ≠ R.solvStat i) (hl : off ≠ R.solvLast i) (hv : off ≠ R.solvViol i) :
    (s.closeSolve i r).reg off = s.reg off := by
  obtain ⟨viol, st, slots, area, h⟩ := closeSolve_eq s i r
  have hregs : (s.closeSolve i r).regs = (s.countRanges i r).regs := by
    rw [h, State.write_regs, State.setWarmSlots, State.setInst_regs, State.putSolve, State.setInst_regs]
  exact (State.reg_of_regs hregs off).trans (countRanges_reg hs hl hv)

/-- Fixing the result leaves the audit settings. -/
theorem closeSolve_auditSolves (hi : i < 64) : (s.closeSolve i r).auditSolves i = s.auditSolves i := by
  have hsize : (s.closeSolve i r).reg (R.audSize i) = s.reg (R.audSize i) := by
    apply closeSolve_reg <;> simp only [R.audSize, R.solvStat, R.solvLast, R.solvViol] <;> omega
  have hcfg : (s.closeSolve i r).reg (R.audCfg i) = s.reg (R.audCfg i) := by
    apply closeSolve_reg <;> simp only [R.audCfg, R.solvStat, R.solvLast, R.solvViol] <;> omega
  rw [State.auditSolves, State.auditOn, State.fld_of_reg hsize, State.bit_of_reg hcfg, State.auditSolves, State.auditOn]

/-- The record of a solve whose result is fixed has a status, and is otherwise as before but for its violations. -/
theorem closeSolve_record (hr : s.findSolve i tag = some r) :
    ∃ viol st, (s.closeSolve i r).findSolve i tag = some { r with viol := viol, status := some st } := by
  obtain ⟨viol, st, slots, area, h⟩ := closeSolve_eq s i r
  refine ⟨viol, st, ?_⟩
  rw [h, findSolve_of_insts (State.write_insts ..), setWarmSlots_findSolve]
  exact findSolve_putSolve ((findSolve_of_insts countRanges_insts).trans hr) (findSolve_tag (r := r) hr)

/-- A result that needs no audit record is fixed first, and then posted as one already fixed. -/
theorem solveResultPost_closes (hr : s.findSolve i tag = some r) (hf : r.final = true) (hz : r.frozen = false) (hp : r.posted = false)
    (hst : r.status = none) (hi : i < 64) (ha : s.auditSolves i = false) :
    solveResultPost i tag s = solveResultPost i tag (s.closeSolve i r) := by
  obtain ⟨viol, st, hz'⟩ := closeSolve_record hr
  calc solveResultPost i tag s
      = ((s.closeSolve i r).auditClosed i tag).postSolve i tag := solveResultPost_unknown hr hf hz hp hst
    _ = (s.closeSolve i r).postSolve i tag := by rw [auditClosed_none ((closeSolve_auditSolves hi).trans ha)]
    _ = solveResultPost i tag (s.closeSolve i r) := (solveResultPost_known hz' hf hz hp rfl).symm

/-- A solve that FINAL has ended in time, with its status known, is counted and completes with its slips. -/
theorem solveResultPost_completes {st : Nat} (hr : s.findSolve i tag = some r) (hf : r.final = true) (hz : r.frozen = false)
    (hp : r.posted = false) (hst : r.status = some st) (ha : (s.inst i).audits.any (fun j => decide (j.tag = some tag)) = false)
    (hne : st ≠ St.deadlineMiss) :
    let u := (s.putSolve i { r with posted := true }).incReg (R.solvCount i)
    solveResultPost i tag s = (u.completeWith r.cmd st 0 0 ((u.solveLaunch i tag).map (r.held s.beat))).purgeSolves i := by
  rw [solveResultPost_known hr hf hz hp (by rw [hst]; rfl), postSolve_finishes hr ha, finishSolve_inTime hst hne]

/-! ### The clauses together -/

/-- Settles O46, event by event with the lemma of each. -/
theorem deadlineSolves : Obligations.DeadlineSolves := by
  have runs {e : Instr} {s t : State} {f : State → State} (he : exec e s = .next (f s)) (h : f s = t) : exec e s = .next t := h ▸ he
  refine ⟨fun s q c hn => ?_, fun s i => ?_, fun s i tag r hr => ?_⟩
  · refine ⟨fun he => runs rfl (solve_disabled hn he), fun he ho => runs rfl (solve_foreign hn he ho), fun he ho => ?_⟩
    have htakes := solve_takes hn he ho
    refine ⟨fun h => runs rfl (htakes.trans ?_), fun w h => runs rfl (htakes.trans ?_), fun x h hbad => runs rfl (htakes.trans ?_),
      fun x h hx hf => runs rfl (htakes.trans ?_)⟩
    all_goals refine (congrArg (State.takeSolve _ c) h).trans ?_
    · rfl
    · rfl
    · exact takeSolve_malformed hbad
    · exact takeSolve_wellFormed hx hf
  · exact ⟨fun h => runs rfl (solveStart_none h), fun r h => ⟨runs rfl (solveStart_starts h), solveCan_waits (List.find?_some h)⟩⟩
  · intro same
    refine ⟨fun h => runs rfl (solveAnnounce_late hr h),
      fun hs hf hz hd hc hw hh => ⟨_, rfl, solveAnnounce_gives hr hs hf hz hd hc hw hh⟩,
      fun h => runs rfl (solveFreeze_idle hr h),
      fun hf hz hd hb => ⟨_, rfl, State.rb_of_mem (solveFreeze_mem ..), solveFreeze_gives hr hf hz hd hb⟩,
      fun hz hs hrun hle => ⟨_, rfl, solveAbandonTimeout_gives hr hz hs hrun hle⟩,
      fun hf hz => runs rfl (solveResultPost_running hr hf hz),
      fun st _ hf hz hp hst ha hne => runs rfl (solveResultPost_completes hr hf hz hp hst ha hne),
      fun hi hf hz hp hst ha => congrArg Host.Outcome.next (solveResultPost_closes hr hf hz hp hst hi ha)⟩

end Sys2Proof.Machine
end
